-- ==== Sys2Proof/Word.lean ====
section
/-! DEFINITION. The words the CQS-4352 manual treats as bits, and the one keyed table of plain data that every
sparse piece of state is held in (a list of key and value pairs in one canonical form: keys strictly rising, no
entry equal to the value an unlisted key reads as). -/

namespace Sys2Proof

/-- One byte (00 R10, R11). -/
abbrev Byte := BitVec 8

/-- One 32-bit word: a register (17 R494) or one lane of a token (07 R225). -/
abbrev Word := BitVec 32

/-- A byte string, lowest offset first (00 R10). -/
abbrev Bytes := List Byte

/-- A sparse table: `dflt` is what an unlisted key reads as. -/
structure Tab (α : Type) where
  dflt  : α
  cells : List (Nat × α)
  deriving DecidableEq, Repr

/-- A table that lists nothing. -/
def Tab.empty {α : Type} (d : α) : Tab α := ⟨d, []⟩

end Sys2Proof
end

