-- ==== Sys2Proof/Syntax.lean ====
section
/-! DEFINITION. The commands of the block: one constructor of `Instr` per row of spec/opcode_table.json. The table
gives a row no operands; each constructor's operands are what its rule reads from outside the device (a pin, a
received byte string, a sensor reading, the index of the unit concerned, the master or role that writes). -/

namespace Sys2Proof

/-- A sector die SD0 to SD7 (01 R15). -/
abbrev DieIx := Fin 8
/-- A die in the numbering of 17 R494: 0 to 7 a sector die, 8 the keeper die. -/
abbrev AnyDie := Fin 9
/-- An egress port number: 0 to 255 a fibre port, 256 to 287 an electrical port (00 glossary, 11). -/
abbrev PortIx := Fin 288
/-- A fibre port FP0 to FP255. -/
abbrev FibreIx := Fin 256
/-- An electrical port EP0 to EP31. -/
abbrev ElecIx := Fin 32
/-- A logical lane of a fibre port, or a lane or member of an electrical port. -/
abbrev LaneIx := Fin 8
/-- A service class SC0 to SC7. -/
abbrev ClassIx := Fin 8
/-- An Aihorn tile T0 to T7 of a die. -/
abbrev TileIx := Fin 8

/-- The four roles of the Belsyn Object Protocol (16 R466). -/
inductive Role where
  | admin | operator | fabric | observer
  deriving DecidableEq, Repr

/-- What becomes of the steps of a ROLLBACK_ADVANCE (14 R435): how many are blown before a reset cuts the advance off, and the copy
of the next step that reads back wrongly, if one does. -/
structure StepsBlown where
  completed : Nat
  badCopy   : Option (Fin 3)
  deriving DecidableEq, Repr

/-- The hardware trips of 13 R421. -/
inductive TripKind where
  | junction | baseLayer | current
  deriving DecidableEq, Repr

/-- What a ring's lock loop observes at one tick (09 R310). -/
structure RingSight where
  /-- light is present at S2 (modulator), S5 (drop) or the express tap -/
  light     : Bool
  /-- a resonance exceeds the lock threshold -/
  resonance : Bool
  /-- the loop error lies within range -/
  inRange   : Bool
  /-- base-layer temperature of the ring's port slice, 0.1 degrees C (09 R309) -/
  temp      : Int
  deriving DecidableEq, Repr

/-- The rings of the device (09, 10 R336): fibre-port modulator and drop rings, mesh channel rings, express rings. -/
inductive RingId where
  | txPort (p : FibreIx) (slot : Fin 9)
  | rxPort (p : FibreIx) (slot : Fin 9)
  | txMesh (s t : DieIx) (ch : Fin 88)
  | rxMesh (s t : DieIx) (ch : Fin 88)
  | expDrop (p : FibreIx) (slot : Fin 8)
  | expAdd (p : FibreIx) (slot : Fin 8)
  deriving DecidableEq, Repr

/-- The input queues of a die that age, and from which cells leave (03 R82). -/
inductive QueueId where
  | voq (die : DieIx) (port : PortIx) (cls : ClassIx) (sub : Fin 16)
  | mcast (die : DieIx) (cls : ClassIx) (sub : Fin 16)
  | red (die : DieIx) (group : Fin 65536) (cls : ClassIx)
  | transit (die egress : DieIx) (cls : ClassIx)
  | lane (port : PortIx) (lane : LaneIx) (cls : ClassIx)
  deriving DecidableEq, Repr

/-- One lane control block as it is received (09 R302): the bytes of block A, WORD0 and WORD1, and whether its FEC
codeword could be corrected. -/
structure Lcb where
  blockA  : Bytes
  word0   : BitVec 64
  word1   : BitVec 64
  fecGood : Bool
  deriving DecidableEq, Repr

/-- One operation of a REQUEST body (16 R473). -/
structure BopOp where
  opcode : Nat
  index  : Nat
  sub    : Nat
  len    : Nat
  arg    : Nat
  value  : Bytes
  deriving DecidableEq, Repr

/-- A frame as it arrives: its bytes, and the array and word of a table entry that it reads and that has an uncorrectable memory
error (02 R43). -/
structure Arrival where
  bytes : Bytes
  upset : Option (Nat × Nat)
  deriving DecidableEq, Repr

/-- A channel of an engine that fetches a descriptor; where the descriptor emits a frame with LOOKUP, the array and word of a table
entry that the frame reads and that has an uncorrectable memory error (02 R43, 17 R520). -/
structure Fetch where
  channel : Fin 32
  upset : Option (Nat × Nat)
  deriving DecidableEq, Repr

/-- The line powers at S1, averaged over 10 ms (09 R306, R314): of the port's ELS-E module and of its die's ELS-I. -/
structure S1Lines where
  elsE : List Int
  elsI : List Int
  deriving DecidableEq, Repr

/-- The taps at the receiving end of a port: S6 of each lane (09 R314), and E1 and E2 of each bus whose path ends there
(10 R338). -/
structure ReceiveTaps where
  s6    : List Int
  buses : List (Fin 512 × Int × Int)
  deriving DecidableEq, Repr

/-- The events of 16 R493, 17 R527 and 18 R551 as one raise names them. -/
structure EventArgs where
  code     : Nat
  severity : Nat
  unit     : Nat
  args     : Bytes
  deriving DecidableEq, Repr

/-- What a scan of JTAG's test access port asks for (18 R549): FRZ_READ of a space, or IDCODE, BOOT_STATUS or BYPASS. -/
inductive JtagScan where
  | space (n : Fin 4) | idcode | bootStatus | bypass
  deriving DecidableEq, Repr

/-- The commands. Operands named `role` give the BOP role that makes an object write, operands named `master` the
master ID of a register access (17 R499). -/
inductive Instr where
  -- power, reset, clocks (13)
  | powerOn (vsenseMv : Nat) (refA refB : Bool)
  | powerOff (vsenseMv : Nat)
  | vinLow (vsenseMv : Nat)
  | resetAssert
  | resetRelease (bootSel : Fin 4)
  | freezeNAssert
  | hardwareTrip (kind : TripKind) (die : AnyDie) (sensor : Fin 16) (reading : Int)
  | refclkLoss (clockB : Bool)
  | refclkReturn (clockB : Bool)
  | refclkPrefer (role : Role) (value : Nat)
  | snapshotRefresh (die : AnyDie) (tj base : List Int) (vinMv iinMa : Nat)
  -- start-up (14, 15)
  | fuseLoad (sensed : Bool)
  | romBoot
  | fwVerify (flashAnswers : Bool)
  | bootRequest
  | bootData (mp : Fin 2) (host : Nat) (msg : Bytes)
  | bootEnd (mp : Fin 2) (host : Nat) (msg : Bytes) (flashWriteGood : Bool)
  | bootOwnerLapse
  | memTrain (die : DieIx) (failing : List (Fin 24))
  | memTrainTimeout (die : DieIx)
  | libraryLoad
  | opticsCal (answering : BitVec 20)
  | opticsCalEnd
  | meshDeadLinkCheck
  | marginTestEnd
  | serviceEnter (role : Role)
  | serviceMarkReceive (die : DieIx)
  | degradedCauseChange (bit : Fin 8) (holds : Bool)
  -- control ring and die loss (01)
  | dieHeartbeat (die : AnyDie)
  | dieLost (die : DieIx) (fault : Bool)
  | keeperLost
  | keeperWatchdogExpire (core : Fin 5)
  | configCommitMark (die : DieIx) (arrived : Bool)
  -- time (12)
  | alignmentMark
  | tmuIncWrite (master : Fin 16) (value : Word)
  | tmuStepGo (master : Fin 16) (value : Word)
  | timeStep (role : Role) (ns : Word) (frac : BitVec 16) (force : Bool)
  | tmuNowRead (die : AnyDie) (master : Fin 16)
  | htPpsEdge
  | ppsLost
  | clk10Measure (ticks : Nat)
  | clk10Loss
  | ppsTarget (role : Role) (value : Word)
  -- tables (02)
  | ageClockAdvance (die : DieIx)
  | sweeperVisit (die : DieIx) (position : Nat)
  | frameIngress (port : PortIx) (lane : LaneIx) (frame : Arrival)
  | cellRelease (die : DieIx) (frameId : BitVec 24)
  | learnRecordApply (die : DieIx)
  | tblRead (die : DieIx) (set : Fin 4) (table : Fin 16) (index : BitVec 16)
  | tblWrite (die : DieIx) (set : Fin 4) (table : Fin 16) (force : Bool) (index : BitVec 16)
  | tblInsert (die : DieIx) (set : Fin 4) (table : Fin 16) (static : Bool) (index : BitVec 16)
  | tblDelete (die : DieIx) (set : Fin 4) (table : Fin 16) (index : BitVec 16)
  | tblLookup (die : DieIx) (set : Fin 4) (table : Fin 16) (index : BitVec 16)
  | tblReadNext (die : DieIx) (set : Fin 4) (table : Fin 16) (index : BitVec 16)
  | tblBroadcastCommit (set : Fin 4) (cmd : Word) (master : Fin 16) (keeperAlive dieLeft : Bool)
  | emtSeedWrite (die : DieIx) (which : Fin 2) (value : Word)
  | digestRef (role : Role) (table : Fin 7) (die : DieIx) (value : BitVec 64)
  | digestCompare (die : DieIx)
  -- switch core and scheduling (03, 04)
  | laneStatePublish (die : DieIx)
  | shepherdGrant (port : PortIx) (cls : ClassIx)
  | grantReceive (die : DieIx) (port : PortIx) (cls : ClassIx)
  | creditReturn (die : DieIx) (port : PortIx) (cls : ClassIx)
  | schedulerDecision (die : DieIx) (engine : Fin 16)
  | spreaderSendCell (queue : QueueId)
  | transitForward (die egress : DieIx)
  | meshCellReceive (src dst : DieIx) (crcGood : Bool)
  | reasmTimeout (die ingress : DieIx) (frameId : BitVec 24)
  | reseqPass (port : PortIx) (ingress : DieIx) (cls : ClassIx)
  | reseqSkip (port : PortIx) (ingress : DieIx) (cls : ClassIx)
  | laneFrameStart (port : PortIx) (lane : LaneIx)
  | egressUnderrun (port : PortIx) (lane : LaneIx)
  | ageHeadExamine (queue : QueueId)
  | spillReadback (die : DieIx) (port : PortIx) (cls : ClassIx) (sub : Fin 16) (bad : Option (Fin 24 × Fin 17))
  | contextSpill (die : DieIx)
  | contextReadback (die : DieIx) (group : Fin 65536) (inst : BitVec 16) (chunk : Nat)
  | portDrainDrain (role : Role) (port : PortIx)
  | portDrainFlush (role : Role) (port : PortIx)
  | portDrainNone (role : Role) (port : PortIx)
  | drainEmpty (port : PortIx)
  | classFlags (role : Role) (cls : ClassIx) (value : Byte)
  | carveoutGb (role : Role) (die : DieIx) (value : Byte)
  | wheelSlotRelease (die : DieIx)
  | creditWordSend (port : FibreIx) (cls : ClassIx)
  | syncWordSend (port : FibreIx) (lane : LaneIx) (cls : ClassIx)
  | lcbReceive (port : FibreIx) (lane : LaneIx) (block : Lcb)
  | closeApply (port : FibreIx) (lane : LaneIx) (cls : ClassIx)
  | creditWatchExpire (port : FibreIx) (cls : ClassIx)
  | pfcRepeat (port : ElecIx) (cls : ClassIx)
  | pfcFrameReceive (port : ElecIx) (cls : ClassIx) (quanta : BitVec 16)
  | pauseExpire (port : ElecIx) (cls : ClassIx)
  | pauseWatchTrip (port : ElecIx) (cls : ClassIx)
  | pauseRecoverEnd (port : ElecIx) (cls : ClassIx)
  -- collectives (05, 06)
  | groupCreate (role : Role) (record : Bytes)
  | groupCommit (commit : Bool)
  | groupDelete (role : Role) (group : Fin 65536)
  | quarantineEnd (group : Fin 65536)
  | contributionIngress (die : DieIx)
  | contributionHome (die : DieIx)
  | poisonNoticeReceive (die : DieIx)
  | instanceTimeout (die : DieIx) (group : Fin 65536) (inst : BitVec 16)
  | resultSendComplete (die : DieIx) (context : Fin 4096)
  | retentionExpire (die : DieIx)
  | lagClear (role : Role) (value : Byte)
  | residualLockGrant (die : DieIx) (group : Fin 65536) (chunk : Nat)
  -- Aihorn fabric (07)
  | cellFire (die : DieIx) (tile : TileIx) (row : Fin 8) (col : Fin 16)
  | streamIngressDeliver (die : DieIx) (tile : TileIx) (port : Fin 4)
  | decodeToken (die : DieIx) (tile : TileIx) (port : Fin 4)
  | encodeCmd (die : DieIx) (tile : TileIx) (port : Fin 4)
  | cpRead (die : DieIx) (tile : TileIx) (port : Fin 4)
  | cpWrite (die : DieIx) (tile : TileIx) (port : Fin 4)
  | cpAcc (die : DieIx) (tile : TileIx) (port : Fin 4)
  | cpReadf (die : DieIx) (tile : TileIx) (port : Fin 4)
  | streamEgressLast (die : DieIx) (tile : TileIx) (port : Fin 4)
  | walkRequest (die : DieIx) (tile : TileIx) (port : Fin 8)
  | imageFault (die : DieIx) (tile : TileIx) (row : Fin 8) (col : Fin 16) (cause : Nat) (addr : Nat)
  | stallWatch (die : DieIx) (handle : Nat)
  | imageResume (die : DieIx) (handle : Nat)
  | cellRetire (die : DieIx) (tile : TileIx) (row : Fin 8) (position : Fin 17) (fails : Bool)
  | imageStageData (role : Role) (data : Bytes)
  | imageCommit (role : Role) (value : Byte)
  | imageUnload (role : Role) (handle : Byte)
  | imagePlace (role : Role) (handle : Byte) (dies : BitVec 8) (tile : Byte)
  | imageUnplace (role : Role) (handle : Byte) (dies : BitVec 8)
  | imageRestart (role : Role) (handle : Byte)
  | spareSwitch (role : Role) (die tile row position : Byte)
  -- resident parameter service (08)
  | regionCreate (role : Role) (record : Bytes)
  | regionReady (handle : Nat)
  | regionDelete (role : Role) (handle : BitVec 16)
  | regionControlData (role : Role) (handle : Nat) (data : Bytes)
  | updateLockGrant (handle block : Nat)
  | blockCommit (die : DieIx) (context : Fin 4096)
  | mirrorWordReceive (die : DieIx)
  | mirrorCommitReceive (die : DieIx)
  | mirrorAck (die : DieIx)
  | mirrorAuditBlock (handle block : Nat) (primaryReads mirrorReads : Bool)
  | mirrorResolve (role : Role) (handle : BitVec 16) (block : Word) (source : Byte)
  | exportStart (role : Role) (handle : BitVec 16) (first count : Word) (dest : BitVec 16) (cls : Byte)
  | exportBlock (die : DieIx) (badWord : Option Nat)
  | importOpen (role : Role) (handle : BitVec 16)
  | importFrame (body : Bytes)
  | importClose (role : Role) (handle : BitVec 16)
  | takeoverComplete (handle : Nat)
  -- photonic lanes (09)
  | lcbSend (port : FibreIx) (lane : LaneIx)
  | elsPowerTimeout (module : Fin 20)
  | elsPoll (module : Fin 20) (powers : List Int) (faultFlags : Nat)
  | monitorRefresh (port : FibreIx) (s1 : S1Lines) (s2 s3 : List Int) (s4 s5 : Int) (received : ReceiveTaps)
  | ringLoopTick (ring : RingId) (sight : RingSight)
  | ringAcquireDone (ring : RingId) (sight : RingSight)
  | beaconCheckStart (ring : RingId)
  | beaconCheckComplete (ring : RingId) (tones : List Nat) (sight : RingSight)
  | setpointStore (ring : RingId) (temp : Int)
  | ringSeek (role : Role) (port : FibreIx) (receive : Bool) (slot : Fin 9) (start : Nat)
  | laneSignalOk (port : FibreIx) (lane : LaneIx) (goodForNs : Nat)
  | trainLcbSend (port : FibreIx) (lane : LaneIx)
  | markerSend (port : FibreIx) (lane : LaneIx)
  | laneTrainTimeout (port : FibreIx) (lane : LaneIx)
  | laneFaultRetry (port : FibreIx) (lane : LaneIx)
  | lcmResend (port : FibreIx)
  | marginDwell (port : FibreIx) (lane : LaneIx) (berReached : Option Bool)
  | marginEstimate (port : FibreIx) (lane : LaneIx) (correctedBits uncorrectable : Nat)
  | marginReportSend (port : FibreIx) (lane : LaneIx)
  | lineMigration (module : Fin 16) (slot : Fin 8)
  | migrateRepeat (port : FibreIx) (lane : LaneIx)
  | laneMigrate (role : Role) (module : Fin 16) (slot : Byte)
  | laneRestore (role : Role) (module : Fin 16) (slot : Byte)
  | marginRun (role : Role) (port : FibreIx) (lanes : Byte)
  | laneAdmit (role : Role) (port : FibreIx) (lanes : Byte)
  | loopMode (role : Role) (port : FibreIx) (mode : Byte)
  | meshSpareSubstitute (src dst : DieIx) (channel : Fin 80) (abrupt : Bool)
  -- express lightpaths (10)
  | expressSet (role : Role) (q a b : BitVec 16) (actTime : Word)
  | expressDrainCheck (q : Fin 512) (quietNs : Nat)
  | expressGuardCheck (q : Fin 512) (e1 : Int)
  | expressGateOpen (q : Fin 512)
  | expressPowerCheck (q : Fin 512) (e2 : Int)
  | expressClear (role : Role) (q : BitVec 16) (t : Word) (flags : Byte)
  | expressTeardown (q : Fin 512)
  | expressInputLow (q : Fin 512) (e1 : Int) (lowNs : Nat)
  -- electrical and management ports (11)
  | epEnable (role : Role) (port : ElecIx) (value : Byte)
  | epMode (role : Role) (port : ElecIx) (media : Bool) (value : Byte)
  | linkTrainingRequest (port : ElecIx) (lane : Fin 4) (tap : Int) (change : Int) (peerReady : Bool) (snrGainTenths : Nat)
  | memberUp (port : ElecIx) (member : Fin 4) (cleanNs : Nat)
  | memberDown (port : ElecIx) (member : Fin 4)
  | epTrainTimeout (port : ElecIx) (member : Fin 4)
  | epLoop (role : Role) (port : ElecIx) (value : Byte)
  | eqFreeze (role : Role) (port : ElecIx) (value : Byte)
  | modulePresenceChange (port : ElecIx) (present : Bool) (steadyNs : Nat)
  | moduleActivate (port : ElecIx) (application : Option Nat) (lanesActive : Bool)
  | moduleActivateTimeout (port : ElecIx)
  | modulePoll (port : ElecIx) (acknowledged : Bool) (faultState : Option Nat)
  | mpFrameReceive (mp : Fin 2) (bytes : Bytes)
  | mpFailover (mp : Fin 2) (up : Bool)
  | timedFrameEligible (die : DieIx)
  -- keeper and security (14)
  | fuseProgram (role : Role) (field : Nat) (value : Nat) (badCopy : Option (Fin 3))
  | fwStageData (role : Role) (data : Bytes)
  | fwCommit (role : Role) (value : Byte)
  | fwFlashWriteDone (readbackGood : Bool)
  | rollbackAdvance (role : Role) (value : Byte) (steps : StepsBlown)
  | attestRequest (role : Role) (nonce : Bytes)
  | attestReportDone
  | measExtend (role : Role) (index : Byte) (digest : Bytes)
  | logRead (session : Fin 8)
  | agingMode (role : Role) (value : Byte)
  | ringLockMode (role : Role) (value : Byte)
  | migrationMode (role : Role) (value : Byte)
  | marginMode (role : Role) (value : Byte)
  | spareMode (role : Role) (value : Byte)
  | collRecoveryMode (role : Role) (value : Byte)
  | timeServoMode (role : Role) (value : Byte)
  -- Belsyn Object Protocol and Foghorn (16)
  | keyInstall (mp : Fin 2) (source : Nat) (datagram : Bytes)
  | openMsg (mp : Fin 2) (source : Nat) (datagram : Bytes)
  | closeSession (mp : Fin 2) (source : Nat) (datagram : Bytes)
  | sessionIdleExpire (session : Fin 8)
  | sessionClose (role : Role) (session : Byte)
  | requestFragment (mp : Fin 2) (source : Nat) (datagram : Bytes)
  | requestExecute (session : Fin 8)
  | fragmentTimeout (session : Fin 8)
  | domainRequest (mp : Fin 2) (source : Nat) (datagram : Bytes)
  | objectWrite (role : Role) (index : Nat) (sub : Nat) (value : Bytes)
  | keyWrite (role : Role) (sub : Nat) (key : Bytes)
  | domainId (role : Role) (value : BitVec 16)
  | foghornRaise (event : EventArgs)
  | foghornSend (collector : Fin 4)
  | foghornAck (collector : Fin 4) (datagram : Bytes)
  | foghornHeartbeat (collector : Fin 4)
  | collectorStale (collector : Fin 4)
  | collectorAddr (role : Role) (collector : Fin 4) (address : Bytes)
  | regData (role : Role) (session : Fin 8) (write : Option Word)
  | regBurst (role : Role) (session : Fin 8) (count : Nat) (write : Option (List Word))
  -- registers and DMA (17)
  | registerWrite (master : Fin 16) (address : Word) (value : Word)
  | absentUnitAccess (master : Fin 16) (address : Word) (write : Option Word)
  | mbGo (master : Fin 16) (die : AnyDie) (value : Word)
  | bitAliasWrite (master : Fin 16) (die : AnyDie) (word : BitVec 18) (value : Bool)
  | cfgCommit (master : Fin 16) (die : AnyDie)
  | cfgRefWrite (master : Fin 16) (die : AnyDie) (value : Word)
  | cfgRecompute (die : AnyDie) (recomputed : Word)
  | chHeadWrite (master : Fin 16) (engine : AnyDie) (channel : Fin 32) (value : Word)
  | dmaDescriptorFetch (engine : AnyDie) (channel : Fetch)
  | dmaDescriptorComplete (engine : AnyDie) (channel : Fin 32)
  | chEnable (master : Fin 16) (engine : AnyDie) (channel : Fin 32) (value : Word)
  | chAbort (master : Fin 16) (engine : AnyDie) (channel : Fin 32)
  | dmaHalted (engine : AnyDie)
  | resume (viaObject : Option Role) (master : Fin 16) (engine : AnyDie)
  -- reliability, counters and freeze (18)
  | cellSelftest (die : DieIx) (tile : TileIx) (row : Fin 8) (position : Fin 17) (opcode : Nat) (cellDiffers partnerDiffers storeDiffers referenceFails : Bool)
  | crosscheckRetest (die : DieIx) (tile : TileIx) (unitFails : Bool)
  | scrubRead (die : DieIx) (channel : Fin 24) (granule : Nat) (badBytes : Nat)
  | sramScrub (die : DieIx) (correctable uncorrectable : Nat) (array word : Nat)
  | scrubBehind (die : DieIx)
  | memCeHigh (die : DieIx) (channel : Fin 24)
  | memUncorrectable (die : DieIx) (channel : Fin 24) (granule : Nat)
  | freezeNow (role : Role) (value : Byte)
  | freezeOnEvent (bit : Fin 5) (die : AnyDie) (unit : Word)
  | counterFlagsClear (role : Role) (event : BitVec 16) (die : Byte) (instance_ : BitVec 16) (flags : Byte)
  | frzRead (die : AnyDie) (scan : JtagScan) (array : Byte) (address : Word)
  | regAccess (address : Word) (write : Option Word)
  | memoryIslandIdle (die : DieIx)
  -- added rows
  | laneFailsAbruptly (port : FibreIx) (lane : LaneIx)
  | linkTrainingTimeout (port : ElecIx) (lane : Fin 4)
  | snapshotStale (die : AnyDie)
  | tokenLinkCrossing (die : DieIx) (tile : TileIx) (row : Fin 8) (col : Fin 16) (output : Fin 20)
  | retrieverAccessComplete (die : DieIx) (tile : TileIx) (port : Fin 8) (thread : Fin 64)
  | frameAddressedToKeeper (die : DieIx)
  | frameLeavesPort (port : PortIx) (lane : LaneIx)
  deriving DecidableEq, Repr

end Sys2Proof
end

