-- ==== Sys2Proof/Config.lean ====
section
/-! DEFINITION. What the manual leaves to the device or does not state: the free values. Each is an opaque constant
without a body, so that no proof can see a value of it. `freeValue` gives the n-th value drawn; the model's own counter
`State.free` says how many have been drawn. -/

namespace Sys2Proof.Config

/-- The n-th free choice of the model: seeds of the generators of 06 R208, ties that R77 leaves open, victims, delays,
nonces, scan-chain contents, and every other value the manual leaves open after a step that runs (log 10). -/
opaque freeValue : Nat → Nat

/-- The generator of 06 R208: the state after a draw, and the number a state gives. The manual gives its 128 bits of state and
no more. -/
opaque genStep : BitVec 128 → BitVec 128
opaque genWord : BitVec 128 → Nat

/-- SLH-DSA-SHA2-128s verification of FIPS 205 (14 R430, R431, R445): public key, message, signature. -/
opaque slhVerify : Bytes → Bytes → Bytes → Bool

/-- Hedged SLH-DSA-SHA2-128f signature of FIPS 205 (14 R438): identity seed, message, draw number. -/
opaque slhSign : Nat → Bytes → Nat → Bytes

/-- The identity public key that FIPS 205 key generation gives for IDENTITY_SEED (14 R436). -/
opaque identityKey : Nat → Bytes

/-- What a word of the keeper's block 0x01 shows, whose field map is the firmware's (17 R495): the word, IDENTITY_SEED, the
identity key, the measurements, and what was last written there (14 R427; log 37). -/
opaque securityWord : Nat → Nat → Bytes → List Bytes → Word → Word

/-- The boot ROM's bytes' SHA-256 (14 R437). -/
opaque romDigest : Bytes

/-- The library image that the running firmware holds for an operation code, as a container of 07 R253, if any. -/
opaque libraryImage : Word → Nat → Option Bytes

/-- CFG_RUN of a die for the reset configuration (17 R506). -/
opaque cfgRunReset : Nat → BitVec 32

/-- Which of the FP32 values that 07 R235 allows FRCP, FRSQRT, FEXP or FLOG gives: opcode, operand. -/
opaque ulpChoice : Nat → BitVec 32 → Nat

/-- The payload and sign of a NaN that an FP32 operation gives, which IEEE 754 leaves open: opcode, operands. -/
opaque nanBits : Nat → BitVec 32 → BitVec 32 → BitVec 32 → BitVec 32

/-- What the library image of REDUCE_UPDATE_BROADCAST makes of a block's bytes and the gradient: the new bytes, and the
weights it broadcasts (05 R172, 08 R280; the image's program is not in the manual). -/
opaque libraryUpdate : Bytes → List Word → Bytes
opaque libraryWeights : Bytes → List Word → List Word
/-- The element whose state a byte of a block holds for that image: block bytes, elements, byte (08 R280). -/
opaque libraryOwner : Nat → Nat → Nat → Nat

/-- The cause numbers of the image faults of 07 R261 that the table of R236 does not number. -/
opaque faultCause : Nat → Nat

/-- How far below -5 dB the estimate of 09 R326 lies for a ratio above one in ten, in 0.05 dB: errors, bins (log 31). -/
opaque marginBelow : Nat → Nat → Nat

/-- How far a transmitter tap of 11 R368 goes either way, c(-3) first. -/
opaque tapLimit : Nat → Nat

/-- The transmitter taps of presets 1 to 5, c(-3) first (11 R368). -/
opaque presetTap : Nat → Nat → Int

/-- The identification word that IDCODE shifts out (13 R420, 18 R549). -/
opaque idcode : BitVec 32

/-- Contents of a directory array, an SRAM array or a scan chain (18 R549): die, space, array, word. -/
opaque arrayWord : Nat → Nat → Nat → Nat → BitVec 32

end Sys2Proof.Config
end

