-- ==== Sys2Proof/Machine/State.lean ====
section
/-! DEFINITION. The state of the block as plain data: one structure per chapter of the manual, every piece of state
the manual gives the CQS-4352, and the queue of commands that wait. Times are nanoseconds of the 64-bit queue clock
(03 R99) unless a field says otherwise. Sparse per-unit state is a `Tab` keyed by the unit's number; the key of a
unit named by several numbers is built by the key functions of Machine/Ops.lean. -/

namespace Sys2Proof.Machine

/-- Reasons a step stops with a fault. The manual gives the block no condition that ends it (every error it describes
leaves a state in which the device goes on, or is held, and is modelled as that state), so no meaning raises this one;
the constructor names what such a stop would be. Safe: nothing is proved of it. -/
inductive Fault where
  /-- An operand names a unit the device does not have. Raised by no meaning: operand types allow no such number. -/
  | noSuchUnit
  deriving DecidableEq, Repr

/-- Reasons a command is refused without a meaning. -/
inductive Refusal where
  /-- The command has no meaning in the model yet; raised by the arms of Machine/Dispatch.lean alone. Safe. -/
  | notModelled (mnemonic : String)
  deriving DecidableEq, Repr

/-- Device states (15 R447), in the order of their codes. -/
inductive DevState where
  | off | reset | fuseLoad | romBoot | fwVerify | memTrain | opticsCal | marginTest
  | linkUp | service | degraded | frozen | halted
  deriving DecidableEq, Repr

/-! ### Power, pins, clocks and sensors (13) -/

/-- 13 R406 to R425, 17 R511. -/
structure Power where
  /-- VSENSE in mV (R406, R425) -/
  vinMv : Nat
  /-- input current in mA (R425) -/
  iinMa : Nat
  /-- VIN_LOW has been sent for the present fall (R407) -/
  vinLowSent : Bool
  /-- VSENSE left its range under R407 before the present OFF -/
  rangeLeft : Bool
  /-- RESET_N is valid low (R409, R410) -/
  resetLow : Bool
  /-- wall time at which VSENSE crossed the turn-on threshold, ns (R410) -/
  onAt : Nat
  /-- REFCLK_A and REFCLK_B present (R415) -/
  refA : Bool
  refB : Bool
  /-- a clock is selected; REFCLK_B is the one selected (R415) -/
  selected : Bool
  selB : Bool
  /-- loops run on holdover (R415) -/
  holdover : Bool
  /-- BOOT_SEL[1:0] as the pins stood when RESET_N last became valid high (R409, R413) -/
  bootSel : Nat
  /-- BOOT_PINS (R413, R425) -/
  bootPins : Nat
  /-- the freeze latch and its arming (R411) -/
  frozen : Bool
  armed : Bool
  /-- a hardware trip is latched (R421) -/
  trip : Bool
  /-- LAST_RESET_CAUSE (R425) -/
  resetCause : Nat
  /-- junction sensors, key die*16+i, and base-layer sensors, key die*16+slice, 0.1 degrees C: as the sensors read -/
  tj : Tab Int
  base : Tab Int
  /-- crossings already reported: THERM_WARN per die, THERMAL_CRITICAL and the 600 MHz clock per die, BASE_WARN per die, BASE_COLD per die (R422, R454) -/
  warned : BitVec 8
  slowTiles : BitVec 8
  baseHot : BitVec 8
  baseCold : BitVec 8
  /-- snapshot registers of block 0xFC: words by key die*1024+word, and the last refresh per die (17 R511, R512) -/
  snap : Tab Word
  snapAt : Tab Nat
  deriving DecidableEq, Repr

/-! ### Clocks and the time unit (03 R99, 12) -/

/-- 12 R378 to R389; the queue clock of 03 R99. R99 lets the queue clocks of two dies differ by up to 10 ns: one value serves all nine
here, an offset of 0 (DESIGN CHOICE, log 175). -/
structure Time where
  /-- wall time since power was applied to the model, quarter nanoseconds: the MODEL's own free-running clock, by which
  intervals of the always-on domain are measured while the queue clocks stand -/
  wall4 : Nat
  /-- the queue clock in quarter nanoseconds (R99: 1.25 ns a tick) -/
  queue4 : Nat
  /-- the time unit's counter: NS [59:28], FRAC [27:12], 12 bits below (R378) -/
  tmu : BitVec 60
  /-- TMU_INC (R379, R382) -/
  inc : Word
  /-- TMU_NOW_FRAC / TMF_NOW_FRAC latched per die, key 8 the time unit (R380) -/
  fracLatch : Tab Nat
  /-- time followers of SD0 to SD7 (01 R20, R383) -/
  followers : Tab (BitVec 60)
  /-- an accepted increment that waits for the next mark (R382) -/
  pendingInc : Option Word
  /-- TMU_STEP_NS, TMU_STEP_CTL.FRAC and FORCE (R379) -/
  stepNs : Word
  stepFrac : BitVec 16
  stepForce : Bool
  /-- a step that waits for the next mark, in 2^-16 ns (R384): STEP_PENDING is its presence -/
  pendingStep : Option Int
  /-- sum of every step applied since start, in 2^-16 ns: what R391 subtracts and R395 measures by -/
  stepSum : Int
  /-- TMU_STATUS flags (R379) -/
  clk10Lost : Bool
  ppsLost : Bool
  stepForced : Bool
  stepOverrun : Bool
  stepRefused : Bool
  incRefused : Bool
  /-- TMU_PPS_NS, TMU_PPS_INFO (R379, R386) -/
  ppsNs : Word
  ppsFrac : BitVec 16
  ppsSeq : BitVec 16
  /-- an edge has been accepted since start or the last PPS_LOST; ticks since the last accepted edge or since start (R386, R387) -/
  ppsSeen : Bool
  ppsTicks : Nat
  /-- some edge was accepted since start: PPS_STATE reads WAITING until then (R398) -/
  ppsEver : Bool
  /-- CLK10_PPB (R388) -/
  clk10Ppb : Int
  /-- the servo's target, f and adj in sixteenths of a ppb, and last e (R389, R398) -/
  target : Word
  servoF : Int
  servoE : Int
  servoAdj : Int
  deriving DecidableEq, Repr

/-! ### Identity, start-up, keeper (00 R2, 01, 14, 15) -/

/-- One record of the log ring (14 R443). -/
structure LogRec where
  /-- record number (R443) -/
  seq : Nat
  /-- TIME: TMU_NOW_NS at the record (R443) -/
  time : Word
  /-- the keeper core that wrote it (R443) -/
  core : Nat
  /-- its severity (R443) -/
  severity : Nat
  /-- the trace point, or none for a log record (R443, R444) -/
  trace : Nat
  /-- the record's payload (R443) -/
  payload : Bytes
  deriving DecidableEq, Repr

/-- Part, presence and start-up state (00 R2, R3; 15 R447 to R465; 01 R18, R19, R28 to R32). -/
structure Start where
  /-- DEVICE_STATE (R447, R465) -/
  state : DevState
  /-- HALT_CAUSE (R463, R465) -/
  haltCause : Nat
  /-- DEGRADED_CAUSES (R459) -/
  causes : BitVec 8
  /-- the first SERVICE_ENTER was accepted; SERVICE_ENTERED; the mark recorded per die (R457, R458) -/
  serviceAsked : Bool
  serviceEntered : Bool
  serviceMark : BitVec 8
  /-- wall time, ns, of entry to the present start-up state (R449) -/
  enteredAt : Nat
  /-- START_RECORD: TMU_NOW_NS at entry, key state code; dies removed and their causes (R465, 16 R555) -/
  entryTime : Tab Word
  /-- dies removed, and the cause each (R465, 16 R555) -/
  removed : Tab Nat
  /-- presence objects (00 R2) -/
  partCode : Byte
  stepping : Byte
  sectorDies : BitVec 8
  aihornTiles : BitVec 64
  memPackages : BitVec 32
  keeperStatus : Byte
  /-- packages and tiles that the REPAIR fuses mark (14 R427, R459) -/
  repairMem : BitVec 24
  repairTiles : BitVec 64
  /-- sector dies that have finished memory training (R452); the library images are resident (R454) -/
  trained : BitVec 8
  libraryDone : Bool
  /-- wall time at which the library images were resident (R454) -/
  libraryAt : Nat
  /-- dies held in reset under R32 -/
  heldDies : BitVec 8
  /-- last heartbeat heard from each die, key 8 the keeper (01 R19) -/
  heartbeat : Tab Nat
  /-- the keeper die has been declared lost; headless operation; ports held dark under R31 -/
  keeperLost : Bool
  headless : Bool
  darkHold : Bool
  /-- enable latches: ELS-E by module, ELS-I by the die that holds them (01 R18) -/
  elsE : BitVec 16
  elsI : BitVec 8
  deriving DecidableEq, Repr

/-- Fuses, boot, firmware, identity and logs (14). -/
structure Keeper where
  /-- fuse copies, key field*4+copy; fields are numbered in the order of R427 as Machine/Ops.lean names them -/
  fuses : Tab Nat
  /-- voted values, and the minority fields (R426) -/
  voted : Tab Nat
  minority : List Nat
  minoritySent : Bool
  /-- BOOT_STATUS [7:0], boot source, BOOT_SEL and boot progress (R429, R431, R446) -/
  bootCause : Nat
  bootSource : Nat
  /-- running image: FW_VERSION, SVN, key slot, DIGEST (R430, R438) -/
  fwVersion : Word
  fwSvn : Nat
  fwKeySlot : Nat
  /-- the keeper cores run (R431, R440) -/
  coresRun : Bool
  /-- host transfer: owner, next offset expected, time of the owner's last message (R433) -/
  hostOwner : Option Nat
  hostOffset : Nat
  hostLast : Nat
  /-- last BOOT_REQUEST (R432), ns of wall time -/
  requestAt : Option Nat
  /-- FW_STAGE_OFFSET, staged bytes, FW_RESULT (R434) -/
  stageOffset : Nat
  stageLen : Nat
  fwResult : Nat
  /-- FUSE_RESULT (R428) -/
  fuseResult : Nat
  /-- MEAS0 to MEAS7 (R437) -/
  meas : Tab Bytes
  /-- IDENTITY_PUB (R436) -/
  identityPub : Bytes
  /-- the die whose reservation holds the image of the commit that runs (R434) -/
  stageDie : Nat
  /-- the nonce of a report being signed; ATTEST_REPORT (R438) -/
  attestNonce : Option Bytes
  attestReport : Bytes
  /-- log ring, next record number, LOG_PREV, LOG_LOST (R443, R444) -/
  log : List LogRec
  logNext : Nat
  logPrev : List LogRec
  logLost : Nat
  deriving DecidableEq, Repr

/-! ### Forwarding tables (02) -/

/-- An EMT entry (R46, R47). -/
structure EmtEntry where
  /-- KEY, 20 bytes (R46) -/
  key : Bytes
  /-- DATA, 16 bytes (R46) -/
  data : Bytes
  /-- TS, in age units (R46, R59) -/
  ts : BitVec 16
  /-- STATIC (R46) -/
  static : Bool
  /-- LEARNED (R46) -/
  learned : Bool
  /-- OWNER_DIE (R46) -/
  owner : Nat
  /-- insertion order, by which R54 finds the oldest stash entry -/
  serial : Nat
  deriving DecidableEq, Repr

/-- A bundle entry (R38). -/
structure Bundle where
  /-- how many members the bundle has (R38) -/
  count : Nat
  /-- its member ports (R38) -/
  ports : List Nat
  deriving DecidableEq, Repr

/-- A next-hop entry (R36, R553): result word and MAC address. -/
structure NextHop where
  /-- the result word (R36) -/
  result : Word
  /-- the next hop's MAC address (R36) -/
  mac : BitVec 48
  deriving DecidableEq, Repr

/-- One command set (R64). -/
structure CmdSet where
  /-- TBL_CMD (R64) -/
  cmd : Word
  /-- TBL_STATUS.OVERRUN (R64) -/
  overrun : Bool
  /-- TBL_STATUS.REFUSERS (R64) -/
  refusers : BitVec 8
  /-- TBL_STATUS.RESULT (R64, R65) -/
  result : Nat
  /-- TBL_STATUS.LOCATION (R64) -/
  location : Nat
  /-- TBL_STATUS.RELOCATIONS (R64) -/
  relocations : Nat
  /-- TBL_KEY0 to TBL_KEY4 (R64) -/
  key : Tab Word
  /-- TBL_DATA0 to TBL_DATA8 (R64) -/
  data : Tab Word
  /-- TBL_TS (R64) -/
  ts : BitVec 16
  /-- OWNER_DIE of the command (R64) -/
  owner : Nat
  /-- STATIC of the command (R64) -/
  static : Bool
  /-- LEARNED of the command (R64) -/
  learned : Bool
  /-- TBL_STATUS.BUSY is set up to this time of the queue clock (R53, R64) -/
  busyUntil : Nat
  deriving DecidableEq, Repr

/-- A learn record on its way to the other dies (R57). -/
structure LearnRec where
  /-- the die that learned (R57) -/
  owner : Nat
  /-- the record removes the entry (R57) -/
  delete : Bool
  /-- its key (R57) -/
  key : Bytes
  /-- its data (R57) -/
  data : Bytes
  deriving DecidableEq, Repr

/-- The tables of every die. Keys are die-major (Machine/Ops.lean). -/
structure Tables where
  /-- DIT: 65,536 result words per die (R36, R37) -/
  dit : Tab Word
  /-- bundle table, 512 entries per die (R36, R38) -/
  bundle : Tab Bundle
  /-- multicast table: a port set per entry (R36, R39) -/
  mcast : Tab (BitVec 288)
  /-- next-hop table, 32,768 entries per die (R36) -/
  nextHop : Tab NextHop
  /-- next-hop number of each installed prefix, and the units in use per die (R45) -/
  lpm : Tab (Option Nat)
  /-- units of the LPM table in use per die (R45) -/
  lpmUnits : Tab Nat
  /-- EMT: two banks of 262,144 buckets of 4 and the stash of 64, per die (R46 to R49) -/
  emt : Tab (Option EmtEntry)
  /-- next insertion number: the model's own counter of the order in R54 -/
  emtSerial : Nat
  /-- EMT_SEED0 per die (R51) -/
  seed0 : Tab Word
  /-- EMT_SEED1 per die (R51) -/
  seed1 : Tab Word
  /-- EMT_SEED_STATUS per die (R51) -/
  seedStatus : Tab Nat
  /-- the four command sets of each die (R64) -/
  sets : Tab CmdSet
  /-- AGE_NOW per die (R59) -/
  ageNow : Tab (BitVec 16)
  /-- bits [31:24] of the follower when AGE_NOW last advanced (R59) -/
  ageMark : Tab Nat
  /-- pending expiry notices per die: key and TS; entries posted already are those in the list (R62) -/
  notices : Tab (List (Bytes × BitVec 16))
  /-- an entry's expiry notice has been posted (R62) -/
  posted : Tab Bool
  /-- change of each table's digest since the empty table, modulo 2^64 (R68); committed references; mismatch shown (R69) -/
  digest : Tab (BitVec 64)
  /-- committed reference digests (R69) -/
  reference : Tab (Option (BitVec 64))
  /-- the digest mismatch of R69 is shown -/
  mismatch : Tab Bool
  /-- when the digests of a die were last compared (R69) -/
  digestAt : Tab Nat
  /-- drain probes: frames admitted per index, and when the count last fell to zero (R70); DRN_INDEX (R71) -/
  drain : Tab Nat
  drainZero : Tab (Option Nat)
  drnIndex : Tab (BitVec 16)
  /-- learning writes in the present second, and its start (R56) -/
  learnCount : Tab Nat
  learnSecond : Tab Nat
  /-- routed lookups in the present second per die (R42) -/
  lookups : Tab Nat
  lookupSecond : Tab Nat
  /-- learn records not yet applied, per receiving die, oldest first (R57) -/
  learnRecs : Tab (List LearnRec)
  deriving DecidableEq, Repr

/-! ### Switch core (03) -/

/-- A cell: the header of R79, its bytes, and what the manual lets travel beside it. -/
structure Cell where
  /-- DEST_TYPE (R79) -/
  destType : Nat
  /-- DEST (R79) -/
  dest : Nat
  /-- the egress lane, by which a multicast or bundle copy is steered (R79) -/
  lane : Nat
  /-- CLASS (R79) -/
  cls : Nat
  /-- SUBSCRIBER (R79) -/
  sub : Nat
  /-- INGRESS_DIE (R79) -/
  ingressDie : Nat
  /-- FRAME_ID (R79, R81) -/
  frameId : Nat
  /-- CELL_INDEX (R79) -/
  index : Nat
  /-- LAST (R79) -/
  last : Bool
  /-- BAD (R79) -/
  bad : Bool
  /-- ORDER_SEQ (R79, R92) -/
  orderSeq : Nat
  /-- LEN_M1 (R79) -/
  lenM1 : Nat
  /-- INGRESS_TIME (R79) -/
  ingressTime : Nat
  /-- the bytes of the cell (R79) -/
  data : Bytes
  /-- ingress port, cut-through, routed (R41, R97), ingress stamp and steps up to it (12 R391) -/
  port : Nat
  cut : Bool
  routed : Bool
  stamp : Option Nat
  stepSum : Int
  /-- copies of a result, port*65536 + destination fabric index each (05 R164); empty for other cells -/
  dests : List Nat
  /-- the drain-probe index the frame was admitted under, if any (02 R70) -/
  drainIndex : Option Nat
  /-- total cells and bytes of the frame -/
  cells : Nat
  frameLen : Nat
  /-- what the cell is charged to at its ingress die: 0 nothing, 1 the shared pool, 2 its port's reserve, 3 spill memory (R85, R106) -/
  pool : Nat
  /-- the group of a contribution (R112) -/
  group : Nat
  /-- on the mesh: the second stage, from the intermediate to the egress die (R87) -/
  stage2 : Bool
  /-- the descriptor that emitted the frame, (engine*32+channel, ring index), if any (17 R520) -/
  emit : Option (Nat × Nat)
  /-- CLASS_FLAGS as the frame was admitted under (R117) -/
  flags : Nat
  /-- the frame passed its checks, so its units count as freed when they leave (04 R129, R131) -/
  good : Bool
  deriving DecidableEq, Repr

/-- A frame at its egress die: in reassembly, in a resequencer or in a lane queue (R91 to R98). -/
structure EFrame where
  /-- the header of the frame's first cell (R79, R91) -/
  head : Cell
  /-- cells received, by index -/
  got : List Cell
  /-- arrival of the first cell (R91) -/
  openedAt : Nat
  /-- a copy (multicast or result), which is stored whole and holds no credit (R98, R102) -/
  copy : Bool
  /-- a result of a collective (05 R164) -/
  result : Bool
  /-- launch time of a timed frame (12 R393, R395) -/
  launch : Option Word
  /-- the forward step that made it eligible, in 2^-16 ns: its lateness is measured without it (12 R395) -/
  skip : Int
  deriving DecidableEq, Repr

/-- A frame that an ingress slice has admitted and is releasing cut-through (R95). -/
structure IFrame where
  /-- the frame's cells (R95) -/
  cells : List Cell
  /-- the queue the cells go to (R82) -/
  queue : Nat
  /-- the frame fails its FCS check, which is counted when its last cell is released (R95) -/
  fcsBad : Bool
  deriving DecidableEq, Repr

/-- A resequencer stream (R93). -/
structure Reseq where
  /-- E: the next ORDER_SEQ to release (R93) -/
  expect : Nat
  /-- frames that wait for their turn (R93) -/
  held : List EFrame
  /-- when the wait for E began (R93) -/
  timer : Option Nat
  deriving DecidableEq, Repr

/-- A frame being sent on a lane or member (R98). -/
structure Sending where
  /-- the frame on the port (R95, R102) -/
  frame : EFrame
  /-- its FCS will be stomped (R95) -/
  stomp : Bool
  deriving DecidableEq, Repr

/-- A block of spilled cells in a die's carve-out: 4,352 bytes, 16 places of a header and 256 bytes (R107). -/
structure SpillBlock where
  /-- number of the block in the carve-out (R107) -/
  place : Nat
  /-- the places written so far; none where the cell has been discarded (R86, R107) -/
  slots : List (Option Cell)
  deriving DecidableEq, Repr

structure Switch where
  /-- virtual output queues, per (die, port, class, subscriber) (R82) -/
  voq : Tab (List Cell)
  /-- multicast queues, per (die, class, subscriber) (R82) -/
  mcq : Tab (List Cell)
  /-- reduction lists, per (die, group, class, home) (R82) -/
  red : Tab (List Cell)
  /-- transit queues, per (die, egress die, class) (R82) -/
  transit : Tab (List Cell)
  /-- lane queues, per (lane, class) (R82) -/
  laneq : Tab (List EFrame)
  /-- frames released by the scheduler to the spreader, in order, per queue code (R122, R87) -/
  released : Tab (List Nat)
  /-- ORDER_SEQ assigned to a frame on its way, plus 1, key die*2^24 + frame (R92) -/
  frameOrder : Tab Nat
  /-- the cell counter n of each queue (R87) -/
  rotation : Tab Nat
  /-- the frame an ingress slice is taking in (R95) -/
  ingress : Tab (Option IFrame)
  /-- FRAME_ID counter per die (R81) -/
  frameId : Tab Nat
  /-- admission pool: shared bytes in use per die, reserve bytes in use per (port, class) (R84, R85) -/
  shared : Tab Nat
  /-- bytes of the lossless reserve in use per (port, class) (R85) -/
  reserve : Tab Nat
  /-- the VOQ spills (R106 to R108) -/
  spilling : Tab Bool
  /-- the spill segment of a VOQ: its blocks in memory, oldest first (R106, R107) -/
  spill : Tab (List SpillBlock)
  /-- bytes of the carve-out in use per die: 4,352 a block (R106, R107, R109) -/
  spillBytes : Tab Nat
  /-- cells on a mesh link, key (src, dst) (R80) -/
  mesh : Tab (List Cell)
  /-- bytes of a die's egress side in use: reassembly, replication and reduction inputs (R88, R91) -/
  egressBytes : Tab Nat
  /-- reassembly contexts, per (die, ingress die, FRAME_ID) (R91) -/
  reasm : Tab (Option EFrame)
  /-- next ORDER_SEQ per (ingress die, egress port, class) (R92) -/
  orderNext : Tab Nat
  /-- resequencer streams, per (ingress die, egress port, class) (R93) -/
  reseq : Tab Reseq
  /-- published lane occupancy, units assigned since by (die, lane), published request bits (R74, 04 R119) -/
  occ : Tab Nat
  /-- units assigned to a lane by a die since the publication (R74) -/
  assigned : Tab Nat
  /-- published request bits (04 R119) -/
  requests : Tab Bool
  /-- spray set per port, as a lane bitmap (R75) -/
  spray : Tab Nat
  /-- the spray bits as last published (R74) -/
  sprayPub : Tab Nat
  /-- what each lane or port sends (R95, R102) -/
  sending : Tab (Option Sending)
  /-- DRAIN_STATE per port (R115) -/
  drainState : Tab Nat
  /-- frames handed to the keeper over a die's keeper link (01 R17) -/
  keeperIn : Tab (List (Nat × Bytes))
  /-- copies of results that wait for room at their port, per (port, class) (R105) -/
  heldResults : Tab (List EFrame)
  /-- bytes of the shared pool that lossless frames of a (port, class) hold (R85, 04 R129) -/
  sharedUse : Tab Nat
  /-- contexts spilled to memory, key context code (R111) -/
  ctxSpilled : Tab Bool
  /-- the context spill areas: accumulators hi and lo of each context written out (R111) -/
  ctxArea : Tab (Tab Word × Tab Word)
  deriving DecidableEq, Repr

/-! ### Scheduling and flow control (04) -/

structure Flow where
  /-- credit balances (die, port, class), and since when above zero with nothing waiting (R120) -/
  balance : Tab Int
  idleSince : Tab (Option Nat)
  /-- grants on their way to an ingress die (R119, R121) -/
  grants : Tab Nat
  /-- granted cells less settled ones: (port, class, die); negative where frames overdrew their grants (R118, R120) -/
  unsettled : Tab Int
  /-- round-robin positions: shepherd (port, class) last die, engine last port; reduction lists per (die, home, class), and the
  homes per (die, class) from 512 on (R119, R122, R112) -/
  grantTurn : Tab Nat
  engineTurn : Tab Nat
  redTurn : Tab Nat
  /-- virtual time v per level, tag f per entry, eligible at the level's previous decision (R123) -/
  vtime : Tab (BitVec 32)
  tag : Tab (BitVec 32)
  eligible : Tab Bool
  /-- shaper next eligible times in 1/16 ns, key shaper code (R125); wheel slot of each shaper on the wheel (R126) -/
  nextAt : Tab Int
  wheel : Tab (Option Nat)
  /-- fibre credit: LIMIT held, a word received since restart, CONSUMED, FREED, last advertised (R129, R130) -/
  limit : Tab (BitVec 32)
  gotLimit : Tab Bool
  consumed : Tab (BitVec 32)
  freed : Tab (BitVec 32)
  advertised : Tab (BitVec 32)
  /-- per (port, lane, class) SENT and RCVD (R131); a CLOSE that waits: final SENT and arrival (R132) -/
  sent : Tab (BitVec 32)
  rcvd : Tab (BitVec 32)
  closing : Tab (Option (BitVec 32 × Nat))
  /-- a CLOSE has been applied and the lane has not rejoined: its data is discarded (R132) -/
  closed : Tab Bool
  /-- lossless set applied at the port's last restart of counts (R140) -/
  lossless : Tab Nat
  /-- last send of a CREDIT and SYNC word (R131) -/
  creditAt : Tab Nat
  syncAt : Tab Nat
  /-- CREDIT_WATCH: last growth and first wait; the present wait has been reported (R134) -/
  grewAt : Tab Nat
  waitingAt : Tab (Option Nat)
  starvedSent : Tab Bool
  /-- received pause: end, start of the continuous pause, start of the unpaused interval (R136, R137); ignoring until (R138) -/
  pauseEnd : Tab (Option Nat)
  pauseStart : Tab (Option Nat)
  unpausedAt : Tab Nat
  ignoreUntil : Tab (Option Nat)
  /-- the device's own pause: sent and when last; the free part lay below PFC_HEADROOM when it was last examined (R135) -/
  xoff : Tab (Option Nat)
  pfcLow : Tab Bool
  /-- WATCH_TRIPPED per port (R139) -/
  tripped : Tab (BitVec 8)
  deriving DecidableEq, Repr

/-! ### Collectives (05, 06) -/

/-- A moored group as a die holds it (R141, R145, R158). -/
structure Group where
  /-- the 64-byte mooring record (R141) -/
  record : Bytes
  /-- SIG_EXPECT (R158) -/
  sig : Word
  /-- destinations and dies of the group as moored (R141, R145) -/
  dies : List Nat
  /-- image handle bound, 0 for none (R148) -/
  image : Nat
  deriving DecidableEq, Repr

/-- A slot (R160, R161, R165), with its instance's budget (06 R213) and end code (R166, R167). -/
structure Slot where
  /-- the instance that holds the slot (R160) -/
  inst : BitVec 16
  /-- OPEN, else ENDED (R160) -/
  isOpen : Bool
  /-- when the instance opened (R160, R165) -/
  openedAt : Nat
  /-- the result code it ended with, where it ended early (R166, R167) -/
  endCode : Nat
  /-- chunks that completed before the end -/
  done : List Nat
  /-- chunks of the instance that have ended here -/
  ended : List Nat
  /-- escapes the instance has spent (06 R213) -/
  escapes : Nat
  /-- the instance is degraded (06 R213) -/
  degraded : Bool
  /-- instances poisoned by a notice before they opened here (R166) -/
  noted : List Nat
  deriving DecidableEq, Repr

/-- A retained result (R168). -/
structure Retained where
  /-- group of a retained result (R168) -/
  group : Nat
  /-- its generation (R168, R185) -/
  generation : Nat
  /-- its instance (R168) -/
  inst : BitVec 16
  /-- its chunk (R168) -/
  chunk : Nat
  /-- when it was retained (R168) -/
  time : Nat
  /-- contributors that take part in it (R168, R169) -/
  members : List Nat
  /-- its result frames (R164, R168) -/
  parts : List Bytes
  /-- where they went (R164) -/
  dests : List Nat
  deriving DecidableEq, Repr

/-- Context states (R161). -/
inductive CtxState where
  | free | collecting | computing | sending
  deriving DecidableEq, Repr

/-- A reduction context, or for BARRIER the context half of its slot record (R147, R161, R163). -/
structure Ctx where
  /-- FREE, COLLECTING, COMPUTING or SENDING (R161) -/
  state : CtxState
  /-- the group that reserves the context, plus 1; 0 unreserved (R146) -/
  group : Nat
  /-- the instance it serves (R161) -/
  inst : BitVec 16
  /-- the chunk it serves (R161) -/
  chunk : Nat
  /-- contributors that have arrived: the bitmap (R161, R163) -/
  arrived : List Nat
  /-- when the first contribution arrived (R161, R189) -/
  firstTime : Nat
  /-- when the last contribution arrived (R161, R189) -/
  lastTime : Nat
  /-- arrival per contributor (R189) -/
  times : List (Nat × Nat)
  /-- the contributor that completed it (R189) -/
  lastContributor : Nat
  /-- accumulators hi, lo by element (06 R201), and the shadow of a sampled context (18 R537) -/
  hi : Tab Word
  /-- accumulators, low words (06 R201) -/
  lo : Tab Word
  /-- the context is cross-checked (18 R537) -/
  sampled : Bool
  /-- the shadow accumulators (18 R537) -/
  shadow : Tab Word
  /-- poisoned blocks and their contributors (06 R202, R203) -/
  poison : List Nat
  /-- the contributors of the poisoned blocks (06 R203) -/
  poisoners : List Nat
  /-- blocks that took the escape (06 R211, R213) -/
  escaped : List Nat
  /-- blocks whose scale jumped (06 R214, R215) -/
  jumped : List Nat
  /-- items beyond CAPACITY (R173) -/
  overflow : Nat
  /-- items and rows a set or row operation holds in order of first arrival (R173, R177); contributions of a row
  operation that the image has taken and not yet answered -/
  items : List (Nat × Bytes)
  /-- the contribution accepted last must still be delivered to the image; its payloads wait in staging (07 R239) -/
  staged : List (Nat × Bytes)
  /-- a delivery to the image ends with its last word (07 R239) -/
  doneDue : Bool
  /-- the result on its way: as it will be retained, and the frames whose cells are leaving (R161) -/
  sent : Option Retained
  /-- frames of the result whose cells are leaving (R161) -/
  sentIds : List Nat
  /-- open retriever threads, words the image has written of the bound block and the exclusive OR of their CRCs, and a
  commit that is due (08 R281, R282) -/
  threads : Nat
  /-- words the image has written of the bound block (08 R281) -/
  wroteWords : Nat
  /-- exclusive OR of the CRCs of those words (08 R282) -/
  wroteCrc : Word
  /-- the commit of the bound block is due (08 R281) -/
  commitDue : Bool
  /-- the image has read a SUSPECT block (08 R290) -/
  readSuspect : Bool
  /-- order of entry to COMPUTING, for the locks of R218 and 08 R279 -/
  enteredAt : Nat
  /-- history bytes of the blocks encoded, by key, which a computed result writes (06 R215) -/
  newHistory : List (Nat × Byte)
  /-- residuals of the blocks encoded, by address, which a computed result writes (06 R217, R218) -/
  newResid : List (Nat × Bytes)
  /-- saturated elements of the encodings made, counted once they are sent (06 R209) -/
  saturated : Nat
  /-- when the image was last given a contribution (07 R260) -/
  lastContribution : Nat
  deriving DecidableEq, Repr

/-- Arrival lag of one contributor (R189). -/
structure Lag where
  /-- samples (R189) -/
  samples : Nat
  /-- sum of the lags (R189) -/
  sum : Nat
  /-- the largest lag (R189) -/
  largest : Nat
  /-- times it was last (R189) -/
  lastCount : Nat
  deriving DecidableEq, Repr

/-- A contribution inside the device (R170, R160). -/
structure Contribution where
  /-- the frame (R151, R154) -/
  bytes : Bytes
  /-- its arrival (R163) -/
  time : Nat
  /-- the fabric index it came from (R154) -/
  source : Nat
  /-- the port it came in by (R154) -/
  port : Nat
  deriving DecidableEq, Repr

structure Coll where
  /-- groups per die, key die*65536+id; key 8 the keeper's own list (R144) -/
  groups : Tab (Option Group)
  /-- records prepared on the dies and awaiting their commit mark (R144) -/
  prepared : List (Nat × Group)
  /-- dies on which a prepared record has taken effect or was discarded already: (group, die) (01 R30) -/
  marked : List (Nat × Nat)
  /-- quarantine: delete time per ID; generation of the last deleted group (R184, R185) -/
  quarantine : Tab (Option Nat)
  /-- generation of the last deleted group of an ID (R185) -/
  lastGen : Tab (Option Byte)
  /-- slot records, per (die, group, slot) (R160) -/
  slots : Tab Slot
  /-- contexts, per (die, number) (R161) -/
  ctx : Tab Ctx
  /-- CONTEXTS_FREE per die (R146, R190) -/
  ctxFree : Tab Nat
  /-- SLOTS_FREE per die (R146, R190) -/
  slotsFree : Tab Nat
  /-- contributions that wait at their ingress die (R112) -/
  atIngress : Tab (List Contribution)
  /-- contributions that have reached the home die's staging (R112) -/
  atHome : Tab (List Contribution)
  /-- contexts with a contribution to deliver to the image, in order of acceptance, per die (07 R239) -/
  deliver : Tab (List Nat)
  /-- staging in use per (die, group) (R112) -/
  staging : Tab Nat
  /-- poison notices on their way to a die: group, code and instance (R166) -/
  poisonNotices : Tab (List (Nat × Byte × BitVec 16))
  /-- the retention store of a die, oldest first (R168) -/
  retained : Tab (List Retained)
  /-- error replies in the present second per die (R171) -/
  replies : Tab Nat
  /-- the second they are counted in (R171) -/
  replySecond : Tab Nat
  /-- lag records, per (group, contributor) (R189) -/
  lags : Tab Lag
  /-- scale history bytes (06 R214), key (die, group, chunk, block) -/
  history : Tab Byte
  /-- the history byte has been written (06 R214) -/
  historyUsed : Tab Nat
  /-- residual lock: holder context and waiting contexts, key (die, group, chunk) (06 R218) -/
  residHolder : Tab (Option Nat)
  /-- contexts that wait for the residual lock, in order of entry (06 R218) -/
  residWait : Tab (List Nat)
  deriving DecidableEq, Repr

/-! ### Aihorn fabric (07) -/

/-- A token (R225). -/
structure Token where
  /-- the token's words (R225) -/
  data : List Word
  /-- its tag (R225) -/
  tag : BitVec 16
  /-- its kind (R225) -/
  kind : Nat
  deriving DecidableEq, Repr

/-- An operator cell's registers (R230 and the text before it). -/
structure CellRegs where
  /-- V0 to V15 (R222) -/
  v : Tab Word
  /-- P0 to P3 (R222) -/
  p : Tab (BitVec 16)
  /-- TAG (R222) -/
  tag : BitVec 16
  /-- the cell's program has bad parity (R236, 18 R535) -/
  parityBad : Bool
  deriving DecidableEq, Repr

/-- A decode unit's setting for a tag (R240). -/
structure DuSet where
  /-- the element format for a tag (R240) -/
  format : Nat
  /-- elements of the frame (R240) -/
  count : Nat
  /-- the contributor served (R240) -/
  contributor : Nat
  /-- the block under way (R240) -/
  block : Nat
  /-- elements emitted (R240) -/
  emitted : Nat
  /-- bytes not yet made into elements (R240) -/
  left : Bytes
  /-- bytes pass through unconverted (R240) -/
  passing : Bool
  /-- elements that wait to fill a token of 16 (R240) -/
  half : List Word
  deriving DecidableEq, Repr

/-- An edge unit at work (R240 to R245): the command or HEAD it serves, half a block of elements, blocks or words served,
bytes passed, bytes held, and tokens that wait to leave. -/
structure UnitWork where
  /-- a command or HEAD is being served (R240 to R244) -/
  busy : Bool
  /-- that command or HEAD (R240 to R244) -/
  cmd : Token
  /-- the chunk of the stream has ended: what follows of it is discarded (R241; 06 R219) -/
  dead : Bool
  /-- half a block of elements (R241) -/
  half : List Word
  /-- blocks or words served (R240 to R244) -/
  blocks : Nat
  /-- bytes passed (R240 to R244) -/
  bytes : Nat
  /-- bytes held (R240 to R244) -/
  left : Bytes
  /-- tokens that wait to leave (R240 to R244) -/
  queue : List Token
  deriving DecidableEq, Repr

/-- A retriever thread (R245 to R250). -/
structure Thread where
  /-- the thread runs (R245) -/
  active : Bool
  /-- A0 to A3 (R245, R247) -/
  a : Tab Nat
  /-- S (R245, R247) -/
  s : Nat
  /-- N (R245, R247) -/
  n : Nat
  /-- the walk program it runs (R245, R247) -/
  program : Nat
  /-- its place in the program (R247) -/
  pc : Nat
  /-- the context whose regions it may access (R245, R249) -/
  ctx : Nat
  /-- the tag of its request (R245) -/
  tag : BitVec 16
  /-- words still to read for the instruction under way: addresses and counts (R246, R247) -/
  todo : List (Nat × Nat)
  /-- data tokens that wait for it (R245, R249) -/
  data : List Token
  /-- responses that wait for their order (R246) -/
  emitted : List Token
  /-- 32-bit words it has emitted (R246) -/
  count : Nat
  /-- the status it ended with (R246, R249) -/
  status : Option Nat
  /-- its order among the threads of its port (R246) -/
  order : Nat
  deriving DecidableEq, Repr

/-- A resident image: the container as committed (R253 to R257), by its parsed sections. -/
structure Image where
  /-- the container's header (R253) -/
  header : Bytes
  /-- its digest (R253) -/
  digest : Bytes
  /-- tiles it needs (R253, R258) -/
  tiles : Nat
  /-- (operation, type) pairs it declares (R253) -/
  pairs : Nat
  /-- operations it serves (R253) -/
  opMask : Nat
  /-- input formats (R253) -/
  inMask : Nat
  /-- output formats (R253) -/
  outMask : Nat
  /-- its capabilities (R253) -/
  caps : Nat
  /-- scratch it needs (R253, R239) -/
  scratchMb : Nat
  /-- the whole container (R254 to R257) -/
  bytes : Bytes
  /-- the library image it is, if any (R257, R266) -/
  library : Option Nat
  deriving DecidableEq, Repr

/-- One fault of an image (R261). -/
structure ImageFaultRec where
  /-- where the fault was (R261, R266) -/
  die : Nat
  /-- the tile (R261, R266) -/
  tile : Nat
  /-- the row (R261, R266) -/
  row : Nat
  /-- the column (R261, R266) -/
  col : Nat
  /-- the cause (R261) -/
  cause : Nat
  /-- the program address (R266) -/
  addr : Nat
  /-- the code of a FAULT instruction (R236) -/
  code : Nat
  deriving DecidableEq, Repr

structure Fabric where
  /-- registers of every cell (R222) -/
  cells : Tab CellRegs
  /-- link buffers of at most 4 tokens: switchbox outputs and cell outputs, key (die, tile, row, col, k) (R229) -/
  links : Tab (List Token)
  /-- edge unit input buffers, key (die, tile, unit) -/
  edgeIn : Tab (List Token)
  /-- edge unit output buffers (R229) -/
  edgeOut : Tab (List Token)
  /-- decoder units' settings by tag (R240) -/
  du : Tab DuSet
  /-- edge units at work (R240 to R244) -/
  work : Tab UnitWork
  /-- retriever threads (R245, R246) -/
  threads : Tab Thread
  /-- order numbers of threads: the model's own counter for the order of R246 -/
  threadSerial : Nat
  /-- resident images by handle 1 to 64 (R257) -/
  images : Tab (Option Image)
  /-- LIBRARY_MAP (R257) -/
  library : Tab Nat
  /-- first tile of a placement plus 1, key die*256+handle, 0 not placed; FAILED; stopped by a fault (R258, R261, R262) -/
  placed : Tab Nat
  /-- the placement is FAILED (R262) -/
  failed : Tab Bool
  /-- the image is stopped on a die by a fault (R261) -/
  stopped : Tab Bool
  /-- scratch area base per (die, handle) (R239) -/
  scratch : Tab Nat
  /-- times of an image's faults (R262) -/
  faultTimes : Tab (List Nat)
  /-- FAULT_RECORD, newest first, at most 16 (R266) -/
  faultRec : Tab (List ImageFaultRec)
  /-- last progress of an image on a die (R260) -/
  progressAt : Tab Nat
  /-- IMAGE_STAGE_OFFSET (R266) -/
  stageOffset : Nat
  /-- bytes staged (R266) -/
  stageLen : Nat
  /-- COMMIT_RESULT (R259, R266) -/
  commitResult : Nat
  /-- PLACE_RESULT (R266) -/
  placeResult : Nat
  /-- physical position retired per (die, tile, row) plus 1 (R263); spare unusable (18 R536) -/
  retired : Tab Nat
  /-- the row's spare is unusable (18 R536) -/
  spareBad : Tab Bool
  /-- retirements that wait for SPARE_SWITCH (R264) -/
  spareNeeded : List (Nat × Nat × Nat × Nat)
  /-- retirements for which deliveries are held: die, tile, row, position, and when the 100 us end (R264) -/
  retiring : List (Nat × Nat × Nat × Nat × Nat)
  deriving DecidableEq, Repr

/-! ### Resident parameter service (08) -/

/-- Region states (R298). -/
inductive RegionState where
  | initialising | ready | importing | takeover | unprotected | broken
  deriving DecidableEq, Repr

/-- A region (R268). -/
structure Region where
  /-- KIND (R268) -/
  kind : Nat
  /-- MIRRORED (R268) -/
  mirrored : Bool
  /-- dies the region spans (R268) -/
  dieMask : BitVec 8
  /-- BLOCK_BYTES (R268) -/
  blockBytes : Nat
  /-- number of blocks (R268) -/
  blocks : Nat
  /-- ROW_BYTES (R268) -/
  rowBytes : Nat
  /-- the region's state (R269, R273, R294, R296) -/
  state : RegionState
  /-- part offsets per die, primary key d, mirror key 8+d; plus 1, 0 where the part is absent (R271) -/
  parts : Tab Nat
  /-- size of each part (R270, R271) -/
  sizes : Tab Nat
  /-- dies lost under R296, and the last of them -/
  lost : BitVec 8
  /-- the last die lost (R296) -/
  lastLost : Nat
  /-- lost dies whose blocks the takeover under way checks (R296) -/
  unchecked : BitVec 8
  deriving DecidableEq, Repr

/-- Metadata of one copy of a block (R281). -/
structure Meta where
  /-- SEQ (R281) -/
  seq : Nat
  /-- BLOCK_CRC (R281) -/
  crc : Word
  /-- STATE: SUSPECT (R281, R287) -/
  suspect : Bool
  /-- CAUSE (R281, R287) -/
  cause : Nat
  deriving DecidableEq, Repr

/-- What a mirror die has received of an update (R282). -/
structure MirrorIn where
  /-- SEQ of the update being received (R282) -/
  seq : Nat
  /-- exclusive OR of the word CRCs received (R282) -/
  crc : Word
  /-- words received (R282) -/
  words : Nat
  deriving DecidableEq, Repr

/-- A message of the mirror protocol on its way over the mesh (R282). -/
inductive MirrorMsg where
  | word (handle block word seq : Nat) (data : Bytes)
  | commit (handle block seq : Nat) (crc : Word) (words : Nat)
  | ack (handle block : Nat) (good : Bool)
  deriving DecidableEq, Repr

structure Resident where
  /-- regions by handle 1 to 4,096 (R267, R268) -/
  regions : Tab (Option Region)
  /-- REGION_RESULT (R269) -/
  regionResult : Nat
  /-- the state of a SINGLE region's blocks, which have no metadata entry (R294), key (handle, block) -/
  metas : Tab Meta
  /-- update lock holder and waiting contexts (die*4096+context) per (handle, block) (R279) -/
  lockHolder : Tab (Option Nat)
  /-- contexts that wait for an update lock (R279) -/
  lockWait : Tab (List Nat)
  /-- a primary awaits the acknowledgement of its mirror (R282) -/
  unacked : Tab Bool
  /-- what each mirror die is receiving (R282) -/
  mirrorIn : Tab MirrorIn
  /-- messages on their way to a mirror die (R282) -/
  toMirror : Tab (List MirrorMsg)
  /-- the export that runs: handle, first block, block count, destination index, class; next block per die (R292) -/
  exportRun : Option (Nat × Nat × Nat × Nat × Nat)
  exportNext : Tab Nat
  /-- blocks exported (R292, R298) -/
  exportSent : Nat
  /-- SUSPECT blocks met (R292, R298) -/
  exportSuspect : Nat
  /-- EXPORT_STATUS (R292, R298) -/
  exportStatus : Nat
  /-- the region of the open import, words written per block, and IMPORT_STATUS (R294, R298) -/
  importRun : Option Nat
  importWords : Tab (List Nat)
  /-- handle of IMPORT_STATUS (R298) -/
  importHandle : Nat
  /-- blocks complete (R298) -/
  importBlocks : Nat
  /-- frames dropped (R294, R298) -/
  importDrop : Nat
  /-- blocks not complete at the close (R294, R298) -/
  importLeft : Nat
  deriving DecidableEq, Repr

/-! ### Photonic lanes (09) -/

inductive RingState where
  | off | seek | acquire | verify | locked | fault
  deriving DecidableEq, Repr

/-- The start point of a seek: sp of R309, or one of the two of R312. -/
inductive SeekStart where
  | setPoint | backoff
  | above (heater : Nat)
  deriving DecidableEq, Repr

/-- A ring (R309, R310). Heater powers in 0.01 mW, temperatures in 0.1 degrees C, TCOEF in 0.01 mW/degree C. -/
structure Ring where
  /-- the ring's state (R310) -/
  state : RingState
  /-- heater power in 0.01 mW (R309) -/
  heater : Nat
  /-- how its next seek starts, where software or a loop tick has yet to start it (R309, R312, R313) -/
  startAs : SeekStart
  /-- a released seek begins at the next tick of the loop, from the start point corrected then (R309, R313) -/
  fresh : Bool
  /-- HEATER_SP (R309) -/
  sp : Nat
  /-- SP_TEMP (R309) -/
  spTemp : Int
  /-- TCOEF (R309) -/
  tcoef : Int
  /-- locked points: temperature and heater, newest first (R309) -/
  points : List (Int × Nat)
  /-- time within the lock range (R310) -/
  inRangeNs : Nat
  /-- when a beacon check is due (R310, R311) -/
  checkAt : Option Nat
  /-- the last beacon check (R310, R311) -/
  checkedAt : Nat
  /-- mismatches in a row (R312) -/
  mismatches : Nat
  /-- the seek has restarted from 0 mW once; it is the first seek of the start (15 R455); held for RING_SEEK (R313) -/
  restarted : Bool
  /-- it is the first seek of the start (15 R455) -/
  first : Bool
  /-- the ring is held for RING_SEEK (R313) -/
  held : Bool
  /-- when its set point was last stored (R309) -/
  storedAt : Nat
  deriving DecidableEq, Repr

/-- Lane states (R316), in the order of their codes. -/
inductive LaneState where
  | dark | locking | signal | train | margin | ready | service | retune | loop | marginLow | fault
  deriving DecidableEq, Repr

/-- A logical lane of a fibre port. Margins in 0.05 dB, powers in 0.01 dBm. -/
structure Lane where
  /-- LANE_STATE (R316) -/
  state : LaneState
  /-- slot in use for transmitting and receiving, plus 1; 0 the lane's own number -/
  txSlot : Nat
  /-- slot in use for receiving, plus 1; 0 the lane's own number (R301) -/
  rxSlot : Nat
  /-- when the present state was entered (R316) -/
  enteredAt : Nat
  /-- when LOCKING was entered (R320) -/
  lockingAt : Nat
  /-- training failures in a row (R320) -/
  failures : Nat
  /-- LCB_SEQ sent (R302) -/
  txSeq : Byte
  /-- RX_OK, own (R317, R318) -/
  rxOk : Bool
  /-- ID_OK, own (R317, R318) -/
  idOk : Bool
  /-- the peer's RX_OK (R317, R319) -/
  peerRxOk : Bool
  /-- the peer's ID_OK (R317, R319) -/
  peerIdOk : Bool
  /-- the peer is ready (R317, R319) -/
  peerReady : Bool
  /-- the marker the peer sends (R317) -/
  peerMarker : BitVec 64
  /-- the lane has been in SERVICE, so a retrain needs no margin test (R324) -/
  trainedFrom : Bool
  /-- when the last TRAIN block was sent (R304, R316) -/
  trainAt : Nat
  /-- when the last MARKER block was sent (R304, R316) -/
  markerAt : Nat
  /-- margin of the transmit direction (R323) -/
  txMargin : Option Int
  /-- margin of the receive direction (R323) -/
  rxMargin : Option Int
  /-- margin test: dwells elapsed, under test, repeated once (R323, R325) -/
  testing : Bool
  /-- dwells elapsed (R323) -/
  dwell : Nat
  /-- start of the present dwell (R323) -/
  dwellAt : Nat
  /-- steps of modulation amplitude taken away in the present dwell (R323) -/
  omaSteps : Nat
  /-- the test was repeated once (R325) -/
  retried : Bool
  /-- bins of corrected bits, newest first (R326) -/
  bins : List Nat
  /-- start of the present bin (R326) -/
  binAt : Nat
  /-- the margin estimate (R326) -/
  estimate : Option Int
  /-- the peer's estimate (R327) -/
  peerEstimate : Option Int
  /-- when the last report was sent (R327) -/
  reportAt : Nat
  /-- LANE_MARGIN_LOW has been sent (R327) -/
  lowSent : Bool
  /-- S3 (R314, R335) -/
  s3 : Int
  /-- S6 (R314, R335) -/
  s6 : Int
  /-- baseline of S2 (R315) -/
  baseS2 : Int
  /-- baseline of S3 (R315) -/
  baseS3 : Int
  /-- baseline of S4 (R315) -/
  baseS4 : Int
  /-- baseline of S5 (R315) -/
  baseS5 : Int
  /-- baseline of S6 (R315) -/
  baseS6 : Int
  /-- the stages reported as dropped, bit n for code n (R315) -/
  lossStages : Nat
  /-- the margin below 1.5 dB has been reported (R315) -/
  lossLow : Bool
  /-- LOOP_ERRORS of the lane (R334) -/
  loopErrors : Nat
  /-- the peer migrates the lane (R331) -/
  peerMigrating : Bool
  /-- when a retune began (R329, R331) -/
  retuneAt : Nat
  /-- the lane was removed for a low margin (R327) -/
  removedLow : Bool
  /-- waits in READY for MARGIN_RUN or LANE_ADMIT (R324) -/
  held : Bool
  /-- the receiving end of a margin test (R323): under test, dwell, step, steps -/
  rxTesting : Bool
  /-- dwell of the receiving end (R323) -/
  rxDwell : Nat
  /-- step of the receiving end (R323) -/
  rxStep : Nat
  /-- steps it counts (R323) -/
  rxSteps : Nat
  /-- the estimate last reported (R327) -/
  reported : Option Int
  /-- stage baselines are recorded; the peer's S4 and S5 among them (R315) -/
  baseSet : Bool
  basePeerS4 : Int
  basePeerS5 : Int
  /-- given up to a claim of the peer (10 R350) -/
  claimed : Bool
  /-- the loop that the lane enters once its queue has emptied (03 R76, R334): LOOP_MODE, 4 the far end, 0 none -/
  leaving : Nat
  /-- the slot that the lane takes when it next trains, as `txSlot` has it (R328) -/
  nextSlot : Option Nat
  /-- only the own direction left the spray set, for a low margin (R327): the peer's counts run on (04 R132) -/
  oneWay : Bool
  /-- the lane is in a loop as its far end (R334) -/
  farEnd : Bool
  /-- the peer's slot while the drop ring seeks the device's own in NEAR_OPTICAL, as `rxSlot` has it (R334) -/
  peerSlot : Option Nat
  deriving DecidableEq, Repr

/-- A lane control message that waits for its ACK (R322). -/
structure PendingLcm where
  /-- its message code (R321) -/
  msg : Nat
  /-- MSG_SEQ (R321) -/
  seq : Nat
  /-- LANE (R321) -/
  lane : Nat
  /-- SLOT (R321) -/
  slot : Nat
  /-- another slot it names (R321) -/
  slot2 : Nat
  /-- ARG (R321) -/
  arg : BitVec 64
  /-- how often it was sent (R322) -/
  sends : Nat
  /-- when it was last sent (R322) -/
  sentAt : Nat
  deriving DecidableEq, Repr

/-- A fibre port's own state. -/
structure FPort where
  /-- PEER_SEEN (R318, R335) -/
  peerSeen : Option (Nat × Nat)
  /-- NODE_ID and PORT of the marker that PEER_MISMATCH was last sent for (R318) -/
  mismatchSent : Option (Nat × Nat)
  /-- next MSG_SEQ (R321) -/
  msgSeq : Byte
  /-- the last 16 MSG_SEQ seen, each with the status of its answer (R322) -/
  seenSeqs : List (Nat × Nat)
  /-- messages that wait for their ACK (R322) -/
  pending : List PendingLcm
  /-- messages that fall due within the times of R304 and R329 -/
  due : List (Nat × Nat × BitVec 64 × BitVec 64 × Nat)
  /-- LOOP_MODE (R334) -/
  loopMode : Nat
  /-- S2 of the nine transmit slots (R314, R335) -/
  s2 : Tab Int
  /-- S4 (R314, R335) -/
  s4 : Int
  /-- S5 (R314, R335) -/
  s5 : Int
  /-- the peer's S4 (R327) -/
  peerS4 : Int
  /-- the peer's S5 (R327) -/
  peerS5 : Int
  /-- when the monitors were last read (R314) -/
  monitorAt : Nat
  deriving DecidableEq, Repr

/-- An ELS module, 0 to 15 ELS-E, 16 to 19 ELS-I (R306, R327, R335). -/
structure Els where
  /-- the module's state (R306, R335) -/
  state : Nat
  /-- when the module was enabled (R306) -/
  enabledAt : Nat
  /-- S1: line powers at the base layer (R314) -/
  power : Tab Int
  /-- the module's own line monitors (R306) -/
  lines : Tab Int
  /-- LINE_BASELINE (R315, R335) -/
  baseline : Tab (Option Int)
  /-- the baseline was written by software (R315, R335) -/
  written : Tab Bool
  /-- the fade of the line was reported (R306, R315) -/
  warned : Tab Bool
  /-- the lack of a spare was reported (R330) -/
  noSpareSent : Tab Bool
  /-- the need of a migration was reported (R328) -/
  neededSent : Tab Bool
  /-- ELS_SPARE (R335) -/
  spare : Nat
  /-- the last poll (R306) -/
  polledAt : Nat
  /-- a migration in progress (R329): the slot, or 16 more than the slot for a return from W8 (R331) -/
  migrating : Option Nat
  deriving DecidableEq, Repr

structure Optics where
  /-- every ring (R309, R310) -/
  rings : Tab Ring
  /-- the logical lanes of the fibre ports (R301, R316) -/
  lanes : Tab Lane
  /-- the fibre ports (R318, R321) -/
  ports : Tab FPort
  /-- ELS-E 0 to 15 and ELS-I 0 to 3 (R305, R306) -/
  els : Tab Els
  /-- mesh channel states, key (s, t, channel): 0 as built (working below channel 80, an idle spare from 80 on),
  1 a working channel out, 2 a spare in use, 3 a spare out (R332, R333); the channel a spare stands for, plus 1 -/
  channels : Tab Nat
  /-- the channel a spare stands for, plus 1 (R333) -/
  channelFor : Tab Nat
  /-- RING_NOTICES (R335) -/
  notices : List (Nat × Nat × Nat)
  deriving DecidableEq, Repr

/-! ### Express lightpaths (10) -/

inductive PathState where
  | idle | scheduled | armed | active | clearing
  deriving DecidableEq, Repr

/-- A path (R341 to R351, R360). -/
structure Path where
  /-- the path's state (R344 to R351) -/
  state : PathState
  /-- source port a (R337, R344) -/
  a : Nat
  /-- sink port b (R337, R344) -/
  b : Nat
  /-- ACT_TIME (R344) -/
  actTime : Word
  /-- T of the clearing (R351) -/
  clearTime : Word
  /-- its last code (R353) -/
  code : Nat
  /-- time of the last change (R360) -/
  changedAt : Word
  /-- MSG_SEQ of the claims, and the peers' answers (R345) -/
  aAccepted : Bool
  /-- the peer of b has accepted the claim (R345) -/
  bAccepted : Bool
  /-- the drain check has passed (R346) -/
  drained : Bool
  /-- the gate is open (R347, R348, R357) -/
  gateOpen : Bool
  /-- when the gate opened (R348) -/
  openedAt : Nat
  /-- gain of the gate (R348, R354) -/
  gain : Int
  /-- E1 (R338) -/
  e1 : Int
  /-- E2 (R338) -/
  e2 : Int
  /-- EXPRESS_INPUT_LOW was raised (R354) -/
  lowSent : Bool
  /-- the drain check counts as passed: an earlier path held the source lane (R352) -/
  drainPass : Bool
  /-- the rings whose MISMATCH shut the gate: bit 0 the drop ring, bit 1 the add ring (R354) -/
  shutBy : Nat
  deriving DecidableEq, Repr

structure Express where
  /-- paths q below 512 (R341) -/
  paths : Tab Path
  /-- a new path on the bus of a path in CLEARING, until that path's T (R352) -/
  queued : Tab (Option Path)
  /-- the bus, plus 1, to which the selector of an express ring joins it, by the ring's key (R336) -/
  selectors : Tab Nat
  /-- EXPRESS_RESULT (R360) -/
  result : Nat
  deriving DecidableEq, Repr

/-! ### Electrical and management ports (11) -/

/-- An electrical port (R361 to R373, R377). -/
structure EPort where
  /-- EP_MODE (R377) -/
  mode : Nat
  /-- EP_MEDIA: copper (R377) -/
  copper : Bool
  /-- EP_ENABLE (R377) -/
  enable : Bool
  /-- members that are up (R367) -/
  membersUp : BitVec 4
  /-- start of the members' bring-up, and of each lane's link training (R367, R368) -/
  bringupAt : Tab (Option Nat)
  /-- start of each lane's link training (R368) -/
  trainingAt : Tab (Option Nat)
  /-- transmitter taps c(-3) to c(1), key lane*8+tap; receiver ready, own and peer's; requests gaining under 0.1 dB -/
  taps : Tab Int
  /-- receiver ready, own (R368) -/
  rxReady : Tab Bool
  /-- receiver ready, the peer's (R368) -/
  peerReady : Tab Bool
  /-- requests in a row that gained under 0.1 dB (R368) -/
  smallGains : Tab Nat
  /-- EP_LOOP (R370, R377) -/
  loop : Nat
  /-- EQ_FREEZE (R369, R377) -/
  eqFreeze : BitVec 4
  /-- equaliser values of LANE_EQ (R377), key lane*64+k -/
  eq : Tab Int
  /-- LOOP_ERRORS (R370, R377) -/
  loopErrors : Tab Nat
  /-- a module is in the cage (R371, R373) -/
  present : Bool
  /-- MODULE_STATE (R371, R373, R377) -/
  moduleState : Nat
  /-- the application selected (R371) -/
  application : Nat
  /-- the module's identity pages as the firmware has read them: identifier, vendor name, part and serial number (R372) -/
  identity : List Byte
  /-- when the module activates (R371) -/
  activateAt : Option Nat
  /-- a write that waits for the application select to end (R373) -/
  pendingMode : Option Nat
  /-- a write of EP_ENABLE that waits likewise (R373) -/
  pendingEnable : Option Bool
  /-- the last poll of the module (R371) -/
  polledAt : Nat
  deriving DecidableEq, Repr

structure Mgmt where
  /-- the electrical ports (R361, R377) -/
  eports : Tab EPort
  /-- MP0 and MP1 are up (R376) -/
  mpUp : BitVec 2
  /-- when the bring-up of MP0 or MP1 began (R374, R432; 15 R450) -/
  mpBegun : Tab (Option Nat)
  /-- Foghorn events leave on MP1 (R376) -/
  foghornOnMp1 : Bool
  /-- frames taken from a management port in the present second (R375) -/
  mpCount : Tab Nat
  /-- that second (R375) -/
  mpSecond : Tab Nat
  deriving DecidableEq, Repr

/-! ### Belsyn Object Protocol and Foghorn (16) -/

/-- A partly received or accepted request (R472, R474). -/
structure Request where
  /-- SEQ (R471, R474) -/
  seq : Nat
  /-- FLAGS (R471) -/
  flags : Nat
  /-- number of fragments (R471, R472) -/
  frags : Nat
  /-- fragments received (R472) -/
  got : List (Nat × Bytes)
  /-- arrival of the last one (R472) -/
  lastAt : Nat
  /-- the management port it came by (R376) -/
  mp : Nat
  /-- its source (R470) -/
  source : Nat
  deriving DecidableEq, Repr

/-- A request that the firmware has begun (R477; 05 R187): one operation, or 64 records of a list, at each turn of its session. -/
structure Run where
  /-- SEQ of the request -/
  seq : Nat
  /-- operations that wait, the one in progress first -/
  left : List BopOp
  /-- how many the request holds (R473) -/
  total : Nat
  /-- results so far (R473) -/
  results : Bytes
  /-- settings written and not yet in force: index, subindex and value; they take effect at one commit mark (01 R30) -/
  batch : List (Nat × Nat × Nat)
  /-- dies that have received the mark (01 R30) -/
  marked : List Nat
  /-- records of the list in progress that were taken (05 R187) -/
  taken : Nat
  /-- their item results (R479) -/
  items : Bytes
  /-- records of the request's lists so far (05 R186) -/
  records : Nat
  deriving DecidableEq, Repr

/-- A session (R468), or a role's domain session (R487). -/
structure Session where
  /-- the role (R466, R468) -/
  role : Role
  /-- the session key (R469) -/
  key : Bytes
  /-- MAX_FRAG (R468) -/
  maxFrag : Nat
  /-- code of the source address (R468) -/
  source : Nat
  /-- the management port (R376) -/
  mp : Nat
  /-- last valid message (R468) -/
  lastAt : Nat
  /-- highest SEQ accepted (R474) -/
  highest : Nat
  /-- a SEQ has been used -/
  used : Bool
  /-- SEQ values seen within the window (R474) -/
  seen : List Nat
  /-- requests not complete (R472) -/
  partials : List Request
  /-- complete requests that wait (R475, R476) -/
  accepted : List Request
  /-- the oldest of them, once begun (R477) -/
  run : Option Run
  /-- stored replies, newest first, at most 256: SEQ and body (R474) -/
  replies : List (Nat × Bytes)
  /-- the session is closing (R468) -/
  closing : Bool
  /-- LOG_CURSOR (R484) -/
  logCursor : Nat
  /-- REG_ADDR (R484) -/
  regAddr : Word
  deriving DecidableEq, Repr

/-- An event of the Foghorn ring (R489). -/
structure Event where
  /-- SEQ (R489) -/
  seq : Nat
  /-- TIME (R489) -/
  time : Word
  /-- CODE (R489, R493) -/
  code : Nat
  /-- SEVERITY (R489) -/
  severity : Nat
  /-- REPEAT (R488, R489) -/
  rep : Nat
  /-- UNIT (R489) -/
  unit : Nat
  /-- ARGS (R489) -/
  args : Bytes
  deriving DecidableEq, Repr

/-- When a (CODE, UNIT) pair was last raised and how often since suppressed (R488). -/
structure Holdoff where
  /-- CODE (R488) -/
  code : Nat
  /-- UNIT (R488) -/
  unit : Nat
  /-- when the pair was last raised (R488) -/
  raisedAt : Nat
  /-- events suppressed since (R488) -/
  suppressed : Nat
  deriving DecidableEq, Repr

/-- An event that a collector was sent: its SEQ, when it was last sent, and the wait before it is sent again, in ms (R490). -/
structure SentEvent where
  seq : Nat
  sentAt : Nat
  waitMs : Nat
  deriving DecidableEq, Repr

/-- A collector (R490, R491). -/
structure Collector where
  /-- address and port of the collector (R490, R491) -/
  address : Bytes
  /-- its state (R490) -/
  state : Nat
  /-- next SEQ it has acknowledged up to (R490) -/
  acked : Nat
  /-- when it last acknowledged (R490) -/
  ackedAt : Nat
  /-- last heartbeat event sent to it (R490) -/
  heartbeatAt : Nat
  /-- first SEQ it still needs -/
  from_ : Nat
  /-- the events it was sent and has not acknowledged (R490) -/
  sent : List SentEvent
  deriving DecidableEq, Repr

structure Bop where
  /-- role keys (R466, R467) -/
  keys : Tab Bytes
  /-- FOGHORN_KEY (R489, R492) -/
  foghornKey : Bytes
  /-- sessions 0 to 7 (R468) -/
  sessions : Tab (Option Session)
  /-- domain sessions, one per role (R487) -/
  domain : Tab (Option Session)
  /-- the session served last: 0 to 7, the domain sessions 8 to 11 (R477) -/
  turn : Nat
  /-- status and argument of the last object write or access outside a request -/
  answer : Nat
  /-- value of the last read outside a request: the model's own (log 5) -/
  answerValue : Bytes
  /-- the event ring, at most 1,024 (R488) -/
  ring : List Event
  /-- next event SEQ (R488) -/
  nextSeq : Nat
  /-- holdoff per (CODE, UNIT) (R488) -/
  holdoffs : List Holdoff
  /-- collectors 0 to 3 (R490) -/
  collectors : Tab Collector
  deriving DecidableEq, Repr

/-! ### Registers and DMA (17), reliability (18) -/

/-- A mailbox (R507). -/
structure Mailbox where
  /-- address of the transfer (R507) -/
  addr : Word
  /-- ERROR of the last transfer (R507) -/
  error : Bool
  /-- direction of the last transfer (R507) -/
  write : Bool
  /-- COUNT_M1 (R507, R508) -/
  countM1 : Nat
  /-- data words (R507, R508) -/
  data : Tab Word
  deriving DecidableEq, Repr

/-- A descriptor that a channel has begun and not completed (R515, R521): its ring index and address, its IRQ flag, the
status it will complete with (0 none yet) and its STAMP. -/
structure Flight where
  /-- its ring index (R515) -/
  index : Nat
  /-- address of the descriptor (R515) -/
  address : Nat
  /-- its IRQ flag (R517, R522) -/
  irq : Bool
  /-- status it will complete with, 0 none yet (R521) -/
  outcome : Nat
  /-- STAMP (R517, R520) -/
  stamp : Option Word
  deriving DecidableEq, Repr

/-- A DMA channel (R525). -/
structure Chan where
  /-- CH_CTL.ENABLE (R525) -/
  enable : Bool
  /-- CH_CTL.IRQ_TARGET (R525) -/
  irqTarget : Nat
  /-- CH_CTL.RING_LOG2 (R525) -/
  ringLog2 : Nat
  /-- CH_BASE (R525) -/
  base : BitVec 64
  /-- CH_HEAD (R525) -/
  head : BitVec 17
  /-- CH_TAIL (R525) -/
  tail : BitVec 17
  /-- CH_STATUS.ERROR (R521, R525) -/
  error : Bool
  /-- the running descriptors, oldest first -/
  flight : List Flight
  /-- status of the last completion (R521, R525) -/
  lastStatus : Nat
  /-- CH_DONE (R525) -/
  done : Word
  deriving DecidableEq, Repr

/-- A DMA engine (R525). -/
structure DmaEngine where
  /-- ENG_STATUS.HALTED (R523, R525) -/
  halted : Bool
  /-- the engine is coming to a halt (R523) -/
  halting : Bool
  /-- ENG_STATUS: channel of the error (R523, R525) -/
  errChannel : Nat
  /-- ENG_STATUS: code of the error (R523, R525) -/
  errCode : Nat
  /-- ERR_ADDR (R525) -/
  errAddr : Nat
  /-- IRQ_STATUS (R525) -/
  irqStatus : Word
  /-- IRQ_ENABLE (R525) -/
  irqEnable : Word
  /-- KSRAM_LO (R525) -/
  ksramLo : Nat
  /-- KSRAM_HI (R525) -/
  ksramHi : Nat
  deriving DecidableEq, Repr

/-- A timed frame waiting on a die (12 R393). -/
structure Timed where
  /-- launch time (12 R393) -/
  launch : Word
  /-- the frame (12 R393) -/
  frame : EFrame
  /-- its port (12 R393) -/
  port : Nat
  /-- its class (12 R393) -/
  cls : Nat
  deriving DecidableEq, Repr

structure Regs where
  /-- access words as written, key die*256+block; reset values by R501 -/
  access : Tab (Option Word)
  /-- change of CFG_RUN since the reset configuration (R504), CFG_REF, flags of CFG_STATUS, match as last compared -/
  cfgRun : Tab Word
  /-- CFG_REF (R504, R506) -/
  cfgRef : Tab Word
  /-- CFG_STATUS.UPSET (R504, R505) -/
  cfgUpset : Tab Bool
  /-- CFG_STATUS.MISMATCH_SEEN (R504, R506) -/
  cfgSeen : Tab Bool
  /-- CFG_STATUS: match as last compared (R504, R505) -/
  cfgMatch : Tab Bool
  /-- mailboxes, 16 per die (R507) -/
  mailboxes : Tab Mailbox
  /-- words of blocks whose field maps belong to the keeper firmware (R495), key die*2^26+block*2^18+word... -/
  plain : Tab Word
  /-- counters, key (die, event, instance): 48-bit value; flags bit 0 HIT, bit 1 OVF (18 R540) -/
  counters : Tab Nat
  flags : Tab Nat
  /-- counter select word per die and master (18 R544) -/
  cntSel : Tab Word
  /-- the nine DMA engines (R523, R525) -/
  engines : Tab DmaEngine
  /-- their channels, 32 each (R515, R525) -/
  chans : Tab Chan
  /-- CH_OWNER (R525) -/
  owners : Tab (Option Nat)
  /-- timed queues, at most 1,024 frames per port (12 R393) -/
  timed : Tab (List Timed)
  /-- what the last JTAG access gave: valid, error, data (18 R549) -/
  jtagValid : Bool
  jtagError : Bool
  jtagData : Word
  deriving DecidableEq, Repr

/-- 18 R530 to R550. -/
structure Ras where
  /-- granules of memory that are poisoned (R532) -/
  poisoned : List Nat
  /-- corrected errors of a memory channel in the present hour (R534) -/
  ceHour : Tab Nat
  /-- start of that hour (R534) -/
  ceHourStart : Tab Nat
  /-- MEM_CE_HIGH was sent in it (R534) -/
  ceSent : Tab Bool
  /-- start of the scrub pass per die (R533) -/
  scrubStart : Tab Nat
  /-- how far the pass has come (R533) -/
  scrubNext : Tab Nat
  /-- SCRUB_BEHIND has been sent for the present pass -/
  scrubSent : Tab Bool
  /-- when the tables and contexts of a die were last read for scrubbing (R530, R533) -/
  sramAt : Tab Nat
  /-- positions tested in the present pass over each tile: bit 17r + p (R535; 15 R454) -/
  testedCells : Tab Nat
  /-- SELFTEST_RECORD: last completed pass per tile; last cell to pass per tile -/
  passAt : Tab Nat
  /-- tiles whose cells have all been tested since the start (15 R454), bit 8d+t -/
  tested : BitVec 64
  /-- last cell to pass per tile (R536) -/
  lastGood : Tab Nat
  /-- last transient failure per tile (R536) -/
  transientAt : Tab (Option Nat)
  /-- FRZ record words, key die*64+word; they survive reset (R548) -/
  frz : Tab Word
  /-- FRZ_JTAG (R549) -/
  frzJtag : Bool
  /-- die whose memory island runs in FROZEN, and its last access in wall ns (R550) -/
  island : Tab (Option Nat)
  deriving DecidableEq, Repr

/-! ### Outputs -/

/-- What leaves the device. -/
inductive Out where
  | frame (port lane : Nat) (bytes : Bytes) (stomped : Bool)
  | lcb (port lane : Nat) (blocks : List (Nat × Bytes))
  | pfc (port cls quanta : Nat)
  | bop (mp : Nat) (own : Bytes) (dest : Nat) (datagram : Bytes)
  | foghorn (collector mp : Nat) (datagram : Bytes)
  | boot (mp : Nat) (dest : Option Nat) (message : Bytes)
  | management (mp : Nat) (bytes : Bytes)
  | prbs (port lane loop : Nat)
  | trainingStatus (port lane tap : Nat) (limitReached : Bool)
  | trainingRequest (port lane tap : Nat) (up : Bool)
  deriving DecidableEq, Repr

/-- The state of the block. -/
structure State where
  /-- power, pins, clocks and sensors (13) -/
  power : Power
  /-- clocks and the time unit (03 R99, 12) -/
  time : Time
  /-- identity, presence and start-up (00, 01, 15) -/
  start : Start
  /-- fuses, boot, firmware, identity and logs (14) -/
  keeper : Keeper
  /-- forwarding tables (02) -/
  tables : Tables
  /-- the switch core (03) -/
  switch : Switch
  /-- credits, scheduling, shaping and pause (04) -/
  flow : Flow
  /-- collectives (05, 06) -/
  coll : Coll
  /-- the Aihorn fabric (07) -/
  fabric : Fabric
  /-- regions (08) -/
  resident : Resident
  /-- photonic lanes (09) -/
  optics : Optics
  /-- express paths (10) -/
  express : Express
  /-- electrical and management ports (11) -/
  mgmt : Mgmt
  /-- object protocol and Foghorn (16) -/
  bop : Bop
  /-- register blocks, DMA, counters (12 R393, 17, 18 R540) -/
  regs : Regs
  /-- errors, tests and freezes (18) -/
  ras : Ras
  /-- every addressed memory, one canonical list of (address, byte) cells: the address space of 17 R513 (MEMORY, KEEPER_SRAM,
  SHARED), and the model's own spaces for the flash and the staging buffers (Machine/Ops.lean) -/
  mem : List Host.Cell
  /-- objects that hold a plain value, key index*256+sub; unlisted objects read their dictionary default (16 R480) -/
  obj : List (Nat × Nat)
  /-- what has left the device, newest first: the MODEL's own record -/
  out : List Out
  /-- how many free values have been drawn: the MODEL's own counter, never the manual's -/
  free : Nat
  /-- the random generator of each sector die, 128 bits (06 R208); seeded at every start -/
  gens : Tab (BitVec 128)
  /-- the commands that wait, first in first out -/
  pending : List Instr
  deriving DecidableEq, Repr

/-! ### Reset

The machine right after reset: VIN44 in range, both reference clocks present, RESET_N valid low, so the device is held in
RESET (15 R447) after a power-on. Where the manual gives a register no reset value the value here is the model's (DESIGN
CHOICE, notes/assumptions/1.md, 2.md). -/

/-- 13 R406 to R425 after a power-on; DESIGN CHOICE for the sensor readings (log 1). -/
def Power.reset : Power where
  vinMv := 44000
  iinMa := 0
  vinLowSent := false
  rangeLeft := false
  resetLow := true
  onAt := 0
  refA := true
  refB := true
  selected := true
  selB := false
  holdover := false
  bootSel := 0
  bootPins := 0
  frozen := false
  armed := false
  trip := false
  resetCause := 1
  tj := .empty 250
  base := .empty 250
  warned := 0
  slowTiles := 0
  baseHot := 0
  baseCold := 0
  snap := .empty 0
  snapAt := .empty 0

/-- 12 R379 reset column. The model's own clock starts 10 ms after power was applied, the hold time of 13 R410 (log 4). -/
def Time.reset : Time where
  wall4 := 40000000
  queue4 := 0
  tmu := 0
  inc := 0x14000000
  fracLatch := .empty 0
  followers := .empty 0
  pendingInc := none
  stepNs := 0
  stepFrac := 0
  stepForce := false
  pendingStep := none
  stepSum := 0
  clk10Lost := true
  ppsLost := false
  stepForced := false
  stepOverrun := false
  stepRefused := false
  incRefused := false
  ppsNs := 0
  ppsFrac := 0
  ppsSeq := 0
  ppsSeen := false
  ppsTicks := 0
  ppsEver := false
  clk10Ppb := 0
  target := 0
  servoF := 0
  servoE := 0
  servoAdj := 0

/-- Identity and presence as an A part holds them before its fuses are voted (log 1); the rest as R465 defaults. -/
def Start.reset : Start where
  state := .reset
  haltCause := 0
  causes := 0
  serviceAsked := false
  serviceEntered := false
  serviceMark := 0
  enteredAt := 0
  entryTime := .empty 0
  removed := .empty 0
  partCode := 1
  stepping := 0
  sectorDies := 0xFF
  aihornTiles := 0xFFFFFFFFFFFFFFFF
  memPackages := 0x00FFFFFF
  keeperStatus := 1
  repairMem := 0
  repairTiles := 0
  trained := 0
  libraryDone := false
  libraryAt := 0
  heldDies := 0
  heartbeat := .empty 0
  keeperLost := false
  headless := false
  darkHold := false
  elsE := 0
  elsI := 0

/-- Fuse copies of the device the model starts: an A part with blank customer slots, KEY0 of FIRMWARE use and KEY1 of
IMAGE use (14 R427), no repair; DESIGN CHOICE (log 2). Fields: 0 PART_CODE, 1 STEPPING, 2 SERIAL, 3 NODE_ID, 4 MAC_BASE,
5 REPAIR_TILES, 6 REPAIR_MEM, 7 REPAIR_ROWS, 8 to 15 KEYn, 16 to 23 KEY_USEn, 24 BOOT_POLICY, 25 to 88 ROLLBACK_STEPk,
89 IDENTITY_SEED; key field*4+copy. -/
def fusesBuilt : Tab Nat :=
  ⟨0, [(0, 1), (1, 1), (2, 1),
       (28, 2 ^ 2560 - 1), (29, 2 ^ 2560 - 1), (30, 2 ^ 2560 - 1),
       (32, 1), (33, 1), (34, 1), (36, 2), (37, 2), (38, 2),
       (64, 1), (65, 1), (66, 1), (68, 2), (69, 2), (70, 2)]⟩

/-- 14 R446 defaults; no image runs. -/
def Keeper.reset : Keeper where
  fuses := fusesBuilt
  voted := .empty 0
  minority := []
  minoritySent := false
  bootCause := 0
  bootSource := 0
  fwVersion := 0
  fwSvn := 0
  fwKeySlot := 0
  coresRun := false
  hostOwner := none
  hostOffset := 0
  hostLast := 0
  requestAt := none
  stageOffset := 0
  stageLen := 0
  fwResult := 0
  fuseResult := 0
  meas := .empty (List.replicate 32 0)
  identityPub := List.replicate 32 0
  stageDie := 0
  attestNonce := none
  attestReport := List.replicate 17440 0
  log := []
  logNext := 0
  logPrev := []
  logLost := 0

def CmdSet.reset : CmdSet where
  cmd := 0
  overrun := false
  refusers := 0
  result := 0
  location := 3
  relocations := 0
  key := .empty 0
  data := .empty 0
  ts := 0
  owner := 0
  static := false
  learned := false
  busyUntil := 0

/-- Every table empty (15 R451); the hash seeds of 02 R50. -/
def Tables.reset : Tables where
  dit := .empty 0
  bundle := .empty ⟨0, []⟩
  mcast := .empty 0
  nextHop := .empty ⟨0, 0⟩
  lpm := .empty none
  lpmUnits := .empty 0
  emt := .empty none
  emtSerial := 0
  seed0 := .empty 0xFFFFFFFF
  seed1 := .empty 0
  seedStatus := .empty 0
  sets := .empty CmdSet.reset
  ageNow := .empty 0
  ageMark := .empty 0
  notices := .empty []
  posted := .empty false
  digest := .empty 0
  reference := .empty none
  mismatch := .empty false
  digestAt := .empty 0
  drain := .empty 0
  drainZero := .empty (some 0)
  drnIndex := .empty 0
  learnCount := .empty 0
  learnSecond := .empty 0
  lookups := .empty 0
  lookupSecond := .empty 0
  learnRecs := .empty []

def Switch.reset : Switch where
  voq := .empty []
  mcq := .empty []
  red := .empty []
  transit := .empty []
  laneq := .empty []
  released := .empty []
  frameOrder := .empty 0
  rotation := .empty 0
  ingress := .empty none
  frameId := .empty 0
  shared := .empty 0
  reserve := .empty 0
  spilling := .empty false
  spill := .empty []
  spillBytes := .empty 0
  mesh := .empty []
  egressBytes := .empty 0
  reasm := .empty none
  orderNext := .empty 0
  reseq := .empty ⟨0, [], none⟩
  occ := .empty 0
  assigned := .empty 0
  requests := .empty false
  spray := .empty 0
  sprayPub := .empty 0
  sending := .empty none
  drainState := .empty 0
  keeperIn := .empty []
  heldResults := .empty []
  sharedUse := .empty 0
  ctxSpilled := .empty false
  ctxArea := .empty (.empty 0, .empty 0)

def Flow.reset : Flow where
  balance := .empty 0
  idleSince := .empty none
  grants := .empty 0
  unsettled := .empty 0
  grantTurn := .empty 0
  engineTurn := .empty 0
  redTurn := .empty 0
  vtime := .empty 0
  tag := .empty 0
  eligible := .empty false
  nextAt := .empty 0
  wheel := .empty none
  limit := .empty 0
  gotLimit := .empty false
  consumed := .empty 0
  freed := .empty 0
  advertised := .empty 0
  sent := .empty 0
  rcvd := .empty 0
  closing := .empty none
  closed := .empty false
  lossless := .empty 0
  creditAt := .empty 0
  syncAt := .empty 0
  grewAt := .empty 0
  waitingAt := .empty none
  starvedSent := .empty false
  pauseEnd := .empty none
  pauseStart := .empty none
  unpausedAt := .empty 0
  ignoreUntil := .empty none
  xoff := .empty none
  pfcLow := .empty false
  tripped := .empty 0

def Slot.reset : Slot where
  inst := 0
  isOpen := false
  openedAt := 0
  endCode := 0
  done := []
  ended := []
  escapes := 0
  degraded := false
  noted := []

def Ctx.reset : Ctx where
  state := .free
  group := 0
  inst := 0
  chunk := 0
  arrived := []
  firstTime := 0
  lastTime := 0
  times := []
  lastContributor := 0
  hi := .empty 0
  lo := .empty 0
  sampled := false
  shadow := .empty 0
  poison := []
  poisoners := []
  escaped := []
  jumped := []
  overflow := 0
  items := []
  staged := []
  doneDue := false
  sent := none
  sentIds := []
  threads := 0
  wroteWords := 0
  wroteCrc := 0
  commitDue := false
  readSuspect := false
  enteredAt := 0
  newHistory := []
  newResid := []
  saturated := 0
  lastContribution := 0

def Coll.reset : Coll where
  groups := .empty none
  prepared := []
  marked := []
  quarantine := .empty none
  lastGen := .empty none
  slots := .empty Slot.reset
  ctx := .empty Ctx.reset
  ctxFree := .empty 4096
  slotsFree := .empty 262144
  atIngress := .empty []
  atHome := .empty []
  deliver := .empty []
  staging := .empty 0
  poisonNotices := .empty []
  retained := .empty []
  replies := .empty 0
  replySecond := .empty 0
  lags := .empty ⟨0, 0, 0, 0⟩
  history := .empty 0xFF
  historyUsed := .empty 0
  residHolder := .empty none
  residWait := .empty []

def Thread.reset : Thread where
  active := false
  a := .empty 0
  s := 0
  n := 0
  program := 0
  pc := 0
  ctx := 0
  tag := 0
  todo := []
  data := []
  emitted := []
  count := 0
  status := none
  order := 0

def Fabric.reset : Fabric where
  cells := .empty ⟨.empty 0, .empty 0, 0, false⟩
  links := .empty []
  edgeIn := .empty []
  edgeOut := .empty []
  du := .empty ⟨0, 0, 0, 0, 0, [], false, []⟩
  work := .empty ⟨false, ⟨[], 0, 0⟩, false, [], 0, 0, [], []⟩
  threads := .empty Thread.reset
  threadSerial := 0
  images := .empty none
  library := .empty 0
  placed := .empty 0
  failed := .empty false
  stopped := .empty false
  scratch := .empty 0
  faultTimes := .empty []
  faultRec := .empty []
  progressAt := .empty 0
  stageOffset := 0
  stageLen := 0
  commitResult := 0
  placeResult := 0
  retired := .empty 0
  spareBad := .empty false
  spareNeeded := []
  retiring := []

def Resident.reset : Resident where
  regions := .empty none
  regionResult := 0
  metas := .empty ⟨0, 0, false, 0⟩
  lockHolder := .empty none
  lockWait := .empty []
  unacked := .empty false
  mirrorIn := .empty ⟨0, 0, 0⟩
  toMirror := .empty []
  exportRun := none
  exportNext := .empty 0
  exportSent := 0
  exportSuspect := 0
  exportStatus := 0
  importRun := none
  importWords := .empty []
  importHandle := 0
  importBlocks := 0
  importDrop := 0
  importLeft := 0

/-- A ring at a start: no set point (15 R455). -/
def Ring.reset : Ring where
  state := .off
  heater := 0
  startAs := .setPoint
  fresh := false
  sp := 0
  spTemp := 0
  tcoef := -40
  points := []
  inRangeNs := 0
  checkAt := none
  checkedAt := 0
  mismatches := 0
  restarted := false
  first := true
  held := false
  storedAt := 0

def Lane.reset : Lane where
  state := .dark
  txSlot := 0
  rxSlot := 0
  enteredAt := 0
  lockingAt := 0
  failures := 0
  txSeq := 0
  rxOk := false
  idOk := false
  peerRxOk := false
  peerIdOk := false
  peerReady := false
  peerMarker := 0
  trainedFrom := false
  trainAt := 0
  markerAt := 0
  txMargin := none
  rxMargin := none
  testing := false
  dwell := 0
  dwellAt := 0
  omaSteps := 0
  retried := false
  bins := []
  binAt := 0
  estimate := none
  peerEstimate := none
  reportAt := 0
  lowSent := false
  s3 := 0
  s6 := 0
  baseS2 := 0
  baseS3 := 0
  baseS4 := 0
  baseS5 := 0
  baseS6 := 0
  lossStages := 0
  lossLow := false
  loopErrors := 0
  peerMigrating := false
  retuneAt := 0
  removedLow := false
  held := false
  rxTesting := false
  rxDwell := 0
  rxStep := 0
  rxSteps := 0
  reported := none
  baseSet := false
  basePeerS4 := 0
  basePeerS5 := 0
  claimed := false
  leaving := 0
  nextSlot := none
  oneWay := false
  farEnd := false
  peerSlot := none

def FPort.reset : FPort where
  peerSeen := none
  mismatchSent := none
  msgSeq := 0
  seenSeqs := []
  pending := []
  due := []
  loopMode := 0
  s2 := .empty 0
  s4 := 0
  s5 := 0
  peerS4 := 0
  peerS5 := 0
  monitorAt := 0

def Els.reset : Els where
  state := 0
  enabledAt := 0
  power := .empty 0
  lines := .empty 0
  baseline := .empty none
  written := .empty false
  warned := .empty false
  noSpareSent := .empty false
  neededSent := .empty false
  spare := 0xFF
  polledAt := 0
  migrating := none

def Optics.reset : Optics where
  rings := .empty Ring.reset
  lanes := .empty Lane.reset
  ports := .empty FPort.reset
  els := .empty Els.reset
  channels := .empty 0
  channelFor := .empty 0
  notices := []

def Path.reset : Path where
  state := .idle
  a := 0
  b := 0
  actTime := 0
  clearTime := 0
  code := 0
  changedAt := 0
  aAccepted := false
  bAccepted := false
  drained := false
  gateOpen := false
  openedAt := 0
  gain := 0
  e1 := 0
  e2 := 0
  lowSent := false
  drainPass := false
  shutBy := 0

def Express.reset : Express := ⟨.empty Path.reset, .empty none, .empty 0, 0⟩

/-- 11 R377 defaults: EP_MODE 0x01, EP_ENABLE off, no module seated. -/
def EPort.reset : EPort where
  mode := 1
  copper := false
  enable := false
  membersUp := 0
  bringupAt := .empty none
  trainingAt := .empty none
  taps := .empty 0
  rxReady := .empty false
  peerReady := .empty false
  smallGains := .empty 0
  loop := 0
  eqFreeze := 0
  eq := .empty 0
  loopErrors := .empty 0
  present := false
  moduleState := 0
  application := 0
  identity := []
  activateAt := none
  pendingMode := none
  pendingEnable := none
  polledAt := 0

def Mgmt.reset : Mgmt where
  eports := .empty EPort.reset
  mpUp := 0
  mpBegun := .empty none
  foghornOnMp1 := false
  mpCount := .empty 0
  mpSecond := .empty 0

def Collector.reset : Collector where
  address := List.replicate 16 0
  state := 0
  acked := 0xFFFFFFFF
  ackedAt := 0
  heartbeatAt := 0
  from_ := 0
  sent := []

/-- All keys unset at every start (16 R466). -/
def Bop.reset : Bop where
  keys := .empty (List.replicate 32 0)
  foghornKey := List.replicate 32 0
  sessions := .empty none
  domain := .empty none
  turn := 11
  answer := 0
  answerValue := []
  ring := []
  nextSeq := 0
  holdoffs := []
  collectors := .empty Collector.reset

def Mailbox.reset : Mailbox := ⟨0, false, false, 0, .empty 0⟩

/-- 17 R525 reset column, but for CH_OWNER of channels 28 to 31, which the accessor gives. -/
def Chan.reset : Chan where
  enable := false
  irqTarget := 1
  ringLog2 := 1
  base := 0
  head := 0
  tail := 0
  error := false
  flight := []
  lastStatus := 0
  done := 0

def DmaEngine.reset : DmaEngine where
  halted := false
  halting := false
  errChannel := 0
  errCode := 0
  errAddr := 0
  irqStatus := 0
  irqEnable := 0
  ksramLo := 0
  ksramHi := 0

def Regs.reset : Regs where
  access := .empty none
  cfgRun := .empty 0
  cfgRef := .empty 0
  cfgUpset := .empty false
  cfgSeen := .empty false
  cfgMatch := .empty false
  mailboxes := .empty Mailbox.reset
  plain := .empty 0
  counters := .empty 0
  flags := .empty 0
  cntSel := .empty 0
  engines := .empty DmaEngine.reset
  chans := .empty Chan.reset
  owners := .empty none
  timed := .empty []
  jtagValid := false
  jtagError := false
  jtagData := 0

def Ras.reset : Ras where
  poisoned := []
  ceHour := .empty 0
  ceHourStart := .empty 0
  ceSent := .empty false
  scrubStart := .empty 0
  scrubNext := .empty 0
  scrubSent := .empty false
  sramAt := .empty 0
  testedCells := .empty 0
  passAt := .empty 0
  tested := 0
  lastGood := .empty 0
  transientAt := .empty none
  frz := .empty 0
  frzJtag := false
  island := .empty none

/-- The machine right after reset: held in RESET by RESET_N, every field at its reset value, no command waiting. -/
def State.reset : State where
  power := Power.reset
  time := Time.reset
  start := Start.reset
  keeper := Keeper.reset
  tables := Tables.reset
  switch := Switch.reset
  flow := Flow.reset
  coll := Coll.reset
  fabric := Fabric.reset
  resident := Resident.reset
  optics := Optics.reset
  express := Express.reset
  mgmt := Mgmt.reset
  bop := Bop.reset
  regs := Regs.reset
  ras := Ras.reset
  mem := []
  obj := []
  out := []
  free := 0
  gens := .empty 0
  pending := []

end Sys2Proof.Machine
end

