-- ==== Sys2Proof/Machine/Operands.lean ====
section
/-! DEFINITION. The forms in which a command's operands stand: byte strings most significant byte first (00 R10) or
least significant byte first (00 R11), slices and padding, two's complement, and the modular comparisons of 12 R396
and R397. -/

namespace Sys2Proof.Machine

/-- A byte string read most significant byte first (R10). -/
def beNat (b : Bytes) : Nat := b.foldl (fun a x => a * 256 + x.toNat) 0

/-- A byte string read least significant byte first (R11). -/
def leNat : Bytes → Nat
  | [] => 0
  | b :: r => b.toNat + 256 * leNat r

/-- `n` bytes of `v`, least significant first (R11). -/
def leBytes : Nat → Nat → Bytes
  | 0, _ => []
  | n + 1, v => BitVec.ofNat 8 v :: leBytes n (v / 256)

/-- `n` bytes of `v`, most significant first (R10). -/
def beBytes (n v : Nat) : Bytes := (leBytes n v).reverse

/-- `n` bytes from offset `off`. -/
def slice (b : Bytes) (off n : Nat) : Bytes := (b.drop off).take n

/-- The multi-byte field of `n` bytes at offset `off`, R10. -/
def beAt (b : Bytes) (off n : Nat) : Nat := beNat (slice b off n)

/-- The multi-byte field of `n` bytes at offset `off`, R11. -/
def leAt (b : Bytes) (off n : Nat) : Nat := leNat (slice b off n)

/-- The byte at an offset, 0 beyond the end. -/
def byteAt (b : Bytes) (off : Nat) : Nat := (b.getD off 0).toNat

/-- The string cut or filled with zeros to `n` bytes (16 R480). -/
def padTo (n : Nat) (b : Bytes) : Bytes := b.take n ++ List.replicate (n - b.length) 0

/-- The string with `d` in place of the bytes from `off` on. -/
def splice (b : Bytes) (off : Nat) (d : Bytes) : Bytes :=
  padTo off b ++ d ++ b.drop (off + d.length)

/-- Whether every byte is zero. -/
def allZero (b : Bytes) : Bool := b.all (· == 0)

/-- Two's complement of `n` bits read as an integer. -/
def signed (n v : Nat) : Int :=
  if v % 2 ^ n < 2 ^ (n - 1) then ((v % 2 ^ n : Nat) : Int) else ((v % 2 ^ n : Nat) : Int) - (2 ^ n : Nat)

/-- An integer as two's complement of `n` bits. -/
def unsigned (n : Nat) (i : Int) : Nat := (i % ((2 ^ n : Nat) : Int)).toNat

/-- Bits [hi:lo] of a number (R9). -/
def bits (v hi lo : Nat) : Nat := v / 2 ^ lo % 2 ^ (hi + 1 - lo)

/-- Bit `i` of a number (R9). -/
def bit (v i : Nat) : Bool := v / 2 ^ i % 2 == 1

/-- A number with bit `i` set or cleared. -/
def setBit (v i : Nat) (b : Bool) : Nat :=
  if bit v i = b then v else if b then v + 2 ^ i else v - 2 ^ i

/-- 12 R397: `b` is later than `a` for counters of `n` bits. -/
def later (n b a : Nat) : Bool :=
  let d := (b + 2 ^ n - a % 2 ^ n) % 2 ^ n
  0 < d && d < 2 ^ (n - 1)

/-- 12 R396: the event 'at or after x' has come at `t`, on a 32-bit clock. -/
def atOrAfter (t x : Nat) : Bool := (t + 2 ^ 32 - x % 2 ^ 32) % 2 ^ 32 < 2 ^ 31

/-- 12 R396: the half-open window of a 32-bit clock that starts at `start` and lasts `len`. -/
def inWindow (start len t : Nat) : Bool := (t + 2 ^ 32 - start % 2 ^ 32) % 2 ^ 32 < len % 2 ^ 32

/-- The ceiling of a quotient. -/
def ceilDiv (a b : Nat) : Nat := (a + b - 1) / b

/-- An integer quotient rounded to the nearest, halves away from zero. -/
def roundDiv (a : Int) (b : Nat) : Int :=
  if 0 ≤ a then (2 * a + b) / (2 * b) else -((2 * (-a) + b) / (2 * b))

/-- Clamp of an integer to a range. -/
def clampInt (lo hi x : Int) : Int := if x < lo then lo else if hi < x then hi else x

/-- The numbers 0 to n - 1. -/
def upTo (n : Nat) : List Nat := List.range n

/-- The code of a role (16 R466). -/
def roleCode : Role → Nat
  | .admin => 1 | .operator => 2 | .fabric => 3 | .observer => 4

/-- The role of a code (16 R466). -/
def roleOfCode : Nat → Option Role
  | 1 => some .admin | 2 => some .operator | 3 => some .fabric | 4 => some .observer | _ => none

end Sys2Proof.Machine
end

