-- ==== Sys2Proof/Machine/Ops.lean ====
section
/-! DEFINITION. The named operations over the state that every meaning shares: sparse tables, memory, keys of units,
clocks, objects, event counters, Foghorn events, outputs and free values. -/

namespace Sys2Proof

/-- The value listed for a key, if any. -/
def cellFind {α : Type} (k : Nat) : List (Nat × α) → Option α
  | [] => none
  | (j, v) :: r => if j = k then some v else cellFind k r

/-- The list with a key's entry put in its place, keys rising. -/
def cellPut {α : Type} (k : Nat) (v : α) : List (Nat × α) → List (Nat × α)
  | [] => [(k, v)]
  | (j, w) :: r => if j < k then (j, w) :: cellPut k v r else if j = k then (k, v) :: r else (k, v) :: (j, w) :: r

/-- The list without a key's entry. -/
def cellDrop {α : Type} (k : Nat) : List (Nat × α) → List (Nat × α)
  | [] => []
  | (j, w) :: r => if j = k then r else (j, w) :: cellDrop k r

/-- Keys strictly rising, all above `lo` where one is given. -/
def risingFrom {α : Type} : Option Nat → List (Nat × α) → Bool
  | _, [] => true
  | none, (k, _) :: r => risingFrom (some k) r
  | some lo, (k, _) :: r => decide (lo < k) && risingFrom (some k) r

/-- What a key reads as. -/
def Tab.get {α : Type} (t : Tab α) (k : Nat) : α := (cellFind k t.cells).getD t.dflt

/-- The table with a key's value replaced; a value equal to the default is not listed. -/
def Tab.set {α : Type} [DecidableEq α] (t : Tab α) (k : Nat) (v : α) : Tab α :=
  ⟨t.dflt, if v = t.dflt then cellDrop k t.cells else cellPut k v t.cells⟩

/-- The table with a key's value changed by a function. -/
def Tab.modify {α : Type} [DecidableEq α] (t : Tab α) (k : Nat) (f : α → α) : Tab α := t.set k (f (t.get k))

/-- Every listed key that a test picks returns to the default. -/
def Tab.erase {α : Type} (t : Tab α) (p : Nat → Bool) : Tab α := ⟨t.dflt, t.cells.filter fun c => !p c.1⟩

/-- The canonical form: keys strictly rising, no entry equal to the default. -/
def Tab.wf {α : Type} [DecidableEq α] (t : Tab α) : Bool :=
  risingFrom none t.cells && t.cells.all fun c => decide (c.2 ≠ t.dflt)

end Sys2Proof

namespace Sys2Proof.Machine

/-! ### Memory

One canonical list of cells. Keys are the DMA addresses of 17 R513 (space [63:60]); spaces 8 to 10 are the model's own. -/

/-- What an unlisted byte reads as (DESIGN CHOICE, log 3). -/
def memDefault : Byte := 0

/-- The canonical form of memory. -/
def Memory.wf (m : List Host.Cell) : Bool := risingFrom none m && m.all fun c => decide (c.2 ≠ memDefault)

/-- One byte of memory. -/
def memRead (m : List Host.Cell) (a : Nat) : Byte := (cellFind a m).getD memDefault

/-- Memory with one byte written. -/
def memWrite (m : List Host.Cell) (a : Nat) (v : Byte) : List Host.Cell :=
  if v = memDefault then cellDrop a m else cellPut a v m

/-- `n` bytes from an address on. -/
def memBytes (m : List Host.Cell) (a : Nat) : Nat → Bytes
  | 0 => []
  | n + 1 => memRead m a :: memBytes m (a + 1) n

/-- Memory with a byte string written from an address on, in ascending order. -/
def memPut (m : List Host.Cell) (a : Nat) : Bytes → List Host.Cell
  | [] => m
  | b :: r => memPut (memWrite m a b) (a + 1) r

/-- Memory with the bytes from `a` to before `b` at zero (a cleared range). -/
def memClear (m : List Host.Cell) (a b : Nat) : List Host.Cell :=
  m.filter fun c => decide (c.1 < a) || decide (b ≤ c.1)

/-- DMA address of an offset of a die's memory (R513). -/
def memAddr (die off : Nat) : Nat := die * 2 ^ 45 + off
/-- DMA address of an offset in keeper SRAM (R513). -/
def ksramAddr (off : Nat) : Nat := 2 ^ 60 + off
/-- Key of an offset in an engine's shared buffer (R513). -/
def sharedAddr (engine off : Nat) : Nat := 2 * 2 ^ 60 + engine * 2 ^ 22 + off
/-- Key of a byte of the QSPI flash (13 R420); the model's own space. -/
def flashAddr (off : Nat) : Nat := 8 * 2 ^ 60 + off
/-- Key of a byte of the image staging buffer (07 R266); the model's own space. -/
def imgStageAddr (off : Nat) : Nat := 10 * 2 ^ 60 + off

/-- The state with memory bytes written. -/
def State.putMem (s : State) (a : Nat) (b : Bytes) : State := { s with mem := memPut s.mem a b }

/-! ### Update of one part of the state -/

def State.onPower (s : State) (f : Power → Power) : State := { s with power := f s.power }
def State.onTime (s : State) (f : Time → Time) : State := { s with time := f s.time }
def State.onStart (s : State) (f : Start → Start) : State := { s with start := f s.start }
def State.onKeeper (s : State) (f : Keeper → Keeper) : State := { s with keeper := f s.keeper }
def State.onTables (s : State) (f : Tables → Tables) : State := { s with tables := f s.tables }
def State.onSwitch (s : State) (f : Switch → Switch) : State := { s with switch := f s.switch }
def State.onFlow (s : State) (f : Flow → Flow) : State := { s with flow := f s.flow }
def State.onColl (s : State) (f : Coll → Coll) : State := { s with coll := f s.coll }
def State.onFabric (s : State) (f : Fabric → Fabric) : State := { s with fabric := f s.fabric }
def State.onResident (s : State) (f : Resident → Resident) : State := { s with resident := f s.resident }
def State.onOptics (s : State) (f : Optics → Optics) : State := { s with optics := f s.optics }
def State.onExpress (s : State) (f : Express → Express) : State := { s with express := f s.express }
def State.onMgmt (s : State) (f : Mgmt → Mgmt) : State := { s with mgmt := f s.mgmt }
def State.onBop (s : State) (f : Bop → Bop) : State := { s with bop := f s.bop }
def State.onRegs (s : State) (f : Regs → Regs) : State := { s with regs := f s.regs }
def State.onRas (s : State) (f : Ras → Ras) : State := { s with ras := f s.ras }

/-! ### Keys of units -/

/-- (die, port, class, subscriber) of a VOQ. -/
def voqKey (die port cls sub : Nat) : Nat := ((die * 288 + port) * 8 + cls) * 16 + sub
/-- (die, class, subscriber) of a multicast queue. -/
def mcKey (die cls sub : Nat) : Nat := (die * 8 + cls) * 16 + sub
/-- (die, group, class) of a reduction list. -/
def redKey (die group cls : Nat) : Nat := (die * 65536 + group) * 8 + cls
/-- (intermediate die, egress die, class) of a transit queue. -/
def transitKey (die egress cls : Nat) : Nat := (die * 8 + egress) * 8 + cls
/-- (port, lane or member). -/
def laneKey (port lane : Nat) : Nat := port * 8 + lane
/-- (port, lane or member, class). -/
def laneqKey (port lane cls : Nat) : Nat := (port * 8 + lane) * 8 + cls
/-- (port, class). -/
def pcKey (port cls : Nat) : Nat := port * 8 + cls
/-- (die, port, class). -/
def dpcKey (die port cls : Nat) : Nat := (die * 288 + port) * 8 + cls
/-- (die, x) for x below 2^32. -/
def dieKey (die x : Nat) : Nat := die * 2 ^ 32 + x
/-- (die, group). -/
def groupKey (die group : Nat) : Nat := die * 65536 + group
/-- (die, group, instance). -/
def slotKey (die group inst : Nat) : Nat := (die * 65536 + group) * 65536 + inst
/-- (die, context). -/
def ctxKey (die c : Nat) : Nat := die * 4096 + c

/-- The die that owns a port (01 R15). -/
def portDie (p : Nat) : Nat := if p < 256 then p / 32 else (p - 256) / 4
/-- Whether a port number names a fibre port. -/
def isFibre (p : Nat) : Bool := p < 256

/-! ### Clocks -/

/-- The queue clock, ns (03 R99). -/
def nowNs (s : State) : Nat := s.time.queue4 / 4
/-- The model's own wall clock, ns. -/
def wallNs (s : State) : Nat := s.time.wall4 / 4
/-- TMU_NOW_NS. -/
def tmuNs (s : State) : Nat := (s.time.tmu.toNat) / 2 ^ 28
/-- FRAC of the time unit, 2^-16 ns. -/
def tmuFrac (s : State) : Nat := s.time.tmu.toNat / 2 ^ 12 % 2 ^ 16
/-- A counter value in units of 2^-16 ns. -/
def folFixed (s : State) (d : Nat) : Nat := (s.time.followers.get d).toNat / 2 ^ 12
/-- TMF_NOW_NS of a sector die. -/
def folNs (s : State) (d : Nat) : Nat := (s.time.followers.get d).toNat / 2 ^ 28
/-- Whether a die's clocks run: in OFF, RESET and FROZEN they stand (13 R412). -/
def clocksRun (s : State) : Bool :=
  match s.start.state with
  | .off | .reset | .frozen => false
  | _ => true

/-! ### Dies, presence and state -/

/-- Whether a sector die is in service (00 R2). -/
def dieUp (s : State) (d : Nat) : Bool := s.start.sectorDies.getLsbD d
/-- The sector dies in service, ascending. -/
def diesUp (s : State) : List Nat := (upTo 8).filter (dieUp s)
/-- Whether the part is the CQS-4352-S. -/
def isS (s : State) : Bool := s.start.partCode == 2
/-- Whether a tile is in service. -/
def tileUp (s : State) (d t : Nat) : Bool := s.start.aihornTiles.getLsbD (8 * d + t)
/-- Whether the keeper die serves events, objects and its engine (01 R29). -/
def keeperUp (s : State) : Bool := !s.start.keeperLost && clocksRun s
/-- Code of the device state (15 R447). -/
def stateCode : DevState → Nat
  | .off => 0 | .reset => 1 | .fuseLoad => 2 | .romBoot => 3 | .fwVerify => 4 | .memTrain => 5 | .opticsCal => 6
  | .marginTest => 7 | .linkUp => 8 | .service => 9 | .degraded => 10 | .frozen => 11 | .halted => 12
/-- LINK_UP, SERVICE or DEGRADED: the device carries traffic. -/
def isUp (s : State) : Bool := 8 ≤ stateCode s.start.state && stateCode s.start.state ≤ 10

/-! ### Objects that hold a plain value -/

/-- Key of an object. -/
def objKey (idx sub : Nat) : Nat := idx * 256 + sub
/-- Value of a plain object, its default where it was not written (16 R480). -/
def objGet (s : State) (idx sub dflt : Nat) : Nat := (cellFind (objKey idx sub) s.obj).getD dflt
/-- A plain object written. -/
def objSet (idx sub v : Nat) (s : State) : State := { s with obj := cellPut (objKey idx sub) v s.obj }

def cfgThermWarn (s : State) : Nat := objGet s 0x020004 1 100
def cfgBaseWarn (s : State) : Nat := objGet s 0x020004 2 75
def cfgRefPrefer (s : State) : Nat := objGet s 0x020005 2 0
def cfgRingLockMode (s : State) : Nat := objGet s 0x040001 1 0
def cfgMigrationMode (s : State) : Nat := objGet s 0x040001 2 0
def cfgMarginMode (s : State) : Nat := objGet s 0x040001 3 0
def cfgStartMargin (s : State) : Nat := objGet s 0x040001 4 60
def cfgRejoinMargin (s : State) : Nat := objGet s 0x040001 5 35
def cfgSeekBackoff (s : State) : Nat := objGet s 0x040001 6 500
def cfgNodeId (s : State) : Nat := objGet s 0x040001 7 (s.keeper.voted.get 3)
def cfgAgingMode (s : State) : Nat := objGet s 0x080001 1 0
def cfgSpareMode (s : State) : Nat := objGet s 0x0B0001 5 0
def cfgCollRecovery (s : State) : Nat := objGet s 0x0A0001 7 0
def cfgServoMode (s : State) : Nat := objGet s 0x0D0001 1 0
def cfgStepLimit (s : State) : Nat := objGet s 0x0D0001 2 1000
def cfgLateTolerance (s : State) : Nat := objGet s 0x0D0001 3 1000
def cfgLateAction (s : State) : Nat := objGet s 0x0D0001 4 0
def cfgTcEnable (s : State) (p : Nat) : Bool := objGet s (0x0D0100 + p) 1 1 == 1
def cfgDevIndex (s : State) : Nat := objGet s 0x0A0001 1 0xFFFF
def cfgDomainId (s : State) : Nat := objGet s 0x010010 5 0xFFFF
def cfgSessionIdle (s : State) : Nat := objGet s 0x010010 6 60
def cfgFogHeartbeat (s : State) : Nat := objGet s 0x010020 2 1000
def cfgFogRetry (s : State) : Nat := objGet s 0x010020 3 200
def cfgFogStale (s : State) : Nat := objGet s 0x010020 4 30
def cfgFogHoldoff (s : State) : Nat := objGet s 0x010020 5 1000
def cfgFogSeverity (s : State) : Nat := objGet s 0x010020 6 2
def cfgFreezeOn (s : State) : Nat := objGet s 0x10F001 5 0
def cfgCrosscheckRate (s : State) : Nat := objGet s 0x10F001 2 256
def cfgScrubPeriod (s : State) : Nat := objGet s 0x10F001 3 24
def cfgMemCeLimit (s : State) : Nat := objGet s 0x10F001 4 1000
def cfgSelftestPeriod (s : State) : Nat := objGet s 0x10F001 1 10

/-- SERIAL (14 R427). -/
def serial (s : State) : Nat := s.keeper.voted.get 2
/-- MAC_BASE (14 R427). -/
def macBase (s : State) : Nat := s.keeper.voted.get 4

/-- A write that covers whole granules ends their uncorrectable errors (18 R532). -/
def coverGranules (a n : Nat) (s : State) : State :=
  s.onRas fun x => { x with
    poisoned := x.poisoned.filter fun g => !(decide (a ≤ g * 256) && decide ((g + 1) * 256 ≤ a + n)) }

/-! ### Free values and outputs -/

/-- The next free value; the counter advances. -/
def draw (s : State) : Nat × State := (Config.freeValue s.free, { s with free := s.free + 1 })

/-- A die's generator set (06 R208). -/
def setGen (die : Nat) (g : BitVec 128) (s : State) : State := { s with gens := s.gens.set die g }

/-- 06 R208: the next number of a die's own generator. -/
def drawOn (die : Nat) (s : State) : Nat × State :=
  (Config.genWord (s.gens.get die), setGen die (Config.genStep (s.gens.get die)) s)

/-- Something leaves the device. -/
def emitOut (o : Out) (s : State) : State := { s with out := o :: s.out }

/-! ### Foghorn events (16 R488, R489) -/

/-- The UNIT field of R489: die (15 the device), the unit's number, a lane, slot or class. -/
def unitOf (die number low : Nat) : Nat := die % 16 * 2 ^ 28 + number % 4096 * 2 ^ 16 + low % 65536

/-- 32-bit arguments in order (R493). -/
def args32 (l : List Int) : Bytes := l.flatMap fun v => beBytes 4 (unsigned 32 v)

/-- Key of a counter: die, event, instance (18 R541). -/
def cntKey (die ev inst : Nat) : Nat := (die * 65536 + ev) * 65536 + inst

/-- 18 R540: an event's counter of one instance takes `n` more: 48 bits, HIT set, OVF set on a wrap. Counters stand in
FROZEN and OFF. -/
def count (die ev inst n : Nat) (s : State) : State :=
  match s.start.state with
  | .frozen | .off => s
  | _ =>
    let k := cntKey die ev inst
    let v := s.regs.counters.get k + n
    let f := s.regs.flags.get k
    { s with regs := { s.regs with
        counters := s.regs.counters.set k (v % 2 ^ 48)
        flags := s.regs.flags.set k (if n = 0 then f else setBit (if 2 ^ 48 ≤ v then setBit f 1 true else f) 0 true) } }

/-- The holdoff record of a pair, if any (R488). -/
def findHoldoff (code unit : Nat) : List Holdoff → Option Holdoff
  | [] => none
  | h :: r => if h.code = code ∧ h.unit = unit then some h else findHoldoff code unit r

/-- R488: raise one event. Severity and holdoff may suppress it; the ring keeps 1,024. -/
def raise (code sev unit : Nat) (args : Bytes) (s : State) : State :=
  if !keeperUp s || decide (cfgFogSeverity s < sev) then s else
  let others := s.bop.holdoffs.filter fun h => !(h.code = code && h.unit = unit)
  match findHoldoff code unit s.bop.holdoffs with
  | some h =>
    if nowNs s < h.raisedAt + cfgFogHoldoff s * 1000000 then
      { s with bop := { s.bop with holdoffs := { h with suppressed := h.suppressed + 1 } :: others } }
    else
      let e : Event := ⟨s.bop.nextSeq, BitVec.ofNat 32 (tmuNs s), code, sev, min 255 h.suppressed, unit, padTo 32 args⟩
      let full := 1024 ≤ s.bop.ring.length
      let s := if full then count 8 0xC001 0 1 s else s
      { s with bop := { s.bop with
          holdoffs := ⟨code, unit, nowNs s, 0⟩ :: others
          ring := (if full then s.bop.ring.drop 1 else s.bop.ring) ++ [e]
          nextSeq := (s.bop.nextSeq + 1) % 2 ^ 32 } }
  | none =>
    let e : Event := ⟨s.bop.nextSeq, BitVec.ofNat 32 (tmuNs s), code, sev, 0, unit, padTo 32 args⟩
    let full := 1024 ≤ s.bop.ring.length
    let s := if full then count 8 0xC001 0 1 s else s
    { s with bop := { s.bop with
        holdoffs := ⟨code, unit, nowNs s, 0⟩ :: others
        ring := (if full then s.bop.ring.drop 1 else s.bop.ring) ++ [e]
        nextSeq := (s.bop.nextSeq + 1) % 2 ^ 32 } }

/-- 16 R468: a session closes. The requests it has accepted still run: they move, with their session, to the first free place
behind the eight numbers (8 j + k). -/
def sessionClosed (k : Nat) (s : State) : State :=
  match s.bop.sessions.get k with
  | none => s
  | some x =>
    let t : Tab (Option Session) := s.bop.sessions.set k none
    let place := (List.range 256).find? fun j => (t.get (8 * (j + 1) + k)).isNone
    let t := if x.accepted.isEmpty then t else
      t.set (8 * (place.getD 256 + 1) + k) (some { x with closing := true, partials := [], replies := [] })
    { s with bop := { s.bop with sessions := t } }

/-- 16 R472: every session closes, and the domain sessions lose what they have partly received. -/
def sessionsLost (s : State) : State :=
  let s := (List.range 8).foldl (fun s k => sessionClosed k s) s
  { s with bop := { s.bop with domain := ⟨s.bop.domain.dflt, s.bop.domain.cells.map fun c =>
      (c.1, c.2.map fun (x : Session) => { x with partials := [] })⟩ } }

/-- The status an object write answers with (16 R481), and its value. -/
def answer (code : Nat) (s : State) : State := { s with bop := { s.bop with answer := code, answerValue := [] } }

def stDone : Nat := 0
def stNotFound : Nat := 1
def stBadValue : Nat := 2
def stBusy : Nat := 3
def stNotReady : Nat := 4
def stUnitAbsent : Nat := 5
def stDenied : Nat := 6
def stNoObject : Nat := 7
def stBadLength : Nat := 8
def stSkipped : Nat := 9
def stExists : Nat := 10
def stQuarantined : Nat := 11
def stGenReused : Nat := 12
def stNoContext : Nat := 13
def stImageUnbound : Nat := 14
def stBusError : Nat := 15

/-- 15 R450, R463: whether the device answers requests for an object at all in its state. -/
def rangeReady (s : State) (idx : Nat) : Bool :=
  let r := idx / 65536
  match s.start.state with
  | .off | .reset | .frozen | .fuseLoad | .romBoot | .fwVerify => false
  | .halted => s.start.haltCause == 4 && (r == 0 || r == 1)
  | .memTrain | .opticsCal | .marginTest =>
    r == 0 || r == 1 || r == 2 || r == 4 || r == 6 || r == 0xD || r == 0x10 || r == 0x1F
      || (0x090010 ≤ idx && idx < 0x090018)
  | _ => true

/-- 16 R483: whether a role may write objects of a range, leaving aside the objects that only ADMIN writes. -/
def roleWrites (r : Role) (idx : Nat) : Bool :=
  match r with
  | .admin => true
  | .operator => idx / 65536 != 1 && idx / 65536 != 0x1F
  | .fabric =>
    let x := idx / 65536
    x == 5 || x == 8 || x == 9 || x == 0xA || x == 0xB || x == 0xC
  | .observer => false

/-- 16 R483, 14 R446, 18 R545: objects that only ADMIN writes, although their range is open to another role. -/
def adminOnly (idx sub : Nat) : Bool := idx == 0x10F001 && sub == 6

/-- Objects that any role writes (16 R483, 14 R438). -/
def anyRole (idx sub : Nat) : Bool := (idx == 0x010004 && sub == 4) || (idx == 0x010005 && sub == 2)

/-- 15 R450: of the objects 0x09_0010 + c only .01, CLASS_FLAGS, is open before LINK_UP. -/
def objReady (s : State) (idx sub : Nat) : Bool :=
  rangeReady s idx && !(idx / 65536 == 9 && sub != 1 && decide (stateCode s.start.state < 8))

/-- Whether an object takes writes now: SERVICE_ENTER only from LINK_UP on (15 R457), else as 15 R450 opens it. -/
def writeReady (s : State) (idx sub : Nat) : Bool :=
  objReady s idx sub && !(idx == 0x000002 && sub == 4 && decide (stateCode s.start.state < 8))

/-- 16 R482 up to DENIED for a write of an object that exists and is writable. -/
def writeCheck (r : Role) (idx sub : Nat) (s : State) : Nat :=
  let x := idx / 65536
  if isS s && (x == 0xB || x == 0xC) then stUnitAbsent
  else if !writeReady s idx sub then stNotReady
  else if (roleWrites r idx && !adminOnly idx sub) || r == .admin || anyRole idx sub then stDone
  else stDenied

/-- A write of an object by a role: the checks of R482, then the object's own effect, which answers. While the keeper
does not serve objects the write has no effect and no answer. -/
def guardWrite (r : Role) (idx sub : Nat) (k : State → State) (s : State) : State :=
  if !keeperUp s then s else
  let c := writeCheck r idx sub s
  if c = stDone then k s else answer c s

/-- A plain value with a range: BAD_VALUE outside it (16 R481), else stored. -/
def writeRange (idx sub v lo hi : Nat) (s : State) : State :=
  if v < lo || hi < v then answer stBadValue s else answer stDone (objSet idx sub v s)

end Sys2Proof.Machine
end

