-- ==== Sys2Proof/Machine/Flags.lean ====
section
/-! DEFINITION. The flags of the block: write-1-to-clear and read-and-clear words (00 R13, R14), the sticky counter
flags HIT and OVF (18 R540), and the status words that registers and objects show. -/

namespace Sys2Proof.Machine

/-- R13, W1C: each bit written as 1 clears. -/
def w1c {n : Nat} (old written : BitVec n) : BitVec n := old &&& ~~~written

/-- R13, W1C on one flag. -/
def w1cBit (old written : Bool) : Bool := old && !written

/-- R14: a bit the device sets in the clock of its clear stays set. -/
def w1cWithSet {n : Nat} (old written set : BitVec n) : BitVec n := (old &&& ~~~written) ||| set

/-- 18 R540: the flags of a counter with the flags written as 1 cleared. -/
def clearFlags (die ev inst written : Nat) (s : State) : State :=
  let k := cntKey die ev inst
  let f := s.regs.flags.get k
  let f := if bit written 0 then setBit f 0 false else f
  let f := if bit written 1 then setBit f 1 false else f
  { s with regs := { s.regs with flags := s.regs.flags.set k f } }

/-- 00 R1: the memory channels of a sector die, by its part. -/
def memChannels (s : State) : Nat := if isS s then 8 else 24

/-- 18 R541 to R543: whether a die (8 the keeper die) can hold a counter of an event for an instance; `chans` is the part's
number of memory channels per sector die (00 R1). -/
def counterNamed (chans die ev inst : Nat) : Bool :=
  let c := ev / 4096
  let low := ev % 4096
  let dEvent := inst == 0 && die ≤ 8 && (if 0xA ≤ c && c ≤ 0xC then die == 8 else true)
  let port := inst < 288 && portDie inst == die
  let pc := inst < 2304 && portDie (inst / 8) == die
  let lane := inst < 2048 && portDie (inst / 8) == die
  let sector := die < 8
  match c with
  | 0x0 => low == 1 && dEvent
  | 0x1 => low ≤ 8 && dEvent
  | 0x2 =>
    if low == 0 then dEvent
    else if low == 1 then sector && inst < 8
    else if low == 2 || low == 3 then pc
    else if 4 ≤ low && low ≤ 6 then dEvent
    else if 7 ≤ low && low ≤ 10 then port
    else if low == 11 then sector && inst < 8
    else if low == 12 then dEvent
    else (low == 13 || low == 14) && port
  | 0x3 => if low == 0 then dEvent else (low == 1 || low == 2) && pc
  | 0x4 => low ≤ 8 && dEvent
  | 0x5 => low ≤ 5 && dEvent
  | 0x6 => low ≤ 2 && sector && inst < 8
  | 0x7 => low ≤ 6 && dEvent
  | 0x8 => if low == 1 then port else (low == 0 || low == 2 || low == 3) && lane
  | 0x9 => low == 0 && sector && inst < 512
  | 0xA => if low == 2 then dEvent else low ≤ 1 && port
  | 0xB => low ≤ 4 && dEvent
  | 0xC => low ≤ 1 && dEvent
  | 0xD => low ≤ 1 && dEvent
  | 0xE => if low ≤ 1 then dEvent else low ≤ 3 && sector && inst < chans
  | _ => false

/-- 18 R541: whether a die holds a counter. The S part has no tiles, and so no counter of one (00 R1). The counter of a path is its sink die's; while the number names no path, any sector
die holds what it counted. -/
def counterHeld (s : State) (die ev inst : Nat) : Bool :=
  counterNamed (memChannels s) die ev inst && !(isS s && ev / 4096 == 6)
    && (ev != 0x9000 || (s.express.paths.get inst).state == .idle || portDie (s.express.paths.get inst).b == die)

/-- TMU_STATUS as it reads (12 R379). -/
def tmuStatus (s : State) : Word :=
  BitVec.ofNat 32 ((if s.time.pendingStep.isSome then 2 ^ 31 else 0) + (if s.time.clk10Lost then 32 else 0)
    + (if s.time.ppsLost then 16 else 0) + (if s.time.stepForced then 8 else 0) + (if s.time.stepOverrun then 4 else 0)
    + (if s.time.stepRefused then 2 else 0) + (if s.time.incRefused then 1 else 0))

/-- A write of TMU_STATUS (12 R379): the four W1C bits. -/
def tmuStatusWrite (v : Word) (s : State) : State :=
  { s with time := { s.time with
      stepForced := w1cBit s.time.stepForced (v.getLsbD 3)
      stepOverrun := w1cBit s.time.stepOverrun (v.getLsbD 2)
      stepRefused := w1cBit s.time.stepRefused (v.getLsbD 1)
      incRefused := w1cBit s.time.incRefused (v.getLsbD 0) } }

/-- REFCLK_STATE (13 R425). -/
def refclkState (s : State) : Nat :=
  (if s.power.refA then 1 else 0) + (if s.power.refB then 2 else 0) + (if s.power.selected && s.power.selB then 4 else 0)
    + (if s.power.holdover then 8 else 0)

/-- FAULT_N is driven low (13 R414). In RESET and without power it is released, but for a latched trip (R421). -/
def faultLow (s : State) : Bool :=
  s.start.state == .halted || s.start.state == .frozen || s.power.trip
    || ((s.start.headless || s.power.holdover) && s.start.state != .off && s.start.state != .reset)

end Sys2Proof.Machine
end

