-- ==== Sys2Proof/Machine/Crc.lean ====
section
/-! DEFINITION. The cyclic checks of the manual: CRC-32C (02 R48), the IEEE CRC-32 (02 R48) and the FCS of a frame, each
reflected in and out. A seed is loaded into the reflected register as it stands (log 20). -/

namespace Sys2Proof.Machine

/-- One bit of a reflected CRC register. -/
def crcBit (poly c : Nat) : Nat := if c % 2 = 1 then Nat.xor (c / 2) poly else c / 2

/-- Eight bits of a reflected CRC register. -/
def crcByte (poly c : Nat) : Nat :=
  crcBit poly (crcBit poly (crcBit poly (crcBit poly (crcBit poly (crcBit poly (crcBit poly (crcBit poly c)))))))

/-- The register after a byte string. -/
def crcRun (poly : Nat) : Nat → Bytes → Nat
  | c, [] => c
  | c, b :: r => crcRun poly (crcByte poly (Nat.xor c b.toNat)) r

/-- CRC-32C from an initial register, final XOR 0xFFFF_FFFF (R48). -/
def crc32c (init : Nat) (b : Bytes) : Nat := Nat.xor (crcRun 0x82F63B78 init b) 0xFFFFFFFF

/-- The IEEE CRC-32 from an initial register, final XOR 0xFFFF_FFFF (R48). -/
def crc32 (init : Nat) (b : Bytes) : Nat := Nat.xor (crcRun 0xEDB88320 init b) 0xFFFFFFFF

/-- CRC-32C with the standard initial value. -/
def crc32cStd (b : Bytes) : Nat := crc32c 0xFFFFFFFF b

/-- The frame check sequence of a frame's bytes, sent least significant byte first (IEEE 802.3; PRESUMED, log 21). -/
def fcsOf (b : Bytes) : Bytes := leBytes 4 (crc32 0xFFFFFFFF b)

/-- Whether a frame's last four bytes are its FCS. -/
def fcsGood (f : Bytes) : Bool := 4 ≤ f.length && f.drop (f.length - 4) == fcsOf (f.take (f.length - 4))

/-- The contribution of an entry to a table digest (02 R68). -/
def digestOf (c : Bytes) : BitVec 64 :=
  BitVec.ofNat 64 (crc32 0xFFFFFFFF c + 2 ^ 32 * crc32cStd c)

end Sys2Proof.Machine
end

