-- ==== Sys2Proof/Machine/Tables.lean ====
section
/-! DEFINITION. Forwarding tables, learning, aging, the table command interface, digests and drain probes (02). -/

namespace Sys2Proof.Machine

/-! ### Entries and digests (R36 to R39, R68, R553) -/

/-- Key of an entry number of a die's indexed table. -/
def tblKey (die i : Nat) : Nat := die * 65536 + i
/-- Key of an EMT position of a die (R66). -/
def emtKey (die pos : Nat) : Nat := die * 2 ^ 22 + pos
/-- Key of a prefix: die, IPv6 (0) or IPv4 (1), length, the 16 address bytes as a number. -/
def lpmKey (die fam len addr : Nat) : Nat := ((die * 2 + fam) * 256 + len) * 2 ^ 128 + addr
/-- Key of a die's digest of a table. -/
def digKey (die t : Nat) : Nat := die * 8 + t

def words (l : List Nat) : Bytes := l.flatMap (beBytes 4)

/-- Digest contents (R68). -/
def ditContent (i : Nat) (w : Word) : Bytes := words [i, w.toNat]
def bundleContent (i : Nat) (b : Bundle) : Bytes :=
  words ([i, b.count] ++ (b.ports ++ List.replicate (4 - b.ports.length) 0).take 4)
def mcastContent (i : Nat) (m : BitVec 288) : Bytes :=
  words (i :: (upTo 9).map fun w => m.toNat / 2 ^ (32 * w) % 2 ^ 32)
def nextHopContent (i : Nat) (n : NextHop) : Bytes :=
  words [i, n.result.toNat, n.mac.toNat / 65536, n.mac.toNat % 65536]
def lpmContent (len addr nh : Nat) : Bytes := beBytes 1 len ++ beBytes 16 addr ++ beBytes 2 nh

/-- The digest of an empty table: every DIT, bundle, multicast and next-hop entry counts (R68). -/
def emptyDigest (t : Nat) : BitVec 64 :=
  match t with
  | 0 => (upTo 65536).foldl (fun a i => a + digestOf (ditContent i 0)) 0
  | 1 => (upTo 512).foldl (fun a i => a + digestOf (bundleContent i ⟨0, []⟩)) 0
  | 2 => (upTo 65536).foldl (fun a i => a + digestOf (mcastContent i 0)) 0
  | 3 => (upTo 32768).foldl (fun a i => a + digestOf (nextHopContent i ⟨0, 0⟩)) 0
  | _ => 0

/-- A die's digest of a table as it stands (R68). -/
def tableDigest (s : State) (die t : Nat) : BitVec 64 := emptyDigest t + s.tables.digest.get (digKey die t)

/-- One entry's content leaves a table and another comes (R68: the digest follows every change). -/
def digestChange (die t : Nat) (old new : Option Bytes) (s : State) : State :=
  let o := (old.map digestOf).getD 0
  let n := (new.map digestOf).getD 0
  s.onTables fun x => { x with digest := x.digest.modify (digKey die t) (fun d => d - o + n) }

/-- R37: a result word as the device stores it. -/
def resultWord (w : Word) : Word := w &&& 0xC000FFFF
def resAction (w : Word) : Nat := w.toNat / 2 ^ 30
def resTarget (w : Word) : Nat := w.toNat % 65536
/-- R37: TARGET is a bundle number 0 to 511 for BUNDLE (log 22). -/
def resultOk (w : Word) : Bool := resAction w != 1 || resTarget w < 512

def setDit (die i : Nat) (w : Word) (s : State) : State :=
  let s := digestChange die 0 (some (ditContent i (s.tables.dit.get (tblKey die i)))) (some (ditContent i w)) s
  s.onTables fun x => { x with dit := x.dit.set (tblKey die i) w }

def setBundle (die i : Nat) (b : Bundle) (s : State) : State :=
  let s := digestChange die 1 (some (bundleContent i (s.tables.bundle.get (tblKey die i)))) (some (bundleContent i b)) s
  s.onTables fun x => { x with bundle := x.bundle.set (tblKey die i) b }

def setMcast (die i : Nat) (m : BitVec 288) (s : State) : State :=
  let s := digestChange die 2 (some (mcastContent i (s.tables.mcast.get (tblKey die i)))) (some (mcastContent i m)) s
  s.onTables fun x => { x with mcast := x.mcast.set (tblKey die i) m }

def setNextHop (die i : Nat) (n : NextHop) (s : State) : State :=
  let s := digestChange die 3 (some (nextHopContent i (s.tables.nextHop.get (tblKey die i)))) (some (nextHopContent i n)) s
  s.onTables fun x => { x with nextHop := x.nextHop.set (tblKey die i) n }

/-- A prefix's next hop set or removed; `units` is the change of the units in use (R45). -/
def setLpm (die fam len addr : Nat) (v : Option Nat) (units : Int) (s : State) : State :=
  let k := lpmKey die fam len addr
  let s := digestChange die (4 + fam) ((s.tables.lpm.get k).map (lpmContent len addr)) (v.map (lpmContent len addr)) s
  s.onTables fun x => { x with
    lpm := x.lpm.set k v
    lpmUnits := x.lpmUnits.modify die fun u => ((u : Int) + units).toNat }

/-- R38: a valid bundle entry, from COUNT and the four PORT fields. -/
def bundleOf (count : Nat) (ports : List Nat) : Option Bundle :=
  let p := ports.take count
  if count = 0 then some ⟨0, []⟩
  else if 4 < count then none
  else if p.all (· < 256) && p.eraseDups.length == count then some ⟨count, p⟩
  else if count = 1 && p.all (fun x => 256 ≤ x && x < 288) then some ⟨count, p⟩
  else none

/-! ### The exact-match table (R46 to R54) -/

/-- What an EMT position holds. -/
def emtAt (s : State) (die pos : Nat) : Option EmtEntry := s.tables.emt.get (emtKey die pos)

/-- The four positions of a bucket (R66). -/
def bucketOf (bank k : Nat) : List Nat := (upTo 4).map fun i => bank * 2 ^ 20 + 4 * k + i

/-- The candidate bucket of a key in a bank (R48). -/
def candidate (s : State) (die bank : Nat) (key : Bytes) : List Nat :=
  if bank = 0 then bucketOf 0 (crc32c (s.tables.seed0.get die).toNat key % 2 ^ 18)
  else bucketOf 1 (crc32 (s.tables.seed1.get die).toNat key % 2 ^ 18)

/-- The stash positions (R66). -/
def stash : List Nat := (upTo 64).map fun e => 2 ^ 21 + e

/-- The first position of a list that a test picks. -/
def firstPos (p : Nat → Bool) : List Nat → Option Nat
  | [] => none
  | x :: r => if p x then some x else firstPos p r

/-- R49: where a key is present. -/
def emtFind (s : State) (die : Nat) (key : Bytes) : Option Nat :=
  firstPos (fun p => (emtAt s die p).any fun e => e.key == key) (candidate s die 0 key ++ candidate s die 1 key ++ stash)

/-- R46: a key the device takes. -/
def emtKeyOk (k : Bytes) : Bool :=
  let t := byteAt k 0
  k.length == 20 && 1 ≤ t && t ≤ 4 && allZero (slice k 1 3) && (t == 1 || t == 3 || allZero (slice k 4 12))

/-- R47, R553: the data as the device stores it for a key, if it takes it. -/
def emtData (k d : Bytes) : Option Bytes :=
  if byteAt k 0 ≤ 2 then some (beBytes 4 (beAt d 0 4 % 2 ^ 15) ++ List.replicate 12 0)
  else
    let w := resultWord (BitVec.ofNat 32 (beAt d 0 4))
    if resAction w = 1 && resultOk w then
      some (beBytes 4 w.toNat ++ slice d 4 4 ++ beBytes 4 (beAt d 8 4 % 65536) ++ List.replicate 4 0)
    else none

/-- Free slots of a list of positions. -/
def freeSlots (s : State) (die : Nat) (l : List Nat) : List Nat := l.filter fun p => (emtAt s die p).isNone

/-- R52 step 2: the relocation plan from a full bucket: the slots assigned so far, then a victim that the die's generator
(06 R208) chooses among the slots the plan has not assigned, until the victim's other bucket has a free slot. The generator's
state after the plan stands beside it. -/
def relocate (s : State) (die : Nat) : Nat → BitVec 128 → List Nat → List Nat → Option (List Nat) × BitVec 128
  | 0, g, _, _ => (none, g)
  | fuel + 1, g, bucket, assigned =>
    let cand := bucket.filter fun p => !assigned.contains p
    match cand with
    | [] => (none, g)
    | c :: _ =>
      let v := cand.getD (Config.genWord g % cand.length) c
      let key := ((emtAt s die v).map EmtEntry.key).getD []
      let nb := candidate s die (if v < 2 ^ 20 then 1 else 0) key
      match freeSlots s die nb with
      | f :: _ => (some (assigned ++ [v, f]), Config.genStep g)
      | [] => relocate s die fuel (Config.genStep g) nb (assigned ++ [v])

/-- R52 steps 1 and 2: the slots a new key's path takes, the key's own slot first, and the generator after it. -/
def emtPath (s : State) (die : Nat) (key : Bytes) : Option (List Nat) × BitVec 128 :=
  let b0 := candidate s die 0 key
  let b1 := candidate s die 1 key
  let g := s.gens.get die
  match freeSlots s die b0, freeSlots s die b1 with
  | [], [] => relocate s die 32 g b0 []
  | [], f :: _ => (some [f], g)
  | f :: _, [] => (some [f], g)
  | f :: r, h :: r' => (some [if r'.length ≤ r.length then f else h], g)

/-- R52 steps 1 to 3. -/
def emtPlace (s : State) (die : Nat) (key : Bytes) : Option (List Nat) × BitVec 128 :=
  match emtPath s die key with
  | (some p, g) => (some p, g)
  | (none, g) => match freeSlots s die stash with
    | f :: _ => (some [f], g)
    | [] => (none, g)

def emtPut (die pos : Nat) (e : Option EmtEntry) (s : State) : State :=
  s.onTables fun x => { x with emt := x.emt.set (emtKey die pos) e }

/-- R53: a planned path carried out from its free end backwards. -/
def movePath (die : Nat) : List Nat → State → State
  | a :: b :: r, s => let s := movePath die (b :: r) s; emtPut die a none (emtPut die b (emtAt s die a) s)
  | _, s => s

def dynContent (e : EmtEntry) : Option Bytes := if e.learned then none else some (e.key ++ e.data)

/-- How many stash entries are in use. -/
def stashUsed (s : State) (die : Nat) : Nat := stash.length - (freeSlots s die stash).length

/-- R52, R53: place a new entry; none when there is no room. Answers the relocations made. -/
def emtInsertNew (die : Nat) (e : EmtEntry) (s : State) : Option (Nat × Nat × State) :=
  match emtPlace s die e.key with
  | (none, _) => none
  | (some path, g) =>
    let s := movePath die path (setGen die g s)
    let pos := path.headD 0
    let s := emtPut die pos (some { e with serial := s.tables.emtSerial }) s
    let s := s.onTables fun x => { x with emtSerial := x.emtSerial + 1 }
    let s := digestChange die 6 none (dynContent e) s
    let s := if 48 ≤ stashUsed s die then count die 0x1002 0 1 s else s
    some (pos, path.length - 1, s)

/-- R62: an entry whose TS is set anew has not expired again: a later expiry posts a notice of its own. -/
def notPosted (serial : Nat) (s : State) : State :=
  s.onTables fun x => { x with posted := x.posted.set serial false }

/-- The entry of a position replaced by another with the same key, its TS set. -/
def emtReplace (die pos : Nat) (e : EmtEntry) (s : State) : State :=
  let old := (emtAt s die pos).bind dynContent
  notPosted e.serial (emtPut die pos (some e) (digestChange die 6 old (dynContent e) s))

/-- An entry put among others, oldest first. -/
def byAge (x : Nat × EmtEntry) : List (Nat × EmtEntry) → List (Nat × EmtEntry)
  | [] => [x]
  | y :: r => if x.2.serial < y.2.serial then x :: y :: r else y :: byAge x r

/-- The stash entries of a die with their positions, oldest first (R54). -/
def stashEntries (s : State) (die : Nat) : List (Nat × EmtEntry) :=
  (stash.filterMap fun p => (emtAt s die p).map fun e => (p, e)).foldl (fun l x => byAge x l) []

/-- R54: the first of the stash entries, oldest first, that a path of R52 takes into its candidate buckets moves there. -/
def stashTry (die : Nat) : List (Nat × EmtEntry) → State → State
  | [], s => s
  | (p, e) :: r, s =>
    match emtPath s die e.key with
    | (none, g) => stashTry die r (setGen die g s)
    | (some path, g) => emtPut die p none (emtPut die (path.headD 0) (some e) (movePath die path (setGen die g s)))

/-- R54: after a deletion at most one stash entry moves into its candidate buckets. -/
def stashMove (die : Nat) (s : State) : State := stashTry die (stashEntries s die) s

/-- Every other sector die in service is sent a learn record (R57). -/
def sendLearn (die : Nat) (r : LearnRec) (s : State) : State :=
  ((diesUp s).filter (· != die)).foldl (fun s d =>
    s.onTables fun x => { x with learnRecs := x.learnRecs.modify d (· ++ [r]) }) s

/-- An entry leaves: the digest, a deletion record where the entry is the die's own learned one (R57), then R54. -/
def emtDelete (die pos : Nat) (s : State) : State :=
  match emtAt s die pos with
  | none => s
  | some e =>
    let s := digestChange die 6 (dynContent e) none (emtPut die pos none s)
    let s := if e.learned && e.owner == die then sendLearn die ⟨die, true, e.key, e.data⟩ s else s
    stashMove die s

/-! ### Lookups of frames (R40, R41, R60) -/

def cfgAgeLimit (s : State) : Nat := objGet s 0x080001 2 17881
def cfgLearnRate (s : State) : Nat := objGet s 0x080002 1 1000000

/-- R60: a hit or a source match refreshes an entry. -/
def emtTouch (die pos : Nat) (s : State) : State :=
  match emtAt s die pos with
  | some e => notPosted e.serial (emtPut die pos (some { e with ts := s.tables.ageNow.get die }) s)
  | none => s

/-- R44, R553: the longest installed prefix that matches an address, from a length downwards. -/
def lpmSearch (s : State) (die fam addr : Nat) : Nat → Option (Nat × Nat)
  | 0 => (s.tables.lpm.get (lpmKey die fam 0 0)).map fun n => (n, 0)
  | len + 1 =>
    let w := if fam = 0 then 128 else 32
    let a := addr / 2 ^ (w - (len + 1)) * 2 ^ (w - (len + 1))
    match s.tables.lpm.get (lpmKey die fam (len + 1) a) with
    | some n => some (n, len + 1)
    | none => lpmSearch s die fam addr len

/-- The greatest prefix length of a family (R45). -/
def lpmMax (fam : Nat) : Nat := if fam = 0 then 64 else 32

/-- The 20-byte key of a type and an address as 16 bytes (R46). -/
def emtKeyOf (ty : Nat) (addr : Bytes) : Bytes := beBytes 1 ty ++ [0, 0, 0] ++ addr

/-- R40 step 3, R41: what a routed frame takes: result word, MAC address where the result gives one, the position hit. Where
the HOST key and the NEIGH key both hit, the position is the HOST entry's, which alone the frame refreshes: R60 does not say
whether a NEIGH entry that did not decide the frame was hit (DESIGN CHOICE, log 152). -/
def routeLookup (s : State) (die fam : Nat) (addr : Bytes) : Option (Word × Option Nat × Option Nat) :=
  let viaNextHop (n : Nat) : Word × Option Nat :=
    let h := s.tables.nextHop.get (tblKey die n)
    (h.result, if resAction h.result = 1 then some h.mac.toNat else none)
  match emtFind s die (emtKeyOf (1 + fam) addr) with
  | some p =>
    let d := ((emtAt s die p).map EmtEntry.data).getD []
    let (w, m) := viaNextHop (beAt d 0 4 % 2 ^ 15)
    some (w, m, some p)
  | none =>
    match emtFind s die (emtKeyOf (3 + fam) addr) with
    | some p =>
      let d := ((emtAt s die p).map EmtEntry.data).getD []
      some (BitVec.ofNat 32 (beAt d 0 4), some (beAt d 4 4 * 65536 + beAt d 8 4), some p)
    | none =>
      (lpmSearch s die fam (beNat addr) (lpmMax fam)).map fun r =>
        let (w, m) := viaNextHop r.1
        (w, m, none)

/-! ### Learning (R55 to R57) -/

/-- R55: the bundle of EPn: the lowest-numbered whose entry is that port alone. -/
def bundleOfPort (s : State) (die port : Nat) : Option Nat :=
  firstPos (fun i => s.tables.bundle.get (tblKey die i) == ⟨1, [port]⟩) (upTo 512)

/-- Whether an address lies in a subnet object of EPn (R72: family, length, 2 reserved, 16 address bytes). -/
def inSubnet (v fam : Nat) (addr : Bytes) : Bool :=
  let b := beBytes 20 v
  let len := byteAt b 1
  let w := if fam = 0 then 128 else 32
  let a := beNat addr
  let n := beAt b 4 16
  byteAt b 0 == (if fam = 0 then 6 else 4) && len ≤ w && a / 2 ^ (w - len) == n / 2 ^ (w - len)

/-- R55: the source lies in one of EPn's subnets. -/
def learnedSubnet (s : State) (n fam : Nat) (addr : Bytes) : Bool :=
  [1, 2, 3, 4].any fun j =>
    match cellFind (objKey (0x080100 + n) j) s.obj with
    | some v => inSubnet v fam addr
    | none => false

/-- R56: whether a learning write is within the rate, and the rate's count after it. The rule does not say over which window
"per second" runs: the model counts in whole seconds of the queue clock (DESIGN CHOICE, log 150). -/
def learnBudget (die : Nat) (s : State) : Bool × State :=
  let sec := nowNs s / 1000000000
  let used := if s.tables.learnSecond.get die = sec then s.tables.learnCount.get die else 0
  if used < min (cfgLearnRate s) 1000000 then
    (true, s.onTables fun x => { x with learnSecond := x.learnSecond.set die sec, learnCount := x.learnCount.set die (used + 1) })
  else (false, s)

/-- R55 to R57: a routed frame's source is learned on its electrical port. -/
def neighLearn (die port fam : Nat) (addr : Bytes) (mac : Nat) (s : State) : State :=
  let n := port - 256
  if objGet s (0x080100 + n) 0 0 ≠ 1 || !learnedSubnet s n fam addr then s else
  match bundleOfPort s die port with
  | none => count die 0x1004 0 1 s
  | some b =>
    let key := emtKeyOf (3 + fam) addr
    let data := beBytes 4 (2 ^ 30 + b) ++ beBytes 4 (mac / 65536) ++ beBytes 4 (mac % 65536) ++ List.replicate 4 0
    let fresh : EmtEntry := ⟨key, data, s.tables.ageNow.get die, false, true, die, 0⟩
    match emtFind s die key with
    | some p =>
      match emtAt s die p with
      | some e =>
        if e.data == data then (if e.learned then emtTouch die p s else s)
        else if e.static then count die 0x1004 0 1 s
        else
          let (ok, s) := learnBudget die s
          if !ok then count die 0x1005 0 1 s else
          let s := if e.learned then count die 0x1003 0 1 s else s
          sendLearn die ⟨die, false, key, data⟩ (emtReplace die p { fresh with serial := e.serial } s)
      | none => s
    | none =>
      let (ok, s) := learnBudget die s
      if !ok then count die 0x1005 0 1 s else
      match emtInsertNew die fresh s with
      | some (_, _, s) => sendLearn die ⟨die, false, key, data⟩ s
      | none => raise 0x0802 1 (unitOf die 0 0) (args32 [3 + fam]) (count die 0x1006 0 1 s)

/-- R57: one learn record of another die applied. -/
def applyLearn (die : Nat) (r : LearnRec) (s : State) : State :=
  match emtFind s die r.key with
  | some p =>
    match emtAt s die p with
    | some e =>
      if r.delete then (if e.learned && e.owner == r.owner then emtDelete die p s else s)
      else if e.static then s
      else emtReplace die p { e with data := r.data, learned := true, owner := r.owner, ts := s.tables.ageNow.get die } s
    | none => s
  | none =>
    if r.delete then s else
    match emtInsertNew die ⟨r.key, r.data, s.tables.ageNow.get die, false, true, r.owner, 0⟩ s with
    | some (_, _, s) => s
    | none => raise 0x0802 1 (unitOf die 0 0) (args32 [byteAt r.key 0]) (count die 0x1006 0 1 s)

/-- LEARN_RECORD_APPLY (R57, R58): the oldest whole record that has reached a die. -/
def execLearnRecordApply (die : DieIx) (s : State) : Host.Outcome State Fault Refusal :=
  .next <| match s.tables.learnRecs.get die with
    | [] => s
    | r :: rest =>
      if !clocksRun s then s else
      let s := s.onTables fun x => { x with learnRecs := x.learnRecs.set die rest }
      if dieUp s die then applyLearn die r s else s

/-! ### Aging (R59 to R62) -/

/-- AGE_CLOCK_ADVANCE (R59): bits [31:24] of the follower have changed. -/
def ageAdvance (die : Nat) (s : State) : State :=
  let cur := folNs s die / 2 ^ 24 % 256
  let d := (cur + 256 - s.tables.ageMark.get die) % 256
  s.onTables fun x => { x with
    ageNow := x.ageNow.modify die (· + BitVec.ofNat 16 d)
    ageMark := x.ageMark.set die cur }

def execAgeClockAdvance (die : DieIx) (s : State) : Host.Outcome State Fault Refusal :=
  .next (if dieUp s die && clocksRun s then ageAdvance die s else s)

/-- R59 on a step of time: a forward step advances once for each boundary crossed, a backward one not at all. `step`
is the step in 2^-16 ns and the followers already hold the stepped value. -/
def ageOnStep (die : Nat) (step : Int) (s : State) : State :=
  let after := folFixed s die
  let before := ((after : Int) - step) % 2 ^ 48
  let crossed := if 0 ≤ step then ((before + step) / 2 ^ 40 - before / 2 ^ 40).toNat else 0
  s.onTables fun x => { x with
    ageNow := x.ageNow.modify die (· + BitVec.ofNat 16 crossed)
    ageMark := x.ageMark.set die (after / 2 ^ 40 % 256) }

/-- The age of an entry (R60). -/
def emtAge (s : State) (die : Nat) (e : EmtEntry) : Nat := (s.tables.ageNow.get die - e.ts).toNat

/-- R60: whether an entry of the die's own has expired. -/
def emtExpired (s : State) (die : Nat) (e : EmtEntry) : Bool :=
  !e.static && e.owner == die && cfgAgeLimit s != 0 && cfgAgeLimit s ≤ emtAge s die e

/-- R57, R61, R62: the sweeper at one position. -/
def sweepEntry (die pos : Nat) (s : State) : State :=
  match emtAt s die pos with
  | none => s
  | some e =>
    if e.learned && e.owner != die then (if dieUp s e.owner then s else emtDelete die pos s)
    else if emtExpired s die e then
      if cfgAgingMode s = 1 && !s.start.headless then
        if s.tables.posted.get e.serial then s
        else s.onTables fun x => { x with
          posted := x.posted.set e.serial true
          notices := x.notices.modify die (· ++ [(e.key, e.ts)]) }
      else emtDelete die pos s
    else s.onTables fun x => { x with posted := x.posted.set e.serial false }

/-- The positions of one sweeper visit: a bucket 0 to 524,287 (bank * 2^18 + bucket), then a stash entry (R61). -/
def sweepPositions (v : Nat) : List Nat :=
  if v < 2 ^ 19 then bucketOf (v / 2 ^ 18) (v % 2 ^ 18) else if v < 2 ^ 19 + 64 then [2 ^ 21 + (v - 2 ^ 19)] else []

def execSweeperVisit (die : DieIx) (position : Nat) (s : State) : Host.Outcome State Fault Refusal :=
  .next (if dieUp s die && clocksRun s then (sweepPositions position).foldl (fun s p => sweepEntry die p s) s else s)

/-- R62, R442: aging passes to hardware; pending notices are discarded and nothing is deleted. -/
def agingModeWrite (v : Nat) (s : State) : State :=
  let s := writeRange 0x080001 1 v 0 1 s
  if v = 0 then s.onTables fun x => { x with notices := .empty [], posted := .empty false } else s

def execAgingMode (role : Role) (value : Byte) (s : State) : Host.Outcome State Fault Refusal :=
  .next (guardWrite role 0x080001 1 (agingModeWrite value.toNat) s)

/-- R57: learn records that a lost die had not delivered, or that were on their way to it, are lost; its tables are out of use. -/
def tablesDieLost (d : Nat) (s : State) : State :=
  s.onTables fun x => { x with
    learnRecs := ⟨x.learnRecs.dflt, x.learnRecs.cells.filterMap fun c =>
      let l := c.2.filter fun r => r.owner != d
      if c.1 = d || l.isEmpty then none else some (c.1, l)⟩
    drain := x.drain.erase fun k => k / 65536 == d
    drainZero := x.drainZero.erase fun k => k / 65536 == d }

/-! ### Drain probes (R70, R71) -/

/-- A frame is admitted under a destination index. -/
def drainAdd (die idx : Nat) (s : State) : State :=
  s.onTables fun x => { x with drain := x.drain.modify (tblKey die idx) (· + 1), drainZero := x.drainZero.set (tblKey die idx) none }

/-- The last cell of a frame admitted under an index has left the spreader, or the frame is discarded. -/
def drainSub (die idx : Nat) (s : State) : State :=
  let k := tblKey die idx
  let n := s.tables.drain.get k - 1
  s.onTables fun x => { x with
    drain := x.drain.set k n
    drainZero := if n = 0 then x.drainZero.set k (some (nowNs s)) else x.drainZero }

/-- R70: the probe is empty when the count has been zero for 50 us. -/
def drainEmptyFor (s : State) (die idx : Nat) : Bool :=
  match s.tables.drainZero.get (tblKey die idx) with
  | some t => t + 50000 ≤ nowNs s
  | none => false

/-! ### Table commands (R63 to R67, R553) -/

def setKey (die set : Nat) : Nat := die * 4 + set
/-- The key bytes staged in a command set (R64). -/
def stagedKey (c : CmdSet) : Bytes := (upTo 5).flatMap fun n => beBytes 4 (c.key.get n).toNat
def stagedData (c : CmdSet) (n : Nat) : Bytes := (upTo n).flatMap fun i => beBytes 4 (c.data.get i).toNat
/-- The EMT position of R66. -/
def stagedPos (c : CmdSet) (idx : Nat) : Nat := idx + (c.key.get 0).toNat % 64 * 65536
def posOk (c : CmdSet) (idx : Nat) : Bool := (c.key.get 0).toNat < 64 && stagedPos c idx ≤ 2 ^ 21 + 63

def rDone : Nat := 0
def rNotFound : Nat := 1
def rReplaced : Nat := 2
def rFull : Nat := 3
def rBadEntry : Nat := 4
def rDrainBusy : Nat := 5
def rRingAbort : Nat := 7

/-- The entries of an indexed table (R36). -/
def tblSize (table : Nat) : Nat := if table = 1 then 512 else if table = 3 then 32768 else 65536

/-- R45: family, length and address of the prefix a command names, if well formed. -/
def stagedPrefix (c : CmdSet) (table idx : Nat) : Option (Nat × Nat × Nat) :=
  let fam := table - 4
  let k := stagedKey c
  let a := beAt k 4 16
  let w := if fam = 0 then 128 else 32
  if lpmMax fam < idx || !allZero (slice k 0 4) || (fam = 1 && 2 ^ 32 ≤ a) || a % 2 ^ (w - idx) ≠ 0 then none
  else some (fam, idx, a)

/-- R553: whether the table answers an operation at all. -/
def opAllowed (op table : Nat) : Bool :=
  table ≤ 6 && (if table ≤ 3 then op == 1 || op == 2 else if table ≤ 5 then 1 ≤ op && op ≤ 5 else 1 ≤ op && op ≤ 6)

/-- The indexed-table data a WRITE stages, if the entry is well formed (R37, R38). -/
def indexedOk (c : CmdSet) (table : Nat) : Bool :=
  match table with
  | 0 => resultOk (resultWord (c.data.get 0))
  | 1 => (bundleOf ((c.data.get 0).toNat % 8) ((upTo 4).map fun i => (c.data.get (i + 1)).toNat % 512)).isSome
  | 3 => resultOk (resultWord (c.data.get 0))
  | _ => true

/-- R67 phase one: the code with which a die's table answers a command, changing nothing. -/
def tblCheck (s : State) (die : Nat) (c : CmdSet) (op table : Nat) (force : Bool) (idx : Nat) : Nat :=
  if !opAllowed op table then rBadEntry
  else if table ≤ 3 then
    if tblSize table ≤ idx then rBadEntry
    else if op = 1 then rDone
    else if !indexedOk c table then rBadEntry
    else if table = 0 then
      let old := s.tables.dit.get (tblKey die idx)
      if resAction old ≠ 0 && old != resultWord (c.data.get 0) && !force && !drainEmptyFor s die idx then rDrainBusy else rDone
    else rDone
  else if table ≤ 5 then
    if op = 5 then
      let fam := table - 4
      let k := stagedKey c
      if !allZero (slice k 0 4) || (fam = 1 && 2 ^ 32 ≤ beAt k 4 16) then rBadEntry
      else if (lpmSearch s die fam (beAt k 4 16) (lpmMax fam)).isSome then rDone else rNotFound
    else
      match stagedPrefix c table idx with
      | none => rBadEntry
      | some (fam, len, a) =>
        let here := (s.tables.lpm.get (lpmKey die fam len a)).isSome
        if op = 3 then
          if here then rReplaced
          else if 524288 < s.tables.lpmUnits.get die + (2 - fam) then rFull else rDone
        else if here then rDone else rNotFound
  else
    match op with
    | 1 => if !posOk c idx then rBadEntry else if (emtAt s die (stagedPos c idx)).isSome then rDone else rNotFound
    | 6 => if !posOk c idx then rBadEntry
           else if s.tables.emt.cells.any (fun x => x.1 / 2 ^ 22 == die && stagedPos c idx ≤ x.1 % 2 ^ 22) then rDone
           else rNotFound
    | _ =>
      let k := stagedKey c
      if !emtKeyOk k then rBadEntry
      else if (op = 2 || op = 3) && (emtData k (stagedData c 4)).isNone then rBadEntry
      else match emtFind s die k with
        | some _ => if op = 3 then rReplaced else rDone
        | none => if op = 3 then (if (emtPlace s die k).1.isSome then rDone else rFull) else rNotFound

/-- LOCATION of a position (R64). -/
def locationOf (pos : Nat) : Nat := if pos < 2 ^ 20 then 0 else if pos < 2 ^ 21 then 1 else 2

def setWords (t : Tab Word) (l : List Nat) : Tab Word :=
  (upTo 9).foldl (fun t i => t.set i (BitVec.ofNat 32 (l.getD i 0))) t

def onSet (die set : Nat) (f : CmdSet → CmdSet) (s : State) : State :=
  s.onTables fun x => { x with sets := x.sets.modify (setKey die set) f }

/-- The staging words of 32 bits of a byte string. -/
def toWords (b : Bytes) : List Nat := (upTo 9).map fun i => beAt b (4 * i) 4

/-- An entry read into the staging registers by key (R553). -/
def readByKey (e : EmtEntry) (pos : Nat) (c : CmdSet) : CmdSet :=
  { c with data := setWords c.data (toWords e.data), ts := e.ts, owner := e.owner, static := e.static, learned := e.learned,
           location := locationOf pos }

/-- An entry read into the staging registers by position (R553). -/
def readByPos (e : EmtEntry) (pos : Nat) (c : CmdSet) : CmdSet :=
  { c with data := setWords c.data (toWords (e.key ++ e.data)), ts := e.ts, owner := e.owner, static := e.static,
           learned := e.learned, location := locationOf pos }

/-- The first valid EMT position of a die at or after one (R66). -/
def nextValid (s : State) (die pos : Nat) : Option Nat :=
  firstPos (fun p => (emtAt s die p).isSome)
    (s.tables.emt.cells.filterMap fun x => if x.1 / 2 ^ 22 = die && pos ≤ x.1 % 2 ^ 22 then some (x.1 % 2 ^ 22) else none)

/-- R67 phase two: a prepared command applied on one die. -/
def tblApply (die set : Nat) (c : CmdSet) (op table : Nat) (force static : Bool) (idx : Nat) (s : State) : State :=
  if table ≤ 3 then
    if op = 1 then
      let l : List Nat := match table with
        | 0 => [(s.tables.dit.get (tblKey die idx)).toNat]
        | 1 => let b := s.tables.bundle.get (tblKey die idx); b.count :: b.ports
        | 2 => (upTo 9).map fun w => (s.tables.mcast.get (tblKey die idx)).toNat / 2 ^ (32 * w) % 2 ^ 32
        | _ => let n := s.tables.nextHop.get (tblKey die idx); [n.result.toNat, n.mac.toNat / 65536, n.mac.toNat % 65536]
      onSet die set (fun c => { c with data := setWords c.data l }) s
    else match table with
      | 0 =>
        let w := resultWord (c.data.get 0)
        let old := s.tables.dit.get (tblKey die idx)
        let s := if force && resAction old ≠ 0 && old != w && !drainEmptyFor s die idx then count die 0x1007 0 1 s else s
        setDit die idx w s
      | 1 => match bundleOf ((c.data.get 0).toNat % 8) ((upTo 4).map fun i => (c.data.get (i + 1)).toNat % 512) with
        | some b => setBundle die idx b s
        | none => s
      | 2 => setMcast die idx (BitVec.ofNat 288 ((upTo 9).foldl (fun a w => a + (c.data.get w).toNat * 2 ^ (32 * w)) 0)) s
      | _ => setNextHop die idx ⟨resultWord (c.data.get 0),
               BitVec.ofNat 48 ((c.data.get 1).toNat * 65536 + (c.data.get 2).toNat % 65536)⟩ s
  else if table ≤ 5 then
    if op = 5 then
      match lpmSearch s die (table - 4) (beAt (stagedKey c) 4 16) (lpmMax (table - 4)) with
      | some (n, len) => onSet die set (fun c => { c with
          data := setWords c.data [n], cmd := BitVec.ofNat 32 (c.cmd.toNat / 65536 * 65536 + len) }) s
      | none => s
    else match stagedPrefix c table idx with
      | none => s
      | some (fam, len, a) =>
        let cur := s.tables.lpm.get (lpmKey die fam len a)
        let nh := (c.data.get 0).toNat % 2 ^ 15
        match op with
        | 1 => onSet die set (fun c => { c with data := setWords c.data [cur.getD 0] }) s
        | 2 => setLpm die fam len a (some nh) 0 s
        | 3 => setLpm die fam len a (some nh) (if cur.isSome then 0 else ((2 - fam : Nat) : Int)) s
        | _ => setLpm die fam len a none (-((2 - fam : Nat) : Int)) s
  else
    let k := stagedKey c
    match op with
    | 1 =>
      let p := stagedPos c idx
      (match emtAt s die p with
       | some e => onSet die set (readByPos e p) s
       | none => s)
    | 6 =>
      (match nextValid s die (stagedPos c idx) with
       | some p =>
         (match emtAt s die p with
          | some e => onSet die set (fun c => { readByPos e p c with
              cmd := BitVec.ofNat 32 (c.cmd.toNat / 65536 * 65536 + (p + 1) % 65536)
              key := c.key.set 0 (BitVec.ofNat 32 ((p + 1) / 65536)) }) s
          | none => s)
       | none => s)
    | 5 =>
      (match emtFind s die k with
       | some p => (match emtAt s die p with
          | some e => onSet die set (readByKey e p) s
          | none => s)
       | none => s)
    | 4 => (match emtFind s die k with
       | some p => emtDelete die p s
       | none => s)
    | _ =>
      (match emtData k (stagedData c 4) with
       | none => s
       | some d =>
         (match emtFind s die k with
          | some p =>
            (match emtAt s die p with
             | some e =>
               let now := s.tables.ageNow.get die
               let e' := if op = 2 then { e with data := d, ts := now }
                 else { e with data := d, ts := now, static := static, learned := false, owner := die }
               onSet die set (fun c => { c with location := locationOf p, relocations := if op = 3 then 0 else c.relocations }) (emtReplace die p e' s)
             | none => s)
          | none =>
            (match emtInsertNew die ⟨k, d, s.tables.ageNow.get die, static, false, die, 0⟩ s with
             | some (p, n, s) => onSet die set (fun c => { c with location := locationOf p, relocations := n }) s
             | none => s)))

/-- The word a TBL_CMD write of a command holds (R64). -/
def tblCmdWord (op table : Nat) (force static : Bool) (idx : Nat) : Word :=
  BitVec.ofNat 32 (op * 2 ^ 28 + table * 2 ^ 24 + (if force then 2 ^ 23 else 0) + (if static then 2 ^ 22 else 0) + idx)

/-- R53: the longest a command takes, ns: 2 us an EMT insertion and an LPM INSERT or DELETE, else 200 ns. -/
def commandNs (op table : Nat) : Nat :=
  if (table = 6 && op = 3) || ((table = 4 || table = 5) && (op = 3 || op = 4)) then 2000 else 200

/-- R64: BUSY of a command set. -/
def setBusy (s : State) (die set : Nat) : Bool := nowNs s < (s.tables.sets.get (setKey die set)).busyUntil

/-- R53, R64: a command set is BUSY from its TBL_CMD write on, for a time up to the bound of R53: a free value (log 153). -/
def runSet (die set op table : Nat) (s : State) : State :=
  let (n, s) := draw s
  onSet die set (fun c => { c with busyUntil := nowNs s + n % (commandNs op table + 1) }) s

/-- R64 to R66: a TBL_CMD write to one die runs the command on that die; one that finds the set BUSY has no effect but
OVERRUN. -/
def tblCommand (die set op table : Nat) (force static : Bool) (idx : Nat) (s : State) : State :=
  if !dieUp s die || !clocksRun s then s
  else if setBusy s die set then onSet die set (fun c => { c with overrun := true }) s
  else
    let s := onSet die set (fun c => { c with cmd := tblCmdWord op table force static idx, location := 3 }) s
    let c := s.tables.sets.get (setKey die set)
    let r := tblCheck s die c op table force idx
    let s := if r = rDone || r = rReplaced then tblApply die set c op table force static idx s else s
    runSet die set op table (onSet die set (fun c => { c with result := r, refusers := 0 }) s)

def execTblRead (die : DieIx) (set : Fin 4) (table : Fin 16) (index : BitVec 16) (s : State) :
    Host.Outcome State Fault Refusal :=
  .next (tblCommand die set 1 table false false index.toNat s)

def execTblWrite (die : DieIx) (set : Fin 4) (table : Fin 16) (force : Bool) (index : BitVec 16) (s : State) :
    Host.Outcome State Fault Refusal :=
  .next (tblCommand die set 2 table force false index.toNat s)

def execTblInsert (die : DieIx) (set : Fin 4) (table : Fin 16) (static : Bool) (index : BitVec 16) (s : State) :
    Host.Outcome State Fault Refusal :=
  .next (tblCommand die set 3 table false static index.toNat s)

def execTblDelete (die : DieIx) (set : Fin 4) (table : Fin 16) (index : BitVec 16) (s : State) :
    Host.Outcome State Fault Refusal :=
  .next (tblCommand die set 4 table false false index.toNat s)

def execTblLookup (die : DieIx) (set : Fin 4) (table : Fin 16) (index : BitVec 16) (s : State) :
    Host.Outcome State Fault Refusal :=
  .next (tblCommand die set 5 table false false index.toNat s)

def execTblReadNext (die : DieIx) (set : Fin 4) (table : Fin 16) (index : BitVec 16) (s : State) :
    Host.Outcome State Fault Refusal :=
  .next (tblCommand die set 6 table false false index.toNat s)

/-- The bit mask of a list of dies. -/
def dieMask (l : List Nat) : BitVec 8 := BitVec.ofNat 8 (l.foldl (fun a d => a + 2 ^ d) 0)

/-- R67: a broadcast TBL_CMD over a list of sector dies, in two phases: every die checks the command on its own table and
takes the plan of that check when the commit mark comes (a die's generator and table change in between on no account of
another die). `keeperAlive` and `dieLeft` say what happened between the phases. Where every die has prepared and the dies'
own codes differ (REPLACED on some), the one RESULT they all hold is the code of the lowest-numbered die, as R67 says of
refusals (DESIGN CHOICE, log 154). -/
def tblBroadcastOn (l : List Nat) (set : Nat) (cmd : Word) (keeperAlive dieLeft : Bool) (s : State) : State :=
  if !clocksRun s then s else
  let op := cmd.toNat / 2 ^ 28
  let table := cmd.toNat / 2 ^ 24 % 16
  let force := bit cmd.toNat 23
  let static := bit cmd.toNat 22
  let idx := cmd.toNat % 65536
  let busyDies := l.filter (setBusy s · set)
  let others := l.filter fun d => !setBusy s d set
  let finish (dies : List Nat) (r : Nat) (refusers : BitVec 8) (s : State) : State :=
    dies.foldl (fun s d => runSet d set op table (onSet d set (fun c => { c with result := r, refusers := refusers }) s)) s
  let s := busyDies.foldl (fun s d => onSet d set (fun c => { c with overrun := true }) s) s
  let s := others.foldl (fun s d => onSet d set (fun c => { c with cmd := cmd &&& 0xFFC0FFFF, location := 3 }) s) s
  if !busyDies.isEmpty then finish others rRingAbort (dieMask busyDies) s
  else if !keeperAlive || dieLeft || s.start.keeperLost then finish others rRingAbort 0 s
  else
    let code (d : Nat) : Nat := tblCheck s d (s.tables.sets.get (setKey d set)) op table force idx
    let refusing := l.filter fun d => !(code d = rDone || code d = rReplaced)
    match refusing with
    | d :: _ => finish l (code d) (dieMask refusing) s
    | [] => finish l ((l.map code).headD rDone) 0
        (l.foldl (fun t d => tblApply d set (t.tables.sets.get (setKey d set)) op table force static idx t) s)

/-! ### Seeds and digests (R50, R51, R69) -/

/-- Whether a die's EMT and stash are empty. -/
def emtEmpty (s : State) (die : Nat) : Bool := !(s.tables.emt.cells.any fun c => c.1 / 2 ^ 22 == die)

/-- EMT_SEED_WRITE (R50, R51): a seed register of a die. -/
def emtSeedSet (die which : Nat) (v : Word) (s : State) : State :=
  if emtEmpty s die then
    s.onTables fun x => { x with
      seed0 := if which = 0 then x.seed0.set die v else x.seed0
      seed1 := if which = 0 then x.seed1 else x.seed1.set die v
      seedStatus := x.seedStatus.set die 0 }
  else s.onTables fun x => { x with seedStatus := x.seedStatus.set die 6 }

def execEmtSeedWrite (die : DieIx) (which : Fin 2) (value : Word) (s : State) : Host.Outcome State Fault Refusal :=
  .next (if dieUp s die && clocksRun s then emtSeedSet die which value s else s)

/-- R69: one table of a die against its committed reference; the event goes out on a change to mismatch. -/
def digestCheck (die t : Nat) (s : State) : State :=
  match s.tables.reference.get (digKey die t) with
  | none => s
  | some r =>
    let d := tableDigest s die t
    let bad := d != r
    let was := s.tables.mismatch.get (digKey die t)
    let s := s.onTables fun x => { x with mismatch := x.mismatch.set (digKey die t) bad }
    if bad && !was then raise 0x0801 0 (unitOf die t 0) (beBytes 8 d.toNat) s else s

def execDigestCompare (die : DieIx) (s : State) : Host.Outcome State Fault Refusal :=
  .next (if dieUp s die && clocksRun s then
    (upTo 7).foldl (fun s t => digestCheck die t s) (s.onTables fun x => { x with digestAt := x.digestAt.set die (nowNs s) })
  else s)

/-- R69: a reference committed, and compared at once. -/
def digestRefWrite (t die : Nat) (v : BitVec 64) (s : State) : State :=
  answer stDone (digestCheck die t (s.onTables fun x => { x with reference := x.reference.set (digKey die t) (some v) }))

def execDigestRef (role : Role) (table : Fin 7) (die : DieIx) (value : BitVec 64) (s : State) :
    Host.Outcome State Fault Refusal :=
  .next (guardWrite role (0x080200 + table.val) (die.val + 1) (digestRefWrite table die value) s)

end Sys2Proof.Machine
end

