-- ==== Sys2Proof/Machine/Frames.lean ====
section
/-! DEFINITION. Frames as byte strings, from the first byte of the destination MAC address through the FCS: how the
parser reads them (02 R40, 05 R149 to R153, 11 R365, 12 R390), and how the device builds and rewrites them (02 R41, 05
R155, 11 R365, 12 R391). Header layouts of Ethernet, 802.1Q, IPv6, IPv4, UDP, ICMP, ARP and PTP are those of their
standards (PRESUMED, log 21). -/

namespace Sys2Proof.Machine

/-- EPOLONG_PORT in force: a write takes effect at the next start, when every object is at its default (05 R190, 15
R451; log 23). -/
def epolongPort : Nat := 47300

/-- What the parser knows of a frame. -/
structure Parsed where
  dmac  : Nat
  smac  : Nat
  /-- priority of an 802.1Q tag, and the number of tags -/
  pcp   : Option Nat
  tags  : Nat
  etype : Nat
  /-- offset of the network header -/
  l3    : Nat
  /-- IPv6 (0) or IPv4 (1), addresses in 16 bytes, protocol, traffic class, hop limit -/
  fam   : Option Nat
  src   : Bytes
  dst   : Bytes
  proto : Nat
  tc    : Nat
  hop   : Nat
  /-- offset of the transport header -/
  l4    : Nat
  sport : Nat
  dport : Nat
  /-- offset of the Epolong header (R149) -/
  epl   : Option Nat
  deriving DecidableEq, Repr

/-- An address as R83 lays it out: 16 bytes, an IPv4 address in the last 4. -/
def addr16 (b : Bytes) : Bytes := List.replicate (16 - b.length) 0 ++ b

/-- The parser. -/
def parseFrame (f : Bytes) : Parsed :=
  let et0 := beAt f 12 2
  let tagged := et0 == 0x8100
  let tags := if tagged then (if beAt f 16 2 == 0x8100 then 2 else 1) else 0
  let et := if tagged then beAt f 16 2 else et0
  let l3 := if tagged then 18 else 14
  let base : Parsed := ⟨beAt f 0 6, beAt f 6 6, if tagged then some (beAt f 14 2 / 8192) else none, tags, et, l3,
    none, [], [], 0, 0, 0, 0, 0, 0, none⟩
  let withPorts (p : Parsed) : Parsed :=
    if p.proto = 17 || p.proto = 6 then
      let p := { p with sport := beAt f p.l4 2, dport := beAt f (p.l4 + 2) 2 }
      if p.proto = 17 && p.dport = epolongPort then { p with epl := some (p.l4 + 8) } else p
    else p
  if et = 0x86DD && byteAt f l3 / 16 = 6 then
    withPorts { base with
      fam := some 0, src := slice f (l3 + 8) 16, dst := slice f (l3 + 24) 16, proto := byteAt f (l3 + 6)
      tc := beAt f l3 2 / 16 % 256, hop := byteAt f (l3 + 7), l4 := l3 + 40 }
  else if et = 0x0800 && byteAt f l3 / 16 = 4 then
    let frag := beAt f (l3 + 6) 2 % 8192
    let p := { base with
      fam := some 1, src := addr16 (slice f (l3 + 12) 4), dst := addr16 (slice f (l3 + 16) 4)
      proto := byteAt f (l3 + 9), tc := byteAt f (l3 + 1), hop := byteAt f (l3 + 8), l4 := l3 + 4 * (byteAt f l3 % 16) }
    if frag = 0 then withPorts p else p
  else base

/-- Epolong header fields (R150, R151), by offset of the header. -/
def eplVersion (f : Bytes) (o : Nat) : Nat := byteAt f o / 16
def eplKind (f : Bytes) (o : Nat) : Nat := byteAt f o % 16
def eplClass (f : Bytes) (o : Nat) : Nat := byteAt f (o + 1) / 32
def eplDest (f : Bytes) (o : Nat) : Nat := beAt f (o + 2) 2
def eplSrc (f : Bytes) (o : Nat) : Nat := beAt f (o + 4) 2

/-- 03 R554: the service class of a frame. -/
def frameClass (f : Bytes) (p : Parsed) : Nat :=
  match p.epl with
  | some o => eplClass f o
  | none => match p.fam with
    | some _ => p.tc / 32
    | none => p.pcp.getD 0

/-- 03 R83: the subscriber queue, with SUB_HASH_SEED in force at its default (log 23). -/
def subscriber (f : Bytes) (p : Parsed) : Nat :=
  let key := match p.epl with
    | some o => slice f (o + 4) 2
    | none => match p.fam with
      | some _ => p.src
      | none => slice f 6 6
  crc32c 0xFFFFFFFF key % 16

/-- 11 R364: the flow key. -/
def flowHash (f : Bytes) : Nat :=
  let p := parseFrame f
  crc32c 0xFFFFFFFF (match p.fam with
    | some _ => p.src ++ p.dst ++ beBytes 1 p.proto ++
        (if p.proto = 17 || p.proto = 6 then beBytes 2 p.sport ++ beBytes 2 p.dport else [])
    | none => slice f 0 12)

/-! ### Checksums -/

/-- The 16-bit words of a string summed. -/
def sum16 (b : Bytes) : Nat :=
  (upTo ((b.length + 1) / 2)).foldl (fun a i => a + byteAt b (2 * i) * 256 + byteAt b (2 * i + 1)) 0

/-- The one's-complement fold of a sum. -/
def fold16 (n : Nat) : Nat :=
  let a := n % 65536 + n / 65536
  let b := a % 65536 + a / 65536
  b % 65536 + b / 65536

/-- The Internet checksum of a string. -/
def checksum (b : Bytes) : Nat := 65535 - fold16 (sum16 b)

/-- The checksum updated for bytes that change from `old` to `new` (RFC 1624). -/
def checksumUpdate (hc : Nat) (old new : Bytes) : Nat :=
  let n := ((old.length + 1) / 2) * 65535
  65535 - fold16 ((65535 - hc) + (n - sum16 old) + sum16 new)

/-- A frame's body with its FCS appended. -/
def withFcs (b : Bytes) : Bytes := b ++ fcsOf b
/-- A frame without its FCS. -/
def bodyOf (f : Bytes) : Bytes := f.take (f.length - 4)

/-- The UDP checksum over IPv6 of a datagram. -/
def udp6Checksum (src dst udp : Bytes) : Nat :=
  let c := checksum (src ++ dst ++ beBytes 4 udp.length ++ [0, 0, 0, 17] ++ udp)
  if c = 0 then 65535 else c

/-! ### Addresses of ports (11 R365) -/

def cfgRouterMac (s : State) (n : Nat) : Nat := objGet s (0x060100 + n) 4 (macBase s + 2 + n)
def cfgPeerMac (s : State) (p : Nat) : Nat := objGet s (0x0A0400 + p) 1 0
/-- The Ethernet source of a frame that the device routes or builds on a port. -/
def portMac (s : State) (p : Nat) : Nat := if isFibre p then macBase s + 34 else cfgRouterMac s (p - 256)

/-- Items of a record list, each preceded by its length in 2 bytes (16 R478). -/
def recordItems : Nat → Bytes → List Bytes
  | 0, _ => []
  | fuel + 1, b =>
    if b.length < 2 then [] else
    let n := beAt b 0 2
    slice b 2 n :: recordItems fuel (b.drop (2 + n))

/-- The bytes of an object whose value has no fixed size, held as a number: a leading byte 1 marks where they begin. -/
def varBytes (v : Nat) : Bytes := if v = 0 then [] else (beBytes (Nat.log2 v / 8 + 1) v).drop 1
/-- A value of no fixed size as a number. -/
def varNat (b : Bytes) : Nat := beNat (1 :: b)

/-- LOCAL_ADDR of EPn: up to four addresses, each as 16 bytes with its family. -/
def localAddrs (s : State) (n : Nat) : List (Nat × Bytes) :=
  ((recordItems 4 (varBytes (objGet s (0x060100 + n) 5 0))).filter fun a => a.length == 16 || a.length == 4).map fun a =>
    (if a.length = 16 then 0 else 1, addr16 a)

/-- R365: a frame that the port's keeper answers: a neighbour solicitation, an ARP request or an echo request for one of
the port's own addresses. -/
def namesLocal (s : State) (n : Nat) (f : Bytes) (p : Parsed) : Bool :=
  let own := localAddrs s n
  if p.etype = 0x0806 then beAt f (p.l3 + 6) 2 == 1 && own.contains (1, addr16 (slice f (p.l3 + 24) 4))
  else match p.fam with
    | some 0 =>
      p.proto == 58 &&
        ((byteAt f p.l4 == 135 && own.contains (0, slice f (p.l4 + 8) 16)) || (byteAt f p.l4 == 128 && own.contains (0, p.dst)))
    | some _ => p.proto == 1 && byteAt f p.l4 == 8 && own.contains (1, p.dst)
    | none => false

/-! ### Rewriting -/

/-- R41: a routed frame's addresses and hop limit; the FCS follows. -/
def routeRewrite (dst src : Option Nat) (decrement : Bool) (f : Bytes) : Bytes :=
  let p := parseFrame f
  let b := bodyOf f
  let b := match dst with
    | some m => splice b 0 (beBytes 6 m)
    | none => b
  let b := match src with
    | some m => splice b 6 (beBytes 6 m)
    | none => b
  let b := if !decrement then b else match p.fam with
    | some 0 => splice b (p.l3 + 7) (beBytes 1 (p.hop - 1))
    | some _ =>
      let old := slice b (p.l3 + 8) 2
      let new := beBytes 1 (p.hop - 1) ++ slice b (p.l3 + 9) 1
      splice (splice b (p.l3 + 8) new) (p.l3 + 10) (beBytes 2 (checksumUpdate (beAt b (p.l3 + 10) 2) old new))
    | none => b
  withFcs b

/-- 12 R390: the offset of the PTP header of a frame the transparent clock corrects. -/
def ptpOffset (f : Bytes) : Option Nat :=
  let p := parseFrame f
  let at? := if p.tags ≤ 1 && p.etype = 0x88F7 then some p.l3
    else if p.tags ≤ 1 && p.fam = some 0 && p.proto = 17 && p.dport = 319 then some (p.l4 + 8) else none
  match at? with
  | some o => if byteAt f (o + 1) % 16 = 2 && (byteAt f o % 16 = 0 || byteAt f o % 16 = 1) then some o else none
  | none => none

/-- Where the UDP header stands behind IPv6 extension headers, the first of type `t` at offset `o`. -/
def udpBehind (f : Bytes) : Nat → Nat → Nat → Option Nat
  | 0, _, _ => none
  | n + 1, t, o =>
    if t = 17 then some o
    else if t = 44 then (if beAt f (o + 2) 2 / 8 = 0 then udpBehind f n (byteAt f o) (o + 8) else none)
    else if t = 51 then udpBehind f n (byteAt f o) (o + 4 * (byteAt f (o + 1) + 2))
    else if t = 0 || t = 43 || t = 60 || t = 135 || t = 139 || t = 140 then udpBehind f n (byteAt f o) (o + 8 * (byteAt f (o + 1) + 1))
    else none

/-- A PTP version 2 message, event or general, in a UDP datagram at an offset. -/
def ptpAt (f : Bytes) (o : Nat) : Bool := (beAt f (o + 2) 2 == 319 || beAt f (o + 2) 2 == 320) && byteAt f (o + 9) % 16 == 2

/-- R390: a PTP message over IPv4, or over IPv6 with extension headers, is forwarded unchanged and counted. -/
def ptpSkipped (f : Bytes) : Bool :=
  let p := parseFrame f
  match p.fam with
  | some 1 => p.proto == 17 && ptpAt f p.l4
  | some 0 => p.proto != 17 && (udpBehind f (f.length / 8) p.proto p.l4).any (ptpAt f)
  | _ => false

/-- 12 R391, R392: correctionField takes the residence time, in 2^-16 ns; the UDP checksum and the FCS follow. -/
def ptpCorrect (residence : Nat) (f : Bytes) : Bytes :=
  match ptpOffset f with
  | none => f
  | some o =>
    let b := bodyOf f
    let old := slice b (o + 8) 8
    let v := signed 64 (beNat old)
    let top : Int := 0x7FFFFFFFFFFFFFFF
    let n := if v = top then top else if top < v + residence then top else v + residence
    let new := beBytes 8 (unsigned 64 n)
    let p := parseFrame f
    let b := splice b (o + 8) new
    let b := if p.fam = some 0 then
        -- over IPv6 a sum of 0 is sent as 0xFFFF
        let c := checksumUpdate (beAt b (p.l4 + 6) 2) old new
        splice b (p.l4 + 6) (beBytes 2 (if c = 0 then 65535 else c))
      else b
    withFcs b

/-- 03 R95: the stomp: the FCS complemented bit by bit. -/
def stompFrame (f : Bytes) : Bytes := bodyOf f ++ (f.drop (f.length - 4)).map (~~~ ·)

/-- 05 R155: Ethernet, IPv6 and UDP headers of a frame that the device builds, around an Epolong datagram. -/
def buildFrame (s : State) (port destIndex cls udpSrc : Nat) (payload : Bytes) : Bytes :=
  let prefix_ := beBytes 14 (objGet s 0x0A0001 3 0)
  let src := prefix_ ++ beBytes 2 (cfgDevIndex s)
  let dst := prefix_ ++ beBytes 2 destIndex
  let udp0 := beBytes 2 udpSrc ++ beBytes 2 epolongPort ++ beBytes 2 (8 + payload.length) ++ [0, 0] ++ payload
  let udp := splice udp0 6 (beBytes 2 (udp6Checksum src dst udp0))
  let ip := beBytes 4 (6 * 2 ^ 28 + cls * 32 * 2 ^ 20) ++ beBytes 2 udp.length ++ [17, 64] ++ src ++ dst
  let b := beBytes 6 (cfgPeerMac s port) ++ beBytes 6 (portMac s port) ++ beBytes 2 0x86DD ++ ip ++ udp
  withFcs (padTo (max 60 b.length) b)

/-- The same frame towards another port and index: addresses and UDP checksum are rebuilt (05 R155, R164). -/
def readdress (s : State) (port destIndex : Nat) (f : Bytes) : Bytes :=
  let p := parseFrame f
  let cls := p.tc / 32
  let n := beAt f (p.l3 + 4) 2 - 8
  buildFrame s port destIndex cls p.sport (splice (slice f (p.l4 + 8) n) 2 (beBytes 2 destIndex))

end Sys2Proof.Machine
end

