-- ==== Sys2Proof/Machine/Switch.lean ====
section
/-! DEFINITION. The switch core: spraying, cells, admission, the mesh, reassembly, resequencing, lane queues, age discard,
spill and drains (03), with the settlement of granted cells (04 R118, R120). -/

namespace Sys2Proof.Machine

/-! ### Configuration (R116, R139) -/

def cfgSpillOn (s : State) : Nat := objGet s 0x090002 1 75
def cfgSpillOff (s : State) : Nat := objGet s 0x090002 2 60
def cfgVoqSpillMin (s : State) : Nat := objGet s 0x090002 3 65536
def cfgCtxSpillOn (s : State) : Nat := objGet s 0x090002 4 90
def cfgAlphaLog2 (s : State) : Int := signed 8 (objGet s 0x090003 1 0)
def cfgReserve (s : State) : Nat := objGet s 0x090003 2 131072
def cfgMcPortLimit (s : State) : Nat := objGet s 0x090003 3 262144
def cfgCtStart (s : State) : Nat := objGet s 0x090005 1 1
def cfgCtEnable (s : State) (p : Nat) : Nat := objGet s (0x090100 + p) 1 0xFF
def cfgClassFlags (s : State) (c : Nat) : Nat := objGet s (0x090010 + c) 1 0
def isLossless (s : State) (c : Nat) : Bool := bit (cfgClassFlags s c) 0
def isOrdered (s : State) (c : Nat) : Bool := bit (cfgClassFlags s c) 1
def isDeep (s : State) (c : Nat) : Bool := bit (cfgClassFlags s c) 2
/-- AGE_LIMIT of a frame in ns (R116: 0 stands for 2 ms of a lossy and 20 ms of a lossless class), as the frame was admitted
(R117). -/
def cfgAge (s : State) (c : Cell) : Nat :=
  match objGet s (0x090010 + c.cls) 2 0 with
  | 0 => if bit c.flags 0 then 20000000 else 2000000
  | v => v
def cfgCarveout (s : State) (d : Nat) : Nat := objGet s 0x090001 (d + 1) 0
def cfgDrain (s : State) (p : Nat) : Nat := objGet s (0x090100 + p) 2 0
/-- A port that R114 is draining or flushing. -/
def draining (s : State) (p : Nat) : Bool := cfgDrain s p != 0

/-- An electrical port's member rate in Gb/s and member count (11 R361). -/
def memberRate (mode : Nat) : Nat := if mode = 1 then 800 else if mode = 2 then 400 else if mode = 3 then 200 else 100
def memberCount (mode : Nat) : Nat := if mode = 1 then 1 else if mode = 2 then 2 else 4
def eport (s : State) (p : Nat) : EPort := s.mgmt.eports.get (p - 256)
/-- The rate of one lane or member of a port (R97, 11 R363). -/
def laneRate (s : State) (p : Nat) : Nat := if isFibre p then 200 else memberRate (eport s p).mode
/-- The set bits of a lane bitmap. -/
def laneBits (m : Nat) : List Nat := (upTo 8).filter (bit m)
/-- The members of an electrical port that are up, ascending. -/
def membersUp (s : State) (p : Nat) : List Nat := (upTo 4).filter fun m => (eport s p).membersUp.getLsbD m
/-- Whether a port carries light or data at all: its die is in service and no port is held dark (01 R31, R32). -/
def portLit (s : State) (p : Nat) : Bool := dieUp s (portDie p) && !s.start.darkHold && clocksRun s
/-- R75: the lanes of a port in the spray set; an electrical port has lane 0 while its link is up. -/
def sprayLanes (s : State) (p : Nat) : List Nat :=
  if isFibre p then laneBits (s.switch.spray.get p) else if (eport s p).membersUp = 0 then [] else [0]
/-- 04 R118: the present rate of a port in Gb/s. -/
def portRate (s : State) (p : Nat) : Nat :=
  if isFibre p then 200 * (sprayLanes s p).length else memberRate (eport s p).mode * (membersUp s p).length

/-! ### Queue codes -/

def qVoq (die port cls sub : Nat) : Nat := 4 * voqKey die port cls sub
def qMc (die cls sub : Nat) : Nat := 4 * mcKey die cls sub + 1
def qRed (die group cls : Nat) : Nat := 4 * redKey die group cls + 2

/-- The die, class and cells of a queue by its code. -/
def qDie (q : Nat) : Nat :=
  match q % 4 with
  | 0 => q / 4 / 16 / 8 / 288
  | 1 => q / 4 / 16 / 8
  | _ => q / 4 / 8 / 65536
def qCls (q : Nat) : Nat := if q % 4 = 2 then q / 4 % 8 else q / 4 / 16 % 8
def qCells (s : State) (q : Nat) : List Cell :=
  match q % 4 with
  | 0 => s.switch.voq.get (q / 4)
  | 1 => s.switch.mcq.get (q / 4)
  | _ => s.switch.red.get (q / 4)
def setQ (q : Nat) (l : List Cell) (s : State) : State :=
  s.onSwitch fun x => match q % 4 with
    | 0 => { x with voq := x.voq.set (q / 4) l }
    | 1 => { x with mcq := x.mcq.set (q / 4) l }
    | _ => { x with red := x.red.set (q / 4) l }

/-- Key of a frame of an ingress die. -/
def frameKey (die id : Nat) : Nat := die * 2 ^ 24 + id
/-- Key of a reassembly context at an egress die (R91). -/
def reasmKey (egress ingress id : Nat) : Nat := (egress * 8 + ingress) * 2 ^ 24 + id
/-- Key of a resequencer stream (R92). -/
def reseqKey (port ingress cls : Nat) : Nat := (port * 8 + ingress) * 8 + cls
def meshKey (src dst : Nat) : Nat := src * 8 + dst

/-- Whether two cells are of one frame. -/
def sameFrame (a b : Cell) : Bool := a.ingressDie == b.ingressDie && a.frameId == b.frameId
def ofFrame (die id : Nat) (c : Cell) : Bool := c.ingressDie == die && c.frameId == id

/-! ### Credit balances and settlement (04 R118, R120) -/

def settleKey (port cls die : Nat) : Nat := (port * 8 + cls) * 8 + die

/-- R118: cells granted to an ingress die for a port and class are settled; those of a lost die settle nothing further
(R120). -/
def settle (port cls die n : Nat) (s : State) : State :=
  if dieUp s die then s.onFlow fun x => { x with unsettled := x.unsettled.modify (settleKey port cls die) (· - n) } else s

/-- R120: every cell a shepherd granted to a lost ingress die is settled. -/
def settleLost (die : Nat) (s : State) : State :=
  s.onFlow fun x => { x with
    unsettled := x.unsettled.erase fun k => k % 8 == die
    grants := x.grants.erase fun k => k / 8 / 288 == die
    balance := x.balance.erase fun k => k / 8 / 288 == die
    idleSince := x.idleSince.erase fun k => k / 8 / 288 == die }

/-- The cells of a spill segment, in order. -/
def blockCells (l : List SpillBlock) : List Cell := l.flatMap fun b => b.slots.filterMap id
/-- The cells of a VOQ in memory. -/
def spillCells (s : State) (k : Nat) : List Cell := blockCells (s.switch.spill.get k)

/-- Whether a die has cells waiting for a port and class: cells no decision has released, or spilled cells. -/
def waiting (s : State) (die port cls : Nat) : Bool :=
  (upTo 16).any fun sub =>
    let q := qVoq die port cls sub
    !(s.switch.spill.get (q / 4)).isEmpty ||
      (qCells s q).any fun c => !((s.switch.released.get q).contains c.frameId)

/-- R120: since when a balance has stayed above zero with no cell waiting. -/
def refreshIdle (die port cls : Nat) (s : State) : State :=
  let k := dpcKey die port cls
  let idle := decide (0 < s.flow.balance.get k) && !waiting s die port cls
  s.onFlow fun x => { x with
    idleSince := x.idleSince.set k (if idle then some ((x.idleSince.get k).getD (nowNs s)) else none) }

/-! ### Admission pool (R84, R85, R106) -/

def poolBytes : Nat := 88 * 2 ^ 20
/-- Reserves of the die's ports: 36 ports, LOSSLESS_RESERVE for each lossless class (R84). -/
def reserveBytes (s : State) : Nat := 36 * ((upTo 8).filter (isLossless s)).length * cfgReserve s
/-- 04 R129: shared bytes set aside for a (port, class): those its LIMIT grants the peer beyond the reserve, less those its
frames hold already. -/
def setAside (s : State) (k : Nat) : Nat :=
  256 * ((s.flow.advertised.get k - s.flow.freed.get k).toNat - cfgReserve s / 256) - s.switch.sharedUse.get k
/-- 04 R129: shared bytes of a die set aside for its fibre ports' classes. -/
def grantedShared (s : State) (die : Nat) : Nat :=
  s.flow.advertised.cells.foldl (fun a c =>
    if c.1 / 8 < 256 && portDie (c.1 / 8) = die then a + setAside s c.1 else a) 0
/-- Free shared bytes of a die that nothing is set aside from (R85, 04 R129). -/
def freeShared (s : State) (die : Nat) : Nat :=
  poolBytes - reserveBytes s - s.switch.shared.get die - grantedShared s die
/-- Free shared bytes for a lossless class of a port: what is set aside for it is its own (04 R129). -/
def freeSharedFor (s : State) (die port cls : Nat) : Nat :=
  poolBytes - reserveBytes s - s.switch.shared.get die
    - (grantedShared s die - if isFibre port then setAside s (pcKey port cls) else 0)
/-- Occupancy of the admission pool in bytes. -/
def poolUsed (s : State) (die : Nat) : Nat :=
  s.switch.shared.get die + s.switch.reserve.cells.foldl (fun a c => if portDie (c.1 / 8) = die then a + c.2 else a) 0

def queueBytes (l : List Cell) : Nat := 256 * l.length

/-- R106: spill state follows the pool's occupancy. -/
def spillState (die : Nat) (s : State) : State :=
  let u := 100 * poolUsed s die
  let was := s.switch.spilling
  let now := if cfgSpillOn s * poolBytes ≤ u then was.set die true
    else if u < cfgSpillOff s * poolBytes then was.set die false else was
  s.onSwitch fun x => { x with spilling := now }

/-- 04 R135: the free part of an electrical port's reserve for a class. -/
def freeReserve (s : State) (port cls : Nat) : Nat := cfgReserve s - s.switch.reserve.get (pcKey port cls)
def cfgPfcQuanta (s : State) (p : Nat) : Nat := objGet s (0x090C00 + p) 1 0xFFFF
def cfgPfcHeadroom (s : State) (p : Nat) : Nat := objGet s (0x090C00 + p) 2 65536

/-- 04 R135: a PFC frame with PFC_QUANTA. -/
def pfcSend (port cls : Nat) (s : State) : State :=
  let k := pcKey port cls
  emitOut (.pfc port cls (cfgPfcQuanta s port))
    (s.onFlow fun x => { x with xoff := x.xoff.set k (some (nowNs s)), pfcLow := x.pfcLow.set k true })

/-- PFC_PAUSE_SEND and PFC_RESUME_SEND (04 R135): the device's own pause follows the free reserve. A pause is sent each time the
free part falls below PFC_HEADROOM. -/
def pfcCheck (port cls : Nat) (s : State) : State :=
  if isFibre port || 288 ≤ port || !portLit s port then s else
  let k := pcKey port cls
  let low := decide (freeReserve s port cls < cfgPfcHeadroom s port)
  match s.flow.xoff.get k with
  | none => if isLossless s cls && low then pfcSend port cls s else s
  | some _ =>
    if cfgPfcHeadroom s port + 18432 ≤ freeReserve s port cls then
      emitOut (.pfc port cls 0) (s.onFlow fun x => { x with xoff := x.xoff.set k none, pfcLow := x.pfcLow.set k false })
    else if low && !s.flow.pfcLow.get k then pfcSend port cls s
    else s.onFlow fun x => { x with pfcLow := x.pfcLow.set k low }

/-- Room of `n` cells of a frame given back to what the frame was charged to (R85). -/
def uncharge (c : Cell) (n : Nat) (s : State) : State :=
  let k := pcKey c.port c.cls
  s.onSwitch fun x => match c.pool with
    | 1 => { x with
        shared := x.shared.modify c.ingressDie (· - 256 * n)
        sharedUse := if bit c.flags 0 then x.sharedUse.modify k (· - 256 * n) else x.sharedUse }
    | 2 => { x with reserve := x.reserve.modify k (· - 256 * n) }
    | _ => x

/-- A cell leaves its ingress die's queue, or is discarded there: the pool, the credit of the peer (04 R129) and the
device's own pause follow. A unit taken before a restart of the port's counts and released after it adds to the restarted FREED:
04 R132 does not say whether it does (DESIGN CHOICE, log 181). -/
def freeCell (c : Cell) (s : State) : State :=
  let s := uncharge c 1 s
  let s := if isFibre c.port && c.emit.isNone && c.good && bit (s.flow.lossless.get c.port) c.cls then
      s.onFlow fun x => { x with freed := x.freed.modify (pcKey c.port c.cls) (· + 1) }
    else s
  spillState c.ingressDie (pfcCheck c.port c.cls s)

/-- R70: a frame's probe when its last cell leaves the spreader or is discarded. -/
def probeDone (c : Cell) (s : State) : State :=
  match c.drainIndex with
  | some i => drainSub c.ingressDie i s
  | none => s

/-! ### DMA completion of an emitted frame (17 R520, R521) -/

/-- A running descriptor is ready to complete with a status and a stamp. -/
def emitOutcome (e : Option (Nat × Nat)) (status stamp : Nat) (s : State) : State :=
  match e with
  | none => s
  | some (key, index) =>
    s.onRegs fun x => { x with chans := x.chans.modify key fun c => { c with flight := c.flight.map fun f =>
      if f.index = index && f.outcome = 0 then { f with outcome := status, stamp := if status = 1 then some (BitVec.ofNat 32 stamp) else none } else f } }

/-! ### Peer credit of waiting frames (04 R130, R134, R140) -/

/-- 04 R140: the class as the port's last restart of counts took it. -/
def portLossless (s : State) (p c : Nat) : Bool := bit (s.flow.lossless.get p) c

/-- 04 R130: the allowance of a fibre port's class admits a frame of `u` units. -/
def creditAdmits (s : State) (p c u : Nat) : Bool :=
  let k := pcKey p c
  let d := (s.flow.limit.get k - s.flow.consumed.get k).toNat
  s.flow.gotLimit.get k && u ≤ d && d < 2 ^ 31

/-- Units of a frame (04 R128). -/
def unitsOf (f : EFrame) : Nat := ceilDiv f.head.frameLen 256

/-- Frames of a port's class wait in its lane queues for peer credit (04 R130, R134). -/
def starving (s : State) (p c : Nat) : Bool :=
  isFibre p && portLossless s p c && (upTo 8).any fun l =>
    match s.switch.laneq.get (laneqKey p l c) with
    | f :: _ => !creditAdmits s p c (unitsOf f)
    | [] => false

/-- 04 R134: since when the class has held frames that wait for credit; with none waiting a later wait is a new one. -/
def noteWaiting (p c : Nat) (s : State) : State :=
  let k := pcKey p c
  if starving s p c then
    s.onFlow fun x => { x with waitingAt := x.waitingAt.set k (some ((x.waitingAt.get k).getD (nowNs s))) }
  else s.onFlow fun x => { x with waitingAt := x.waitingAt.set k none, starvedSent := x.starvedSent.set k false }

/-! ### The spill segment in memory (R107) -/

/-- R79: the 128-bit header of a cell, bit 127 first; the nine reserved bits are zero. -/
def cellHeader (c : Cell) : BitVec 128 :=
  BitVec.ofNat 128 (c.destType % 4 * 2 ^ 126 + c.dest % 65536 * 2 ^ 110 + c.lane % 8 * 2 ^ 107 + c.cls % 8 * 2 ^ 104
    + c.sub % 16 * 2 ^ 100 + c.ingressDie % 8 * 2 ^ 97 + c.frameId % 2 ^ 24 * 2 ^ 73 + c.index % 64 * 2 ^ 67
    + (if c.last then 2 ^ 66 else 0) + (if c.bad then 2 ^ 65 else 0) + c.orderSeq % 65536 * 2 ^ 49
    + c.lenM1 % 256 * 2 ^ 41 + c.ingressTime % 2 ^ 32 * 2 ^ 9)

/-- Bytes of a spill block, and the places it has (R107). -/
def spillBlockBytes : Nat := 4352
def spillBlockCells : Nat := 16

/-- What a spill block holds in memory: each place the header, least significant byte first (00 R11), and the 256 bytes of a cell, a
partly filled cell and an empty place filled with zeros (DESIGN CHOICE, log 157). -/
def blockImage (b : SpillBlock) : Bytes :=
  (upTo spillBlockCells).flatMap fun i => match b.slots.getD i none with
    | some c => leBytes 16 (cellHeader c).toNat ++ padTo 256 c.data
    | none => List.replicate 272 0

/-- Memory packages of a die in service (00 R2, 01 R15). -/
def packagesOf (s : State) (d : Nat) : List Nat := (upTo 3).filter fun i => s.start.memPackages.getLsbD (3 * d + i)
/-- 17 R514: bytes of a die's memory range: 31/32 of the raw memory of its packages in service. -/
def memTop (s : State) (d : Nat) : Nat := (packagesOf s d).length * 96 * 10 ^ 9 / 32 * 31
/-- The firmware reservation is the top 4 GB of the range (17 R514). -/
def memLimit (s : State) (d : Nat) : Nat := memTop s d - 4 * 10 ^ 9

/-- Offset of a spill block in its die's memory: the carve-out lies just below the reservation (log 26). -/
def blockOffset (s : State) (die place : Nat) : Nat := memLimit s die - cfgCarveout s die * 10 ^ 9 + spillBlockBytes * place

/-- The die of a VOQ by its key. -/
def voqDie (k : Nat) : Nat := k / 16 / 8 / 288

/-- The byte of a spill block at a DMA address of MEMORY, if a block in use covers it (R107). -/
def spilledByte (s : State) (a : Nat) : Option Byte :=
  (s.switch.spill.cells.flatMap fun x => x.2.map fun b => (memAddr (voqDie x.1) (blockOffset s (voqDie x.1) b.place), b)).findSome?
    fun y => if y.1 ≤ a && a < y.1 + spillBlockBytes then (blockImage y.2)[a - y.1]? else none

/-- Bytes of memory as a reader finds them: the carve-out holds the spilled blocks (R107). Where a block has been read back, its
place reads as before the spill: the manual does not say what is left there (DESIGN CHOICE, log 157). -/
def memSeen (s : State) (a n : Nat) : Bytes :=
  if s.switch.spill.cells.isEmpty then memBytes s.mem a n
  else (upTo n).map fun i => (spilledByte s (a + i)).getD (memRead s.mem (a + i))

/-- Blocks in use in a die's carve-out. -/
def blocksOf (t : Tab (List SpillBlock)) (die : Nat) : List SpillBlock :=
  t.cells.flatMap fun x => if voqDie x.1 = die then x.2 else []

/-- A VOQ's spill segment set; blocks without a cell are given up, and the carve-out's use follows. -/
def setSpill (k : Nat) (l : List SpillBlock) (s : State) : State :=
  let t := s.switch.spill.set k (l.filter fun b => b.slots.any Option.isSome)
  s.onSwitch fun x => { x with
    spill := t
    spillBytes := x.spillBytes.set (voqDie k) (spillBlockBytes * (blocksOf t (voqDie k)).length) }

/-- The lowest free place of a die's carve-out. -/
def freePlace (s : State) (die : Nat) : Nat :=
  let used := (blocksOf s.switch.spill die).map SpillBlock.place
  ((upTo (used.length + 1)).find? fun n => !used.contains n).getD 0

/-- A cell written at the end of a VOQ's spill segment, in its last block or the lowest free place of the carve-out (R107). A block
is written whole. -/
def spillAppend (k : Nat) (c : Cell) (s : State) : State :=
  let l := s.switch.spill.get k
  let place := freePlace s (voqDie k)
  let fresh (s : State) : State :=
    setSpill k (l ++ [⟨place, [some c]⟩])
      (coverGranules (memAddr (voqDie k) (blockOffset s (voqDie k) place)) spillBlockBytes s)
  match l.getLast? with
  | some b =>
    if b.slots.length < spillBlockCells then setSpill k (l.dropLast ++ [{ b with slots := b.slots ++ [some c] }]) s else fresh s
  | none => fresh s

/-- A spill segment without one frame's cells (R86). -/
def purgeBlocks (die id : Nat) (l : List SpillBlock) : List SpillBlock :=
  l.map fun b => { b with slots := b.slots.map fun o => o.filter fun c => !ofFrame die id c }

/-! ### Resequencer timers (R93) -/

def complete (f : EFrame) : Bool := f.got.length == f.head.cells

/-- R93: the timer starts when the stream holds a complete frame and none of them carries E. -/
def reseqTimer (s : State) (r : Reseq) : Reseq :=
  let stuck := r.held.any complete && !(r.held.any fun f => f.head.orderSeq == r.expect)
  { r with timer := if stuck then some (r.timer.getD (nowNs s)) else none }

/-! ### Discards (R86) -/

def dropCells (die id : Nat) (l : List Cell) : List Cell := l.filter fun c => !ofFrame die id c

/-- A table of cell lists without one frame's cells. -/
def purge (die id : Nat) (t : Tab (List Cell)) : Tab (List Cell) :=
  ⟨t.dflt, t.cells.filterMap fun x =>
    let l := dropCells die id x.2
    if l.isEmpty then none else some (x.1, l)⟩

/-- The input queue of a frame (R82). -/
def frameQueue (h : Cell) : Nat :=
  match h.destType with
  | 0 => qVoq h.ingressDie h.dest h.cls h.sub
  | 1 => qMc h.ingressDie h.cls h.sub
  | _ => qRed h.ingressDie h.group h.cls

/-- The frame of a cell as a lane or member sends it: it has begun (R98). -/
def begunBy (h : Cell) (x : Option Sending) : Bool := x.any fun d => sameFrame d.frame.head h && !d.frame.copy

/-- Whether a unicast frame has begun on a lane of its port. -/
def begun (s : State) (h : Cell) : Bool :=
  h.destType == 0 && (upTo 8).any fun l => begunBy h (s.switch.sending.get (laneKey h.dest l))

/-- A released frame that is lost or discarded: a unicast frame's granted cells are settled (04 R118), a contribution's
staging place is free again (R112), an emitted frame's descriptor completes (17 R521). A frame that has begun settles as it
leaves. -/
def frameEnds (h : Cell) (spent : Bool) (s : State) : State :=
  let s := if spent && h.destType = 0 && !begun s h then settle h.dest h.cls h.ingressDie h.cells s else s
  let s := if spent && h.destType = 2 then
      s.onColl fun x => { x with staging := x.staging.modify (groupKey (h.dest % 8) h.group) (· - 1) } else s
  emitOutcome h.emit 0x02 0 s

/-- R86: every cell of a frame leaves, wherever it is. The cells still on the ingress side free their room; the drain probe
counts the frame until its last cell has left the spreader (02 R70). A frame whose transmission has begun ends stomped. -/
def discardFrame (h : Cell) (spent : Bool) (s : State) : State :=
  let die := h.ingressDie
  let id := h.frameId
  let q := frameQueue h
  let coming := ((s.switch.ingress.get (frameKey die id)).map IFrame.cells).getD []
  let here := (qCells s q ++ spillCells s (q / 4)).filter (ofFrame die id) ++ coming
  let s := here.foldl (fun s c => freeCell c s) s
  let s := match coming with
    | c :: _ => spillState die (pfcCheck c.port c.cls (uncharge c (36 - c.cells) s))
    | [] => s
  let s := frameEnds h spent s
  let s := if here.any Cell.last then probeDone h s else s
  let s := if q % 4 = 0 then setSpill (q / 4) (purgeBlocks die id (s.switch.spill.get (q / 4))) s else s
  let s := s.onSwitch fun x => { x with
    voq := purge die id x.voq
    mcq := purge die id x.mcq
    red := purge die id x.red
    transit := purge die id x.transit
    mesh := purge die id x.mesh
    released := x.released.modify q (·.filter (· != id))
    reseq := ⟨x.reseq.dflt, x.reseq.cells.map fun y =>
      if y.2.held.any fun f => ofFrame die id f.head then
        (y.1, reseqTimer s { y.2 with held := y.2.held.filter fun f => !ofFrame die id f.head })
      else y⟩
    ingress := x.ingress.set (frameKey die id) none
    frameOrder := x.frameOrder.set (frameKey die id) 0 }
  let s := s.onSwitch fun x => (upTo 8).foldl (fun x e =>
    match x.reasm.get (reasmKey e die id) with
    | some f => { x with
        reasm := x.reasm.set (reasmKey e die id) none
        egressBytes := x.egressBytes.modify e (· - queueBytes f.got) }
    | none => x) x
  if h.destType ≠ 0 then s else
  let s := s.onSwitch fun x => (upTo 8).foldl (fun x l =>
    let k := laneqKey h.dest l h.cls
    let gone := (x.laneq.get k).filter fun f => sameFrame f.head h && !f.copy
    let x := { x with
      laneq := x.laneq.modify k (·.filter fun f => !(sameFrame f.head h && !f.copy))
      egressBytes := gone.foldl (fun t f => t.modify (portDie h.dest) (· - queueBytes f.got)) x.egressBytes }
    if begunBy h (x.sending.get (laneKey h.dest l)) then
      { x with sending := x.sending.modify (laneKey h.dest l) (·.map fun d => if complete d.frame then d else { d with stomp := true }) }
    else x) x
  refreshIdle die h.dest h.cls (noteWaiting h.dest h.cls s)

/-- Whether any cell of a frame is left in the device. -/
def frameAlive (s : State) (h : Cell) : Bool :=
  let own := ofFrame h.ingressDie h.frameId
  (qCells s (frameQueue h)).any own || (h.destType == 0 && (spillCells s (frameQueue h / 4)).any own)
    || (s.switch.ingress.get (frameKey h.ingressDie h.frameId)).isSome
    || (s.switch.transit.cells ++ s.switch.mesh.cells).any (fun x => x.2.any own)
    || (upTo 8).any (fun e => (s.switch.reasm.get (reasmKey e h.ingressDie h.frameId)).isSome)
    || (h.destType == 0 && (begun s h || (upTo 8).any fun l =>
        (s.switch.laneq.get (laneqKey h.dest l h.cls)).any fun f => sameFrame f.head h && !f.copy))

/-- A cell has been lost on its way; where it was the last of its frame, no context is left to discard the frame, and it ends
here. -/
def cellLost (c : Cell) (s : State) : State := if frameAlive s c then s else frameEnds c true s

/-- A frame discarded for its age by the die that detects it (R100, R101, 18 R541). -/
def ageDiscard (die : Nat) (h : Cell) (spent : Bool) (s : State) : State :=
  discardFrame h spent (count die 0x200B h.cls 1 s)

/-- R100: the age of a frame, on bits [31:0] of the queue clock. -/
def frameAge (s : State) (c : Cell) : Nat := (nowNs s + 2 ^ 32 - c.ingressTime % 2 ^ 32) % 2 ^ 32
/-- R100: the age reaches the frame's limit. -/
def tooOld (s : State) (c : Cell) : Bool := cfgAge s c ≤ frameAge s c

/-! ### Lane choice (R73, R74, R77) -/

/-- R74: the occupancy of a lane as an ingress die sees it. -/
def seenOccupancy (s : State) (die port lane : Nat) : Nat :=
  s.switch.occ.get (laneKey port lane) + s.switch.assigned.get (die * 4096 + laneKey port lane)

/-- Bytes queued for a lane on its egress die. -/
def laneBytes (s : State) (port lane : Nat) : Nat :=
  (upTo 8).foldl (fun a c => (s.switch.laneq.get (laneqKey port lane c)).foldl (fun a f => a + f.head.frameLen) a) 0
/-- R77: the occupancy of the egress die's own lane queue as it stands, in 256-byte units rounded up. -/
def ownOccupancy (s : State) (port lane : Nat) : Nat := ceilDiv (laneBytes s port lane) 256

/-- R73: among candidates, one of the least occupancy; among equals the die's generator decides. -/
def chooseLane (die : Nat) (l : List (Nat × Nat)) (occ : Nat → Nat → Nat) (s : State) : Option (Nat × Nat) × State :=
  match l with
  | [] => (none, s)
  | x :: r =>
    let least := r.foldl (fun m y => min m (occ y.1 y.2)) (occ x.1 x.2)
    let best := l.filter fun y => occ y.1 y.2 == least
    if best.length ≤ 1 then (best.head?, s) else
    let (d, s) := drawOn die s
    (some (best.getD (d % best.length) x), s)

/-- R73: the candidate set of a bundle as an ingress die knows it. -/
def candidates (s : State) (ports : List Nat) : List (Nat × Nat) :=
  (ports.filter fun p => !draining s p && dieUp s (portDie p)).flatMap fun p =>
    (laneBits (s.switch.sprayPub.get p)).map fun l => (p, l)

/-- R77: the egress die's choice among the spray lanes of a port. -/
def egressLane (port : Nat) (s : State) : Option Nat × State :=
  let (r, s) := chooseLane (portDie port) ((sprayLanes s port).map fun l => (port, l)) (ownOccupancy s) s
  (r.map Prod.snd, s)

/-! ### Cutting and admission (R78 to R85, R106 to R108) -/

/-- Cells 0, 1, ... of a frame's bytes, each with the header `h` (R78, R79). -/
def cutFrame (h : Cell) (f : Bytes) : List Cell :=
  let n := ceilDiv f.length 256
  (upTo n).map fun i =>
    let d := slice f (256 * i) 256
    { h with index := i, last := i + 1 == n, lenM1 := d.length - 1, data := d, cells := n, frameLen := f.length }

/-- R106: the carve-out has room for `n` more cells of a VOQ: free places of its last block and whole blocks, beside three
blocks for each frame that is being cut into memory. -/
def spillRoom (s : State) (die k n : Nat) : Bool :=
  let inLast := match (s.switch.spill.get k).getLast? with
    | some b => spillBlockCells - b.slots.length
    | none => 0
  let coming := (s.switch.ingress.cells.filter fun x => x.1 / 2 ^ 24 == die &&
    x.2.any fun f => f.cells.any fun c => c.pool == 3).length
  s.switch.spillBytes.get die + spillBlockBytes * (ceilDiv (n - inLast) spillBlockCells + 3 * coming) ≤ cfgCarveout s die * 10 ^ 9

/-- R85: the occupancy of a queue lies below 2^ALPHA_LOG2 times the free shared bytes. -/
def belowAlpha (s : State) (occupancy free : Nat) : Bool :=
  match cfgAlphaLog2 s with
  | .ofNat a => occupancy < free * 2 ^ a
  | .negSucc a => occupancy * 2 ^ (a + 1) < free

/-- R85, R106 to R108: where a frame is admitted for which room of `n` cells is to be kept: none dropped, else the pool code of
its cells. -/
def admission (s : State) (die port cls q n : Nat) (unicast : Bool) : Option Nat :=
  let inSram := queueBytes (qCells s q)
  let deepSegment := unicast && !(s.switch.spill.get (q / 4)).isEmpty
  let wantsSpill := unicast && isDeep s cls && ((s.switch.spilling.get die && cfgVoqSpillMin s ≤ inSram) || deepSegment)
  if wantsSpill && spillRoom s die (q / 4) n then some 3
  else if isLossless s cls then
    if port < 288 && s.switch.reserve.get (pcKey port cls) + 9216 ≤ cfgReserve s then some 2
    else if 9216 ≤ freeSharedFor s die port cls then some 1 else none
  else if 9216 ≤ freeShared s die && belowAlpha s inSram (freeShared s die) then some 1 else none

/-- Room of `n` cells charged to what admission chose for a frame (R85). -/
def charge (c : Cell) (n : Nat) (s : State) : State :=
  let k := pcKey c.port c.cls
  let s := s.onSwitch fun x => match c.pool with
    | 1 => { x with
        shared := x.shared.modify c.ingressDie (· + 256 * n)
        sharedUse := if bit c.flags 0 then x.sharedUse.modify k (· + 256 * n) else x.sharedUse }
    | 2 => { x with reserve := x.reserve.modify k (· + 256 * n) }
    | _ => x
  spillState c.ingressDie (pfcCheck c.port c.cls s)

/-- A cell put at the end of its queue, or of the queue's spill segment. -/
def enqueueCell (q : Nat) (c : Cell) (s : State) : State :=
  if c.pool = 3 then spillAppend (q / 4) c s else setQ q (qCells s q ++ [c]) s

/-- R81: the next FRAME_ID of a die. -/
def nextFrameId (die : Nat) (s : State) : Nat × State :=
  (s.switch.frameId.get die,
   s.onSwitch fun x => { x with frameId := x.frameId.modify die fun n => (n + 1) % 2 ^ 24 })

/-- FRAME_ADMISSION (R85): a frame with header `h` enters queue `q` whole, or cell by cell where it is cut through; or it
is dropped and counted: on its ingress port; of a frame that a die emits (17 R520), which has none, on the egress port of a unicast
one, and on no port of a multicast one (DESIGN CHOICE, log 182). A frame that is cut through holds 9,216 bytes until its last cell
is cut; of a whole one the reservation and its return fall together. -/
def admitFrame (h : Cell) (q : Nat) (f : Bytes) (cut faulty : Bool) (s : State) : State :=
  let die := h.ingressDie
  match admission s die h.port h.cls q (if cut then 36 else ceilDiv f.length 256) (q % 4 == 0) with
  | none =>
    let ev := if isLossless s h.cls then 0x2003 else 0x2002
    let s := if h.port < 288 then count die ev (pcKey h.port h.cls) 1 s
      else if h.destType = 0 then count (portDie h.dest) ev (pcKey h.dest h.cls) 1 s else s
    emitOutcome h.emit 0x02 0 s
  | some pool =>
    let (id, s) := nextFrameId die s
    let h := { h with frameId := id, pool := pool, cut := cut, flags := cfgClassFlags s h.cls, good := !faulty }
    let cells := cutFrame h f
    let cells := if faulty then cells.map fun c => if c.last then { c with bad := true } else c else cells
    let s := charge h (if cut then 36 else cells.length) s
    let s := match h.drainIndex with
      | some i => drainAdd die i s
      | none => s
    if cut then
      s.onSwitch fun x => { x with ingress := x.ingress.set (frameKey die id) (some ⟨cells, q, faulty && !fcsGood f⟩) }
    else
      let s := cells.foldl (fun s c => enqueueCell q c s) s
      if q % 4 = 0 then refreshIdle die h.dest h.cls s else s

/-- CELL_RELEASE (R95): the next cell of a cut-through frame is released to its queue; a faulty frame's last cell carries
BAD, one that fails its FCS check is counted against the port's FCS errors, and the unused part of the reservation returns with
the last cell (R85). -/
def cellRelease (die id : Nat) (s : State) : State :=
  match s.switch.ingress.get (frameKey die id) with
  | none => s
  | some f =>
    match f.cells with
    | [] => s.onSwitch fun x => { x with ingress := x.ingress.set (frameKey die id) none }
    | c :: r =>
      let s := enqueueCell f.queue c s
      let s := s.onSwitch fun x => { x with
        ingress := x.ingress.set (frameKey die id) (if r.isEmpty then none else some { f with cells := r }) }
      let s := if c.last then spillState die (pfcCheck c.port c.cls (uncharge c (36 - c.cells) s)) else s
      let s := if c.last && f.fcsBad then count die 0x200A c.port 1 s else s
      if f.queue % 4 = 0 then refreshIdle die c.dest c.cls s else s

def execCellRelease (die : DieIx) (frameId : BitVec 24) (s : State) : Host.Outcome State Fault Refusal :=
  .next (if dieUp s die && clocksRun s then cellRelease die frameId.toNat s else s)

/-! ### Lane queues (R76, R98, R105) -/

/-- A frame at the end of a lane queue. -/
def enqueueLane (port lane cls : Nat) (f : EFrame) (s : State) : State :=
  noteWaiting port cls (s.onSwitch fun x => { x with laneq := x.laneq.modify (laneqKey port lane cls) (· ++ [f]) })

/-- A timed frame at the head of a lane queue (12 R394). -/
def headLane (port lane cls : Nat) (f : EFrame) (s : State) : State :=
  noteWaiting port cls (s.onSwitch fun x => { x with laneq := x.laneq.modify (laneqKey port lane cls) (f :: ·) })

/-- Memory of a frame at its egress die is released. -/
def releaseEgress (port : Nat) (f : EFrame) (s : State) : State :=
  s.onSwitch fun x => { x with egressBytes := x.egressBytes.modify (portDie port) (· - queueBytes f.got) }

/-- A frame taken from its egress die's memory is discarded: a copy or a timed frame is whole; of any other every cell leaves,
wherever it is, and its credit is settled (R86, 04 R118). -/
def dropAtEgress (port : Nat) (f : EFrame) (s : State) : State :=
  let s := releaseEgress port f s
  if f.copy || f.launch.isSome || f.head.destType ≠ 0 then emitOutcome f.head.emit 0x02 0 s else discardFrame f.head true s

/-- R76: a unicast frame reaches the lane queue of its lane, or of the least-occupied lane of its port. -/
def toLane (port : Nat) (f : EFrame) (s : State) : State :=
  let l := if isFibre port then f.head.lane else 0
  if (sprayLanes s port).contains l then enqueueLane port l f.head.cls f s
  else
    let (r, s) := egressLane port s
    match r with
    | some l => enqueueLane port l f.head.cls f s
    | none => dropAtEgress port f (count (portDie port) 0x2000 0 1 s)

/-- R92: a frame of an ordered stream: bound for an electrical port, or of a class marked ORDERED when it was admitted
(R117). -/
def orderedFrame (c : Cell) : Bool := !isFibre c.dest || bit c.flags 1

/-- R98: cells 0 to CT_START_CELLS - 1, or the whole frame. -/
def mayBegin (s : State) (f : EFrame) : Bool :=
  complete f || (f.head.cut && (upTo (cfgCtStart s)).all fun i => f.got.any fun c => c.index == i)
/-- The bytes of a frame's cells in order. -/
def frameBytes (f : EFrame) : Bytes :=
  (upTo f.head.cells).flatMap fun i => ((f.got.find? fun c => c.index == i).map Cell.data).getD []

/-- Bytes queued for a port and class over its lanes (R105). -/
def portQueued (s : State) (p cls : Nat) : Nat :=
  (upTo 8).foldl (fun a l => (s.switch.laneq.get (laneqKey p l cls)).foldl (fun a g => a + g.head.frameLen) a) 0

/-- R105: held copies of results go on while their port has room; one at its age limit is discarded. -/
def serveHeld (p cls : Nat) : Nat → State → State
  | 0, s => s
  | n + 1, s =>
    match s.switch.heldResults.get (pcKey p cls) with
    | [] => s
    | f :: r =>
      let next (s : State) : State := s.onSwitch fun x => { x with heldResults := x.heldResults.set (pcKey p cls) r }
      if tooOld s f.head then serveHeld p cls n (releaseEgress p f (count (portDie p) 0x200B cls 1 (next s)))
      else if cfgMcPortLimit s < portQueued s p cls then s
      else
        let (l, t) := egressLane p s
        match l with
        | some l => serveHeld p cls n (enqueueLane p l cls { f with head := { f.head with lane := l } } (next t))
        | none => s

/-- Every held copy of a port that may go on. -/
def serveHeldAll (p : Nat) (s : State) : State :=
  [7, 6, 5, 4, 3, 2, 1, 0].foldl (fun s c => serveHeld p c (s.switch.heldResults.get (pcKey p c)).length s) s

/-- R102, R104, R105: the copies of a multicast frame or a result that an egress die makes. A multicast copy for a port whose
lane queues exceed MC_PORT_LIMIT is dropped; a result's copy is held until the port has room. For a selected port without a lane in
the spray set no multicast copy is made, and none is counted: the manual names no counter for it (DESIGN CHOICE, log 183). -/
def makeCopies (egress : Nat) (f : EFrame) (s : State) : State :=
  let bytes := frameBytes f
  let ports : List (Nat × Nat) :=
    if f.head.dests.isEmpty then
      let m := s.tables.mcast.get (tblKey egress f.head.dest)
      ((upTo 288).filter fun p => portDie p == egress && m.getLsbD p).map fun p => (p, 0)
    else (f.head.dests.map fun x => (x / 65536, x % 65536)).filter fun x => portDie x.1 == egress
  ports.foldl (fun s x =>
    let p := x.1
    if draining s p then s else
    let b := if f.result then readdress s p x.2 bytes
      else if f.head.routed then routeRewrite (some (cfgPeerMac s p)) (some (portMac s p)) false bytes else bytes
    let g := cutFrame { f.head with dest := p, lane := 0, destType := 1, dests := [], emit := none } b
    let copy : EFrame := { f with head := { (g.headD f.head) with emit := none }, got := g, copy := true }
    let kept (s : State) : State := s.onSwitch fun y => { y with egressBytes := y.egressBytes.modify egress (· + queueBytes g) }
    if f.result then
      serveHeldAll p ((kept s).onSwitch fun y => { y with
        heldResults := y.heldResults.modify (pcKey p f.head.cls) (· ++ [copy]) })
    else
      let (r, s) := egressLane p s
      match r with
      | none => s
      | some l =>
        if cfgMcPortLimit s < portQueued s p f.head.cls then count egress 0x2009 p 1 s
        else enqueueLane p l f.head.cls { copy with head := { copy.head with lane := l } } (kept s)) s

/-! ### Egress: reassembly and hand-over (R90 to R94) -/

/-- A cell added to a frame. -/
def addCell (c : Cell) (f : EFrame) : EFrame :=
  if f.got.any fun d => d.index == c.index then f else
  { f with got := f.got ++ [c], head := if c.bad then { f.head with bad := true } else f.head }

/-- A cell of a frame that has already passed to a lane queue or is being sent. -/
def attachCell (port : Nat) (c : Cell) (s : State) : Option State :=
  let lanes := (upTo 8).filter fun l => (s.switch.laneq.get (laneqKey port l c.cls)).any fun f => sameFrame f.head c && !f.copy
  match lanes with
  | l :: _ => some (s.onSwitch fun x => { x with
      laneq := x.laneq.modify (laneqKey port l c.cls) (·.map fun f => if sameFrame f.head c && !f.copy then addCell c f else f)
      egressBytes := x.egressBytes.modify (portDie port) (· + 256) })
  | [] =>
    match (upTo 8).filter fun l => (s.switch.sending.get (laneKey port l)).any fun d => sameFrame d.frame.head c && !d.frame.copy with
    | l :: _ => some (s.onSwitch fun x => { x with
        sending := x.sending.modify (laneKey port l) (·.map fun d =>
          { d with frame := addCell c d.frame, stomp := d.stomp || c.bad })
        egressBytes := x.egressBytes.modify (portDie port) (· + 256) })
    | [] => none

/-- A contribution reaches its home die's reduction input whole (05 R160). -/
def toHome (home : Nat) (f : EFrame) (s : State) : State :=
  let s := s.onSwitch fun x => { x with egressBytes := x.egressBytes.modify home (· - queueBytes f.got) }
  s.onColl fun x => { x with
    atHome := x.atHome.modify home (· ++ [⟨frameBytes f, f.head.ingressTime, f.head.ingressDie, f.head.port⟩]) }

/-- The frame of a reassembly context goes on where it may (R93, R98, R102). -/
def passOn (egress key : Nat) (f : EFrame) (s : State) : State :=
  let close (s : State) : State := s.onSwitch fun x => { x with reasm := x.reasm.set key none }
  match f.head.destType with
  | 0 =>
    let p := f.head.dest
    if f.head.bad && complete f then
      dropAtEgress p f (close s)
    else if orderedFrame f.head then
      if complete f || mayBegin s f then
        let k := reseqKey p f.head.ingressDie f.head.cls
        let r := s.switch.reseq.get k
        let d := (f.head.orderSeq + 65536 - r.expect) % 65536
        if 32768 ≤ d then dropAtEgress p f (count egress 0x2005 0 1 (close s))
        else
          let held := if r.held.any fun g => sameFrame g.head f.head then
              r.held.map fun g => if sameFrame g.head f.head then f else g
            else r.held ++ [f]
          s.onSwitch fun x => { x with reseq := x.reseq.set k (reseqTimer s { r with held := held }) }
      else s
    else if mayBegin s f then toLane p f (close s) else s
  | 2 => if complete f then toHome egress f (close s) else s
  | _ =>
    if complete f then
      let s := makeCopies egress f (close s)
      s.onSwitch fun x => { x with egressBytes := x.egressBytes.modify egress (· - queueBytes f.got) }
    else s

/-- R91: a cell reaches its egress die. -/
def egressCell (egress : Nat) (c : Cell) (s : State) : State :=
  let attached := if c.destType = 0 then attachCell c.dest c s else none
  match attached with
  | some s => s
  | none =>
    let k := reasmKey egress c.ingressDie c.frameId
    let s := s.onSwitch fun x => { x with egressBytes := x.egressBytes.modify egress (· + 256) }
    let f := match s.switch.reasm.get k with
      | some f => addCell c f
      | none => ⟨c, [c], nowNs s, c.destType == 1, !c.dests.isEmpty, none, 0⟩
    let s := s.onSwitch fun x => { x with reasm := x.reasm.set k (some f) }
    passOn egress k f s

/-! ### Two stages over the mesh (R87 to R90) -/

/-- R88: room at an egress die for one more cell, those on their way counted. Reassembly has 16 MiB (R91); the manual gives no
size for the replication and reduction inputs, and the model lets them and the lane queues share that one total (DESIGN CHOICE,
log 155). -/
def egressRoom (s : State) (die : Nat) : Bool :=
  s.switch.egressBytes.get die + s.switch.mesh.cells.foldl (fun a x =>
    if x.1 % 8 = die then a + queueBytes (x.2.filter Cell.stage2) else a) 0 + 256 ≤ 16 * 2 ^ 20

/-- R102, R104: the egress dies of a cell as an intermediate die reads them. -/
def egressDies (s : State) (mid : Nat) (c : Cell) : List Nat :=
  match c.destType with
  | 0 => [portDie c.dest]
  | 2 => [c.dest % 8]
  | _ =>
    if c.dests.isEmpty then
      let m := s.tables.mcast.get (tblKey mid c.dest)
      (diesUp s).filter fun d => (upTo 288).any fun p => portDie p == d && m.getLsbD p
    else (diesUp s).filter fun d => c.dests.any fun x => portDie (x / 65536) == d

/-- Bytes that a cell takes in the transit queues of an intermediate die: one copy per egress die (R88, R102). -/
def transitCost (s : State) (mid : Nat) (c : Cell) : Nat := 256 * (egressDies s mid c).length

/-- Cells of a die's transit queues with those on their way to them. -/
def transitBytes (s : State) (die : Nat) : Nat :=
  s.switch.transit.cells.foldl (fun a x => if x.1 / 64 = die then a + queueBytes x.2 else a) 0 +
    s.switch.mesh.cells.foldl (fun a x =>
      if x.1 % 8 = die then (x.2.filter fun c => !c.stage2).foldl (fun a c => a + transitCost s die c) a else a) 0

/-- R88: room for one more cell, with every copy of it, in the transit memory of a die (6 MiB, R84; log 24). -/
def transitRoom (s : State) (die : Nat) (c : Cell) : Bool := transitBytes s die + transitCost s die c ≤ 6 * 2 ^ 20

/-- A cell placed in the transit queues of an intermediate die; a multicast cell once per egress die
(MCAST_REPLICATE, R102). -/
def toTransit (mid : Nat) (c : Cell) (s : State) : State :=
  (egressDies s mid c).foldl (fun s e =>
    s.onSwitch fun x => { x with transit := x.transit.modify (transitKey mid e c.cls) (· ++ [{ c with stage2 := false }]) }) s

/-- R87: the intermediate die of a queue's next cell. -/
def nextIntermediate (s : State) (q : Nat) : Option Nat :=
  let l := diesUp s
  match l.findIdx? (· == qDie q) with
  | some p => l[(p + s.switch.rotation.get q) % l.length]?
  | none => none

/-- The next cell the spreader sends of a queue: the lowest-numbered cell present of the frame released first. -/
def spreadNext (s : State) (q : Nat) : Option Cell :=
  match s.switch.released.get q with
  | [] => none
  | id :: _ => (qCells s q).find? fun c => c.frameId == id

/-- R92: the ORDER_SEQ of a frame, assigned as its first cell leaves its VOQ. -/
def assignOrder (c : Cell) (s : State) : Nat × State :=
  let k := frameKey c.ingressDie c.frameId
  if c.destType ≠ 0 then (c.orderSeq, s) else
  match s.switch.frameOrder.get k with
  | n + 1 => (n, if c.last then s.onSwitch fun x => { x with frameOrder := x.frameOrder.set k 0 } else s)
  | 0 =>
    if orderedFrame c then
      let o := dpcKey c.ingressDie c.dest c.cls
      let n := s.switch.orderNext.get o
      (n, s.onSwitch fun x => { x with
        orderNext := x.orderNext.set o ((n + 1) % 65536)
        frameOrder := if c.last then x.frameOrder else x.frameOrder.set k (n + 1) })
    else (0, s)

/-- SPREADER_SEND_CELL (R87, R88). -/
def spreaderSend (q : Nat) (s : State) : State :=
  match spreadNext s q, nextIntermediate s q with
  | some c, some mid =>
    if c.index = 0 && tooOld s c then ageDiscard (qDie q) c true s
    else if !transitRoom s mid c then s
    else
      let s := setQ q ((qCells s q).filter fun d => !(d.frameId == c.frameId && d.index == c.index)) s
      let (o, s) := assignOrder c s
      let s := freeCell c s
      let s := s.onSwitch fun x => { x with
        rotation := x.rotation.modify q (· + 1)
        released := if c.last then x.released.modify q (·.drop 1) else x.released }
      let s := if c.last then probeDone c s else s
      let c := { c with orderSeq := if c.destType = 0 then o else 0, pool := 0, stage2 := false }
      if mid = qDie q then toTransit mid c s
      else s.onSwitch fun x => { x with mesh := x.mesh.modify (meshKey (qDie q) mid) (· ++ [c]) }
  | _, _ => s

/-- The queue a `QueueId` names, where the spreader serves it. -/
def queueCode : QueueId → Option Nat
  | .voq d p c k => some (qVoq d p c k)
  | .mcast d c k => some (qMc d c k)
  | .red d g c => some (qRed d g c)
  | .transit _ _ _ => none
  | .lane _ _ _ => none

def execSpreaderSendCell (queue : QueueId) (s : State) : Host.Outcome State Fault Refusal :=
  .next (match queueCode queue with
    | some q => if dieUp s (qDie q) && clocksRun s then spreaderSend q s else s
    | none => s)

/-- TRANSIT_FORWARD (R88, R89): the highest class with a cell, in arrival order; the age of a first cell is judged. -/
def transitForward (die egress : Nat) (s : State) : State :=
  let classes := [7, 6, 5, 4, 3, 2, 1, 0].filter fun c => !(s.switch.transit.get (transitKey die egress c)).isEmpty
  match classes with
  | [] => s
  | cls :: _ =>
    let k := transitKey die egress cls
    match s.switch.transit.get k with
    | [] => s
    | c :: r =>
      if c.index = 0 && tooOld s c then ageDiscard die c true s
      else if !dieUp s egress then cellLost c (s.onSwitch fun x => { x with transit := x.transit.set k r })
      else if !egressRoom s egress then s
      else
        let s := s.onSwitch fun x => { x with transit := x.transit.set k r }
        if die = egress then egressCell egress c s
        else s.onSwitch fun x => { x with mesh := x.mesh.modify (meshKey die egress) (· ++ [{ c with stage2 := true }]) }

def execTransitForward (die egress : DieIx) (s : State) : Host.Outcome State Fault Refusal :=
  .next (if dieUp s die && clocksRun s then transitForward die egress s else s)

/-- MESH_CELL_RECEIVE (R80, R90): the oldest cell of a link arrives. -/
def execMeshCellReceive (src dst : DieIx) (crcGood : Bool) (s : State) : Host.Outcome State Fault Refusal :=
  .next <| if !clocksRun s then s else
    match s.switch.mesh.get (meshKey src dst) with
    | [] => s
    | c :: r =>
      let s := s.onSwitch fun x => { x with mesh := x.mesh.set (meshKey src dst) r }
      if !dieUp s dst then cellLost c s
      else if !crcGood then cellLost c (count dst 0x2001 src 1 s)
      else if c.stage2 then egressCell dst c s
      else toTransit dst c s

/-- REASM_TIMEOUT (R91): a context at the age of 50 us is discarded. -/
def execReasmTimeout (die ingress : DieIx) (frameId : BitVec 24) (s : State) : Host.Outcome State Fault Refusal :=
  .next <| if !clocksRun s then s else
    let k := reasmKey die ingress frameId.toNat
    match s.switch.reasm.get k with
    | some f =>
      if f.openedAt + 50000 ≤ nowNs s && !complete f then
        discardFrame f.head true (count die 0x2004 0 1 s)
      else s
    | none => s

/-- RESEQ_PASS (R93): the frame that carries E passes to the lane queues. -/
def execReseqPass (port : PortIx) (ingress : DieIx) (cls : ClassIx) (s : State) : Host.Outcome State Fault Refusal :=
  .next <| if !clocksRun s then s else
    let k := reseqKey port ingress cls
    let r := s.switch.reseq.get k
    match r.held.find? fun f => f.head.orderSeq == r.expect with
    | none => s
    | some f =>
      let s := s.onSwitch fun x => { x with
        reasm := x.reasm.set (reasmKey (portDie port) ingress f.head.frameId) none
        reseq := x.reseq.set k (reseqTimer s { r with
          expect := (r.expect + 1) % 65536
          held := r.held.filter fun g => !sameFrame g.head f.head
          timer := none }) }
      toLane port f s

/-- RESEQ_SKIP (R93): the timer reaches 20 us; E jumps to the lowest held ORDER_SEQ and the numbers skipped are counted. -/
def execReseqSkip (port : PortIx) (ingress : DieIx) (cls : ClassIx) (s : State) : Host.Outcome State Fault Refusal :=
  .next <| if !clocksRun s then s else
    let k := reseqKey port ingress cls
    let r := s.switch.reseq.get k
    match r.timer with
    | none => s
    | some t =>
      if nowNs s < t + 20000 then s else
      let d (f : EFrame) : Nat := (f.head.orderSeq + 65536 - r.expect) % 65536
      let least := r.held.foldl (fun m f => min m (d f)) 65535
      if r.held.isEmpty then s else
      let s := count (portDie port) 0x2006 0 least s
      s.onSwitch fun x => { x with reseq := x.reseq.set k { r with expect := (r.expect + least) % 65536, timer := none } }

/-! ### Age discard at queue heads (R101) -/

/-- The head frames of a cell list that have reached their age limit, examined in order. -/
def oldHeads (s : State) : Nat → List Cell → List Cell
  | 0, _ => []
  | _, [] => []
  | fuel + 1, c :: r => if tooOld s c then c :: oldHeads s fuel (r.filter fun d => !sameFrame c d) else []

/-- The same for a lane queue. -/
def oldFrames (s : State) : List EFrame → List EFrame
  | [] => []
  | f :: r => if tooOld s f.head then f :: oldFrames s r else []

/-- AGE_HEAD_EXAMINE (R101). -/
def execAgeHeadExamine (queue : QueueId) (s : State) : Host.Outcome State Fault Refusal :=
  .next <| if !clocksRun s then s else
    match queue with
    | .lane p l c =>
      let k := laneqKey p l c
      (oldFrames s (s.switch.laneq.get k)).foldl (fun s f =>
        noteWaiting p c (dropAtEgress p f (count (portDie p) 0x200B c 1 (s.onSwitch fun x =>
          { x with laneq := x.laneq.modify k (·.drop 1) })))) (serveHeld p c (s.switch.heldResults.get (pcKey p c)).length s)
    | .transit d e c =>
      let l := s.switch.transit.get (transitKey d e c)
      (oldHeads s l.length (l.filter fun x => x.index == 0)).foldl (fun s h => ageDiscard d h true s) s
    | q =>
      match queueCode q with
      | none => s
      | some k =>
        let l := qCells s k ++ (if k % 4 = 0 then spillCells s (k / 4) else [])
        let fresh := l.filter fun x => !((s.switch.released.get k).contains x.frameId && x.index != 0)
        (oldHeads s fresh.length fresh).foldl (fun s h =>
          ageDiscard (qDie k) h ((s.switch.released.get k).contains h.frameId) s) s

/-! ### Publication (R74, 04 R119) -/

/-- LANE_STATE_PUBLISH: a die publishes its lanes' occupancy and spray bits and its request bits. -/
def execLaneStatePublish (die : DieIx) (s : State) : Host.Outcome State Fault Refusal :=
  .next <| if !dieUp s die || !clocksRun s then s else
    let ports := (upTo 288).filter fun p => portDie p == die.val
    let lanes := ports.flatMap fun p => (if isFibre p then upTo 8 else [0]).map fun l => (p, l)
    let occ := lanes.foldl (fun t x => t.set (laneKey x.1 x.2) (min 4095 (ownOccupancy s x.1 x.2))) s.switch.occ
    let pub := ports.foldl (fun t p => t.set p ((sprayLanes s p).foldl (fun a l => a + 2 ^ l) 0)) s.switch.sprayPub
    let asg := s.switch.assigned.erase fun k => portDie (k % 4096 / 8) == die.val
    let mine := s.switch.voq.cells.filterMap fun x =>
      if x.1 / 16 / 8 / 288 = die.val then some (x.1 / 16) else none
    let spilled := s.switch.spill.cells.filterMap fun x =>
      if x.1 / 16 / 8 / 288 = die.val then some (x.1 / 16) else none
    let req := (mine ++ spilled).foldl (fun t k =>
        if waiting s die (k / 8 % 288) (k % 8) then t.set k true else t)
      (s.switch.requests.erase fun k => k / 8 / 288 == die.val)
    s.onSwitch fun x => { x with occ := occ, sprayPub := pub, assigned := asg, requests := req }

/-! ### Memory errors (18 R532) -/

/-- The region that owns an offset of a die's memory, or 0 (18 R532). -/
def ownerOf (s : State) (die off : Nat) : Nat :=
  match s.resident.regions.cells.find? fun x => match x.2 with
    | some r => (upTo 2).any fun c =>
        let k := 8 * c + die
        r.parts.get k != 0 && r.parts.get k - 1 ≤ off && off < r.parts.get k - 1 + r.sizes.get k
    | none => false with
  | some (h, _) => h
  | none => 0

/-- A memory channel of a die works: a die of the A part has 24, one of the S part 8 (00 R1), eight for each package in service
(00 R2). -/
def channelUp (s : State) (die ch : Nat) : Bool := s.start.memPackages.getLsbD (3 * die + ch / 8)

/-- The channel of a die that holds a granule: granules are interleaved over the channels of the packages in service (15 R452), taken
in turn (the order is DEDUCED, log 194). -/
def granuleChannel (s : State) (die granule : Nat) : Nat :=
  let l := (upTo 24).filter (channelUp s die)
  l.getD (granule % l.length) 24

/-- MEM_UNCORRECTABLE (18 R532): the granule is poisoned; its first detection is counted and reported. A channel reads only the
granules that it holds. -/
def memUncorrectable (die ch granule : Nat) (s : State) : State :=
  let g := memAddr die (granule * 256) / 256
  if !dieUp s die || !clocksRun s || granuleChannel s die granule ≠ ch || memTop s die ≤ granule * 256 || s.ras.poisoned.contains g then s
  else raise 0x1003 0 (unitOf die ch 0) (beBytes 8 (granule * 256) ++ args32 [(ownerOf s die (granule * 256) : Int)])
    (count die 0xE003 ch 1 (s.onRas fun x => { x with poisoned := g :: x.poisoned }))

/-- Whether a range touches a granule with an uncorrectable error. -/
def memBad (s : State) (a n : Nat) : Bool := s.ras.poisoned.any fun g => g * 256 < a + n && a < (g + 1) * 256

/-! ### Deep spill (R107, R108) -/

/-- The heads of the frames of a list of cells. -/
def headsOf (l : List Cell) : List Cell := l.foldl (fun a c => if a.any (sameFrame c) then a else a ++ [c]) []

/-- SPILL_READBACK: one block of spilled cells comes back, through the staging area, to the VOQ's SRAM head. A frame whose first
cell leaves the segment at its age limit is discarded (R100). `bad` names the channel and the granule of the block that the read
finds uncorrectable: the error is reported as 18 R532 decides and every frame with a cell in the block is discarded (R108). -/
def spillReadback (die q : Nat) (bad : Option (Fin 24 × Fin 17)) (s : State) : State :=
  match s.switch.spill.get (q / 4) with
  | [] => s
  | b :: _ =>
    if cfgVoqSpillMin s / 2 ≤ queueBytes (qCells s q) then s else
    let off := blockOffset s die b.place
    let s := match bad with
      | some (ch, g) => memUncorrectable die ch (off / 256 + g) s
      | none => s
    let drop (f : Cell → State → State) (l : List Cell) (s : State) : State := l.foldl (fun s h => f h s) s
    if memBad s (memAddr die off) spillBlockBytes then
      drop (fun h s => discardFrame h ((s.switch.released.get q).contains h.frameId) s) (headsOf (blockCells [b]))
        (count die 0x200C 0 1 s)
    else
      let s := drop (fun h s => ageDiscard die h ((s.switch.released.get q).contains h.frameId) s)
        ((blockCells [b]).filter fun c => c.index == 0 && tooOld s c) s
      match s.switch.spill.get (q / 4) with
      | c :: r =>
        if c.place ≠ b.place then s else
        let l := (blockCells [c]).map fun x => { x with pool := 1 }
        let s := setQ q (qCells s q ++ l) (setSpill (q / 4) r s)
        l.foldl (fun s x => charge x 1 s) s
      | [] => s

def execSpillReadback (die : DieIx) (port : PortIx) (cls : ClassIx) (sub : Fin 16) (bad : Option (Fin 24 × Fin 17)) (s : State) :
    Host.Outcome State Fault Refusal :=
  .next (if dieUp s die && clocksRun s then spillReadback die (qVoq die port cls sub) bad s else s)

/-! ### Ports and dies that are lost (01 R31, R32) -/

/-- The lane queues of ports that go dark empty, what they were sending is cut off, and no lane of theirs is a spray lane. -/
def portsDark (pick : Nat → Bool) (s : State) : State :=
  let x := s.switch
  let frames := (x.laneq.cells.flatMap fun y => if pick (y.1 / 64) then y.2.map fun f => (y.1 / 64, f) else [])
    ++ (x.sending.cells.filterMap fun y => if pick (y.1 / 8) then y.2.map fun d => (y.1 / 8, d.frame) else none)
    ++ (x.heldResults.cells.flatMap fun y => if pick (y.1 / 8) then y.2.map fun f => (y.1 / 8, f) else [])
  let s := s.onSwitch fun x => { x with
    laneq := x.laneq.erase fun k => pick (k / 64)
    sending := x.sending.erase fun k => pick (k / 8)
    heldResults := x.heldResults.erase fun k => pick (k / 8)
    spray := x.spray.erase pick }
  let s := s.onFlow fun x => { x with
    xoff := x.xoff.erase fun k => pick (k / 8)
    pfcLow := x.pfcLow.erase fun k => pick (k / 8) }
  frames.foldl (fun s y => dropAtEgress y.1 y.2 s) s

/-- What the input queues of a die hold, with the code of the queue: cells of frames still coming in among them. -/
def queuedOn (s : State) (d : Nat) : List (Nat × List Cell) :=
  let x := s.switch
  let all := (x.voq.cells.map fun y => (4 * y.1, y.2)) ++ (x.spill.cells.map fun y => (4 * y.1, blockCells y.2))
    ++ (x.mcq.cells.map fun y => (4 * y.1 + 1, y.2)) ++ (x.red.cells.map fun y => (4 * y.1 + 2, y.2))
    ++ (x.ingress.cells.filterMap fun y => y.2.map fun f => (f.queue, f.cells))
  all.filter fun y => qDie y.1 == d

/-- R32: what the switch core held on a lost die, or was sending to it or through it, is gone. A frame of which nothing is left
ends; one that still has cells elsewhere is discarded there when its context times out. -/
def switchDieLost (d : Nat) (s : State) : State :=
  let x := s.switch
  let onWay := ((x.mesh.cells.filter fun y => y.1 / 8 == d || y.1 % 8 == d)
    ++ (x.transit.cells.filter fun y => y.1 / 64 == d || y.1 / 8 % 8 == d)).flatMap (·.2)
  let queued := queuedOn s d
  let spent := queued.flatMap fun y => y.2.filter fun c => (x.released.get y.1).contains c.frameId
  let unspent := queued.flatMap fun y => y.2.filter fun c => !(x.released.get y.1).contains c.frameId
  let arrived := x.reasm.cells.filterMap fun y => if y.1 / 2 ^ 24 / 8 = d then y.2.map EFrame.head else none
  let s := s.onSwitch fun x => { x with
    voq := x.voq.erase fun k => qDie (4 * k) == d
    mcq := x.mcq.erase fun k => qDie (4 * k + 1) == d
    red := x.red.erase fun k => qDie (4 * k + 2) == d
    spill := x.spill.erase fun k => qDie (4 * k) == d
    spillBytes := x.spillBytes.set d 0
    ingress := x.ingress.erase fun k => k / 2 ^ 24 == d
    released := x.released.erase fun k => qDie k == d
    frameOrder := x.frameOrder.erase fun k => k / 2 ^ 24 == d
    mesh := x.mesh.erase fun k => k / 8 == d || k % 8 == d
    transit := x.transit.erase fun k => k / 64 == d || k / 8 % 8 == d
    reasm := x.reasm.erase fun k => k / 2 ^ 24 / 8 == d
    reseq := x.reseq.erase fun k => portDie (k / 64) == d
    shared := x.shared.set d 0
    reserve := x.reserve.erase fun k => portDie (k / 8) == d
    sharedUse := x.sharedUse.erase fun k => portDie (k / 8) == d
    egressBytes := x.egressBytes.set d 0
    keeperIn := x.keeperIn.set d [] }
  let s := (headsOf unspent).foldl (fun s h => emitOutcome h.emit 0x02 0 s) s
  (headsOf (onWay ++ spent ++ arrived)).foldl (fun s h => cellLost h s) s

/-! ### Drains (R114, R115) -/

/-- The VOQs of a port on every die, spill segments among them, with their keys. -/
def voqsOfPort (s : State) (port : Nat) : List (Nat × List Cell) :=
  (s.switch.voq.cells ++ s.switch.spill.cells.map fun x => (x.1, blockCells x.2)).filter fun x => x.1 / 16 / 8 % 288 == port

/-- The timed frames of a port that still wait (12 R393). -/
def timedOf (s : State) (port : Nat) : List Timed := (s.regs.timed.get (portDie port)).filter fun t => t.port == port

/-- R115: no die holds a cell for a port anywhere. -/
def portEmpty (s : State) (port : Nat) : Bool :=
  let x := s.switch
  let unicast (c : Cell) : Bool := c.destType == 0 && c.dest == port
  (voqsOfPort s port).isEmpty && (timedOf s port).isEmpty && !(x.heldResults.cells.any fun y => y.1 / 8 == port)
    && !(x.transit.cells.any fun y => y.2.any unicast) && !(x.mesh.cells.any fun y => y.2.any unicast)
    && !(x.reasm.cells.any fun y => y.2.any fun f => unicast f.head)
    && !(x.ingress.cells.any fun y => y.2.any fun f => f.queue % 4 == 0 && f.queue / 4 / 16 / 8 % 288 == port)
    && !(x.reseq.cells.any fun y => y.1 / 8 / 8 == port && !y.2.held.isEmpty)
    && !(x.laneq.cells.any fun y => y.1 / 64 == port) && !(x.sending.cells.any fun y => y.1 / 8 == port)

/-- PORT_DRAIN DRAIN. -/
def portDrainDrain (p : Nat) (s : State) : State :=
  let s := objSet (0x090100 + p) 2 1 s
  answer stDone (s.onSwitch fun x => { x with drainState := x.drainState.set p 1 })

def execPortDrainDrain (role : Role) (port : PortIx) (s : State) : Host.Outcome State Fault Refusal :=
  .next (guardWrite role (0x090100 + port.val) 2 (portDrainDrain port) s)

/-- The heads of the unicast frames that the device holds for a port, cut-through frames in arrival included, and whether they
spent credit. -/
def framesFor (s : State) (port : Nat) : List (Cell × Bool) :=
  let x := s.switch
  let unicast (c : Cell) : Bool := c.destType == 0 && c.dest == port
  let queued := (voqsOfPort s port).flatMap fun y =>
    y.2.map fun c => (c, (x.released.get (4 * y.1)).contains c.frameId)
  let arriving := x.ingress.cells.flatMap fun y => match y.2 with
    | some f => (f.cells.filter unicast).map fun c => (c, (x.released.get f.queue).contains c.frameId)
    | none => []
  let moving := (x.transit.cells ++ x.mesh.cells).flatMap fun y => (y.2.filter unicast).map fun c => (c, true)
  let held := x.reasm.cells.flatMap fun y => match y.2 with
    | some f => if unicast f.head then [(f.head, true)] else []
    | none => []
  let lanes := x.laneq.cells.flatMap fun y =>
    if y.1 / 64 = port then (y.2.filter fun f => !f.copy && f.launch.isNone).map fun f => (f.head, true) else []
  let all := queued ++ arriving ++ moving ++ held ++ lanes
  all.foldl (fun a y => if a.any fun z => sameFrame z.1 y.1 then a else a ++ [y]) []

/-- What is left in a port's own queues after its unicast frames: copies, results that wait and timed frames. -/
def ownFrames (s : State) (p : Nat) : List EFrame :=
  (s.switch.laneq.cells.flatMap fun y => if y.1 / 64 = p then y.2 else [])
    ++ (s.switch.heldResults.cells.flatMap fun y => if y.1 / 8 = p then y.2 else []) ++ (timedOf s p).map Timed.frame

/-- PORT_DRAIN FLUSH: every cell for the port is discarded on every die and counted per frame (log 25). -/
def portDrainFlush (p : Nat) (s : State) : State :=
  let s := objSet (0x090100 + p) 2 2 s
  let flushed (s : State) : State := count (portDie p) 0x200E p 1 s
  let s := (framesFor s p).foldl (fun s h => discardFrame h.1 h.2 (flushed s)) s
  let own := ownFrames s p
  let s := s.onSwitch fun x => { x with
    laneq := x.laneq.erase fun k => k / 64 == p
    heldResults := x.heldResults.erase fun k => k / 8 == p }
  let s := s.onRegs fun x => { x with timed := x.timed.modify (portDie p) (·.filter fun t => t.port != p) }
  let s := own.foldl (fun s f => emitOutcome f.head.emit 0x02 0 (releaseEgress p f (flushed s))) s
  let s := (upTo 8).foldl (fun s c => noteWaiting p c s) s
  answer stDone (s.onSwitch fun x => { x with drainState := x.drainState.set p 1 })

def execPortDrainFlush (role : Role) (port : PortIx) (s : State) : Host.Outcome State Fault Refusal :=
  .next (guardWrite role (0x090100 + port.val) 2 (portDrainFlush port) s)

/-- PORT_DRAIN NONE. -/
def portDrainNone (p : Nat) (s : State) : State :=
  let s := objSet (0x090100 + p) 2 0 s
  answer stDone (s.onSwitch fun x => { x with drainState := x.drainState.set p 0 })

def execPortDrainNone (role : Role) (port : PortIx) (s : State) : Host.Outcome State Fault Refusal :=
  .next (guardWrite role (0x090100 + port.val) 2 (portDrainNone port) s)

/-- DRAIN_EMPTY (R115). -/
def execDrainEmpty (port : PortIx) (s : State) : Host.Outcome State Fault Refusal :=
  .next <| if clocksRun s && draining s port && portEmpty s port then
      s.onSwitch fun x => { x with drainState := x.drainState.set port 2 }
    else s

/-! ### Class flags and carve-outs (R109, R117) -/

/-- Whether any VOQ of a class holds cells in memory. -/
def classSpilled (s : State) (c : Nat) : Bool := s.switch.spill.cells.any fun x => x.1 / 16 % 8 == c

/-- CLASS_FLAGS (R84, R117). -/
def classFlagsWrite (c v : Nat) (s : State) : State :=
  if 7 < v then answer stBadValue s
  else if bit v 2 ≠ isDeep s c && classSpilled s c then answer stBusy s
  else
    let t := objSet (0x090010 + c) 1 v s
    if 44 * 2 ^ 20 < reserveBytes t then answer stBadValue s else answer stDone t

def execClassFlags (role : Role) (cls : ClassIx) (value : Byte) (s : State) : Host.Outcome State Fault Refusal :=
  .next (guardWrite role (0x090010 + cls.val) 1 (classFlagsWrite cls value.toNat) s)

/-- The parts of regions on a die as (offset, size): the primary under key d, the mirror under 8 + d (08 R271). -/
def partsOn (s : State) (d : Nat) : List (Nat × Nat) :=
  s.resident.regions.cells.flatMap fun x => match x.2 with
    | some r => ((if r.parts.get d = 0 then [] else [(r.parts.get d - 1, r.sizes.get d)]) ++
        (if r.parts.get (8 + d) = 0 then [] else [(r.parts.get (8 + d) - 1, r.sizes.get (8 + d))]))
    | none => []

/-- R109: the carve-out lies below the reservation; it overlaps a region whose part ends above its foot (log 26). -/
def carveoutFits (s : State) (d gb : Nat) : Bool :=
  gb * 10 ^ 9 ≤ memLimit s d && (partsOn s d).all fun p => p.1 + p.2 ≤ memLimit s d - gb * 10 ^ 9

/-- CARVEOUT_GB (R109). -/
def carveoutWrite (d v : Nat) (s : State) : State :=
  if 64 < v then answer stBadValue s
  else if s.switch.spill.cells.any (fun x => x.1 / 16 / 8 / 288 == d) || !carveoutFits s d v then answer stBusy s
  else answer stDone (objSet 0x090001 (d + 1) v s)

def execCarveoutGb (role : Role) (die : DieIx) (value : Byte) (s : State) : Host.Outcome State Fault Refusal :=
  .next (guardWrite role 0x090001 (die.val + 1) (carveoutWrite die value.toNat) s)

end Sys2Proof.Machine
end

