-- ==== Sys2Proof/Machine/Access.lean ====
section
/-! DEFINITION. Register addresses, the access tables and the check that every register access passes (17 R494 to R503,
00 R8). -/

namespace Sys2Proof.Machine

/-- What the check answers. -/
inductive Acc where
  | granted | denied | busError | absent
  deriving DecidableEq, Repr

/-- R495: whether a block is listed for a die (8 the keeper die). -/
def blockListed (die block : Nat) : Bool :=
  let both := [0x00, 0x02, 0x04, 0x06, 0x0D, 0x0E, 0x10, 0xF0, 0xF8, 0xFC, 0xFD, 0xFE]
  if die = 8 then both.contains block || block == 0x01
  else both.contains block || [0x09, 0x0A, 0x0C, 0x20, 0x50].contains block || (0x40 ≤ block && block ≤ 0x47)

/-- Blocks whose field maps belong to the keeper firmware: their words are plain storage in the model (log 37). -/
def blockPlain (block : Nat) : Bool :=
  [0x00, 0x01, 0x04, 0x06, 0x09, 0x0A, 0x0C, 0x50].contains block || (0x40 ≤ block && block ≤ 0x47)

/-- R496: whether a word lies within the words that a block implements. -/
def wordImplemented (die block word : Nat) : Bool :=
  match block with
  | 0x02 => word ≤ 3
  | 0x0D => if die = 8 then word ≤ 7 else word ≤ 1
  | 0x0E => word < 0x300
  | 0x10 => word < 64
  | 0x20 => word ≤ 0x104
  | 0xF0 => word < 256
  | 0xF8 => word < 0x200
  | 0xFC => word ≤ 0x121
  | 0xFD => word < 64
  | _ => word < 2 ^ 18

/-- R8: the blocks of units that the S part lacks. -/
def blockAbsent (s : State) (die block : Nat) : Bool :=
  isS s && die != 8 && (block == 0x0C || (0x40 ≤ block && block ≤ 0x47))

/-- R501: the access word of a block after reset. -/
def accessReset (die block : Nat) : Nat :=
  if die = 8 && block = 0x01 then 0x3
  else if block = 0xF0 then 0x00105557
  else 0x00305FFF

/-- R501: whether no write changes a block's rights. -/
def accessFixed (die block : Nat) : Bool := block == 0xF0 || (die == 8 && block == 0x01)

/-- The access word of a block on a die (R500). -/
def accessWord (s : State) (die block : Nat) : Nat :=
  if accessFixed die block then accessReset die block
  else match s.regs.access.get (die * 256 + block) with
    | some w => w.toNat
    | none => accessReset die block

/-- JTAG_POLICY (14 R427). -/
def jtagPolicy (s : State) : Nat := s.keeper.voted.get 24 / 4 % 4

/-- R502: whether JTAG_POLICY lets JTAG make a register access at all. -/
def jtagAdmits (s : State) (write : Bool) : Bool :=
  match jtagPolicy s with
  | 0 => true
  | 1 => !write && s.start.state == .frozen
  | _ => false

/-- R499: masters with a path to registers. -/
def masterReaches (m : Nat) : Bool := m ≤ 7 || m == 10

/-- R500 to R503, 16 R483: the rights of a master on a block. Mailboxes and bit aliases are checked at the block reached. -/
def rightsAdmit (s : State) (m die block : Nat) (write : Bool) : Bool :=
  let r := if block == 0xF8 || block == 0xFE then 3 else bits (accessWord s die block) (2 * m + 1) (2 * m)
  masterReaches m && (if write then r == 3 else r == 1 || r == 3)
    && !(write && (m == 6 || m == 7))
    && !(write && block == 0xF0 && m != 0)
    && (m != 10 || jtagAdmits s write)

/-- Owner of a DMA channel, CH_OWNER (R516, R525): key engine*32+channel. -/
def chOwner (s : State) (engine ch : Nat) : Nat :=
  match s.regs.owners.get (engine * 32 + ch) with
  | some o => o
  | none => if 28 ≤ ch then 1 else 0

/-- R516, R525: words of block 0x0E that only some masters write. -/
def dmaAdmits (s : State) (m die word : Nat) (write : Bool) : Bool :=
  if word = 6 || word = 7 then m == 0
  else if 0x100 ≤ word && write then
    if word % 16 = 7 then m == 0 else m == 0 || m == chOwner s die ((word - 0x100) / 16)
  else true

/-- Whether the die answers register accesses: in service, its clock running (R496). -/
def dieAnswers (s : State) (die : Nat) : Bool :=
  clocksRun s && (if die = 8 then !s.start.keeperLost else dieUp s die)

/-- The check of one access to a word of one die (R496, R500, R8). Decoding of die and block comes first, then the
rights, then the word. -/
def accessCheck (s : State) (m die block word : Nat) (write : Bool) : Acc :=
  if 8 < die || !dieAnswers s die || !blockListed die block then .busError
  else if blockAbsent s die block then .absent
  else if !rightsAdmit s m die block write || (block == 0x0E && !dmaAdmits s m die word write) then .denied
  else if !wordImplemented die block word then .busError
  else .granted

/-- REG_BUS_ERROR on the die that detects it; the keeper die where the die named gives no answer (R496). -/
def countBusError (s : State) (die : Nat) : State :=
  count (if die ≤ 8 && dieAnswers s die then die else 8) 0xD000 0 1 s

/-- An access carried out where it is granted; otherwise counted (R496, R500, R8). -/
def guardReg (m die block word : Nat) (k : State → State) (s : State) : State :=
  match accessCheck s m die block word true with
  | .granted => k s
  | .denied => count die 0xD001 0 1 s
  | .busError => countBusError s die
  | .absent => count die 0x0001 0 1 s

/-- Fields of a register address (R494). -/
def addrDie (a : Word) : Nat := a.toNat / 2 ^ 28
def addrBlock (a : Word) : Nat := a.toNat / 2 ^ 20 % 256
def addrWord (a : Word) : Nat := a.toNat / 4 % 2 ^ 18
def addrAligned (a : Word) : Bool := a.toNat % 4 == 0

/-! ### The configuration CRC (R504 to R506) -/

/-- CFG_RUN's term of one word. -/
def cfgTerm (block word value : Nat) : Word :=
  BitVec.ofNat 32 (crc32cStd (beBytes 4 (block * 2 ^ 20 + word * 4) ++ beBytes 4 value))

/-- CFG_RUN of a die: the reset configuration's value with every change since. -/
def cfgRun (s : State) (die : Nat) : Word := Config.cfgRunReset die ^^^ s.regs.cfgRun.get die

/-- CONFIG_CRC_MISMATCH on each change from match to mismatch (R506). -/
def cfgCompare (die : Nat) (s : State) : State :=
  let now := cfgRun s die == s.regs.cfgRef.get die
  let was := s.regs.cfgMatch.get die
  let s := s.onRegs fun x => { x with cfgMatch := x.cfgMatch.set die now }
  if was && !now then
    raise 0x1F01 0 (unitOf die 0 0) (args32 [((cfgRun s die).toNat : Int), ((s.regs.cfgRef.get die).toNat : Int)])
      (s.onRegs fun x => { x with cfgSeen := x.cfgSeen.set die true })
  else s

/-- A configuration word changes (R504). -/
def cfgChange (die block word old new : Nat) (s : State) : State :=
  if old = new then s
  else cfgCompare die (s.onRegs fun x => { x with
    cfgRun := x.cfgRun.modify die fun c => c ^^^ cfgTerm block word old ^^^ cfgTerm block word new })

/-- An access word written by master 0 (R501); it is part of the configuration set. Its reserved bits [31:22] are ignored and
read as zero (00 R12). -/
def writeAccessWord (die block : Nat) (v : Word) (s : State) : State :=
  if accessFixed die block then s
  else
    let old := accessWord s die block
    let v := v &&& 0x003FFFFF
    cfgChange die 0xF0 block old v.toNat (s.onRegs fun x => { x with access := x.access.set (die * 256 + block) (some v) })

end Sys2Proof.Machine
end

