-- ==== Sys2Proof/Machine/Fp.lean ====
section
/-! DEFINITION. Floating-point arithmetic over exact values (06 R191, R200, R201; 07 R235): a finite value is a sign, a
mantissa and a power of two, every operation is exact and is then rounded once. -/

namespace Sys2Proof.Machine

/-- A decoded value: NaN, an infinity, or sign, mantissa, exponent: (-1)^neg * m * 2^e. -/
inductive FVal where
  | nan
  | inf (neg : Bool)
  | fin (neg : Bool) (m : Nat) (e : Int)
  deriving DecidableEq, Repr

/-- `m / 2^n` rounded to nearest, ties to even. -/
def rneShift (m n : Nat) : Nat :=
  if n = 0 then m else
  let q := m / 2 ^ n
  let r := m % 2 ^ n
  let h := 2 ^ (n - 1)
  if h < r || (r = h && q % 2 = 1) then q + 1 else q

/-- A mantissa with exponent `e` brought to the unit `2^u`: by `f` where bits are lost. -/
def toUnit (f : Nat → Nat → Nat) (m : Nat) (e u : Int) : Nat :=
  if u ≤ e then m * 2 ^ (e - u).toNat else f m (u - e).toNat

/-- Exponent of the most significant bit. -/
def topExp (m : Nat) (e : Int) : Int := (Nat.log2 m : Int) + e

/-- The unit of a value in a format with `mb` mantissa bits and the given bias. -/
def unitExp (mb : Nat) (bias : Int) (m : Nat) (e : Int) : Int := max (topExp m e - mb) (1 - bias - mb)

/-- The encoding of a magnitude in units of 2^u, sign aside. -/
def magEnc (mb : Nat) (bias : Int) (k : Nat) (u : Int) : Nat :=
  ((u + mb + bias - 1) * (2 ^ mb : Nat) + k).toNat

/-- The magnitude's encoding rounded by `f` (no overflow taken into account). -/
def roundMag (f : Nat → Nat → Nat) (mb : Nat) (bias : Int) (m : Nat) (e : Int) : Nat :=
  if m = 0 then 0 else
  let u := unitExp mb bias m e
  magEnc mb bias (toUnit f m e u) u

/-- The value of an IEEE encoding with `eb` exponent and `mb` mantissa bits (R191). -/
def decodeIeee (eb mb : Nat) (v : Nat) : FVal :=
  let neg := bit v (eb + mb)
  let ex := v / 2 ^ mb % 2 ^ eb
  let man := v % 2 ^ mb
  let bias : Int := 2 ^ (eb - 1) - 1
  if ex = 2 ^ eb - 1 then (if man = 0 then .inf neg else .nan)
  else if ex = 0 then .fin neg man (1 - bias - mb)
  else .fin neg (man + 2 ^ mb) (ex - bias - mb)

/-- The IEEE encoding by RNE; NaN as given. -/
def encodeIeee (eb mb nan : Nat) (v : FVal) : Nat :=
  let sign (n : Bool) : Nat := if n then 2 ^ (eb + mb) else 0
  match v with
  | .nan => nan
  | .inf n => sign n + (2 ^ eb - 1) * 2 ^ mb
  | .fin n m e => sign n + min (roundMag rneShift mb (2 ^ (eb - 1) - 1) m e) ((2 ^ eb - 1) * 2 ^ mb)

/-- The canonical FP32 NaN (R203). -/
def nan32 : Word := 0x7FC00000

def dec32 (w : Word) : FVal := decodeIeee 8 23 w.toNat
/-- RNE to FP32 with the canonical NaN. -/
def enc32 (v : FVal) : Word := BitVec.ofNat 32 (encodeIeee 8 23 0x7FC00000 v)
def decBf (v : Nat) : FVal := decodeIeee 8 7 v
def encBf (v : FVal) : Nat := encodeIeee 8 7 0x7FC0 v

def FVal.isNan : FVal → Bool
  | .nan => true
  | _ => false
def FVal.isInf : FVal → Bool
  | .inf _ => true
  | _ => false
def FVal.isFinite : FVal → Bool
  | .fin _ _ _ => true
  | _ => false
def FVal.neg : FVal → FVal
  | .nan => .nan
  | .inf n => .inf !n
  | .fin n m e => .fin (!n) m e
def FVal.isNeg : FVal → Bool
  | .nan => false
  | .inf n => n
  | .fin n _ _ => n

/-- The signed integer of a finite value in units of 2^u, for u at most its exponent. -/
def scaled (n : Bool) (m : Nat) (e u : Int) : Int :=
  let k : Int := (m * 2 ^ (e - u).toNat : Nat)
  if n then -k else k

/-- Exact sum; a zero sum is -0 only where both are negative (RNE). -/
def FVal.add (a b : FVal) : FVal :=
  match a, b with
  | .nan, _ => .nan
  | _, .nan => .nan
  | .inf x, .inf y => if x = y then .inf x else .nan
  | .inf x, _ => .inf x
  | _, .inf y => .inf y
  | .fin x m e, .fin y k d =>
    let u := min e d
    let t := scaled x m e u + scaled y k d u
    if t = 0 then .fin (x && y) 0 u else .fin (decide (t < 0)) t.natAbs u

/-- Exact product. -/
def FVal.mul (a b : FVal) : FVal :=
  match a, b with
  | .nan, _ => .nan
  | _, .nan => .nan
  | .inf x, .inf y => .inf (x != y)
  | .inf x, .fin y m _ => if m = 0 then .nan else .inf (x != y)
  | .fin x m _, .inf y => if m = 0 then .nan else .inf (x != y)
  | .fin x m e, .fin y k d => .fin (x != y) (m * k) (e + d)

/-- `a < b` for values that are not NaN, with -0 below +0 where `zeros` says so. -/
def FVal.lt (zeros : Bool) (a b : FVal) : Bool :=
  match a, b with
  | .nan, _ => false
  | _, .nan => false
  | .inf x, .inf y => x && !y
  | .inf x, _ => x
  | _, .inf y => !y
  | .fin x m e, .fin y k d =>
    let u := min e d
    let p := scaled x m e u
    let q := scaled y k d u
    if p = 0 && q = 0 then zeros && x && !y else decide (p < q)

/-- `a = b` as IEEE 754 compares. -/
def FVal.eqv (a b : FVal) : Bool := !a.isNan && !b.isNan && !a.lt false b && !b.lt false a

/-! ### FP32 operations (RNE, subnormals kept, no trap) -/

/-- The result of an operation: a NaN's payload is left open (log 41). -/
def fpOut (op : Nat) (a b c : Word) (v : FVal) : Word :=
  match v with
  | .nan => 0x7FC00000#32 ||| (Config.nanBits op a b c &&& 0x803FFFFF#32)
  | _ => enc32 v

def fAdd (a b : Word) : Word := fpOut 0x10 a b 0 ((dec32 a).add (dec32 b))
def fSub (a b : Word) : Word := fpOut 0x11 a b 0 ((dec32 a).add (dec32 b).neg)
def fMul (a b : Word) : Word := fpOut 0x12 a b 0 ((dec32 a).mul (dec32 b))
def fFma (a b c : Word) : Word := fpOut 0x13 a b c (((dec32 a).mul (dec32 b)).add (dec32 c))
/-- R235: d = (b > a) ? b : a, +0 above -0, a comparison with NaN false. -/
def fMax (a b : Word) : Word := if (dec32 a).lt true (dec32 b) then b else a
def fMin (a b : Word) : Word := if (dec32 b).lt true (dec32 a) then b else a

/-- A magnitude rounded towards zero, and whether it was exact; the largest finite value at most. -/
def truncMag (m : Nat) (e : Int) : Nat × Bool :=
  let k := roundMag (fun m n => m / 2 ^ n) 23 127 m e
  let u := unitExp 23 127 m e
  let exact := m = 0 || u ≤ e || m % 2 ^ (u - e).toNat = 0
  if 0x7F7FFFFF < k then (0x7F7FFFFF, false) else (k, exact)

/-- One of the FP32 values within 1 ulp of an exact magnitude; `sticky` says that it lies above `m * 2^e`. -/
def withinOne (op : Nat) (a : Word) (neg : Bool) (m : Nat) (e : Int) : Word :=
  let (k, exact) := truncMag m e
  let c := Config.ulpChoice op a
  let k := if exact then k + c % 3 - 1 else k + c % 2
  BitVec.ofNat 32 (k + if neg then 2 ^ 31 else 0)

/-- One of the FP32 values within 2 ulp of a positive magnitude that is not exact. -/
def withinTwo (op : Nat) (a : Word) (neg : Bool) (m : Nat) (e : Int) : Word :=
  if 0x7F800000 ≤ roundMag rneShift 23 127 m e then (if neg then 0xFF800000 else 0x7F800000) else
  let k := min ((truncMag m e).1 + Config.ulpChoice op a % 4 - 1) 0x7F800000
  BitVec.ofNat 32 (k + if neg then 2 ^ 31 else 0)

/-- FRCP (R235). -/
def fRcp (a : Word) : Word :=
  match dec32 a with
  | .nan => fpOut 0x18 a 0 0 .nan
  | .inf n => enc32 (.fin n 0 0)
  | .fin n m e =>
    if m = 0 then enc32 (.inf n)
    else
      let q := 2 ^ 320 / m
      withinOne 0x18 a n (2 * q + if q * m = 2 ^ 320 then 0 else 1) (-e - 321)

/-- The integer square root. -/
def isqrt (n : Nat) : Nat :=
  (List.range (Nat.log2 n / 2 + 1)).reverse.foldl (fun r i => if (r + 2 ^ i) * (r + 2 ^ i) ≤ n then r + 2 ^ i else r) 0

/-- An odd exponent made even, and the mantissa widened by 2^128. -/
def sqrtArg (m : Nat) (e : Int) : Nat × Int := if e % 2 = 0 then (m * 2 ^ 128, e - 128) else (2 * m * 2 ^ 128, e - 129)

/-- FSQRT, correctly rounded (R235). -/
def fSqrt (a : Word) : Word :=
  match dec32 a with
  | .nan => fpOut 0x1A a 0 0 .nan
  | .inf n => if n then fpOut 0x1A a 0 0 .nan else a
  | .fin n m e =>
    if m = 0 then a else if n then fpOut 0x1A a 0 0 .nan
    else
      let (k, d) := sqrtArg m e
      let r := isqrt k
      enc32 (.fin false (2 * r + if r * r = k then 0 else 1) (d / 2 - 1))

/-- FRSQRT (R235). -/
def fRsqrt (a : Word) : Word :=
  match dec32 a with
  | .nan => fpOut 0x19 a 0 0 .nan
  | .inf n => if n then fpOut 0x19 a 0 0 .nan else 0
  | .fin n m e =>
    if m = 0 then enc32 (.inf n) else if n then fpOut 0x19 a 0 0 .nan
    else
      let (k, d) := sqrtArg m e
      let num := 2 ^ 640
      let r := isqrt (num / k)
      withinOne 0x19 a false (2 * r + if r * r * k = num then 0 else 1) (-320 - d / 2 - 1)

/-- ln 2 in units of 2^-128, rounded down. -/
def ln2Fixed : Nat := 235865763225513294137944142764154484399

/-- The exponential series of a fraction in units of 2^-128. -/
def expSeries (f : Nat) : Nat :=
  ((List.range 45).foldl (fun (x : Nat × Nat) i =>
    let t := x.1 * f / 2 ^ 128 / (i + 1)
    (t, x.2 + t)) (2 ^ 128, 2 ^ 128)).2

/-- FEXP, within 2 ulp (R235). -/
def fExp (a : Word) : Word :=
  match dec32 a with
  | .nan => fpOut 0x1B a 0 0 .nan
  | .inf n => if n then 0 else a
  | .fin n m e =>
    if 8 ≤ topExp m e && m ≠ 0 then (if n then withinTwo 0x1B a false 1 (-400) else enc32 (.inf false))
    else
      let k := toUnit (fun m n => m / 2 ^ n) m e (-128)
      let x : Int := if n then -(k : Int) else k
      let q := x / (ln2Fixed : Int)
      withinTwo 0x1B a false (expSeries (x - q * ln2Fixed).toNat) (q - 128)

/-- ln of y = k / 2^128, 1 <= y < 2, in units of 2^-128. -/
def lnSeries (k : Nat) : Nat :=
  let t := (k - 2 ^ 128) * 2 ^ 128 / (k + 2 ^ 128)
  let t2 := t * t / 2 ^ 128
  2 * ((List.range 45).foldl (fun (x : Nat × Nat) i => (x.1 * t2 / 2 ^ 128, x.2 + x.1 / (2 * i + 1))) (t, 0)).2

/-- FLOG, within 2 ulp (R235). -/
def fLog (a : Word) : Word :=
  match dec32 a with
  | .nan => fpOut 0x1C a 0 0 .nan
  | .inf n => if n then fpOut 0x1C a 0 0 .nan else a
  | .fin n m e =>
    if m = 0 then enc32 (.inf true) else if n then fpOut 0x1C a 0 0 .nan
    else
      let t := topExp m e
      let k := m * 2 ^ (128 - Nat.log2 m)
      let x : Int := t * ln2Fixed + lnSeries k
      withinTwo 0x1C a (decide (x < 0)) x.natAbs (-128)

/-- FCVTI: RNE, saturating; NaN gives 0 (R235). -/
def fCvtI (a : Word) : Word :=
  match dec32 a with
  | .nan => 0
  | .inf n => if n then 0x80000000 else 0x7FFFFFFF
  | .fin n m e =>
    let k := toUnit rneShift m e 0
    if n then (if 2 ^ 31 ≤ k then 0x80000000 else BitVec.ofInt 32 (-(k : Int)))
    else if 2 ^ 31 ≤ k then 0x7FFFFFFF else BitVec.ofNat 32 k

/-- ICVTF: RNE (R235). -/
def iCvtF (a : Word) : Word := enc32 (.fin (decide (a.toInt < 0)) a.toInt.natAbs 0)

/-- A BF16 half of an operation on pairs; a NaN's payload is left open (log 41). -/
def bfOut (op : Nat) (a b c : Nat) (v : FVal) : Nat :=
  match v with
  | .nan => Nat.lor 0x7FC0 (Nat.land (Config.nanBits op (BitVec.ofNat 32 a) (BitVec.ofNat 32 b) (BitVec.ofNat 32 c)).toNat 0x803F)
  | _ => encBf v

/-- FRED (R235): 16 lanes combined in a fixed tree of pairs. -/
def pairUp (f : Word → Word → Word) : List Word → List Word
  | a :: b :: r => f a b :: pairUp f r
  | l => l
def fRed (kind : Nat) (l : List Word) : Word :=
  let f := if kind = 0 then fAdd else if kind = 1 then fMax else fMin
  ((pairUp f (pairUp f (pairUp f (pairUp f l)))).headD 0)

/-- e^x and ln x of the merges of 05 R178, as FEXP and FLOG give them. -/
def negInf : Word := 0xFF800000

end Sys2Proof.Machine
end

