-- ==== Sys2Proof/Machine/Arith.lean ====
section
/-! DEFINITION. Number formats, payload layout and re-quantisation (06 R191 to R221). -/

namespace Sys2Proof.Machine

/-! ### Format codes (05 R152) -/

def isScalar (f : Nat) : Bool := f ≤ 2
def isBlockFormat (f : Nat) : Bool := (0x10 ≤ f && f ≤ 0x15) || f == 0x18 || f == 0x19
def isNumeric (f : Nat) : Bool := isScalar f || isBlockFormat f
def isFormat (f : Nat) : Bool := isNumeric f || f == 0x30 || f == 0x31
/-- The formats narrower than 8 bits, to which the escape test applies (R211). -/
def isNarrow (f : Nat) : Bool := f == 0x12 || f == 0x13 || f == 0x14 || f == 0x18 || f == 0x19
/-- The MX formats of R193. -/
def isMx (f : Nat) : Bool := 0x10 ≤ f && f ≤ 0x15

/-- Bits of an element (R152). -/
def elemBits (f : Nat) : Nat :=
  match f with
  | 0x00 => 32 | 0x01 => 16 | 0x02 => 16 | 0x10 => 8 | 0x11 => 8 | 0x12 => 6 | 0x13 => 6 | 0x14 => 4 | 0x15 => 8
  | 0x18 => 2 | 0x19 => 1 | 0x30 => 32 | _ => 8

/-- Bytes of `n` elements: a block is its scale byte and 32 elements (R196, R197). -/
def elemBytes (f n : Nat) : Nat := if isBlockFormat f then n / 32 * (1 + 4 * elemBits f) else n * elemBits f / 8

/-! ### Decoding (R192 to R196, R200) -/

/-- A bit string, most significant bit of the first byte first. -/
def toBits (b : Bytes) : List Bool := b.flatMap fun x => (upTo 8).map fun i => x.getLsbD (7 - i)

/-- A bit list read most significant bit first. -/
def ofBits (l : List Bool) : Nat := l.foldl (fun a x => 2 * a + if x then 1 else 0) 0

/-- A list cut into pieces of `n`. -/
def pieces {α : Type} (n : Nat) : Nat → List α → List (List α)
  | 0, _ => []
  | k + 1, l => l.take n :: pieces n k (l.drop n)

/-- Exponent bits, mantissa bits and bias of an MX floating format (R193). -/
def mxShape (f : Nat) : Nat × Nat × Int :=
  match f with
  | 0x10 => (4, 3, 7) | 0x11 => (5, 2, 15) | 0x12 => (3, 2, 3) | 0x13 => (2, 3, 1) | _ => (2, 1, 1)

/-- An element value of a block format, its scale aside (R193 to R195). -/
def elemValue (f v : Nat) : FVal :=
  match f with
  | 0x15 =>
    let k := signed 8 v
    .fin (decide (k < 0)) k.natAbs (-6)
  | 0x18 => if v = 0 then .fin false 0 0 else if v = 1 then .fin false 1 0 else if v = 3 then .fin true 1 0 else .nan
  | 0x19 => .fin (v == 1) 1 0
  | _ =>
    let (eb, mb, bias) := mxShape f
    let neg := bit v (eb + mb)
    let ex := v / 2 ^ mb % 2 ^ eb
    let man := v % 2 ^ mb
    if f = 0x10 && ex = 15 && man = 7 then .nan
    else if f = 0x11 && ex = 31 then (if man = 0 then .inf neg else .nan)
    else if ex = 0 then .fin neg man (1 - bias - mb)
    else .fin neg (man + 2 ^ mb) (ex - bias - mb)

/-- An element decoded to FP32 under its block's scale byte (R192, R200). -/
def decodeElem (f x v : Nat) : Word :=
  if x = 0xFF then nan32 else enc32 ((elemValue f v).mul (.fin false 1 ((x : Int) - 127)))

/-- One block of 33, 25, 17, 9 or 5 bytes. -/
def decodeBlock (f : Nat) (b : Bytes) : List Word :=
  ((pieces (elemBits f) 32 (toBits (b.drop 1))).map fun l => decodeElem f (byteAt b 0) (ofBits l))

/-- A scalar element decoded to FP32 (R191, R197). -/
def decodeScalar (f v : Nat) : Word :=
  match f with
  | 0x00 => BitVec.ofNat 32 v
  | 0x01 => BitVec.ofNat 32 (v * 65536)
  | _ => enc32 (decodeIeee 5 10 v)

/-- `n` elements of a numeric payload decoded to FP32. -/
def decodeElems (f n : Nat) (b : Bytes) : List Word :=
  if isBlockFormat f then (pieces (1 + 4 * elemBits f) (n / 32) b).flatMap (decodeBlock f)
  else (pieces (elemBits f / 8) n b).map fun x => decodeScalar f (beNat x)

/-- R202: a value that poisons its block: NaN or infinite. -/
def poisons (w : Word) : Bool := !(dec32 w).isFinite

/-! ### Accumulation (R201) -/

/-- An accumulator, hi and lo, after one more value by REDOP; `comp` is COMPENSATED. -/
def combine (redop : Nat) (comp : Bool) (hi lo x : Word) : Word × Word :=
  if redop = 1 then (if (dec32 hi).lt true (dec32 x) then x else hi, lo)
  else if redop = 2 then (if (dec32 x).lt true (dec32 hi) then x else hi, lo)
  else if comp then
    let s := fAdd hi x
    let z := fSub s hi
    let e := fAdd (fSub hi (fSub s z)) (fSub x z)
    (s, fAdd lo e)
  else (fAdd hi x, lo)

/-- The value passed on to re-quantisation. -/
def accValue (comp : Bool) (hi lo : Word) : Word := if comp then fAdd hi lo else hi

/-! ### Scales (R205, R206) -/

def eMax (f : Nat) : Int :=
  match f with
  | 0x10 => 8 | 0x11 => 15 | 0x12 => 4 | 0x13 => 2 | 0x14 => 2 | _ => 0

/-- Mantissa and exponent of a finite FP32 magnitude. -/
def magOf (w : Word) : Nat × Int :=
  match dec32 w with
  | .fin _ m e => (m, e)
  | _ => (0, 0)

/-- floor(log2) of a magnitude that is not zero. -/
def floorLog (x : Nat × Int) : Int := topExp x.1 x.2

/-- R205: the largest magnitude; FP32 magnitudes order as their encodings. -/
def amax (a : List Word) : Word := a.foldl (fun m x =>
  let y := x &&& 0x7FFFFFFF#32
  if m.toNat < y.toNat then y else m) 0

/-- A sum of 24 significant bits with no upper limit of the exponent (R206). -/
def sum24 (acc x : Nat × Int) : Nat × Int :=
  let u := min acc.2 x.2
  let m := acc.1 * 2 ^ (acc.2 - u).toNat + x.1 * 2 ^ (x.2 - u).toNat
  if m = 0 then (0, 0) else
  let t := unitExp 23 127 m u
  (toUnit rneShift m u t, t)

/-- R206: the mean magnitude m of a block. -/
def meanMag (a : List Word) : Word :=
  let (m, e) := (a.map magOf).foldl sum24 (0, 0)
  enc32 (.fin false m (e - 5))

/-- The exponent E of a block's scale in a format (R205, R206). -/
def scaleExp (f : Nat) (a : List Word) : Int :=
  if isMx f then
    let x := amax a
    if x = 0 then -127 else max (-127) (floorLog (magOf x) - eMax f)
  else
    let m := meanMag a
    if m = 0 then -127
    else
      let (k, e) := magOf m
      let ex := topExp k e
      let frac := k * 2 ^ (23 - Nat.log2 k) - 2 ^ 23
      clampInt (-127) 127 (if 0x3504F4 ≤ frac then ex + 1 else ex)

/-! ### Rounding to a grid (R207) -/

/-- Largest value of a grid as mantissa, hidden bit included, and unit. -/
def gridMax (f : Nat) : Nat × Int :=
  match f with
  | 0x01 => (255, 120) | 0x02 => (2047, 5) | 0x10 => (14, 5) | 0x11 => (7, 13) | 0x12 => (7, 2) | 0x13 => (15, -1)
  | 0x14 => (3, 1) | 0x15 => (127, -6) | _ => (1, 0)

/-- Unit of the grid at a magnitude. -/
def gridUnit (f : Nat) (m : Nat) (e : Int) : Int :=
  match f with
  | 0x01 => unitExp 7 127 m e
  | 0x02 => unitExp 10 15 m e
  | 0x15 => -6
  | 0x18 => 0
  | 0x19 => 0
  | _ =>
    let (_, mb, bias) := mxShape f
    unitExp mb bias m e

/-- Magnitudes compared. -/
def magLt (a b : Nat × Int) : Bool :=
  let u := min a.2 b.2
  decide (a.1 * 2 ^ (a.2 - u).toNat < b.1 * 2 ^ (b.2 - u).toNat)

/-- R207: a value rounded to the grid: sign, multiple k of 2^u, and whether it saturated. `u16` is a fresh random number
for STOCHASTIC. -/
def gridRound (f : Nat) (stoch : Option Nat) (v : FVal) : Bool × Nat × Int × Bool :=
  match v with
  | .fin neg m e =>
    let g := gridMax f
    if magLt g (m, e) then (neg, g.1, g.2, f != 0x18)
    else if m = 0 then (false, 0, 0, false)
    else
      let u := gridUnit f m e
      let exact := u ≤ e || m % 2 ^ (u - e).toNat = 0
      let k :=
        if exact then toUnit (fun m n => m / 2 ^ n) m e u
        else match stoch with
          | none => toUnit rneShift m e u
          | some r =>
            let n := (u - e).toNat
            let lo := m / 2 ^ n
            let rest := m % 2 ^ n
            -- upwards is away from zero for a positive value and towards zero for a negative one
            let p := if neg then 65536 * (2 ^ n - rest) / 2 ^ n else 65536 * rest / 2 ^ n
            if neg then (if r < p then lo else lo + 1) else if r < p then lo + 1 else lo
      (if k = 0 then false else neg, k, u, false)
  | _ => (false, 0, 0, false)

/-- The element encoding of a rounded value (R193 to R195, R207). -/
def gridEnc (f : Nat) (neg : Bool) (k : Nat) (u : Int) : Nat :=
  match f with
  | 0x15 => unsigned 8 (if neg then -(k : Int) else k)
  | 0x18 => if k = 0 then 0 else if neg then 3 else 1
  | 0x01 => (if neg then 2 ^ 15 else 0) + (if k = 0 then 0 else magEnc 7 127 k u)
  | 0x02 => (if neg then 2 ^ 15 else 0) + (if k = 0 then 0 else magEnc 10 15 k u)
  | _ =>
    let (eb, mb, bias) := mxShape f
    (if neg then 2 ^ (eb + mb) else 0) + (if k = 0 then 0 else magEnc mb bias k u)

/-- One element re-quantised under exponent E: encoding, grid value as FP32 in the scaled domain, saturated. -/
def quantElem (f : Nat) (E : Int) (stoch : Option Nat) (a : Word) : Nat × Word × Bool :=
  match f with
  | 0x00 => (a.toNat, a, false)
  | 0x19 =>
    let neg := decide (a ≠ 0x80000000) && a.getLsbD 31
    (if neg then 1 else 0, enc32 (.fin neg 1 0), false)
  | _ =>
    let v := dec32 (enc32 ((dec32 a).mul (.fin false 1 (-E))))
    let (neg, k, u, sat) := gridRound f stoch v
    (gridEnc f neg k u, enc32 (.fin neg k u), sat)

/-- The bits of an element, most significant first (R196). -/
def blockBits (f : Nat) (v : Nat) : List Bool := (upTo (elemBits f)).map fun i => bit v (elemBits f - 1 - i)

/-- A bit list as bytes, filled from bit 7 downwards (R196). -/
def packBits (l : List Bool) : Bytes :=
  (pieces 8 (ceilDiv l.length 8) l).map fun x => BitVec.ofNat 8 (ofBits (x ++ List.replicate (8 - x.length) false))

/-- A block as it is sent: scale byte where the format has one, then the elements (R196, R197). -/
def packBlock (f : Nat) (E : Int) (l : List Nat) : Bytes :=
  if isBlockFormat f then BitVec.ofNat 8 (E + 127).toNat :: packBits (l.flatMap (blockBits f))
  else l.flatMap (beBytes (elemBits f / 8))

/-- A poisoned block (R203) of `n` elements. -/
def poisonedBlock (f n : Nat) : Bytes :=
  match f with
  | 0x00 => (List.replicate n (beBytes 4 0x7FC00000)).flatten
  | 0x01 => (List.replicate n (beBytes 2 0x7FC0)).flatten
  | 0x02 => (List.replicate n (beBytes 2 0x7E00)).flatten
  | _ => 0xFF :: List.replicate (4 * elemBits f) 0

/-- The exponent of a format's block; scalar formats have E = 0 (R207). -/
def blockExp (f : Nat) (a : List Word) : Int := if isBlockFormat f then scaleExp f a else 0

/-- A block re-quantised: encodings, grid values, number saturated (R205 to R207). -/
def quantBlock (f : Nat) (E : Int) (draws : List (Option Nat)) (a : List Word) : List Nat × List Word × Nat :=
  let l := (a.zip draws).map fun x => quantElem f E x.2 x.1
  (l.map (·.1), l.map fun x => x.2.1, (l.filter fun x => x.2.2).length)

/-! ### The escape test (R211) -/

/-- FP32 sum of squares in order, every product and sum rounded. -/
def sumSquares (l : List Word) : Word := l.foldl (fun a x => fAdd a (fMul x x)) 0

/-- 65,536 D > B^2 P, compared exactly. -/
def errorBound (bound : Nat) (d p : Word) : Bool :=
  let a := magOf d
  let b := magOf p
  magLt (bound * bound * b.1, b.2) (65536 * a.1, a.2)

/-- R211: whether a block escapes, from its scaled values, its grid values and its saturated count. -/
def escapes (escBound satLimit : Nat) (v q : List Word) (sat : Nat) : Bool :=
  let d := sumSquares ((v.zip q).map fun x => fSub x.1 x.2)
  let p := sumSquares v
  (escBound != 0xFF && errorBound escBound d p) || (satLimit != 0xFF && decide (satLimit ≤ sat))

/-- The scaled values v of R207. -/
def scaledBlock (E : Int) (a : List Word) : List Word := a.map fun x => enc32 ((dec32 x).mul (.fin false 1 (-E)))

/-- The decoded value of an element as sent (R217). -/
def sentValue (f : Nat) (E : Int) (enc : Nat) : Word :=
  if isBlockFormat f then decodeElem f (E + 127).toNat enc else decodeScalar f enc

/-- A residual's bytes, least significant first (R197, R216), and its value. -/
def residBytes (w : Nat) (r : Word) : Bytes := if w = 4 then leBytes 4 r.toNat else leBytes 2 (encBf (dec32 r))
def residValue (w : Nat) (b : Bytes) : Word := if w = 4 then BitVec.ofNat 32 (leNat b) else BitVec.ofNat 32 (leNat b * 65536)

end Sys2Proof.Machine
end

