-- ==== Sys2Proof/Machine/Regions.lean ====
section
/-! DEFINITION. Layout of the resident regions in the dies' memory: parts, blocks, metadata and free space (08 R267 to
R277, R281, R287; 01 R26). -/

namespace Sys2Proof.Machine

def regionAt (s : State) (h : Nat) : Option Region := s.resident.regions.get h
def onRegion (h : Nat) (f : Region → Region) (s : State) : State :=
  s.onResident fun x => { x with regions := x.regions.modify h (·.map f) }

/-- R270: the dies of DIE_MASK, ascending. -/
def Region.dies (r : Region) : List Nat := (upTo 8).filter r.dieMask.getLsbD
/-- R270: primary die of a block, its number there, and the partner die. -/
def Region.dieOf (r : Region) (b : Nat) : Nat := r.dies.getD (b % r.dies.length) 0
def Region.indexOf (r : Region) (b : Nat) : Nat := b / r.dies.length
def partner (d : Nat) : Nat := (d + 4) % 8
/-- How many primary blocks a die holds. -/
def Region.countOn (r : Region) (d : Nat) : Nat :=
  match r.dies.findIdx? (· == d) with
  | some i => (r.blocks + r.dies.length - 1 - i) / r.dies.length
  | none => 0

/-- R271: the next offset at which a block fits below a multiple of 2^32. -/
def fitBlock (size off : Nat) : Nat := if 2 ^ 32 < off % 2 ^ 32 + size then off - off % 2 ^ 32 + 2 ^ 32 else off
/-- R271: offset of the j-th block from the first free offset. -/
def blockOff (size : Nat) : Nat → Nat → Nat
  | off, 0 => fitBlock size off
  | off, j + 1 => blockOff size (fitBlock size off + size) j
/-- Where the metadata of a part of `n` blocks begins. -/
def metaBase (size start n : Nat) : Nat := if n = 0 then start + 4096 else blockOff size (start + 4096) (n - 1) + size
/-- Bytes of a part that starts at an offset. -/
def partSize (r : Region) (n start : Nat) : Nat := metaBase r.blockBytes start n - start + if r.mirrored then 16 * n else 0

/-- Key of a region's part on a die: primary, or the mirror part for die `d`'s blocks on its partner. -/
def partKey (die copy : Nat) : Nat := copy * 8 + die

/-- The die that holds a copy of a block: 0 the primary, 1 the mirror. -/
def Region.copyDie (r : Region) (b copy : Nat) : Nat := if copy = 0 then r.dieOf b else partner (r.dieOf b)
/-- Offset of a part on its die. -/
def Region.partAt (r : Region) (die copy : Nat) : Nat := r.parts.get (partKey die copy) - 1
/-- Offset of a copy of a block on its die (R271). -/
def Region.offset (r : Region) (b copy : Nat) : Nat :=
  blockOff r.blockBytes (r.partAt (r.copyDie b copy) copy + 4096) (r.indexOf b)
/-- The address of a copy of a block: die in [47:45], offset in [44:0]. -/
def Region.addr (r : Region) (b copy : Nat) : Nat := memAddr (r.copyDie b copy) (r.offset b copy)
/-- The address of a copy's metadata entry. -/
def Region.metaAddr (r : Region) (b copy : Nat) : Nat :=
  let d := r.copyDie b copy
  memAddr d (metaBase r.blockBytes (r.partAt d copy) (r.countOn (r.dieOf b)) + 16 * r.indexOf b)
/-- Whether a copy of a block exists and can be reached. -/
def Region.hasCopy (r : Region) (b copy : Nat) : Bool :=
  (copy == 0 || r.mirrored) && !r.lost.getLsbD (r.copyDie b copy)
/-- The copy that images use: the primary, or the surviving one (R276, R296). -/
def Region.mainCopy (r : Region) (b : Nat) : Nat := if r.hasCopy b 0 then 0 else 1

/-- R273: whether a region counts as resident. -/
def Region.isResident (r : Region) : Bool := r.state == .ready || r.state == .unprotected
/-- R283: rows of a region. -/
def Region.rowsPerBlock (r : Region) : Nat := r.blockBytes / r.rowBytes
def Region.rows (r : Region) : Nat := if r.rowBytes = 0 then 0 else r.blocks * r.rowsPerBlock

/-! ### Memory with its errors (18 R531, R532) -/

/-- Memory written; granules that the write covers whole lose their error (R532). -/
def storeMem (a : Nat) (b : Bytes) (s : State) : State :=
  coverGranules a b.length (s.putMem a b)

/-- One memory range set to zero. -/
def zeroMem (a n : Nat) (s : State) : State :=
  coverGranules a n { s with mem := memClear s.mem a (a + n) }

/-! ### Metadata (R281, R287) -/

def metaBytes (m : Meta) : Bytes :=
  leBytes 8 m.seq ++ leBytes 4 m.crc.toNat ++ [if m.suspect then 1 else 0, BitVec.ofNat 8 m.cause, 0, 0]
def metaOf (b : Bytes) : Meta := ⟨leAt b 0 8, BitVec.ofNat 32 (leAt b 8 4), leAt b 12 1 != 0, leAt b 13 1⟩

/-- Key of a block of a region. -/
def blockKey (h b : Nat) : Nat := h * 2 ^ 32 + b

def getMeta (s : State) (h b copy : Nat) : Meta :=
  match regionAt s h with
  | some r => if r.mirrored then metaOf (memBytes s.mem (r.metaAddr b copy) 16) else s.resident.metas.get (blockKey h b)
  | none => ⟨0, 0, false, 0⟩

def setMeta (h b copy : Nat) (m : Meta) (s : State) : State :=
  match regionAt s h with
  | some r =>
    if r.mirrored then storeMem (r.metaAddr b copy) (metaBytes m) s
    else s.onResident fun x => { x with metas := x.metas.set (blockKey h b) m }
  | none => s

/-- R281: BLOCK_CRC of a block's bytes. -/
def crcWords : Nat → Nat → Bytes → Word
  | 0, _, _ => 0
  | n + 1, k, b => BitVec.ofNat 32 (crc32cStd (beBytes 4 k ++ b.take 64)) ^^^ crcWords n (k + 1) (b.drop 64)
def blockCrc (b : Bytes) : Word := crcWords (b.length / 64) 0 b

/-- The bytes of a copy of a block. -/
def copyBytes (s : State) (r : Region) (b copy : Nat) : Bytes := memBytes s.mem (r.addr b copy) r.blockBytes

/-- R287: whether a copy is valid. -/
def copyValid (s : State) (h : Nat) (r : Region) (b copy : Nat) : Bool :=
  !memBad s (r.addr b copy) r.blockBytes && blockCrc (copyBytes s r b copy) == (getMeta s h b copy).crc

/-- Whether a block is SUSPECT on the copy that is used. -/
def isSuspect (s : State) (h b : Nat) : Bool :=
  match regionAt s h with
  | some r => (getMeta s h b (r.mainCopy b)).suspect
  | none => false

/-- MIRROR_SUSPECT (R288): handle, block, cause; counted where the device finds it. -/
def suspectEvent (die h b cause : Nat) (s : State) : State :=
  raise 0x0C03 0 (unitOf die 0 0) (args32 [(h : Int), (b : Int), (cause : Int)]) (count die 0x7003 0 1 s)

/-- A block's copies marked SUSPECT. -/
def markSuspect (h b cause : Nat) (s : State) : State :=
  match regionAt s h with
  | none => s
  | some r =>
    let mark (copy : Nat) (s : State) : State :=
      if r.hasCopy b copy then setMeta h b copy { getMeta s h b copy with suspect := true, cause := cause } s else s
    suspectEvent (r.copyDie b (r.mainCopy b)) h b cause (mark 1 (mark 0 s))

/-! ### Free space (R272, R258, 01 R26) -/

/-- Where the space for parts ends (R26): what the packages in service leave after inline ECC and the reservation (275 GB with
all three, 182 GB with two, 15 R452) less the die's carve-out (log 26). -/
def regionLimit (s : State) (die : Nat) : Nat := memLimit s die - cfgCarveout s die * 10 ^ 9

/-- The ranges in use on a die: parts of regions and scratch areas of placed images. -/
def usedRanges (s : State) (die : Nat) : List (Nat × Nat) :=
  (s.resident.regions.cells.flatMap fun c => match c.2 with
    | some r => ([0, 1].filterMap fun copy =>
        let k := partKey die copy
        if r.parts.get k = 0 then none else some (r.parts.get k - 1, r.sizes.get k))
    | none => []) ++
  (s.fabric.scratch.cells.filterMap fun c =>
    if c.1 / 256 = die && c.2 ≠ 0 then
      match s.fabric.images.get (c.1 % 256) with
      | some i => some (c.2 - 1, i.scratchMb * 10 ^ 6)
      | none => none
    else none)

def alignUp (a n : Nat) : Nat := (a + n - 1) / n * n

/-- Whether a range stays clear of others and below a limit. -/
def rangeFree (used : List (Nat × Nat)) (limit a n : Nat) : Bool :=
  decide (a + n ≤ limit) && used.all fun u => decide (a + n ≤ u.1) || decide (u.1 + u.2 ≤ a)

/-- The lowest free offset, a multiple of 4,096, for a range whose size depends on where it starts (log 43). -/
def firstFit (used : List (Nat × Nat)) (limit : Nat) (size : Nat → Nat) : Option Nat :=
  let starts := 0 :: used.map fun u => alignUp (u.1 + u.2) 4096
  (starts.filter fun a => rangeFree used limit a (size a)).foldl (fun m a => match m with
    | none => some a
    | some b => some (min a b)) none

/-- R272, R298: bytes free for parts and the largest contiguous range. -/
def regionFree (s : State) (die : Nat) : Nat :=
  regionLimit s die - (usedRanges s die).foldl (fun a u => a + u.2) 0
def regionLargest (s : State) (die : Nat) : Nat :=
  let used := usedRanges s die
  let limit := regionLimit s die
  let starts := 0 :: used.map fun u => u.1 + u.2
  starts.foldl (fun m a =>
    let stop := used.foldl (fun e u => if a ≤ u.1 then min e u.1 else e) limit
    if used.any fun u => u.1 ≤ a && a < u.1 + u.2 then m else max m (stop - a)) 0

end Sys2Proof.Machine
end

