-- ==== Sys2Proof/Machine/Import.lean ====
section
/-! DEFINITION. Export and import frames of regions, and import from the keeper die (08 R292 to R294). -/

namespace Sys2Proof.Machine

/-- A part of a block as R293 carries it. -/
structure BlockPart where
  handle : Nat
  flags : Nat
  block : Nat
  word : Nat
  seq : Nat
  crc : Nat
  payload : Bytes
  deriving DecidableEq, Repr

/-- R293: the body of a frame, from byte 16 of its Epolong header on. -/
def partBody (p : BlockPart) : Bytes :=
  let head := [0x52, 0x47, 0x42, 0x4B] ++ beBytes 2 p.handle ++ beBytes 1 p.flags ++ [0] ++ beBytes 4 p.block ++ beBytes 4 p.word
    ++ beBytes 8 p.seq ++ beBytes 4 p.crc
  head ++ beBytes 4 (crc32cStd (head ++ p.payload)) ++ p.payload

/-- A body whose magic and PART_CRC are valid (R294); its reserved fields are ignored (00 R12). -/
def partOf (b : Bytes) : Option BlockPart :=
  let payload := b.drop 32
  if 32 ≤ b.length && slice b 0 4 == [0x52, 0x47, 0x42, 0x4B]
      && crc32cStd (b.take 28 ++ payload) == beAt b 28 4 then
    some ⟨beAt b 4 2, byteAt b 6, beAt b 8 4, beAt b 12 4, beAt b 16 8, beAt b 24 4, payload⟩
  else none

/-- R293, R294: whether a part fits a region. -/
def partFits (r : Region) (p : BlockPart) : Bool :=
  p.block < r.blocks && p.payload.length % 64 == 0 && p.payload.length != 0 && p.payload.length ≤ 8192
    && p.word * 64 + p.payload.length ≤ r.blockBytes

/-- One copy of a block that is left marked by an import, with what its metadata hold. -/
def importMark (h b : Nat) (m : Meta) (s : State) : State :=
  match regionAt s h with
  | none => s
  | some r =>
    let mark (copy : Nat) (s : State) : State := if r.hasCopy b copy then setMeta h b copy m s else s
    mark 1 (mark 0 s)

/-- R294: a block whose last word has been written. -/
def importDone (h : Nat) (r : Region) (p : BlockPart) (s : State) : State :=
  let b := p.block
  let s := s.onResident fun x => { x with importBlocks := x.importBlocks + (if (blockCrc (copyBytes s r b (r.mainCopy b))).toNat = p.crc then 1 else 0) }
  if (blockCrc (copyBytes s r b (r.mainCopy b))).toNat = p.crc then
    let s := importMark h b ⟨p.seq, BitVec.ofNat 32 p.crc, false, 0⟩ (count 8 0x7005 0 1 s)
    if bit p.flags 0 then markSuspect h b 7 s else s
  else markSuspect h b 5 s

/-- IMPORT_FRAME (R294): one frame at the keeper die. -/
def importFrame (b : Bytes) (s : State) : State :=
  let drop (s : State) : State := count 8 0x7006 0 1 (s.onResident fun x => { x with importDrop := x.importDrop + 1 })
  match s.resident.importRun, partOf b with
  | some h, some p =>
    (match regionAt s h with
    | some r =>
      if p.handle ≠ h || !partFits r p then drop s
      else
        let put (copy : Nat) (s : State) : State :=
          if r.hasCopy p.block copy then storeMem (r.addr p.block copy + 64 * p.word) p.payload s else s
        let s := put 1 (put 0 s)
        let had := s.resident.importWords.get p.block
        let new := ((upTo (p.payload.length / 64)).map (p.word + ·)).filter fun w => !had.contains w
        let all := r.blockBytes / 64
        let s := s.onResident fun x => { x with importWords := x.importWords.set p.block (had ++ new) }
        if had.length < all && had.length + new.length = all then importDone h r p s else s
    | none => drop s)
  | _, _ => drop s

def execImportFrame (body : Bytes) (s : State) : Host.Outcome State Fault Refusal :=
  .next (if keeperUp s then importFrame body s else s)

/-- The state of a region that no import holds (R294, R296; log 60). -/
def Region.closedState (r : Region) : RegionState :=
  if r.lost = 0 then .ready else if r.mirrored then .unprotected else .broken

/-- R294: the open import closes. -/
def importClose (s : State) : State :=
  match s.resident.importRun with
  | none => s
  | some h =>
    match regionAt s h with
    | none => s.onResident fun x => { x with importRun := none }
    | some r =>
      let partial_ := (s.resident.importWords.cells.filter fun c => c.2.length < r.blockBytes / 64).map (·.1)
      let s := partial_.foldl (fun s b => markSuspect h b 6 s) s
      let s := if r.state = .importing then onRegion h (fun r => { r with state := r.closedState }) s else s
      s.onResident fun x => { x with
        importRun := none
        importWords := .empty []
        importLeft := partial_.length }

end Sys2Proof.Machine
end

