-- ==== Sys2Proof/Machine/Sched.lean ====
section
/-! DEFINITION. Scheduling, shaping and flow control (04), and the beginning and end of frames on lanes and members (03
R98, 11 R364, 12 R391 to R395). -/

namespace Sys2Proof.Machine

def cfgClassWeight (s : State) (c : Nat) : Nat := objGet s (0x090020 + c) 1 64
def cfgCreditWatch (s : State) : Nat := objGet s 0x090030 1 100
def cfgClassRate (s : State) (p c : Nat) : Nat := objGet s (0x090400 + p) (c + 1) 0
def cfgClassBurst (s : State) (p c : Nat) : Nat := objGet s (0x090600 + p) (c + 1) 18432
def cfgSubRate (s : State) (p c : Nat) : Nat := objGet s (0x090800 + p) (c + 1) 0
def cfgSubBurst (s : State) (p c : Nat) : Nat := objGet s (0x090A00 + p) (c + 1) 18432
def cfgPauseWatch (s : State) (p : Nat) : Nat := objGet s (0x090C00 + p) 3 100
def cfgPauseRecover (s : State) (p : Nat) : Nat := objGet s (0x090C00 + p) 4 200

/-! ### Pause and peer credit (R130, R136 to R138) -/

/-- R135: a pause quantum of 512 bit times of the member rate, in picoseconds. -/
def quantumPs (s : State) (p : Nat) : Nat := 512 * 1000 / memberRate (eport s p).mode

/-- R136, R138: the class is paused by the peer and the watch is not ignoring it. -/
def paused (s : State) (p c : Nat) : Bool :=
  let k := pcKey p c
  !isFibre p && ((s.flow.pauseEnd.get k).any fun e => nowNs s < e) && !((s.flow.ignoreUntil.get k).any fun e => nowNs s < e)

/-- Whether a class may start a given frame on a port (R98, R130, R136). -/
def mayStart (s : State) (p c : Nat) (f : EFrame) : Bool :=
  if isFibre p then !portLossless s p c || creditAdmits s p c (unitsOf f) else !paused s p c

/-! ### Shapers (R125 to R127) -/

/-- Shaper codes: a subscriber shaper of an ingress die's VOQ, a class shaper of an egress port's class. -/
def subShaper (die port cls sub : Nat) : Nat := 2 * voqKey die port cls sub
def classShaper (port cls : Nat) : Nat := 2 * pcKey port cls + 1
/-- The die whose wheel a shaper stands on. -/
def shaperDie (k : Nat) : Nat := if k % 2 = 1 then portDie (k / 2 / 8) else k / 2 / 16 / 8 / 288
/-- Rate in Mb/s and burst in bytes of a shaper. -/
def shaperRate (s : State) (k : Nat) : Nat :=
  if k % 2 = 1 then cfgClassRate s (k / 2 / 8) (k / 2 % 8) else cfgSubRate s (k / 2 / 16 / 8 % 288) (k / 2 / 16 % 8)
def shaperBurst (s : State) (k : Nat) : Nat :=
  if k % 2 = 1 then cfgClassBurst s (k / 2 / 8) (k / 2 % 8) else cfgSubBurst s (k / 2 / 16 / 8 % 288) (k / 2 / 16 % 8)

/-- The queue clock in 1/16 ns. -/
def now16 (s : State) : Nat := s.time.queue4 * 4

/-- R125: e after a frame of `len` bytes: bytes * 8 / r in 1/16 ns, rounded up for the frame and down for the burst. -/
def shaperNext (s : State) (k len : Nat) : Int :=
  let r := shaperRate s k
  let cost := ceilDiv (len * 128000) r
  let burst := shaperBurst s k * 128000 / r
  max (s.flow.nextAt.get k) ((now16 s : Int) - burst) + cost

/-- R125, R127: a shaper admits a send now. -/
def shaperFree (s : State) (k : Nat) : Bool :=
  shaperRate s k = 0 || ((s.flow.wheel.get k).isNone && decide (s.flow.nextAt.get k ≤ (now16 s : Int)))

/-- R126: the wheel slot of a next eligible time, or the slot 262,080 ns ahead. -/
def wheelSlot (t e : Int) : Nat :=
  if e - t < 262080 * 16 then ((e + 1023) / 1024).toNat else ((t + 262080 * 16) / 1024).toNat

/-- A shaper charged for a sent frame, and entered on the wheel when its time lies in the future. -/
def shaperCharge (k len : Nat) (s : State) : State :=
  if shaperRate s k = 0 then s.onFlow fun x => { x with wheel := x.wheel.set k none } else
  let e := shaperNext s k len
  let t : Int := now16 s
  s.onFlow fun x => { x with
    nextAt := x.nextAt.set k e
    wheel := x.wheel.set k (if t < e then some (wheelSlot t e) else none) }

/-- A setting stored. A rate of 0 removes the shaper, and with it what it held back (R127). The spill state of each die follows new
thresholds (03 R106). -/
def plainStore (idx sub v : Nat) (s : State) : State :=
  let s := objSet idx sub v s
  let s := if idx = 0x090002 && sub ≤ 2 then (diesUp s).foldl (fun s d => spillState d s) s else s
  let rate := (0x090400 ≤ idx && idx < 0x090600) || (0x090800 ≤ idx && idx < 0x090A00)
  if rate && v = 0 then s.onFlow fun x => { x with
    wheel := x.wheel.erase fun k => shaperRate s k == 0
    nextAt := x.nextAt.erase fun k => shaperRate s k == 0 } else s

/-- WHEEL_SLOT_RELEASE (R126): every queue whose slot has been reached is released, or entered again. -/
def execWheelSlotRelease (die : DieIx) (s : State) : Host.Outcome State Fault Refusal :=
  .next <| if !dieUp s die || !clocksRun s then s else
    let slot := now16 s / 1024
    let due := s.flow.wheel.cells.filterMap fun x =>
      match x.2 with
      | some n => if shaperDie x.1 = die.val && n ≤ slot then some (x.1, n) else none
      | none => none
    let late := (due.filter fun x => x.2 < slot).length
    let s := if late = 0 then s else count die 0x3000 0 late s
    due.foldl (fun s x =>
      let e := s.flow.nextAt.get x.1
      let t : Int := now16 s
      s.onFlow fun y => { y with wheel := y.wheel.set x.1 (if t < e && shaperRate s x.1 ≠ 0 then some (wheelSlot t e) else none) }) s

/-! ### The shepherd (R118 to R121) -/

/-- R118: the bound of unsettled cells of a port: 2 us of its rate in whole cells. -/
def grantBound (s : State) (p : Nat) : Nat := portRate s p * 2000 / 8 / 256

/-- Unsettled cells of a port: what it has granted less what has been settled. -/
def unsettledOf (s : State) (p : Nat) : Int :=
  s.flow.unsettled.cells.foldl (fun a x => if x.1 / 64 = p then a + x.2 else a) 0

/-- R119: whether the shepherd may grant to a class of a port at all. -/
def grantable (s : State) (p c : Nat) : Bool :=
  ((upTo 8).any fun d => dieUp s d && s.switch.requests.get (dpcKey d p c)) && !paused s p c && !starving s p c
    && shaperFree s (classShaper p c)

/-- The first of a cyclic order after `last` that a test picks, among `n`. -/
def nextTurn (n last : Nat) (p : Nat → Bool) : Option Nat :=
  firstPos p ((upTo n).map fun i => (last + 1 + i) % n)

/-- GRANT_RECEIVE (R120). -/
def execGrantReceive (die : DieIx) (port : PortIx) (cls : ClassIx) (s : State) : Host.Outcome State Fault Refusal :=
  .next <|
    let k := dpcKey die port cls
    if !clocksRun s || !dieUp s die || s.flow.grants.get k = 0 then s
    else refreshIdle die port cls (s.onFlow fun x => { x with
      grants := x.grants.modify k (· - 1)
      balance := x.balance.modify k (· + 16) })

/-- CREDIT_RETURN (R120): a balance above zero for 2 us with no cell waiting. -/
def execCreditReturn (die : DieIx) (port : PortIx) (cls : ClassIx) (s : State) : Host.Outcome State Fault Refusal :=
  .next <|
    let k := dpcKey die port cls
    let b := s.flow.balance.get k
    match s.flow.idleSince.get k with
    | none => s
    | some t =>
      if !clocksRun s || b ≤ 0 || waiting s die port cls || nowNs s < t + 2000 then s
      else settle port cls die b.toNat (s.onFlow fun x => { x with balance := x.balance.set k 0, idleSince := x.idleSince.set k none })

/-! ### The ingress scheduler (R122 to R124) -/

/-- Level and entry keys: the class level of (die, target) and the subscriber level of (die, target, class). Targets 0 to
287 are ports, 288 the multicast queues. -/
def classLevel (die target : Nat) : Nat := (die * 512 + target) * 16
def subLevel (die target cls : Nat) : Nat := 2 ^ 20 + ((die * 512 + target) * 8 + cls) * 16

/-- R123: one decision of a weighted level over its entries: newly eligible entries take the later of their tag and v;
the earliest tag is chosen, the lowest entry on a tie. -/
def levelEnter (lv : Nat) (entries : List Nat) (elig : Nat → Bool) (f : Flow) : Flow :=
  entries.foldl (fun f q =>
    let k := lv + q
    let now := elig q
    let v := f.vtime.get lv
    let t := f.tag.get k
    { f with
      tag := if now && !f.eligible.get k then f.tag.set k (if later 32 v.toNat t.toNat then v else t) else f.tag
      eligible := f.eligible.set k now }) f

def levelChoose (lv : Nat) (entries : List Nat) (elig : Nat → Bool) (f : Flow) : Option Nat :=
  (entries.filter elig).foldl (fun a q =>
    match a with
    | none => some q
    | some b => if later 32 (f.tag.get (lv + b)).toNat (f.tag.get (lv + q)).toNat then some q else some b) none

/-- R123 after a frame of `len` bytes is sent by an entry of weight `w`. -/
def levelSent (lv q len w : Nat) (f : Flow) : Flow :=
  let t := f.tag.get (lv + q)
  { f with vtime := f.vtime.set lv t, tag := f.tag.set (lv + q) (t + BitVec.ofNat 32 (len * 1024 / w)) }

/-- The class order of R122 at a weighted level: SC7, then SC6, then SC0 to SC5 by their tags. -/
def chooseClass (lv : Nat) (elig : Nat → Bool) (f : Flow) : Option Nat :=
  if elig 7 then some 7 else if elig 6 then some 6 else levelChoose lv (upTo 6) elig f

/-- R123 after a class has been served by `len` bytes; a class served at the strict levels keeps no tag. -/
def classSent (s : State) (lv c len : Nat) (f : Flow) : Flow :=
  if c < 6 then levelSent lv c len (max 1 (cfgClassWeight s c)) f else f

/-- Level key of the shepherd of a port (R119). -/
def grantLevel (p : Nat) : Nat := 2 ^ 24 + p * 16

/-- SHEPHERD_GRANT (R118, R119): a decision of a port's shepherd in the class order of R122: 16 cells to the next ingress die
that requests the class. A grant counts as 4,096 bytes at the weighted level: the manual gives R123 the bytes of a frame, and a
grant of 16 cells has no other length (DESIGN CHOICE, log 158). The command names the class whose turn it is; with another class
there is no decision. -/
def shepherdGrant (p c : Nat) (s : State) : State :=
  let g := grantable s p
  let f := levelEnter (grantLevel p) (upTo 6) g s.flow
  if !dieUp s (portDie p) || !clocksRun s || (sprayLanes s p).isEmpty || chooseClass (grantLevel p) g f != some c
      || decide ((grantBound s p : Int) < unsettledOf s p + 16) then s
  else
    let k := pcKey p c
    match nextTurn 8 (f.grantTurn.get k + 7) fun d => dieUp s d && s.switch.requests.get (dpcKey d p c) with
    | none => s
    | some d =>
      let x := classSent s (grantLevel p) c 4096 f
      { s with flow := { x with
          grantTurn := x.grantTurn.set k ((d + 1) % 8)
          grants := x.grants.modify (dpcKey d p c) (· + 1)
          unsettled := x.unsettled.modify (settleKey p c d) (· + 16) } }

def execShepherdGrant (port : PortIx) (cls : ClassIx) (s : State) : Host.Outcome State Fault Refusal :=
  .next (shepherdGrant port cls s)

/-- The frame a decision may release of a queue: the first that is not yet released and whose first cell is there. -/
def headFrame (s : State) (q : Nat) : Option Cell :=
  (qCells s q).find? fun c => c.index == 0 && !((s.switch.released.get q).contains c.frameId)

/-- The cell a multicast queue sends next: of the frame released first, else of the one a decision would release. -/
def spreadHead (s : State) (q : Nat) : Option Cell := (spreadNext s q).or (headFrame s q)

def targetQueue (die target cls sub : Nat) : Nat := if target = 288 then qMc die cls sub else qVoq die target cls sub

/-- A subscriber queue could send (R122, R124). -/
def subEligible (s : State) (die target cls sub : Nat) : Bool :=
  let q := targetQueue die target cls sub
  (headFrame s q).isSome &&
    (if target = 288 then ((nextIntermediate s q).any fun m => (spreadHead s q).any (transitRoom s m))
     else shaperFree s (subShaper die target cls sub))

/-- A class of a target is eligible: a positive balance and an eligible subscriber queue. -/
def classEligible (s : State) (die target cls : Nat) : Bool :=
  (target = 288 || decide (0 < s.flow.balance.get (dpcKey die target cls))) && (upTo 16).any (subEligible s die target cls)

/-- Contributions of all groups in a home die's arrival staging. -/
def stagedOn (s : State) (home : Nat) : Nat :=
  s.coll.staging.cells.foldl (fun a x => if x.1 / 65536 = home then a + x.2 else a) 0

/-- R112, 05 R148: a group holds fewer than 4 contributions in staging at a home die, and the pool of 16 MiB has room for one
more of the largest packet size, 9,216 bytes. -/
def stagingFree (s : State) (home group : Nat) : Bool :=
  s.coll.staging.get (groupKey home group) < 4 && decide ((stagedOn s home + 1) * 9216 ≤ 16 * 2 ^ 20)

/-- The reduction lists of a die and class that may send, as (home die, group) (R112). -/
def redEligible (s : State) (die cls : Nat) : List (Nat × Nat) :=
  s.switch.red.cells.filterMap fun x =>
    let g := x.1 / 8 % 65536
    if x.1 / 8 / 65536 = die && x.1 % 8 = cls then
      match headFrame s (4 * x.1 + 2) with
      | some c => if stagingFree s (c.dest % 8) g then some (c.dest % 8, g) else none
      | none => none
    else none

/-- A target of an engine is eligible (R122). -/
def targetEligible (s : State) (die target : Nat) : Bool :=
  if target = 289 then (upTo 8).any fun c => !(redEligible s die c).isEmpty
  else (upTo 8).any (classEligible s die target)

/-- The targets of an engine, in order: its ports, then its multicast or reduction target. -/
def engineTargets (e : Nat) : List Nat :=
  (upTo 18).map (fun i => e + 16 * i) ++ (if e = 0 then [288] else if e = 1 then [289] else [])

/-- A frame is released to the spreader; on a unicast queue its cells leave the balance (R120). -/
def releaseFrame (q : Nat) (c : Cell) (s : State) : State :=
  let s := s.onSwitch fun x => { x with released := x.released.modify q (· ++ [c.frameId]) }
  if q % 4 = 0 then
    let k := dpcKey c.ingressDie c.dest c.cls
    refreshIdle c.ingressDie c.dest c.cls (s.onFlow fun x => { x with balance := x.balance.modify k (· - c.cells) })
  else s

/-- Class and subscriber levels of a port or of the multicast target. -/
def decideTarget (die target : Nat) (s : State) : State :=
  let ce := classEligible s die target
  let lv := classLevel die target
  let s := s.onFlow (levelEnter lv (upTo 6) ce)
  match chooseClass lv ce s.flow with
  | none => s
  | some c =>
    let se := subEligible s die target c
    let sl := subLevel die target c
    let s := s.onFlow (levelEnter sl (upTo 16) se)
    match levelChoose sl (upTo 16) se s.flow with
    | none => s
    | some sub =>
      let q := targetQueue die target c sub
      match headFrame s q with
      | none => s
      | some h =>
        let s := s.onFlow (levelSent sl sub h.frameLen 1024)
        let s := s.onFlow (classSent s lv c h.frameLen)
        let s := if target = 288 then s else shaperCharge (subShaper die target c sub) h.frameLen s
        releaseFrame q h s

/-- The reduction target: a class in the order of R122, then the home dies in turn (DESIGN CHOICE, log 159), then round-robin the
lists bound for that home die and class whose group holds a credit (R112). -/
def decideReduction (die : Nat) (s : State) : State :=
  let lv := classLevel die 289
  let ce (c : Nat) : Bool := !(redEligible s die c).isEmpty
  let s := s.onFlow (levelEnter lv (upTo 6) ce)
  match chooseClass lv ce s.flow with
  | none => s
  | some c =>
    let l := redEligible s die c
    match nextTurn 8 (s.flow.redTurn.get (512 + die * 8 + c) + 7) fun h => l.any fun x => x.1 == h with
    | none => s
    | some home =>
      let gs := (l.filter fun x => x.1 == home).map Prod.snd
      let k := die * 64 + home * 8 + c
      let g := (firstPos (fun g => s.flow.redTurn.get k ≤ g) gs).getD (gs.headD 0)
      let q := qRed die g c
      match headFrame s q with
      | none => s
      | some h =>
        let s := s.onFlow fun x => classSent s lv c h.frameLen { x with
          redTurn := (x.redTurn.set k (g + 1)).set (512 + die * 8 + c) ((home + 1) % 8) }
        let s := s.onColl fun x => { x with staging := x.staging.modify (groupKey home g) (· + 1) }
        releaseFrame q h s

/-- SCHEDULER_DECISION (R122): the next eligible target of an engine in turn. -/
def execSchedulerDecision (die : DieIx) (engine : Fin 16) (s : State) : Host.Outcome State Fault Refusal :=
  .next <| if !dieUp s die || !clocksRun s then s else
    let t := engineTargets engine
    let k := die.val * 16 + engine.val
    match nextTurn t.length (s.flow.engineTurn.get k + t.length - 1) fun i => targetEligible s die (t.getD i 0) with
    | none => s
    | some i =>
      let s := s.onFlow fun x => { x with engineTurn := x.engineTurn.set k ((i + 1) % t.length) }
      let target := t.getD i 0
      if target = 289 then decideReduction die s else decideTarget die target s

/-! ### Frames on lanes and members (03 R98, 11 R364) -/

/-- The counter of a die in 2^-16 ns, as a stamp. -/
def stampOf (s : State) (die : Nat) : Nat := folFixed s die

/-- R135 to R138 and R130: the queue of a class a lane takes from. -/
def queueLane (p lane : Nat) : Nat := if isFibre p then lane else 0

/-- R364: the member a frame goes to among those that are up. -/
def memberOf (s : State) (p : Nat) (f : EFrame) : Option Nat :=
  let l := membersUp s p
  if l.isEmpty then none else l[flowHash (frameBytes f) % l.length]?

/-- The first class, SC7 first, whose head frame may start here; frames at their age limit, or faulty, are discarded on
the way (R95, R98, R100). -/
def pickFrame (p lane : Nat) : Nat → Nat → State → Option (Nat × EFrame) × State
  | 0, _, s => (none, s)
  | fuel + 1, c, s =>
    let k := laneqKey p (queueLane p lane) c
    let below (s : State) : Option (Nat × EFrame) × State := if c = 0 then (none, s) else pickFrame p lane fuel (c - 1) s
    match s.switch.laneq.get k with
    | [] => below s
    | f :: r =>
      let pop (s : State) : State := s.onSwitch fun x => { x with laneq := x.laneq.set k r }
      if tooOld s f.head then
        pickFrame p lane fuel c (noteWaiting p c (dropAtEgress p f (count (portDie p) 0x200B c 1 (pop s))))
      else if f.head.bad && !f.copy then pickFrame p lane fuel c (noteWaiting p c (dropAtEgress p f (pop s)))
      else if mayStart s p c f && (isFibre p || memberOf s p f == some lane) then (some (c, f), pop s)
      else below (noteWaiting p c s)

/-- 12 R394: a timed frame in the lane queues begins at the next frame boundary of its lane or member, the highest class first,
where its class may start. -/
def pickTimed (p lane : Nat) : Nat → Nat → State → Option (Nat × EFrame) × State
  | 0, _, s => (none, s)
  | fuel + 1, c, s =>
    let k := laneqKey p (queueLane p lane) c
    match (s.switch.laneq.get k).find? fun f => f.launch.isSome && mayStart s p c f && (isFibre p || memberOf s p f == some lane) with
    | none => if c = 0 then (none, s) else pickTimed p lane fuel (c - 1) s
    | some f =>
      let s := s.onSwitch fun x => { x with laneq := x.laneq.modify k (·.filter fun g => !(g.launch.isSome && sameFrame g.head f.head)) }
      if tooOld s f.head then pickTimed p lane fuel c (dropAtEgress p f (count (portDie p) 0x200B c 1 s)) else (some (c, f), s)

/-- 12 R395: a timed frame's lateness when it would begin; after a forward step that carried it past its time, less that step, and
then a time that still lies ahead is not late. -/
def launchLate (s : State) (die : Nat) (l : Word) (skip : Int) : Bool :=
  let d := unsigned 32 (((folFixed s die : Int) - skip) / 65536 - l.toNat)
  (skip = 0 || d < 2 ^ 31) && cfgLateTolerance s ≤ d

/-- 12 R391: residence in 2^-16 ns, modulo 2^32 ns, less the steps applied between the stamps: of the ingress, and of the frame's
first byte at the egress. -/
def residence (first : Cell) (inStamp outStamp : Nat) (stepsOut : Int) : Nat :=
  unsigned 48 (((outStamp : Int) - inStamp) - (stepsOut - first.stepSum))

/-- The frame's bytes as they leave, cut-through or stored: corrected where the transparent clock applies (12 R390 to R392). The
header of a frame being sent carries its egress stamp. -/
def departing (f : EFrame) : Bytes :=
  let b := frameBytes f
  if f.copy && f.result then b else
  match f.got.find? fun c => c.index == 0 with
  | none => b
  | some first => match first.stamp, f.head.stamp with
    | some i, some o => ptpCorrect (residence first i o f.head.stepSum) b
    | _, _ => b

/-- R76: a fibre lane sends while it is in the spray set, and afterwards the frames already in its queue. -/
def laneUsable (s : State) (p lane : Nat) : Bool :=
  (sprayLanes s p).contains lane || (upTo 8).any fun c => !(s.switch.laneq.get (laneqKey p lane c)).isEmpty

/-- The frame that a lane begins next: a timed one whose time has come (12 R394), else the first that may start, the highest class first (R130). -/
def nextFrame (p lane : Nat) (s : State) : Option (Nat × EFrame) × State :=
  let total := (upTo 8).foldl (fun a c => a + (s.switch.laneq.get (laneqKey p (queueLane p lane) c)).length) 0
  let (t, s) := pickTimed p lane (total + 8) 7 s
  if t.isSome then (t, s) else pickFrame p lane (total + 8) 7 s

/-- A frame of a class begins on a lane: its peer credit is used (R130), and a late timed frame is counted, and dropped where
LATE_ACTION says so (12 R395). -/
def beginFrame (p lane c : Nat) (f : EFrame) (s : State) : State :=
  let die := portDie p
  let late := match f.launch with
    | some l => launchLate s die l f.skip
    | none => false
  let s := if late then count 8 0xB002 0 1 s else s
  if late && cfgLateAction s = 0 then emitOutcome f.head.emit 0x04 0 (releaseEgress p f s) else
  let u := BitVec.ofNat 32 (unitsOf f)
  let s := if isFibre p && portLossless s p c then s.onFlow fun x => { x with
      consumed := x.consumed.modify (pcKey p c) (· + u)
      sent := x.sent.modify (laneqKey p lane c) (· + u) } else s
  let s := noteWaiting p c s
  let stomp := f.got.any (·.bad)
  s.onSwitch fun x => { x with sending := x.sending.set (laneKey p lane) (some ⟨{ f with
    head := { f.head with stamp := some (stampOf s die), stepSum := s.time.stepSum } }, stomp⟩) }

/-- LANE_FRAME_START (03 R98, 04 R130, 11 R364, 12 R391, R395). Copies of results that found no room go on first (03 R105). -/
def laneFrameStart (p lane : Nat) (s : State) : State :=
  let usable := if isFibre p then laneUsable s p lane else (membersUp s p).contains lane
  if !portLit s p || !usable || (s.switch.sending.get (laneKey p lane)).isSome then s else
  let (r, s) := nextFrame p lane (serveHeldAll p s)
  let s := (upTo 8).foldl (fun s c => noteWaiting p c s) s
  match r with
  | none => s
  | some (c, f) => beginFrame p lane c f s

def execLaneFrameStart (port : PortIx) (lane : LaneIx) (s : State) : Host.Outcome State Fault Refusal :=
  .next (laneFrameStart port lane s)

/-- EGRESS_UNDERRUN (R98): a needed cell is absent; the frame will end stomped. -/
def execEgressUnderrun (port : PortIx) (lane : LaneIx) (s : State) : Host.Outcome State Fault Refusal :=
  .next <| match s.switch.sending.get (laneKey port lane) with
    | some d =>
      if !clocksRun s || complete d.frame || d.stomp then s
      else count (portDie port) 0x2008 port 1 (s.onSwitch fun x => { x with
        sending := x.sending.set (laneKey port lane) (some { d with stomp := true }) })
    | none => s

/-- FRAME_LEAVES_PORT (R118, R119, R95): the last byte leaves; a frame that is neither whole nor stomped has not left. Of a frame
stomped while cells were missing the manual does not say which bytes leave: the model joins the cells it has and complements the
last four bytes of them (DESIGN CHOICE, log 156). -/
def frameLeaves (p lane : Nat) (s : State) : State :=
  match s.switch.sending.get (laneKey p lane) with
  | none => s
  | some d =>
    let f := d.frame
    if !portLit s p || !(complete f || d.stomp) then s else
    let bad := f.got.any (·.bad)
    let s := if bad then count (portDie p) 0x2007 p 1 s else s
    let s := emitOut (.frame p lane (if d.stomp then stompFrame (frameBytes f) else departing f) d.stomp) s
    let s := s.onSwitch fun x => { x with sending := x.sending.set (laneKey p lane) none }
    let s := releaseEgress p f s
    let s := shaperCharge (classShaper p f.head.cls) f.head.frameLen s
    let s := if f.copy || f.launch.isSome then s else settle p f.head.cls f.head.ingressDie f.head.cells s
    emitOutcome f.head.emit 0x01 ((f.head.stamp.getD 0) / 65536 % 2 ^ 32) s

def execFrameLeavesPort (port : PortIx) (lane : LaneIx) (s : State) : Host.Outcome State Fault Refusal :=
  .next (frameLeaves port lane s)

/-! ### Lossless classes on fibre lanes (R128 to R134, R140) -/

/-- R128: a credit word. -/
def creditWord (ty cls lane : Nat) (c : BitVec 32) : BitVec 64 :=
  BitVec.ofNat 64 (ty * 2 ^ 60 + cls * 2 ^ 57 + lane * 2 ^ 54 + c.toNat)

/-- R129: the limit advertised for a class: reserve plus a grant of the shared pool, never lower than before. The rule bounds the
grant by 2^ALPHA_LOG2 x free / 256; the model grants the bound itself, at most the free pool (DESIGN CHOICE, log 160). -/
def advertisement (s : State) (p c : Nat) : BitVec 32 :=
  let k := pcKey p c
  let free := freeSharedFor s (portDie p) p c
  let grant := match cfgAlphaLog2 s with
    | .ofNat a => free * 2 ^ a / 256
    | .negSucc a => free / 2 ^ (a + 1) / 256
  let l := s.flow.freed.get k + BitVec.ofNat 32 (cfgReserve s / 256 + min grant (free / 256))
  if later 32 l.toNat (s.flow.advertised.get k).toNat then l else s.flow.advertised.get k

/-- CREDIT_WORD_SEND (R129, R131): the CREDIT word of a lossless class, on a working lane of the port. -/
def execCreditWordSend (port : FibreIx) (cls : ClassIx) (s : State) : Host.Outcome State Fault Refusal :=
  .next <| match sprayLanes s port with
    | [] => s
    | l :: _ =>
      if !clocksRun s || !dieUp s (portDie port) || !portLossless s port cls then s else
      let a := advertisement s port cls
      let s := s.onFlow fun x => { x with
        advertised := x.advertised.set (pcKey port cls) a
        creditAt := x.creditAt.set (pcKey port cls) (nowNs s) }
      s.onOptics fun x => { x with ports := x.ports.modify port fun q =>
        { q with due := q.due ++ [(l, 1, creditWord 1 cls 0 a, 0, 0)] } }

/-- SYNC_WORD_SEND (R131): SENT of a lane and class. -/
def execSyncWordSend (port : FibreIx) (lane : LaneIx) (cls : ClassIx) (s : State) : Host.Outcome State Fault Refusal :=
  .next <| if !clocksRun s || !dieUp s (portDie port) || !portLossless s port cls || !(sprayLanes s port).contains lane.val then s
    else
      let k := laneqKey port lane cls
      let w := creditWord 2 cls 0 (s.flow.sent.get k)
      let s := s.onFlow fun x => { x with syncAt := x.syncAt.set k (nowNs s) }
      s.onOptics fun x => { x with ports := x.ports.modify port fun q => { q with due := q.due ++ [(lane.val, 1, w, 0, 0)] } }

/-- R131: a received SENT of a lane and class: the difference goes to RCVD and FREED. -/
def syncApply (p lane c : Nat) (sent : BitVec 32) (s : State) : State :=
  let k := laneqKey p lane c
  let d := sent - s.flow.rcvd.get k
  if d.toNat < 2 ^ 31 then s.onFlow fun x => { x with
    rcvd := x.rcvd.set k sent
    freed := x.freed.modify (pcKey p c) (· + d) } else s

/-- CREDIT (R130, R133): a LIMIT later than the one held; the first after a restart is taken as it comes. -/
def creditReceive (p c : Nat) (l : BitVec 32) (s : State) : State :=
  let k := pcKey p c
  if !portLossless s p c then s
  else if !s.flow.gotLimit.get k || later 32 l.toNat (s.flow.limit.get k).toNat then
    noteWaiting p c (s.onFlow fun x => { x with
      limit := x.limit.set k l, gotLimit := x.gotLimit.set k true, grewAt := x.grewAt.set k (nowNs s)
      starvedSent := x.starvedSent.set k false })
  else s

/-- A received credit word (R128): CREDIT, SYNC or CLOSE; reserved types are ignored. -/
def creditWordReceive (p lane : Nat) (w : BitVec 64) (s : State) : State :=
  let v := w.toNat
  let c := v / 2 ^ 57 % 8
  let n := BitVec.ofNat 32 v
  match v / 2 ^ 60 with
  | 1 => creditReceive p c n s
  | 2 => if portLossless s p c then syncApply p lane c n s else s
  | 3 => if portLossless s p c then
      s.onFlow fun x => { x with closing := x.closing.set (laneqKey p (v / 2 ^ 54 % 8) c) (some (n, nowNs s)) } else s
  | _ => s

/-- CLOSE_APPLY (R132): at RCVD reaching the CLOSE's SENT, or after 20 us. -/
def execCloseApply (port : FibreIx) (lane : LaneIx) (cls : ClassIx) (s : State) : Host.Outcome State Fault Refusal :=
  .next <|
    let k := laneqKey port lane cls
    match s.flow.closing.get k with
    | none => s
    | some (n, t) =>
      if !clocksRun s || !(s.flow.rcvd.get k == n || t + 20000 ≤ nowNs s) then s else
      let s := syncApply port lane cls n s
      s.onFlow fun x => { x with closing := x.closing.set k none, rcvd := x.rcvd.set k n, closed := x.closed.set k true }

/-- CREDIT_WATCH_EXPIRE (R134): frames still wait CREDIT_WATCH after the later of the last growth and the first wait; one
report for each such instant. -/
def execCreditWatchExpire (port : FibreIx) (cls : ClassIx) (s : State) : Host.Outcome State Fault Refusal :=
  .next <|
    let k := pcKey port cls
    match s.flow.waitingAt.get k with
    | none => s
    | some t =>
      if !clocksRun s || !starving s port cls || s.flow.starvedSent.get k || nowNs s < max t (s.flow.grewAt.get k) + cfgCreditWatch s * 1000000 then s
      else
        let s := s.onFlow fun x => { x with
          tripped := x.tripped.modify port fun b => b ||| BitVec.ofNat 8 (2 ^ cls.val)
          starvedSent := x.starvedSent.set k true }
        raise 0x0901 1 (unitOf (portDie port) port cls) [] (count (portDie port) 0x3001 k 1 s)

/-- R132, R140: every count of a port restarts and the lossless set of CLASS_FLAGS is taken. -/
def restartCounts (p : Nat) (s : State) : State :=
  let set := (upTo 8).foldl (fun a c => if isLossless s c then a + 2 ^ c else a) 0
  s.onFlow fun x => { x with
    lossless := x.lossless.set p set
    limit := x.limit.erase fun k => k / 8 == p
    gotLimit := x.gotLimit.erase fun k => k / 8 == p
    consumed := x.consumed.erase fun k => k / 8 == p
    freed := x.freed.erase fun k => k / 8 == p
    advertised := x.advertised.erase fun k => k / 8 == p
    sent := x.sent.erase fun k => k / 64 == p
    rcvd := x.rcvd.erase fun k => k / 64 == p
    closing := x.closing.erase fun k => k / 64 == p
    closed := x.closed.erase fun k => k / 64 == p
    waitingAt := x.waitingAt.erase fun k => k / 8 == p
    starvedSent := x.starvedSent.erase fun k => k / 8 == p }

/-- The CLOSE words of a lane that leaves the spray set, sent on another working lane once the lane's queue has emptied
(R132, 03 R76); LCB_SEND writes the final SENT into them. -/
def closeWords (p lane : Nat) (s : State) : State :=
  match (sprayLanes s p).filter (· != lane) with
  | [] => s
  | l :: _ =>
    ((upTo 8).filter (portLossless s p)).foldl (fun s c =>
      let w := creditWord 3 c lane 0
      s.onOptics fun x => { x with ports := x.ports.modify p fun q => { q with due := q.due ++ [(l, 5, w, 0, laneqKey p lane c)] } }) s

/-- A fibre lane leaves the spray set in order (R75, R76, R132): its frames are sent before it stops carrying data;
where no other lane remains, every count restarts. -/
def sprayLeave (p lane : Nat) (s : State) : State :=
  if !(sprayLanes s p).contains lane then s else
  let s := closeWords p lane s
  let s := s.onSwitch fun x => { x with spray := x.spray.modify p fun m => setBit m lane false }
  if (sprayLanes s p).isEmpty then restartCounts p s else s

/-- A fibre lane joins the spray set (R75); its counts start at zero, the received ones where `both` directions had left, and the
port's too where it is the first (R132). -/
def sprayJoin (p lane : Nat) (both : Bool) (s : State) : State :=
  if (sprayLanes s p).contains lane then s else
  let first := (sprayLanes s p).isEmpty
  let s := s.onSwitch fun x => { x with spray := x.spray.modify p fun m => setBit m lane true }
  let s := s.onFlow fun x => (upTo 8).foldl (fun x c => { x with
    sent := x.sent.set (laneqKey p lane c) 0
    rcvd := if both then x.rcvd.set (laneqKey p lane c) 0 else x.rcvd
    closed := if both then x.closed.set (laneqKey p lane c) false else x.closed }) x
  if first then restartCounts p s else s

/-- R76: the frames of a failed lane's queues move to another lane of the port, or are dropped where it has none; one being sent
is lost. -/
def moveFrames (p lane : Nat) (s : State) : State :=
  let moved := [7, 6, 5, 4, 3, 2, 1, 0].flatMap fun c => s.switch.laneq.get (laneqKey p lane c)
  let s := match s.switch.sending.get (laneKey p lane) with
    | some d => dropAtEgress p d.frame (s.onSwitch fun x => { x with sending := x.sending.set (laneKey p lane) none })
    | none => s
  let s := s.onSwitch fun x => { x with laneq := x.laneq.erase fun k => k / 8 == laneKey p lane }
  moved.foldl (fun s f =>
    let (r, s) := egressLane p s
    match r with
    | some l => enqueueLane p l f.head.cls f s
    | none => dropAtEgress p f (count (portDie p) 0x2000 0 1 s)) s

/-! ### Priority flow control (R135 to R138) -/

/-- PFC_REPEAT (R135): half the pause time has passed and the free part is still below PFC_HEADROOM. -/
def execPfcRepeat (port : ElecIx) (cls : ClassIx) (s : State) : Host.Outcome State Fault Refusal :=
  .next <|
    let p := 256 + port.val
    let k := pcKey p cls
    match s.flow.xoff.get k with
    | none => s
    | some t =>
      if !portLit s p || nowNs s * 2000 < t * 2000 + cfgPfcQuanta s p * quantumPs s p then s
      else if freeReserve s p cls < cfgPfcHeadroom s p then pfcSend p cls s
      else pfcCheck p cls s

/-- R137: since when a class is not paused: the end of a pause that has run out, whether PAUSE_EXPIRE has come or not. -/
def unpausedSince (s : State) (k : Nat) : Nat :=
  match s.flow.pauseEnd.get k with
  | some e => if e ≤ nowNs s then e else s.flow.unpausedAt.get k
  | none => s.flow.unpausedAt.get k

/-- PFC_FRAME_RECEIVE (R136, R137): an unpaused interval shorter than two quanta keeps the pause continuous. -/
def execPfcFrameReceive (port : ElecIx) (cls : ClassIx) (quanta : BitVec 16) (s : State) :
    Host.Outcome State Fault Refusal :=
  .next <|
    let p := 256 + port.val
    let k := pcKey p cls
    if !clocksRun s || !dieUp s (portDie p) then s else
    let now := nowNs s
    let qps := quantumPs s p
    let pausedNow := (s.flow.pauseEnd.get k).any fun e => now < e
    if quanta = 0 then
      s.onFlow fun x => { x with
        pauseEnd := x.pauseEnd.set k none
        unpausedAt := x.unpausedAt.set k (if pausedNow then now else unpausedSince s k) }
    else
      let fresh := !pausedNow && ((s.flow.pauseStart.get k).isNone || 2 * qps ≤ (now - unpausedSince s k) * 1000)
      s.onFlow fun x => { x with
        pauseEnd := x.pauseEnd.set k (some (now + ceilDiv (quanta.toNat * qps) 1000))
        pauseStart := if fresh then x.pauseStart.set k (some now) else x.pauseStart }

/-- PAUSE_EXPIRE (R136): the pause time has run out. -/
def execPauseExpire (port : ElecIx) (cls : ClassIx) (s : State) : Host.Outcome State Fault Refusal :=
  .next <|
    let k := pcKey (256 + port.val) cls
    match s.flow.pauseEnd.get k with
    | some e => if clocksRun s && e ≤ nowNs s then s.onFlow fun x => { x with
        pauseEnd := x.pauseEnd.set k none, unpausedAt := x.unpausedAt.set k e } else s
    | none => s

/-- PAUSE_WATCH_TRIP (R138): the class has been continuously paused for PAUSE_WATCH. -/
def execPauseWatchTrip (port : ElecIx) (cls : ClassIx) (s : State) : Host.Outcome State Fault Refusal :=
  .next <|
    let p := 256 + port.val
    let k := pcKey p cls
    let now := nowNs s
    let continuous := ((s.flow.pauseEnd.get k).any fun e => now < e)
      || (now - unpausedSince s k) * 1000 < 2 * quantumPs s p
    match s.flow.pauseStart.get k with
    | none => s
    | some t =>
      if !clocksRun s || !continuous || (s.flow.ignoreUntil.get k).isSome || now < t + cfgPauseWatch s p * 1000000 then s
      else
        let s := s.onFlow fun x => { x with
          ignoreUntil := x.ignoreUntil.set k (some (now + cfgPauseRecover s p * 1000000))
          tripped := x.tripped.modify p fun b => b ||| BitVec.ofNat 8 (2 ^ cls.val) }
        raise 0x0902 1 (unitOf (portDie p) p cls) [] (count (portDie p) 0x3002 k 1 s)

/-- PAUSE_RECOVER_END (R138): pause is honoured again; continuity is measured afresh from the pause then in force. -/
def execPauseRecoverEnd (port : ElecIx) (cls : ClassIx) (s : State) : Host.Outcome State Fault Refusal :=
  .next <|
    let k := pcKey (256 + port.val) cls
    match s.flow.ignoreUntil.get k with
    | none => s
    | some t =>
      if !clocksRun s || nowNs s < t then s else
      let inForce := (s.flow.pauseEnd.get k).any fun e => nowNs s < e
      s.onFlow fun x => { x with
        ignoreUntil := x.ignoreUntil.set k none
        pauseStart := x.pauseStart.set k (if inForce then some (nowNs s) else none) }

/-- FLOW_HELD (R139). -/
def flowHeld (s : State) (p : Nat) : Nat :=
  (upTo 8).foldl (fun a c => if (if isFibre p then starving s p c else paused s p c) then a + 2 ^ c else a) 0

end Sys2Proof.Machine
end

