-- ==== Sys2Proof/Machine/Ingress.lean ====
section
/-! DEFINITION. Frames that arrive on the data plane: the forwarding result of a frame, its class, subscriber and lane, its
admission (02 R40 to R43, 03 R73 to R85, R95 to R97, 05 R149), and the frames that the keeper answers (11 R365). -/

namespace Sys2Proof.Machine

/-- What a frame is to take: dropped under a counter, terminated as a contribution, or forwarded by an action. A dropped frame
may have been routed (R40 step 3). -/
inductive Verdict where
  | drop (ev : Nat) (routed : Bool)
  | contribution
  | take (word : Word) (mac : Option Nat) (routed : Bool) (index : Option Nat) (hit : Option Nat)
  deriving DecidableEq, Repr

/-- The frame reads an entry: an index of the DIT, or the routing entries, of which a lookup that finds nothing reads some too
(R40, R43). -/
def Verdict.reads : Verdict → Bool
  | .drop ev routed => routed && ev == 0x1000
  | .contribution => false
  | .take _ _ routed index _ => routed || index.isSome

/-- ACTION KEEPER (R37). -/
def keeperWord : Word := 0xC0000000

/-- R42: routed lookups of a die in the present second; 3.2 G of them at most. The rule does not say over which window "per
second" runs, nor how frames fall to the two pipelines: the model counts in whole seconds of the queue clock, one count for both
(DESIGN CHOICE, log 150). -/
def lookupBudget (die : Nat) (s : State) : Bool × State :=
  let sec := nowNs s / 1000000000
  let used := if s.tables.lookupSecond.get die = sec then s.tables.lookups.get die else 0
  if used < 3200000000 then
    (true, s.onTables fun x => { x with lookupSecond := x.lookupSecond.set die sec, lookups := x.lookups.set die (used + 1) })
  else (false, s)

/-- R40, R41, R149: the forwarding result of a frame that enters on a port. At DEV_INDEX 0xFFFF the device terminates nothing
(05 R190). -/
def verdict (die port : Nat) (f : Bytes) (p : Parsed) (s : State) : Verdict × State :=
  match p.epl with
  | some o =>
    if eplVersion f o ≠ 1 then (.drop 0x4004 false, s)
    else if eplKind f o = 1 && cfgDevIndex s ≠ 0xFFFF && eplDest f o = cfgDevIndex s then (.contribution, s)
    else
      let i := eplDest f o
      (.take (s.tables.dit.get (tblKey die i)) none false (some i) none, s)
  | none =>
    if isFibre port then (.drop 0x1000 false, s)
    else
      let n := port - 256
      if namesLocal s n f p then (.take keeperWord none false none none, s)
      else if p.dmac ≠ cfgRouterMac s n then (.drop 0x1000 false, s)
      else match p.fam with
        | none => (.drop 0x1000 false, s)
        | some fam =>
          if (localAddrs s n).contains (fam, p.dst) then (.drop 0x1000 false, s)
          else
            let (ok, s) := lookupBudget die s
            if !ok then (.drop 0x1001 true, s)
            else
              match routeLookup s die fam p.dst with
              | none => (.drop 0x1000 true, s)
              | some (w, mac, hit) => (.take (if p.hop ≤ 1 then keeperWord else w) mac true none hit, s)

/-- 04 R131: units that arrived on a fibre lane are counted against its class. -/
def unitsArrived (port lane cls n : Nat) (s : State) : State :=
  if isFibre port && portLossless s port cls then
    s.onFlow fun x => { x with rcvd := x.rcvd.modify (laneqKey port lane cls) (· + BitVec.ofNat 32 n) }
  else s

/-- 04 R129: units taken and released again. -/
def unitsFreed (port cls n : Nat) (s : State) : State :=
  if isFibre port && portLossless s port cls then
    s.onFlow fun x => { x with freed := x.freed.modify (pcKey port cls) (· + BitVec.ofNat 32 n) }
  else s

/-- R73, R77: the egress port and lane of a unicast frame; R114 names the drop of a drained bundle. -/
def unicastLane (die n : Nat) (b : Bundle) (s : State) : Option (Nat × Nat) × State :=
  let (r, s) := chooseLane die (candidates s b.ports) (seenOccupancy s die) s
  match r with
  | some (p, l) =>
    (some (p, l), s.onSwitch fun x => { x with assigned := x.assigned.modify (die * 4096 + laneKey p l) (· + n) })
  | none =>
    match b.ports.find? fun p => draining s p && s.switch.sprayPub.get p ≠ 0 with
    | some p => (none, count (portDie p) 0x200D p 1 s)
    | none => (none, count die 0x2000 0 1 s)

/-- 12 R390, R391: the ingress stamp of a forwarded frame. -/
def ingressStamp (s : State) (die port : Nat) : Option Nat :=
  if port < 288 && cfgTcEnable s port then some (folFixed s die) else none

/-- The header with which a frame enters the switch core from a port. -/
def ingressHead (s : State) (die port : Nat) (f : Bytes) (p : Parsed) (index : Option Nat) (routed : Bool) : Cell where
  destType := 0
  dest := 0
  lane := 0
  cls := frameClass f p
  sub := subscriber f p
  ingressDie := die
  frameId := 0
  index := 0
  last := false
  bad := false
  orderSeq := 0
  lenM1 := 0
  ingressTime := nowNs s % 2 ^ 32
  data := []
  port := port
  cut := false
  routed := routed
  stamp := ingressStamp s die port
  stepSum := s.time.stepSum
  dests := []
  drainIndex := index
  cells := 0
  frameLen := 0
  pool := 0
  group := 0
  stage2 := false
  emit := none
  flags := cfgClassFlags s (frameClass f p)
  good := true

/-- A frame that fails a check and is held whole is discarded (R96). -/
def discardFaulty (die port : Nat) (s : State) : State := count die 0x200A port 1 s

/-- R97: whether a unicast frame is forwarded cut-through. -/
def cutsThrough (s : State) (port cls egress : Nat) : Bool :=
  port < 288 && bit (cfgCtEnable s port) cls && laneRate s port ≤ laneRate s egress

/-- R41: the frame as it leaves the ingress die, routed with the addresses of its egress port. -/
def routedBytes (s : State) (egress : Nat) (mac : Option Nat) (routed : Bool) (f : Bytes) : Bytes :=
  if routed then routeRewrite mac (some (portMac s egress)) true f else f

/-- A forwarded frame: its action carried out. -/
def forward (die port : Nat) (f : Bytes) (p : Parsed) (w : Word) (mac : Option Nat) (routed : Bool) (index : Option Nat)
    (s : State) : State :=
  let good := fcsGood f && f.length ≤ 9216
  let h := ingressHead s die port f p index routed
  let units := ceilDiv f.length 256
  -- 04 R131: only a frame that passed its checks was counted as arrived
  let back (s : State) : State := if good then unitsFreed port h.cls units s else s
  let enter (h : Cell) (q : Nat) (g : Bytes) (cut : Bool) (s : State) : State :=
    let t := admitFrame h q g cut (!good) s
    if t.switch.frameId.get die = s.switch.frameId.get die then back t else t
  match resAction w with
  | 0 => back (count die 0x1008 0 1 s)
  | 1 =>
    let b := s.tables.bundle.get (tblKey die (resTarget w))
    if b.ports.isEmpty then back (count die 0x1008 0 1 s)
    else
      let (r, s) := unicastLane die units b s
      match r with
      | none => back s
      | some (ep, l) =>
        let cut := cutsThrough s port h.cls ep
        if !good && !cut then discardFaulty die port s
        else enter { h with dest := ep, lane := l } (qVoq die ep h.cls h.sub) (routedBytes s ep mac routed f) cut s
  | 2 =>
    if !good then discardFaulty die port s
    else
      let t := resTarget w
      if s.tables.mcast.get (tblKey die t) = 0 then back (count die 0x1008 0 1 s)
      else enter { h with destType := 1, dest := t } (qMc die h.cls h.sub) (if routed then routeRewrite none none true f else f) false s
  | _ =>
    if !good then discardFaulty die port s
    else back (s.onSwitch fun x => { x with keeperIn := x.keeperIn.modify die (· ++ [(port, f)]) })

/-- 04 R132: data of a lane that arrives after its CLOSE has been applied is discarded. -/
def laneClosed (s : State) (port lane cls : Nat) : Bool :=
  isFibre port && portLossless s port cls && s.flow.closed.get (laneqKey port lane cls)

/-- 09 R334, 11 R370: a lane in a loop takes no frames; as the far end, or in FAR of an electrical port, it returns what it receives
on the same lane. -/
def laneLoops (s : State) (port lane : Nat) : Bool :=
  if isFibre port then (s.optics.lanes.get (laneKey port lane)).state == .loop else (s.mgmt.eports.get (port - 256)).loop != 0
def loopReturn (port lane : Nat) (f : Bytes) (s : State) : State :=
  let back := if isFibre port then (s.optics.lanes.get (laneKey port lane)).farEnd else (s.mgmt.eports.get (port - 256)).loop == 3
  if back then emitOut (.frame port lane f false) s else s

/-- R55: a routed frame teaches the address of its source, whatever its lookup gives. Whether one that fails its FCS or length
check teaches too the manual does not say: it does here, since a frame that is cut through has been looked up before its check
(DESIGN CHOICE, log 151). -/
def learnFrom (die port : Nat) (p : Parsed) (routed : Bool) (s : State) : State :=
  match routed, p.fam with
  | true, some fam => neighLearn die port fam p.src p.smac s
  | _, _ => s

/-- R43, 18 R530: an entry that the frame reads has an uncorrectable error in a word of an SRAM array: the lookup is a DROP. -/
def lookupUpset (die array word : Nat) (s : State) : State :=
  raise 0x1005 0 (unitOf die 0 0) (args32 [(array : Int), (word : Int)]) (count die 0xE001 0 1 (count die 0x1008 0 1 s))

/-- A frame received on a port of an ingress die. `upset` names the array and word of an entry that the frame reads and that has
an uncorrectable memory error. -/
def frameIngress (port lane : Nat) (f : Bytes) (upset : Option (Nat × Nat)) (s : State) : State :=
  let die := portDie port
  let p := parseFrame f
  let cls := frameClass f p
  if laneLoops s port lane then loopReturn port lane f s else
  if laneClosed s port lane cls then s else
  let units := ceilDiv f.length 256
  let good := fcsGood f && f.length ≤ 9216
  let (v, s) := verdict die port f p s
  let arrived (s : State) : State := if good then unitsArrived port lane cls units s else s
  let gone (s : State) : State := if good then unitsFreed port cls units s else s
  match v with
  | .drop ev routed =>
    let s := arrived (learnFrom die port p routed s)
    match (if v.reads then upset else none) with
    | some (array, word) => gone (lookupUpset die array word s)
    | none => gone (count die ev 0 1 s)
  | .contribution =>
    if !good then count die 0x4000 0 1 (discardFaulty die port s)
    else (arrived s).onColl fun x => { x with atIngress := x.atIngress.modify die (· ++ [⟨f, nowNs s, p.smac, port⟩]) }
  | .take w mac routed index hit =>
    match (if v.reads then upset else none) with
    | some (array, word) => gone (lookupUpset die array word (arrived (learnFrom die port p routed s)))
    | none =>
      let s := match hit with
        | some pos => emtTouch die pos s
        | none => s
      let s := learnFrom die port p routed s
      let s := if ptpSkipped f && cfgTcEnable s port && resAction w ≠ 3 then count 8 0xB001 0 1 s else s
      forward die port f p w mac routed index (arrived s)

def execFrameIngress (port : PortIx) (lane : LaneIx) (frame : Arrival) (s : State) : Host.Outcome State Fault Refusal :=
  .next (if dieUp s (portDie port) && isUp s then frameIngress port lane frame.bytes frame.upset s else s)

/-! ### Frames that the keeper answers (11 R365) -/

/-- The ICMPv6 checksum of a message between two addresses. -/
def icmp6Checksum (src dst msg : Bytes) : Nat :=
  checksum (src ++ dst ++ beBytes 4 msg.length ++ [0, 0, 0, 58] ++ msg)

/-- An IPv6 frame of the keeper's answer. -/
def answer6 (dmac smac hop : Nat) (src dst msg : Bytes) : Bytes :=
  let m := splice msg 2 (beBytes 2 (icmp6Checksum src dst (splice msg 2 [0, 0])))
  let b := beBytes 6 dmac ++ beBytes 6 smac ++ [0x86, 0xDD] ++ beBytes 4 (6 * 2 ^ 28) ++ beBytes 2 m.length
    ++ beBytes 1 58 ++ beBytes 1 hop ++ src ++ dst ++ m
  withFcs (padTo (max 60 b.length) b)

/-- The answer to a frame that R365 names, from the port's router address. -/
def keeperAnswer (s : State) (n : Nat) (f : Bytes) : Option Bytes :=
  let p := parseFrame f
  let me := cfgRouterMac s n
  if !namesLocal s n f p then none
  else if p.etype = 0x0806 then
    let b := beBytes 6 p.smac ++ beBytes 6 me ++ [0x08, 0x06] ++ slice f p.l3 6 ++ [0, 2] ++ beBytes 6 me
      ++ slice f (p.l3 + 24) 4 ++ slice f (p.l3 + 8) 10
    some (withFcs (padTo 60 b))
  else match p.fam with
    | some 0 =>
      if byteAt f p.l4 = 135 then
        let target := slice f (p.l4 + 8) 16
        let dad := allZero p.src
        let dst : Bytes := if dad then [0xFF, 0x02] ++ List.replicate 13 0 ++ [1] else p.src
        let msg := [136, 0, 0, 0] ++ beBytes 4 (if dad then 0xA0000000 else 0xE0000000) ++ target ++ [2, 1] ++ beBytes 6 me
        some (answer6 (if dad then 0x333300000001 else p.smac) me 255 target dst msg)
      else
        let len := beAt f (p.l3 + 4) 2
        some (answer6 p.smac me 64 p.dst p.src (splice (slice f p.l4 len) 0 [129]))
    | some _ =>
      let total := beAt f (p.l3 + 2) 2
      let ip := slice f p.l3 total
      let ihl := 4 * (byteAt ip 0 % 16)
      let icmp := splice (ip.drop ihl) 0 [0, 0, 0, 0]
      let icmp := splice icmp 2 (beBytes 2 (checksum icmp))
      let hdr := splice (splice (splice (ip.take ihl) 8 [64]) 10 [0, 0]) 12 (slice ip 16 4 ++ slice ip 12 4)
      let hdr := splice hdr 10 (beBytes 2 (checksum hdr))
      let b := beBytes 6 p.smac ++ beBytes 6 me ++ [0x08, 0x00] ++ hdr ++ icmp
      some (withFcs (padTo (max 60 b.length) b))
    | none => none

/-- FRAME_ADDRESSED_TO_KEEPER (R365): the oldest frame of a die's keeper link. An answer leaves on the port on which the
frame entered, on the member of R364; the way of an answer inside the device is not stated (log 30). A DATA datagram of
Epolong is an import frame, counted in IMPORT_DROP where none is open (08 R294). -/
def execFrameAddressedToKeeper (die : DieIx) (s : State) : Host.Outcome State Fault Refusal :=
  .next <| match s.switch.keeperIn.get die with
    | [] => s
    | (port, f) :: r =>
      if !keeperUp s || !dieUp s die then s else
      let s := s.onSwitch fun x => { x with keeperIn := x.keeperIn.set die r }
      let body : Option Bytes := match (parseFrame f).epl with
        | some o => if eplKind f o = 0 then some (slice f (o + 16) (beAt f (o + 6) 2)) else none
        | none => none
      match body with
      | some b => importFrame b s
      | none =>
      if isFibre port then s else
      match keeperAnswer s (port - 256) f, membersUp s port with
      | some a, m :: ms =>
        emitOut (.frame port ((m :: ms).getD (flowHash a % (ms.length + 1)) m) a false) s
      | _, _ => s

end Sys2Proof.Machine
end

