-- ==== Sys2Proof/Machine/Health.lean ====
section
/-! DEFINITION. Units that leave service and the causes of degraded service (00 R2 to R5, 15 R459, R460). -/

namespace Sys2Proof.Machine

/-- UNIT of the device as a whole, and of the keeper die (16 R489). -/
def unitDevice : Nat := unitOf 15 0 0
def unitKeeper : Nat := unitOf 8 0 0
/-- UNIT of a port with a lane or class. -/
def unitPort (p low : Nat) : Nat := unitOf (portDie p) p low

/-- DEVICE_DEGRADED and DEVICE_RESTORED (R460): DEGRADED_CAUSES decides between DEGRADED and the state it stands for. -/
def settleCauses (s : State) : State :=
  match s.start.state with
  | .linkUp | .service =>
    if s.start.causes = 0 then s
    else raise 0x0003 1 unitDevice (args32 [s.start.causes.toNat]) (s.onStart fun x => { x with state := .degraded })
  | .degraded =>
    if s.start.causes ≠ 0 then s
    else raise 0x0004 2 unitDevice (args32 [0])
      (s.onStart fun x => { x with state := if x.serviceEntered then .service else .linkUp })
  | _ => s

/-- R459: a bit of DEGRADED_CAUSES set or cleared. -/
def setCause (bit : Nat) (holds : Bool) (s : State) : State :=
  let mask : BitVec 8 := BitVec.ofNat 8 (2 ^ bit)
  settleCauses (s.onStart fun x => { x with causes := if holds then x.causes ||| mask else x.causes &&& ~~~mask })

/-- UNIT_LOST (R5): the presence bits are clear before the event is sent. -/
def unitLost (die number cause : Nat) (s : State) : State := raise 0x0005 0 (unitOf die number 0) (args32 [cause]) s

/-- A sector die leaves SECTOR_DIES, with its tiles and packages (R2, 01 R32). -/
def clearDie (d : Nat) (s : State) : State :=
  s.onStart fun x => { x with
    sectorDies := x.sectorDies &&& ~~~(BitVec.ofNat 8 (2 ^ d))
    aihornTiles := x.aihornTiles &&& ~~~(BitVec.ofNat 64 (255 * 2 ^ (8 * d)))
    memPackages := x.memPackages &&& ~~~(BitVec.ofNat 32 (7 * 2 ^ (3 * d))) }

/-- The bits of the units that are lost beyond those a fuse marks: packages and tiles (R459 bits 1 and 2). -/
def lostPackages (s : State) : Bool :=
  let built : Nat := if isS s then 0x249249 else 0xFFFFFF
  (upTo 24).any fun i => bit built i && !s.start.memPackages.getLsbD i && !s.start.repairMem.getLsbD i
def lostTiles (s : State) : Bool :=
  !isS s && (upTo 64).any fun i => !s.start.aihornTiles.getLsbD i && !s.start.repairTiles.getLsbD i

/-- The permanent causes, bits 0 to 2 (R459). -/
def permanentCauses (s : State) : State :=
  let s := if s.start.sectorDies ≠ 0xFF then setCause 0 true s else s
  let s := if lostPackages s then setCause 1 true s else s
  if lostTiles s then setCause 2 true s else s

/-! ### Junction and base-layer sensors (13 R421, R422) -/

def maxOf (l : List Int) : Int := match l with
  | [] => -2000
  | x :: r => r.foldl (fun a b => if a < b then b else a) x
def minOf (l : List Int) : Int := match l with
  | [] => 2000
  | x :: r => r.foldl (fun a b => if b < a then b else a) x

/-- The sensors of a die: 16 junction sensors (4 on the keeper die), and the base-layer sensors of a sector die. -/
def tjOf (s : State) (d : Nat) : List Int := (upTo (if d = 8 then 4 else 16)).map fun i => s.power.tj.get (d * 16 + i)
def baseOf (s : State) (d : Nat) : List Int := (upTo 16).map fun i => s.power.base.get (d * 16 + i)

/-- Some junction sensor of a die in service, or of the keeper die, reads 100 °C or more. -/
def anyWarm (s : State) : Bool := (diesUp s ++ [8]).any fun d => decide (1000 ≤ maxOf (tjOf s d))

end Sys2Proof.Machine
end

