-- ==== Sys2Proof/Machine/LaneOps.lean ====
section
/-! DEFINITION. Shared operations of the photonic lanes: rings and their set points, lanes, the spray set, lane control
messages and the margin estimate (09 R299 to R331). Units: heater power 0.01 mW, temperatures 0.1 degrees C, margins 0.05
dB, optical powers 0.01 dBm. -/

namespace Sys2Proof.Machine

/-! ### Rings -/

def txRingKey (p slot : Nat) : Nat := p * 16 + slot
def rxRingKey (p slot : Nat) : Nat := 2 ^ 20 + p * 16 + slot
def expDropKey (p slot : Nat) : Nat := 4 * 2 ^ 20 + p * 16 + slot
def expAddKey (p slot : Nat) : Nat := 5 * 2 ^ 20 + p * 16 + slot

def ringKey : RingId → Nat
  | .txPort p k => txRingKey p k
  | .rxPort p k => rxRingKey p k
  | .txMesh s t c => 2 * 2 ^ 20 + (s.val * 8 + t) * 128 + c
  | .rxMesh s t c => 3 * 2 ^ 20 + (s.val * 8 + t) * 128 + c
  | .expDrop p k => expDropKey p k
  | .expAdd p k => expAddKey p k

/-- The slot whose beacon a ring must find (R311): Wk, or Ik of an internal channel, a spare on I8 (R332). -/
def ringSlot : RingId → Nat
  | .txPort _ k => k
  | .rxPort _ k => k
  | .txMesh _ _ c => if c.val < 80 then c.val % 8 else 8
  | .rxMesh _ _ c => if c.val < 80 then c.val % 8 else 8
  | .expDrop _ k => k
  | .expAdd _ k => k

/-- The die that holds a ring. -/
def ringDie : RingId → Nat
  | .txPort p _ => portDie p
  | .rxPort p _ => portDie p
  | .txMesh s _ _ => s
  | .rxMesh _ t _ => t
  | .expDrop p _ => portDie p
  | .expAdd p _ => portDie p

def ringOf (s : State) (k : Nat) : Ring := s.optics.rings.get k
def onRing (k : Nat) (f : Ring → Ring) (s : State) : State :=
  s.onOptics fun x => { x with rings := x.rings.modify k f }
def laneAt (s : State) (p l : Nat) : Lane := s.optics.lanes.get (laneKey p l)
def onLane (p l : Nat) (f : Lane → Lane) (s : State) : State :=
  s.onOptics fun x => { x with lanes := x.lanes.modify (laneKey p l) f }
def onFPort (p : Nat) (f : FPort → FPort) (s : State) : State :=
  s.onOptics fun x => { x with ports := x.ports.modify p f }

/-- R301: the slot a lane transmits on, and the slot its drop ring is tuned to. -/
def txSlotOf (s : State) (p l : Nat) : Nat := if (laneAt s p l).txSlot = 0 then l else (laneAt s p l).txSlot - 1
def rxSlotOf (s : State) (p l : Nat) : Nat := if (laneAt s p l).rxSlot = 0 then l else (laneAt s p l).rxSlot - 1

/-- The modes of R29: hardware mode in headless operation. -/
def ringHost (s : State) : Bool := cfgRingLockMode s == 1 && !s.start.headless
def migrationHost (s : State) : Bool := cfgMigrationMode s == 1 && !s.start.headless
def marginHost (s : State) : Bool := cfgMarginMode s == 1 && !s.start.headless

/-- The lane that a port's ring serves, and whether it is the lane's modulator. -/
def laneOfRing (s : State) : RingId → Option (Nat × Nat)
  | .txPort p k => ((upTo 8).find? fun l => txSlotOf s p l == k.val).map fun l => (p.val, l)
  | .rxPort p k => ((upTo 8).find? fun l => rxSlotOf s p l == k.val).map fun l => (p.val, l)
  | .expDrop p k => some (p.val, k.val)
  | .expAdd p k => some (p.val, k.val)
  | .txMesh _ _ _ => none
  | .rxMesh _ _ _ => none

/-- R309: the corrected set point. A ring that has none starts its first seek at 0 mW (15 R455). -/
def setPoint (r : Ring) (temp : Int) : Nat :=
  if r.first then 0 else (clampInt 0 6000 ((r.sp : Int) + roundDiv (r.tcoef * (temp - r.spTemp)) 10)).toNat

/-- UNIT of a ring (16 R493: port or channel; ring). -/
def unitRing : RingId → Nat
  | .txPort p k => unitPort p k
  | .rxPort p k => unitPort p (16 + k.val)
  | .txMesh s t c => unitOf s (8 * s.val + t) c
  | .rxMesh s t c => unitOf t (8 * s.val + t) (128 + c.val)
  | .expDrop p k => unitPort p (32 + k.val)
  | .expAdd p k => unitPort p (48 + k.val)

/-- The heater power at which a seek starts: sp, or as R312 decides. -/
def seekStart (s : State) (r : Ring) (how : SeekStart) (temp : Int) : Nat :=
  match how with
  | .setPoint => setPoint r temp
  | .backoff => setPoint r temp - cfgSeekBackoff s
  | .above h => min 6000 (h + 200)

/-- A ring starts a seek at a temperature; in host-assisted mode it is held and a notice posted (R313). -/
def seekFrom (id : RingId) (how : SeekStart) (temp : Int) (s : State) : State :=
  let k := ringKey id
  let h := ringHost s
  let s := onRing k (fun r =>
    { r with state := .seek, heater := if h then r.heater else seekStart s r how temp, startAs := how, fresh := false,
             restarted := false, held := h, inRangeNs := 0, checkAt := none }) s
  if h then s.onOptics fun x => { x with notices := x.notices ++ [(k, 1, (x.rings.get k).heater)] } else s

/-- A ring parked at zero heater. A ring in FAULT stays there: RING_SEEK or the next start takes it out (R310). -/
def parkRing (k : Nat) (s : State) : State :=
  onRing k (fun r => if r.state = .fault then r else
    { r with state := .off, heater := 0, checkAt := none, held := false, fresh := false, restarted := false }) s

/-- Ring FAULT (R310): heater at zero, RING_FAULT. -/
def ringFault (id : RingId) (last : Nat) (s : State) : State :=
  let h := (ringOf s (ringKey id)).heater
  raise 0x0408 0 (unitRing id) (args32 [(h : Int), (last : Int)])
    (onRing (ringKey id) (fun r => { r with state := .fault, heater := 0, checkAt := none, held := false, fresh := false }) s)

/-- UNIT of the ring with a key. -/
def unitRingKey (k : Nat) : Nat :=
  let n := k % 2 ^ 20
  let a := n / 1024
  match k / 2 ^ 20 with
  | 0 => unitPort (n / 16) (n % 16)
  | 1 => unitPort (n / 16) (16 + n % 16)
  | 2 => unitOf a (n / 128) (n % 128)
  | 3 => unitOf (n / 128 % 8) (n / 128) (128 + n % 128)
  | 4 => unitPort (n / 16) (32 + n % 16)
  | _ => unitPort (n / 16) (48 + n % 16)

/-- The ring with a key enters FAULT without having locked (R310, 15 R449). -/
def ringKeyFault (k : Nat) (s : State) : State :=
  raise 0x0408 0 (unitRingKey k) (args32 [((ringOf s k).heater : Int), 2])
    (onRing k (fun r => { r with state := .fault, heater := 0, checkAt := none, held := false, fresh := false }) s)

/-- Two rings of one lane are LOCKED. -/
def ringLocked (s : State) (k : Nat) : Bool := (ringOf s k).state == .locked

/-! ### Lanes and express paths -/

/-- R341, R342, R344: an accepted path holds lane k of its two ports, one that waits behind a path in CLEARING too. -/
def heldByPath (s : State) (p l : Nat) : Bool :=
  (s.express.paths.cells.any fun c => c.2.state != .idle && c.1 / 64 == l && (c.2.a == p || c.2.b == p)) ||
    s.express.queued.cells.any fun c => c.1 / 64 == l && c.2.any fun x => x.a == p || x.b == p

/-- A lane that a path of this device holds, or that is given up to a path of the peer (10 R342, R350). -/
def laneTaken (s : State) (p l : Nat) : Bool := heldByPath s p l || (laneAt s p l).claimed

/-- R314: a tap below -30 dBm reads 0x8000. -/
def tapReading (v : Int) : Int := if v < -3000 then -32768 else v

/-- R322: a lane in TRAIN or a later state, on which messages travel. -/
def laneTalks (x : Lane) : Bool :=
  match x.state with
  | .train | .margin | .ready | .service | .marginLow => true
  | _ => false

/-- A lane's state with the time of entry. -/
def laneEnter (p l : Nat) (st : LaneState) (s : State) : State :=
  onLane p l (fun x => { x with state := st, enteredAt := nowNs s }) s

/-- What a lane forgets when it starts to lock again. -/
def Lane.restart (x : Lane) (now : Nat) : Lane :=
  { x with
    state := .locking, enteredAt := now, lockingAt := now, rxOk := false, idOk := false, peerRxOk := false,
    peerIdOk := false, peerReady := false, peerMarker := 0, bins := [], estimate := none, testing := false, rxTesting := false,
    omaSteps := 0, reported := none, removedLow := false, held := false, nextSlot := none, oneWay := false, farEnd := false }

/-- A lane starts to lock again, on the slot assigned to it meanwhile (R328); its modulator leaves the old slot, and the peer is
told of the new one (R329). -/
def laneRestart (p l : Nat) (s : State) : State :=
  match (laneAt s p l).nextSlot with
  | some d => onLane p l (fun x => { x.restart (nowNs s) with txSlot := d, peerMigrating := true, retuneAt := 0 })
      (parkRing (txRingKey p d) (parkRing (txRingKey p (txSlotOf s p l)) s))
  | none => onLane p l (fun x => x.restart (nowNs s)) s

/-! ### Lane control messages (R321, R322) -/

/-- WORD0 of an LCM. -/
def lcmWord0 (msg seq lane slot slot2 : Nat) : BitVec 64 :=
  BitVec.ofNat 64 (msg * 2 ^ 56 + seq * 2 ^ 48 + lane * 2 ^ 45 + slot * 2 ^ 41 + slot2 * 2 ^ 37)

/-- The lane an LCM travels on: another than the lane concerned and outside a test where one exists. -/
def carrier (s : State) (p lane : Nat) : Option Nat :=
  let l := (upTo 8).filter fun l => laneTalks (laneAt s p l)
  match l.filter (fun x => x != lane && !(laneAt s p x).testing && !(laneAt s p x).rxTesting) with
  | x :: _ => some x
  | [] => match l.filter (· != lane) with
    | x :: _ => some x
    | [] => l.head?

/-- A control block falls due on a lane (R304). -/
def dueBlock (p lane kind : Nat) (w0 w1 : BitVec 64) (extra : Nat) (s : State) : State :=
  onFPort p (fun q => { q with due := q.due ++ [(lane, kind, w0, w1, extra)] }) s

/-- A new LCM: it takes the next MSG_SEQ, is sent once where a lane can carry it, and waits for its ACK. -/
def sendLcm (p msg lane slot slot2 : Nat) (arg : BitVec 64) (s : State) : State :=
  let seq := (s.optics.ports.get p).msgSeq.toNat
  let on := carrier s p lane
  let m : PendingLcm := ⟨msg, seq, lane, slot, slot2, arg, if on.isSome then 1 else 0, nowNs s⟩
  let s := onFPort p (fun q => { q with msgSeq := q.msgSeq + 1, pending := q.pending ++ [m] }) s
  match on with
  | some c => dueBlock p c 2 (lcmWord0 msg seq lane slot slot2) arg 0 s
  | none => s

/-- An ACK (R321); it is not itself acknowledged. The ACK that gives a lane up to a claim waits for the lane's frames to
leave (03 R76, 10 R350). -/
def sendAck (p on msg seq lane status : Nat) (s : State) : State :=
  dueBlock p on 2 (lcmWord0 1 0 lane (txSlotOf s p lane) 0) (BitVec.ofNat 64 (msg * 2 ^ 56 + seq * 2 ^ 48 + status))
    (if msg = 8 && status = 0 then lane + 1 else 0) s

/-- LANE_DOWN with its reason. -/
def laneDown (p l reason : Nat) (s : State) : State :=
  sendLcm p 3 l (txSlotOf s p l) 0 (BitVec.ofNat 64 reason) s

/-- A lane leaves the spray set in order (03 R76) with LANE_DOWN. -/
def leaveOrderly (p l reason : Nat) (s : State) : State :=
  if (sprayLanes s p).contains l then laneDown p l reason (sprayLeave p l s) else s

/-- A lane stops at once, in the spray set or out of it: the frames of its queue move (03 R76), CLOSE words follow (R132). -/
def leaveAbrupt (p l : Nat) (s : State) : State := moveFrames p l (sprayLeave p l s)

/-- A lane fails: where it was in the spray set, LANE_DOWN gives the reason (R321). -/
def laneFails (p l reason : Nat) (s : State) : State :=
  let was := (sprayLanes s p).contains l
  let s := leaveAbrupt p l s
  if was then laneDown p l reason s else s

/-! ### The lane follows its rings (R316) -/

/-- Lane states in which the lane has not yet both rings LOCKED, or is kept out of use. -/
def laneUnlocked : LaneState → Bool
  | .dark | .locking | .retune | .loop | .fault => true
  | _ => false

/-- R316: LOCKING while a ring seeks, SIGNAL once both rings are LOCKED; a lane that loses a ring locks again. One that has been
in READY or SERVICE trains anew without a margin test; one whose test was still to come runs it (R324). -/
def laneFollows (p l : Nat) (s : State) : State :=
  let x := laneAt s p l
  let tx := (ringOf s (txRingKey p (txSlotOf s p l))).state
  let rx := (ringOf s (rxRingKey p (rxSlotOf s p l))).state
  if heldByPath s p l || x.claimed || x.state = .loop || x.state = .fault then s
  else if tx = .locked && rx = .locked then
    match x.state with
    | .dark | .locking | .retune =>
      onLane p l (fun y => { y with state := .signal, enteredAt := nowNs s, bins := [], estimate := none }) s
    | _ => s
  else if x.state = .dark then
    if tx = .off && rx = .off then s
    else onLane p l (fun x => { x.restart (nowNs s) with trainedFrom := false, retried := false }) s
  else if x.state = .locking then
    if tx = .off && rx = .off then laneEnter p l .dark s else s
  else if x.state = .retune then s
  else
    onLane p l (fun y => { y with trainedFrom := y.trainedFrom || x.state == .service || (x.state == .ready && !x.held) })
      (laneRestart p l (laneFails p l 5 s))

/-- The lane that a ring serves follows it. -/
def ringFollowed (id : RingId) (s : State) : State :=
  match id with
  | .expDrop _ _ => s
  | .expAdd _ _ => s
  | _ => match laneOfRing s id with
    | some (p, l) => laneFollows p l s
    | none => s

/-- A lane starts again at LOCKING: both rings released, to seek while light is present (R320). -/
def laneRelock (p l : Nat) (s : State) : State :=
  let s := laneFails p l 5 s
  laneRestart p l (parkRing (txRingKey p (txSlotOf s p l)) (parkRing (rxRingKey p (rxSlotOf s p l)) s))

/-- A lane trains from DARK (10 R345, R351, 09 R334 without a loop). -/
def laneFromDark (p l : Nat) (s : State) : State :=
  onLane p l (fun x =>
    { x with trainedFrom := false, failures := 0, txMargin := none, rxMargin := none, retried := false,
             state := .dark, enteredAt := nowNs s }) s

/-- The 32 fibre ports and lanes of a die that is lost or held go dark (01 R31, R32). -/
def dieDark (d : Nat) (s : State) : State :=
  s.onOptics fun x => { x with
    rings := ⟨x.rings.dflt, x.rings.cells.filter fun c => !(c.1 / 2 ^ 20 ≤ 1 && c.1 % 2 ^ 20 / 16 / 32 == d)⟩
    lanes := ⟨x.lanes.dflt, x.lanes.cells.filter fun c => !(c.1 / 8 / 32 == d)⟩
    ports := ⟨x.ports.dflt, x.ports.cells.filter fun c => !(c.1 / 32 == d)⟩ }

/-! ### The margin estimate (R326) -/

/-- The bit error ratios, times 10^30 and rounded down, at which the estimate is m units of 0.05 dB, for m from -100 on:
(3/8) erfc(3.414 * 10^(m/200) / sqrt 2). -/
def berAt : List Nat :=
  [105119861884164967711945209625, 103045471146336330033119316850, 100975678288404624226415039949, 98911133565298239385713049430, 96852497567255994320086936094, 94800440775794037560945087874, 92755643081643576857936751154, 90718793263716147567893119107] ++
  [88690588428219133675702532838, 86671733407119257273704199143, 84662940115236177016914095696, 82664926865342591889164082798, 80678417640751720830611623937, 78704141324988082051476729909, 76742830888263456454535105057, 74795222530617077157105756847] ++
  [72862054781727686026231349679, 70944067557565330478757401390, 69042001174222771829857686888, 67156595319450204867704873982, 65288587982612635980426701674, 63438714343996638719067919317, 61607705624612112862580324229, 59796287897864825754346346743] ++
  [58005180864716511999590157267, 56235096594200628846575944315, 54486738231422860311199694140, 52760798675445346517324487005, 51057959229731453191813432334, 49378888228112603451763353028, 47724239639529022657607652673, 46094651655090782445004331715] ++
  [44490745261302684440269156160, 42913122803594532759235074707, 41362366544595262263123192345, 39839037221883090451784409338, 38343672610232037868042469460, 36876786093655330045944646351, 35438865252815695544105584389, 34030370473628586429068181040] ++
  [32651733583123891981876553743, 31303356518851674565581504724, 29985610038314585487901250838, 28698832475080571509543461389, 27443328548370832878820394751, 26219368233026263145013867103, 25027185696827291346452531164, 23866978312173676285163677289] ++
  [22738905749118944131617660444, 21643089156695487849540365931, 20579610439357680464587406381, 19548511635208713071272758142, 18549794402459524684259160117, 17583419620292726894597664554, 16649307109968794077311445239, 15747335481614373296092690933] ++
  [14877342111672244516123420449, 14039123255468664967681592262, 13232434298766613041312326914, 12456990151523535916473623180, 11712465786361064024363228220, 10998496923484032875151772800, 10314680862960128731905379421, 9660577464393499044592656665] ++
  [9035710273100590811021353743, 8439567790930067677020788058, 7871604888867602101640403209, 7331244357538252656201447809, 6817878590672524560490571364, 6330871395546436952724175263, 5869559923351146836318864076, 5433256711404796446432934195] ++
  [5021251828099778492911191854, 4632815110494590151864667019, 4267198483523293114458081202, 3923638348919965394449490625, 3601358031153132294846738261, 3299570266948581650449458006, 3017479724360453365945139922, 2754285536841749788244291308] ++
  [2509183837377374932239599063, 2281370277485409503627211408, 2070042515774265700485293086, 1874402660771882428490283034, 1693659652923781609998538046, 1527031570993291555522597306, 1373747848591169772344348421, 1233051387212617018743270724] ++
  [1104200552964308754480311892, 986471045117182757198011408, 879157625714431776919667142, 781575700688094576300622700, 693062744279025325344125114, 612979559998736161368780838, 540711372900378477668101946, 475668749520743980642442989] ++
  [417288343494751189490343936, 365033466506223544870076241, 318394485900684856008895989, 276889051923671755650575118, 240062159137867508807564736, 207486048090747150675288889, 178759954728800278424858389, 153509716363520671770896129] ++
  [131387244168797301913434812, 112069873211954018694196846, 95259601876988110548950430, 80682233217108630407461503, 68086431266358276392702150, 57242705642345170884071539, 47942337883015085260858784, 39996262882776909520100534] ++
  [33233918533629475099506491, 27502076245207255624891264, 22663664427105863097241991, 18596596283627852849929048, 15192612413872692916821859, 12356147749568805366793799, 10003231321376431050565780, 8060426244644921502003705] ++
  [6463816181157996824708756, 5158043387323270398406961, 4095402323764843228219297, 3234991697157298528885545, 2541926751301178495660296, 1986612637486466129422836, 1544078788095282205403001, 1193373403270133312244060] ++
  [917016446437158833721910, 700508935615140072743483, 531895815888703894450378, 401379303500927502568941, 300979300481773544202365, 224237285068629790614074, 165959979985801011327672, 121999079016203900634468] ++
  [89063362212318270872154, 64559640867224237979838, 46459134033192600894270, 33186078057554735234174, 23525598843800470476572, 16548123574551953866997, 11547865600264717435489, 7993175323896824674406] ++
  [5486804589799119852093, 3734376920908211689891, 2519586752178051308484, 1684864540009731883348, 1116439306581344255117, 732904765976417597563, 476549444729425504149, 306845585378513885725] ++
  [195607059485017829840]

/-- The bins that the estimate reads, newest first: their errors and number. -/
def binsRead : List Nat → Nat → Nat → Nat × Nat
  | [], e, w => (e, w)
  | b :: r, e, w => if e < 100 && w < 1000 then binsRead r (e + b) (w + 1) else (e, w)

/-- How many thresholds of a falling list a ratio num / den still meets. -/
def thresholdsMet (num den : Nat) : List Nat → Nat
  | [] => 0
  | b :: r => if num * 10 ^ 30 ≤ b * den then thresholdsMet num den r + 1 else 0

/-- R326: the estimate, rounded down to 0.05 dB, by the ratios at which the formula passes each step; below -5 dB, at a
ratio above one in ten, how far below is a free value (log 31). None while no bin is there. -/
def estimateOf (bins : List Nat) : Option Int :=
  let (e, w) := binsRead bins 0 0
  match w with
  | 0 => none
  | _ =>
    match thresholdsMet (max e 100) (212500000 * w) berAt with
    | 0 => some (-101 - (Config.marginBelow (max e 100) w : Int))
    | n => some ((n : Int) - 101)

/-! ### ELS modules -/

def elsOf (s : State) (m : Nat) : Els := s.optics.els.get m
def onEls (m : Nat) (f : Els → Els) (s : State) : State := s.onOptics fun x => { x with els := x.els.modify m f }
/-- The die that holds a module's enable latch (01 R18); ELS-I j by the even die of its pair while it is in service. -/
def elsDie (s : State) (m : Nat) : Nat :=
  if m < 16 then m / 2 else if dieUp s (2 * (m - 16)) then 2 * (m - 16) else 2 * (m - 16) + 1
/-- UNIT of a module (16 R493). -/
def unitEls (s : State) (m slot : Nat) : Nat := unitOf (elsDie s m) m slot

/-- Whether a module's enable line is high (01 R18). -/
def elsEnabled (s : State) (m : Nat) : Bool :=
  if m < 16 then s.start.elsE.getLsbD m else s.start.elsI.getLsbD (2 * (m - 16)) || s.start.elsI.getLsbD (2 * (m - 16) + 1)

/-- ELS_ENABLE (R306): the latch is set after the identity has been read. A die out of service is held in reset and its latches
stay clear (01 R18, R32): a module of which no die is in service stays dark. -/
def elsEnable (m : Nat) (s : State) : State :=
  let latch (d : Nat) : BitVec 8 := if dieUp s d then BitVec.ofNat 8 (2 ^ d) else 0
  let s := s.onStart fun x =>
    if m < 16 then (if dieUp s (m / 2) then { x with elsE := x.elsE ||| BitVec.ofNat 16 (2 ^ m) } else x)
    else { x with elsI := x.elsI ||| latch (2 * (m - 16)) ||| latch (2 * (m - 16) + 1) }
  if elsEnabled s m then onEls m (fun e => { e with state := 2, enabledAt := wallNs s }) s else s

/-- A module in fault or dark against its enable holds bit 4 of DEGRADED_CAUSES (15 R459). -/
def elsCause (s : State) : State := 
  setCause 4 ((upTo 20).any fun m => (elsOf s m).state == 4 || (elsEnabled s m && (elsOf s m).state ≤ 1)) s

/-- The module that feeds a port (01 R18). -/
def moduleOf (p : Nat) : Nat := p / 16

end Sys2Proof.Machine
end

