-- ==== Sys2Proof/Machine/Express.lean ====
section
/-! DEFINITION. Express lightpaths (10): requests, claims on the peers, guard check, gates, teardown and the ends of a path. -/

namespace Sys2Proof.Machine

def cfgExpInMin (s : State) : Int := signed 16 (objGet s 0x050001 1 (unsigned 16 (-900)))
def cfgExpOutPower (s : State) : Int := signed 16 (objGet s 0x050001 2 100)

def pathOf (s : State) (q : Nat) : Path := s.express.paths.get q
def onPath (q : Nat) (f : Path → Path) (s : State) : State :=
  s.onExpress fun x => { x with paths := x.paths.modify q f }
/-- Slot of a path (R341). -/
def pathSlot (q : Nat) : Nat := q / 64
def unitPath (s : State) (q : Nat) : Nat := unitOf (portDie (pathOf s q).b) q 0
/-- The follower of the sink die, whose reading decides (R347, R348, R351). -/
def sinkNs (s : State) (q : Nat) : Nat := folNs s (portDie (pathOf s q).b)

/-- ARG of a claim or return (R349). -/
def claimArg (time role q : Nat) : BitVec 64 := BitVec.ofNat 64 (time % 2 ^ 32 * 2 ^ 32 + role * 2 ^ 30 + q)

def expressResult (q code : Nat) (s : State) : State :=
  s.onExpress fun x => { x with result := q % 65536 * 65536 + code * 256 }

/-- R341: two paths of one slot may not both use these ports, but for a path in the opposite direction. -/
def portsClash (a b a' b' : Nat) : Bool :=
  !(a' == b && b' == a) && (a == a' || a == b' || b == a' || b == b')

/-- R352: whether a path in CLEARING gives way to one that activates at `act`. -/
def givesWay (p : Path) (act : Nat) : Bool :=
  p.state == .clearing && atOrAfter act (p.clearTime.toNat + 1000000)

/-- R352: a path in CLEARING holds lane k of a port, from which the lane passes straight to a new path. -/
def clearingHolds (s : State) (p k : Nat) : Bool :=
  s.express.paths.cells.any fun c => c.2.state == .clearing && c.1 / 64 == k && (c.2.a == p || c.2.b == p)

/-- R353: the code of a request, DONE where it is accepted. -/
def expressCheck (s : State) (q a b act : Nat) : Nat :=
  let k := pathSlot q
  let lead := (act + 2 ^ 32 - tmuNs s % 2 ^ 32) % 2 ^ 32
  let loops (p : Nat) : Bool := (laneAt s p k).state == .loop || (laneAt s p k).leaving != 0
  if 511 < q || 255 < a || 255 < b || a = b then 0x01
  else if ((pathOf s q).state != .idle && !givesWay (pathOf s q) act) || (s.express.queued.get q).isSome then 0x02
  else if loops a || loops b || (ringOf s (expDropKey a k)).state == .fault || (ringOf s (expAddKey b k)).state == .fault
      || s.express.paths.cells.any (fun c => c.1 / 64 == k && c.1 != q && c.2.state != .idle
            && portsClash a b c.2.a c.2.b && !givesWay c.2 act)
      || s.express.queued.cells.any (fun c => c.1 / 64 == k && c.1 != q && c.2.any fun p => portsClash a b p.a p.b) then 0x03
  else if [a, b].any (fun p => txSlotOf s p k != k || rxSlotOf s p k != k) then 0x04
  else if !dieUp s (portDie a) || !dieUp s (portDie b) then 0x05
  else if lead < 50000000 || 2000000000 < lead then 0x06
  else if s.time.ppsLost then 0x10 else 0

/-- Lane k of a port is taken by a path: it leaves its spray set in order and reads DARK (R342, R345). -/
def holdLane (p k : Nat) (s : State) : State := laneEnter p k .dark (leaveOrderly p k 3 s)

/-- EXPRESS_SET (R344, R345). -/
def expressSet (q a b : Nat) (act : Word) (s : State) : State :=
  let code := expressCheck s q a b act.toNat
  let s := answer stDone (expressResult q code s)
  if code ≠ 0 then s else
  let k := pathSlot q
  let heldA := heldByPath s a k
  let heldB := heldByPath s b k
  let p : Path := { Path.reset with
    state := .scheduled, a := a, b := b, actTime := act, changedAt := BitVec.ofNat 32 (tmuNs s), drainPass := clearingHolds s a k
    e1 := (pathOf s q).e1, e2 := (pathOf s q).e2 }
  let s := if (pathOf s q).state = .idle then s.onExpress fun x => { x with paths := x.paths.set q p }
    else s.onExpress fun x => { x with queued := x.queued.set q (some p) }
  let s := if heldA then s else holdLane a k s
  let s := if heldB then s else holdLane b k s
  let s := sendLcm a 8 k k 0 (claimArg act.toNat 1 q) s
  sendLcm b 8 k k 0 (claimArg act.toNat 2 q) s

def execExpressSet (role : Role) (q a b : BitVec 16) (actTime : Word) (s : State) : Host.Outcome State Fault Refusal :=
  .next (guardWrite role 0x050002 1 (expressSet q.toNat a.toNat b.toNat actTime) s)

/-- Lane k of a port trains again from DARK, unless another path holds it (R345, R352). -/
def freeLane (p k : Nat) (s : State) : State :=
  if heldByPath s p k then s
  else laneFromDark p k (parkRing (txRingKey p k) (parkRing (rxRingKey p k) s))

/-- An express ring is released and its selector with it, unless another path uses it (R336, R351). -/
def releaseRing (key k : Nat) (uses : Path → Bool) (s : State) : State :=
  if s.express.paths.cells.any fun c => c.2.state != .idle && c.2.drained && c.1 / 64 == k && uses c.2 then s
  else parkRing key (s.onExpress fun x => { x with selectors := x.selectors.set key 0 })

/-- The path's rings are released and its lanes freed. -/
def releasePath (q a b : Nat) (s : State) : State :=
  let k := pathSlot q
  let s := releaseRing (expDropKey a k) k (fun x => x.a == a) (releaseRing (expAddKey b k) k (fun x => x.b == b) s)
  freeLane b k (freeLane a k s)

/-- EXPRESS_RETURN to a peer (R349). -/
def sendReturn (port q role time : Nat) (s : State) : State :=
  let k := pathSlot q
  sendLcm port 9 k k 0 (claimArg time role q) s

/-- R352: the path that waits on a bus takes its place. -/
def installQueued (q : Nat) (s : State) : State :=
  match s.express.queued.get q with
  | some n => s.onExpress fun x => { x with
      paths := x.paths.modify q (fun p => { n with e1 := p.e1, e2 := p.e2 }), queued := x.queued.set q none }
  | none => s

/-- R353: a path that waits on a bus ends with a code, which PATH_RECORD keeps; every peer that accepted is sent a return, its
lanes are freed. -/
def endQueued (q code : Nat) (s : State) : State :=
  match s.express.queued.get q with
  | none => s
  | some n =>
    let s := s.onExpress fun x => { x with
      queued := x.queued.set q none
      paths := x.paths.modify q fun p => { p with code := code, changedAt := BitVec.ofNat 32 (tmuNs s) } }
    let s := if n.aAccepted && dieUp s (portDie n.a) then sendReturn n.a q 1 (tmuNs s) s else s
    let s := if n.bAccepted && dieUp s (portDie n.b) then sendReturn n.b q 2 (tmuNs s) s else s
    raise 0x0502 1 (unitOf (portDie n.b) q 0) (args32 [code]) (freeLane n.b (pathSlot q) (freeLane n.a (pathSlot q) s))

/-- R353: a path ends with a code and returns to IDLE; every peer that accepted is sent a return (R345, R359). A path that waits
on its bus takes its place. -/
def endPath (q code : Nat) (s : State) : State :=
  let p := pathOf s q
  let unit := unitPath s q
  let s := installQueued q (onPath q (fun p => { p with
    state := .idle, code := code, gateOpen := false, changedAt := BitVec.ofNat 32 (tmuNs s) }) s)
  let s := if p.aAccepted && dieUp s (portDie p.a) then sendReturn p.a q 1 (tmuNs s) s else s
  let s := if p.bAccepted && dieUp s (portDie p.b) then sendReturn p.b q 2 (tmuNs s) s else s
  raise 0x0502 1 unit (args32 [code]) (releasePath q p.a p.b s)

/-- Whether a lane's queues are empty (R347). -/
def laneEmpty (s : State) (p l : Nat) : Bool :=
  (s.switch.sending.get (laneKey p l)).isNone && (upTo 8).all fun c => (s.switch.laneq.get (laneqKey p l c)).isEmpty

/-- R342: a held lane's modulator is parked once its last frame has left (03 R76). -/
def parkLane (p k : Nat) (s : State) : State := if laneEmpty s p k then parkRing (txRingKey p k) s else s

/-- EXPRESS_DRAIN_CHECK (R342, R346): from here on the path needs its express rings, which leave OFF for SEEK as R310 has it. A
ring that a path in CLEARING still uses is released first, and the selectors of the released rings are set (R336). -/
def execExpressDrainCheck (q : Fin 512) (quietNs : Nat) (s : State) : Host.Outcome State Fault Refusal :=
  .next <|
    let p := pathOf s q
    let k := pathSlot q
    let clearing := s.express.paths.cells.any fun c => c.2.state == .clearing && c.1 / 64 == k && c.1 != q.val
      && (c.2.a == p.a || c.2.b == p.b)
    if !clocksRun s || p.state ≠ .scheduled || !p.aAccepted || p.drained || clearing
        || !(p.drainPass || 50000 ≤ quietNs) then s
    else
      let s := onPath q (fun p => { p with drained := true }) s
      let drop := expDropKey p.a k
      let add := expAddKey p.b k
      let s := s.onExpress fun x => { x with selectors := (x.selectors.set drop (q.val % 64 + 1)).set add (q.val % 64 + 1) }
      parkLane p.a k (parkRing drop (parkRing add (parkRing (txRingKey p.b k) (parkRing (rxRingKey p.b k)
        (parkRing (rxRingKey p.a k) s)))))

/-- R347: the code of the guard check, 0 where the path passes. -/
def guardCode (s : State) (q : Nat) (e1 : Int) : Nat :=
  let p := pathOf s q
  let k := pathSlot q
  if !p.aAccepted || !p.bAccepted then 0x11
  else if !p.drained then 0x12
  else if !laneEmpty s p.a k || !laneEmpty s p.b k then 0x13
  else if !ringLocked s (expDropKey p.a k) || !ringLocked s (expAddKey p.b k) then 0x14
  else if e1 < cfgExpInMin s then 0x15
  else if s.time.ppsLost then 0x10 else 0

/-- EXPRESS_GUARD_CHECK (R347). -/
def expressGuard (q : Nat) (e1 : Int) (s : State) : State :=
  let p := pathOf s q
  if p.state ≠ .scheduled || !atOrAfter (sinkNs s q) (p.actTime.toNat + 2 ^ 32 - 100000) then s else
  let code := guardCode s q e1
  let s := onPath q (fun p => { p with e1 := tapReading e1 }) s
  if code = 0 then parkLane p.a (pathSlot q) (onPath q (fun p => { p with state := .armed, changedAt := BitVec.ofNat 32 (tmuNs s) }) s)
  else endPath q code s

def execExpressGuardCheck (q : Fin 512) (e1 : Int) (s : State) : Host.Outcome State Fault Refusal :=
  .next (if clocksRun s then expressGuard q e1 s else s)

/-- EXPRESS_GATE_OPEN (R348). -/
def execExpressGateOpen (q : Fin 512) (s : State) : Host.Outcome State Fault Refusal :=
  .next <|
    let p := pathOf s q
    if clocksRun s && p.state == .armed && !p.gateOpen && atOrAfter (sinkNs s q) p.actTime.toNat then
      onPath q (fun p => { p with gateOpen := true, openedAt := nowNs s }) s
    else s

/-- R338: the gain, 0 to 12 dB, with which a gate holds its output at a level. -/
def gateGain (e1 out : Int) : Int := clampInt 0 1200 (out - e1)

/-- EXPRESS_POWER_CHECK (R348, R338): ACTIVE as soon as E2 holds EXP_OUT_POWER; POWER_FAIL where the check 1 ms after the opening
does not find it. -/
def execExpressPowerCheck (q : Fin 512) (e2 : Int) (s : State) : Host.Outcome State Fault Refusal :=
  .next <|
    let p := pathOf s q
    if !clocksRun s || p.state ≠ .armed || !p.gateOpen then s
    else
      let s := onPath q (fun p => { p with e2 := tapReading e2, gain := gateGain p.e1 (cfgExpOutPower s) }) s
      if cfgExpOutPower s - 50 ≤ e2 && e2 ≤ cfgExpOutPower s + 50 then
        raise 0x0501 2 (unitPath s q) (args32 [p.e1, e2])
          (onPath q (fun p => { p with state := .active, changedAt := BitVec.ofNat 32 (tmuNs s) }) s)
      else if nowNs s < p.openedAt + 1000000 then s
      else endPath q 0x16 s

/-- EXPRESS_CLEAR (R351, R353). Where a new path waits behind one in CLEARING, the clear cancels the new one. -/
def expressClear (q t flags : Nat) (s : State) : State :=
  let p := pathOf s q
  let immediate := bit flags 0
  let ahead := (t + 2 ^ 32 - tmuNs s % 2 ^ 32) % 2 ^ 32
  let reply (code : Nat) (s : State) : State := answer stDone (expressResult q code s)
  if 511 < q || flags / 2 ≠ 0 then reply 0x01 s
  else if p.state = .idle && (s.express.queued.get q).isNone then reply 0x07 s
  else if !immediate && (ahead < 1000000 || 2000000000 < ahead) then reply 0x06 s
  else
    let t := if immediate then tmuNs s else t
    if (s.express.queued.get q).isSome then endQueued q 0x17 (reply 0 s) else
    match p.state with
    | .scheduled | .armed => endPath q 0x17 (reply 0 s)
    | _ =>
      let s := onPath q (fun p => { p with
        state := .clearing, clearTime := BitVec.ofNat 32 t, changedAt := BitVec.ofNat 32 (tmuNs s) }) (reply 0 s)
      sendReturn p.b q 2 t (sendReturn p.a q 1 t s)

def execExpressClear (role : Role) (q : BitVec 16) (t : Word) (flags : Byte) (s : State) : Host.Outcome State Fault Refusal :=
  .next (guardWrite role 0x050002 2 (expressClear q.toNat t.toNat flags.toNat) s)

/-- The teardown of a path in CLEARING; a path queued on its bus takes its place (R351, R352). -/
def teardown (q : Nat) (s : State) : State :=
  let p := pathOf s q
  let s := onPath q (fun p => { p with
    state := .idle, gateOpen := false, changedAt := BitVec.ofNat 32 (tmuNs s) }) s
  releasePath q p.a p.b (installQueued q s)

/-- EXPRESS_TEARDOWN (R351). -/
def execExpressTeardown (q : Fin 512) (s : State) : Host.Outcome State Fault Refusal :=
  .next <|
    let p := pathOf s q
    if clocksRun s && p.state == .clearing && atOrAfter (sinkNs s q) p.clearTime.toNat then teardown q s else s

/-- EXPRESS_INPUT_LOW (R354): the gate keeps its gain; one count and one event per fall. -/
def execExpressInputLow (q : Fin 512) (e1 : Int) (lowNs : Nat) (s : State) : Host.Outcome State Fault Refusal :=
  .next <|
    let p := pathOf s q
    if !clocksRun s || p.state ≠ .active then s
    else if cfgExpInMin s ≤ e1 then onPath q (fun p => { p with e1 := tapReading e1, lowSent := false }) s
    else if lowNs < 100000 || p.lowSent then onPath q (fun p => { p with e1 := tapReading e1 }) s
    else
      let s := onPath q (fun p => { p with e1 := tapReading e1, lowSent := true }) s
      raise 0x0503 1 (unitPath s q) (args32 [tapReading e1]) (count (portDie p.b) 0x9000 q 1 s)

/-- The answer of the peer of a port to a claim (R345): accepted, or the path ends with PEER_REFUSED. A peer whose acceptance
comes after the path has ended is sent its return then. -/
def claimAnswered (port q role time : Nat) (accepted : Bool) (s : State) : State :=
  let back (s : State) : State := if accepted then sendReturn port q role (tmuNs s) s else s
  let mark (p : Path) : Path := if role = 1 then { p with aAccepted := true } else { p with bAccepted := true }
  match s.express.queued.get q with
  | some n =>
    if n.actTime.toNat = time then
      if accepted then s.onExpress fun x => { x with queued := x.queued.set q (some (mark n)) }
      else endQueued q 0x11 s
    else back s
  | none =>
    if (pathOf s q).state = .scheduled && (pathOf s q).actTime.toNat = time then
      if accepted then onPath q mark s else endPath q 0x11 s
    else back s

/-- Every path a test picks ends with a code, the paths that wait on a bus among them. -/
def endPaths (code : Nat) (pick : Path → Bool) (s : State) : State :=
  let s := (s.express.queued.cells.filter fun c => c.2.any pick).foldl (fun s c => endQueued c.1 code s) s
  (s.express.paths.cells.filter fun c => c.2.state != .idle && pick c.2).foldl (fun s c => endPath c.1 code s) s

/-- R356: the paths at a step of the time unit of `ns` in magnitude, on the tick of the step. -/
def expressOnStep (big : Bool) (s : State) : State :=
  let waits (p : Path) : Bool := p.state == .scheduled || p.state == .armed
  if big then
    let clearing := s.express.paths.cells.filter fun c => c.2.state == .clearing
    clearing.foldl (fun s c => teardown c.1 s) (endPaths 0x18 waits s)
  else
    (s.express.paths.cells.filter fun c => c.2.state == .scheduled).foldl (fun s c => expressGuard c.1 c.2.e1 s) s

/-- R29, R358: scheduled and armed paths at headless entry, those that wait behind a path in CLEARING among them. -/
def expressHeadless (s : State) : State :=
  endPaths 0x19 (fun p => p.state == .scheduled || p.state == .armed) s

/-- EXPRESS_DIE_LOST (R359). -/
def expressDieLost (d : Nat) (s : State) : State :=
  endPaths 0x1A (fun p => portDie p.a == d || portDie p.b == d) s

/-- R354: the gate of a path closes while one of its express rings has shown MISMATCH, and opens again once that ring is LOCKED
with MATCH. `uses` picks the paths of the ring, `bit` is the ring's. -/
def expressGate (k bit : Nat) (uses : Path → Bool) (shut : Bool) (s : State) : State :=
  s.onExpress fun x => { x with
    paths := ⟨x.paths.dflt, x.paths.cells.map fun c =>
      if c.1 / 64 == k && (c.2.gateOpen || c.2.shutBy != 0) && uses c.2 then
        let by' := if shut then Nat.lor c.2.shutBy bit else c.2.shutBy - Nat.land c.2.shutBy bit
        (c.1, { c.2 with shutBy := by', gateOpen := by' == 0 && (c.2.state == .armed || c.2.state == .active || c.2.state == .clearing) })
      else c⟩ }

/-- The gates that an express drop or add ring serves (R354). -/
def dropGate (p k : Nat) (shut : Bool) (s : State) : State := expressGate k 1 (fun x => x.a == p) shut s
def addGate (p k : Nat) (shut : Bool) (s : State) : State := expressGate k 2 (fun x => x.b == p) shut s

/-- The taps of a bus refreshed (R338): E1 and E2; the gate of an active path holds its output while its input is not low, and a
recovered input ends a fall (R354). -/
def busTaps (q : Nat) (e1 e2 : Int) (s : State) : State :=
  onPath q (fun p => { p with
    e1 := e1, e2 := e2, lowSent := p.lowSent && e1 < cfgExpInMin s
    gain := if p.state = .active && cfgExpInMin s ≤ e1 then gateGain e1 (cfgExpOutPower s) else p.gain }) s

/-- R357: every gate goes dark. -/
def gatesDark (s : State) : State :=
  s.onExpress fun x => { x with paths := ⟨x.paths.dflt, x.paths.cells.map fun c => (c.1, { c.2 with gateOpen := false })⟩ }

end Sys2Proof.Machine
end

