-- ==== Sys2Proof/Machine/TimeUnit.lean ====
section
/-! DEFINITION. The time unit: increments, steps, the hall-time inputs, the servo and timed launch (12 R378 to R398). -/

namespace Sys2Proof.Machine

/-- The time unit works: the keeper die is there and its clocks run. -/
def tmuRuns (s : State) : Bool := clocksRun s && !s.start.keeperLost

/-! ### Timed launch (R393 to R395) -/

/-- R394: an eligible timed frame goes to the head of its lane queue; without a lane or member it is discarded (R395).
`skip` is the forward step, in 2^-16 ns, that made it eligible. Its age under 03 R100 runs from here: the wait for the launch time
is not a wait in the switch core (DESIGN CHOICE, log 161). -/
def launchFrame (t : Timed) (skip : Int) (s : State) : State :=
  let f := { t.frame with launch := some t.launch, skip := skip
                          head := { t.frame.head with ingressTime := nowNs s % 2 ^ 32 } }
  let none_ (s : State) : State := emitOutcome f.head.emit 0x05 0 (releaseEgress t.port f (count 8 0xB004 0 1 s))
  if isFibre t.port then
    let (r, s) := egressLane t.port s
    match r with
    | some l => headLane t.port l t.cls f s
    | none => none_ s
  else if (membersUp s t.port).isEmpty then none_ s
  else headLane t.port 0 t.cls f s

/-- The first frame of a list that a test picks, and the rest. -/
def takeFirst {α : Type} (p : α → Bool) : List α → Option (α × List α)
  | [] => none
  | x :: r => if p x then some (x, r) else (takeFirst p r).map fun y => (y.1, x :: y.2)

/-- TIMED_FRAME_ELIGIBLE (R394): the first waiting frame of a die whose launch time has come. -/
def timedEligible (die : Nat) (s : State) : State :=
  match takeFirst (fun t : Timed => atOrAfter (folNs s die) t.launch.toNat) (s.regs.timed.get die) with
  | none => s
  | some (t, r) => launchFrame t 0 (s.onRegs fun x => { x with timed := x.timed.set die r })

def execTimedFrameEligible (die : DieIx) (s : State) : Host.Outcome State Fault Refusal :=
  .next (if dieUp s die && clocksRun s then timedEligible die s else s)

/-- R395: after a forward step, already applied, the frames it carried past their launch times. -/
def launchPassed (die : Nat) (step : Int) (s : State) : State :=
  let passed (t : Timed) : Bool := atOrAfter (folNs s die) t.launch.toNat
  let l := s.regs.timed.get die
  let s := s.onRegs fun x => { x with timed := x.timed.set die (l.filter fun t => !passed t) }
  (l.filter passed).foldl (fun s t => launchFrame t step s) s

/-- R395: after a backward step, the frames of a die's lane queues that have not begun return to waiting. -/
def returnTimed (die : Nat) (s : State) : State :=
  s.switch.laneq.cells.foldl (fun s c =>
    let port := c.1 / 64
    if portDie port ≠ die then s else
    let back : List Timed := c.2.filterMap fun f => f.launch.map fun l =>
      ⟨l, { f with launch := none, skip := 0 }, port, c.1 % 8⟩
    if back.isEmpty then s else
    let s := s.onSwitch fun x => { x with laneq := x.laneq.set c.1 (c.2.filter fun f => f.launch.isNone) }
    s.onRegs fun x => { x with timed := x.timed.modify die (· ++ back) }) s

/-! ### Increments and steps (R382 to R385) -/

/-- STEP_LIMIT in 2^-16 ns. -/
def stepLimit (s : State) : Int := (cfgStepLimit s : Int) * 65536

/-- A step in 2^-16 ns added to a counter. -/
def addStep (t : BitVec 60) (step : Int) : BitVec 60 := t + BitVec.ofNat 60 (unsigned 60 (step * 4096))

/-- TIME_STEP_APPLY (R384): the pending step reaches the time unit and every follower on one tick. -/
def applyStep (step : Int) (s : State) : State :=
  let forced : Bool := decide (stepLimit s < (step.natAbs : Int))
  let s := s.onTime fun t => { t with
    tmu := addStep t.tmu step
    followers := (upTo 8).foldl (fun g d => g.set d (addStep t.tmu step)) t.followers
    pendingStep := none
    stepSum := t.stepSum + step
    stepForced := t.stepForced || forced }
  let s := if forced then raise 0x0D02 1 unitKeeper (args32 [step / 65536]) s else s
  let s := (diesUp s).foldl (fun s d => ageOnStep d step s) s
  let s := expressOnStep (decide (65536000000 ≤ step.natAbs)) s
  (diesUp s).foldl (fun s d => if 0 ≤ step then launchPassed d step s else returnTimed d s) s

/-- ALIGNMENT_MARK (R20, R382 to R385): a pending step is applied first, the followers take the time unit's value, and a
new increment counts from the following tick. -/
def alignmentMark (s : State) : State :=
  if !tmuRuns s then s else
  let s := match s.time.pendingStep with
    | some step => applyStep step s
    | none => s
  s.onTime fun t => { t with
    followers := (upTo 8).foldl (fun g d => g.set d t.tmu) t.followers
    inc := t.pendingInc.getD t.inc
    pendingInc := none }

def execAlignmentMark (s : State) : Host.Outcome State Fault Refusal := .next (alignmentMark s)

/-- R382: whether the device accepts an increment. -/
def incOk (v : Word) : Bool := 335208776 ≤ v.toNat && v.toNat ≤ 335879864

/-- A write of TMU_INC (R382). -/
def incWrite (v : Word) (s : State) : State :=
  if cfgServoMode s = 0 || !incOk v then s.onTime fun t => { t with incRefused := true }
  else s.onTime fun t => { t with pendingInc := some v }

def execTmuIncWrite (master : Fin 16) (value : Word) (s : State) : Host.Outcome State Fault Refusal :=
  .next (guardReg master 8 0x0D 2 (incWrite value) s)

/-- R384: a step requested. -/
def requestStep (step : Int) (force : Bool) (s : State) : State :=
  if stepLimit s < (step.natAbs : Int) && !force then
    raise 0x0D01 1 unitKeeper (args32 [step / 65536]) (s.onTime fun t => { t with stepRefused := true })
  else s.onTime fun t => { t with pendingStep := some step }

/-- A write of TMU_STEP_CTL (R379, R384). GO while a step is pending has no effect but STEP_OVERRUN. -/
def stepCtlWrite (v : Word) (s : State) : State :=
  if v.getLsbD 31 && s.time.pendingStep.isSome then s.onTime fun t => { t with stepOverrun := true } else
  let s := s.onTime fun t => { t with stepForce := v.getLsbD 30, stepFrac := v.setWidth 16 }
  if v.getLsbD 31 then requestStep (s.time.stepNs.toInt * 65536 + (s.time.stepFrac.toNat : Int)) s.time.stepForce s else s

def execTmuStepGo (master : Fin 16) (value : Word) (s : State) : Host.Outcome State Fault Refusal :=
  .next (guardReg master 8 0x0D 4 (stepCtlWrite value) s)

/-- TIME_STEP (R384, R398): a step requested in the same way. -/
def timeStepWrite (ns : Word) (frac : BitVec 16) (force : Bool) (s : State) : State :=
  if !tmuRuns s then s
  else if s.time.pendingStep.isSome then answer stDone (s.onTime fun t => { t with stepOverrun := true })
  else answer stDone (requestStep (ns.toInt * 65536 + (frac.toNat : Int)) force s)

def execTimeStep (role : Role) (ns : Word) (frac : BitVec 16) (force : Bool) (s : State) : Host.Outcome State Fault Refusal :=
  .next (guardWrite role 0x0D0001 9 (timeStepWrite ns frac force) s)

/-! ### Reads (R379, R380) -/

/-- A read carried out where it is granted, otherwise counted (17 R496, R500, 00 R8). -/
def guardRead (m die block word : Nat) (k : State → State) (s : State) : State :=
  match accessCheck s m die block word false with
  | .granted => k s
  | .denied => count die 0xD001 0 1 s
  | .busError => countBusError s die
  | .absent => count die 0x0001 0 1 s

/-- TMU_NOW_READ (R380): a read of NOW_NS of the time unit (die 8) or of a follower latches FRAC of the same tick. -/
def nowRead (die : Nat) (s : State) : State :=
  let t := if die = 8 then s.time.tmu else s.time.followers.get die
  s.onTime fun x => { x with fracLatch := x.fracLatch.set die (t.toNat / 2 ^ 12 % 2 ^ 16) }

def execTmuNowRead (die : AnyDie) (master : Fin 16) (s : State) : Host.Outcome State Fault Refusal :=
  .next (guardRead master die 0x0D 0 (nowRead die) s)

/-! ### Hall time (R386 to R389) -/

/-- TIME_SERVO (R389): exact in sixteenths of a ppb (log 40). -/
def servo (s : State) : State :=
  let e := signed 32 (unsigned 32 ((s.time.ppsNs.toNat : Int) - s.time.target.toNat))
  let f := if s.time.clk10Lost then s.time.servoF + e else s.time.clk10Ppb * 16
  let adj := clampInt (-1600000) 1600000 (-(f + 4 * e))
  let inc := 335544320 + roundDiv (335544320 * adj) 16000000000
  s.onTime fun t => { t with
    target := t.target + 1000000000
    servoF := f
    servoE := e
    servoAdj := adj
    pendingInc := some (BitVec.ofNat 32 (unsigned 32 inc)) }

/-- HT_PPS_EDGE (R386, R387, R389). -/
def ppsEdge (s : State) : State :=
  if !tmuRuns s then s
  else if s.time.ppsSeen && s.time.ppsTicks < 400000000 then count 8 0xB000 0 1 s
  else
    let back := s.time.ppsLost
    let s := s.onTime fun t => { t with
      ppsNs := BitVec.ofNat 32 (t.tmu.toNat / 2 ^ 28)
      ppsFrac := BitVec.ofNat 16 (t.tmu.toNat / 2 ^ 12)
      ppsSeq := t.ppsSeq + 1
      ppsSeen := true
      ppsEver := true
      ppsTicks := 0
      ppsLost := false }
    let s := if back then raise 0x0D04 2 unitKeeper [] s else s
    if cfgServoMode s = 0 && !s.start.headless then servo s else s

def execHtPpsEdge (s : State) : Host.Outcome State Fault Refusal := .next (ppsEdge s)

/-- PPS_LOST (R387): 2 s without an accepted edge. -/
def ppsGone (s : State) : State :=
  if tmuRuns s && !s.time.ppsLost && 1600000000 ≤ s.time.ppsTicks then
    raise 0x0D03 0 unitKeeper [] (s.onTime fun t => { t with ppsLost := true, ppsSeen := false })
  else s

def execPpsLost (s : State) : Host.Outcome State Fault Refusal := .next (ppsGone s)

/-- HT_CLK10_LOST goes out and CLK10_LOST is set (R388). -/
def clk10Gone (s : State) : State :=
  raise 0x0D05 1 unitKeeper (args32 [s.time.clk10Ppb]) (s.onTime fun t => { t with clk10Lost := true })

/-- R388: the error of the tick frequency in parts per 10^9, where `ticks` ticks of nominally 1.25 ns passed in 10^7 cycles of HT_CLK10,
rounded to the nearest (the division is the model's, DESIGN CHOICE, log 193). -/
def clk10Error (ticks : Nat) : Int := roundDiv (((ticks : Int) - 800000000) * 1000000000) 800000000

/-- CLK10_MEASURE (R388): the measurement of a whole second. -/
def clk10Measure (ticks : Nat) (s : State) : State :=
  if !tmuRuns s then s else
  let ppb := clk10Error ticks
  let s := s.onTime fun t => { t with clk10Ppb := ppb }
  if ppb.natAbs ≤ 100000 then s.onTime fun t => { t with clk10Lost := false } else clk10Gone s

def execClk10Measure (ticks : Nat) (s : State) : Host.Outcome State Fault Refusal := .next (clk10Measure ticks s)

/-- CLK10_LOSS (R388): no edge for 10 us. -/
def execClk10Loss (s : State) : Host.Outcome State Fault Refusal :=
  .next (if tmuRuns s then clk10Gone s else s)

/-- PPS_TARGET (R389, R398): the write resets f. -/
def execPpsTarget (role : Role) (value : Word) (s : State) : Host.Outcome State Fault Refusal :=
  .next (guardWrite role 0x0D0001 5
    (fun s => answer stDone (s.onTime fun t => { t with target := value, servoF := 0 })) s)

/-- TIME_SERVO_MODE (R389, R398, 14 R442). -/
def servoModeWrite (v : Nat) (s : State) : State := writeRange 0x0D0001 1 v 0 1 s

def execTimeServoMode (role : Role) (value : Byte) (s : State) : Host.Outcome State Fault Refusal :=
  .next (guardWrite role 0x0D0001 1 (servoModeWrite value.toNat) s)

end Sys2Proof.Machine
end

