-- ==== Sys2Proof/Machine/Dma.lean ====
section
/-! DEFINITION. The DMA engines: addresses, channels and rings, descriptors, completion, halts (17 R513 to R525). A channel
begins a descriptor with DMA_DESCRIPTOR_FETCH, which also moves its data; DMA_DESCRIPTOR_COMPLETE ends the oldest one. -/

namespace Sys2Proof.Machine

/-! ### Engines and channels -/

/-- Key of a channel. -/
def chKey (eng ch : Nat) : Nat := eng * 32 + ch
def chanAt (s : State) (eng ch : Nat) : Chan := s.regs.chans.get (chKey eng ch)
def onChan (eng ch : Nat) (f : Chan → Chan) (s : State) : State :=
  s.onRegs fun x => { x with chans := x.chans.modify (chKey eng ch) f }
def engineAt (s : State) (eng : Nat) : DmaEngine := s.regs.engines.get eng
def onEngine (eng : Nat) (f : DmaEngine → DmaEngine) (s : State) : State :=
  s.onRegs fun x => { x with engines := x.engines.modify eng f }

/-- Whether an engine's clock runs and, for the keeper's, whether the keeper die still serves it (R524, 01 R29). -/
def engineRuns (s : State) (eng : Nat) : Bool := clocksRun s && (if eng = 8 then keeperUp s else dieUp s eng)

/-- R522: bit c of DMA_IRQ_STATUS sets. -/
def irqSet (eng ch : Nat) (s : State) : State :=
  onEngine eng (fun e => { e with irqStatus := e.irqStatus ||| BitVec.ofNat 32 (2 ^ ch) }) s

/-- R522: the level of the DMA interrupt line of a keeper core: some channel whose set and enabled bit names the core as its
IRQ_TARGET. The lines are lost with the keeper die (R524). -/
def irqLine (s : State) (core : Fin 5) : Bool :=
  clocksRun s && keeperUp s && (List.range 9).any fun eng => (List.range 32).any fun ch =>
    (engineAt s eng).irqStatus.getLsbD ch && (engineAt s eng).irqEnable.getLsbD ch && (chanAt s eng ch).irqTarget == core.val

/-- R523: the engine halts because of a channel; the first error of a halt is the one recorded. -/
def engineError (eng ch code addr : Nat) (s : State) : State :=
  if (engineAt s eng).halting then s
  else onEngine eng (fun e => { e with halting := true, errChannel := ch, errCode := code, errAddr := addr }) s

/-! ### Addresses (R513, R514) -/

/-- R513: whether an address names a space with its reserved bits zero. -/
def dmaSpaceOk (a : Nat) : Bool :=
  match a / 2 ^ 60 with
  | 0 => a < 2 ^ 48
  | 1 => a % 2 ^ 60 < 2 ^ 23
  | 2 => a % 2 ^ 60 < 2 ^ 22
  | _ => false

/-- R514: the memory key of a 64-byte unit, or the ERR_CODE of R525. -/
def dmaUnit (s : State) (eng owner a : Nat) : Except Nat Nat :=
  match a / 2 ^ 60 with
  | 0 =>
    let die := a / 2 ^ 45
    let off := a % 2 ^ 45
    if 8 ≤ die then .error 0x01
    else if !dieUp s die then .error 0x02
    else if memTop s die < off + 64 then .error 0x01
    else if memLimit s die < off + 64 && 4 < owner then .error 0x03
    else .ok (memAddr die off)
  | 1 =>
    let off := a % 2 ^ 60
    if 2 ^ 23 ≤ off then .error 0x01
    else if off / 64 < (engineAt s eng).ksramLo || (engineAt s eng).ksramHi ≤ off / 64 then .error 0x03
    else .ok (ksramAddr off)
  | 2 =>
    let off := a % 2 ^ 60
    if 2 ^ 22 ≤ off then .error 0x01 else .ok (sharedAddr eng off)
  | _ => .error 0x01

/-- What a transfer came to: a bus error with its code and address, whether a read met an uncorrectable error, the state. -/
structure Moved where
  err : Option (Nat × Nat)
  ecc : Bool
  st : State

/-- One unit read; an uncorrectable error gives zeros (R521). -/
def readUnit (s : State) (key : Nat) : Bytes × Bool :=
  if memBad s key 64 then (List.replicate 64 0, true) else (memSeen s key 64, false)

/-- R518: units copied in ascending order of address, until a bus error. -/
def copyUnits (eng owner : Nat) : Nat → Nat → Nat → Bool → State → Moved
  | 0, _, _, ecc, s => ⟨none, ecc, s⟩
  | n + 1, src, dst, ecc, s =>
    match dmaUnit s eng owner src with
    | .error c => ⟨some (c, src), ecc, s⟩
    | .ok k =>
      match dmaUnit s eng owner dst with
      | .error c => ⟨some (c, dst), ecc, s⟩
      | .ok j =>
        let (b, bad) := readUnit s k
        copyUnits eng owner n (src + 64) (dst + 64) (ecc || bad) (s.putMem j b)

/-- R518: one unit's bytes written to successive units. -/
def fillUnits (eng owner : Nat) (b : Bytes) : Nat → Nat → Bool → State → Moved
  | 0, _, ecc, s => ⟨none, ecc, s⟩
  | n + 1, dst, ecc, s =>
    match dmaUnit s eng owner dst with
    | .error c => ⟨some (c, dst), ecc, s⟩
    | .ok j => fillUnits eng owner b n (dst + 64) ecc (s.putMem j b)

/-- R519: the items of a GATHER in ascending order; `i` is the next one. -/
def gatherItems (eng owner src dst index units : Nat) : Nat → Nat → Bool → State → Moved
  | 0, _, ecc, s => ⟨none, ecc, s⟩
  | n + 1, i, ecc, s =>
    let at_ := index + 4 * i / 64 * 64
    match dmaUnit s eng owner at_ with
    | .error c => ⟨some (c, at_), ecc, s⟩
    | .ok k =>
      let (b, bad) := readUnit s k
      let x := leAt b (4 * i % 64) 4
      let dst_ := dst + i * units * 64
      let m := if bad || x = 0xFFFFFFFF then fillUnits eng owner (List.replicate 64 0) units dst_ (ecc || bad) s
        else copyUnits eng owner units (src + x * 64) dst_ ecc s
      match m.err with
      | some e => ⟨some e, m.ecc, m.st⟩
      | none => gatherItems eng owner src dst index units n (i + 1) m.ecc m.st

/-- 18 R532: granules that a write covers whole lose their error. -/
def coverMem (s : State) (eng owner dst n : Nat) : State :=
  match dmaUnit s eng owner dst with
  | .error _ => s
  | .ok j => coverGranules j n s

/-! ### Descriptors (R517) -/

structure Desc where
  op : Nat
  irq : Bool
  fence : Bool
  timed : Bool
  lookup : Bool
  frameLen : Nat
  length : Nat
  src : Nat
  dst : Nat
  index : Nat
  count : Nat
  pattern : Nat
  launch : Nat
  port : Nat
  cls : Nat
  reservedZero : Bool
  /-- not of the descriptor: the array and word of a table entry with an error that its frame reads (02 R43) -/
  upset : Option (Nat × Nat)
  deriving DecidableEq, Repr

def descOf (b : Bytes) : Desc where
  op := byteAt b 0
  irq := bit (byteAt b 1) 0
  fence := bit (byteAt b 1) 1
  timed := bit (byteAt b 1) 2
  lookup := bit (byteAt b 1) 3
  frameLen := leAt b 2 2
  length := leAt b 4 4
  src := leAt b 8 8
  dst := leAt b 16 8
  index := leAt b 24 8
  count := leAt b 32 4
  pattern := leAt b 36 4
  launch := leAt b 40 4
  port := leAt b 44 2
  cls := byteAt b 46 % 8
  reservedZero := byteAt b 1 / 16 == 0 && byteAt b 46 / 8 == 0 && byteAt b 47 == 0 && allZero (slice b 57 3)
  upset := none

def Desc.usesSrc (d : Desc) : Bool := d.op == 1 || d.op == 3 || d.op == 4
def Desc.usesDst (d : Desc) : Bool := d.op == 1 || d.op == 2 || d.op == 3

/-- R521, ALIGN. -/
def Desc.aligned (d : Desc) : Bool :=
  d.length % 64 == 0 && (!d.usesSrc || d.src % 64 == 0) && (!d.usesDst || d.dst % 64 == 0) && (d.op != 3 || d.index % 64 == 0)

/-- R521, BAD_DESC: the conditions of R517, R513 and R520. -/
def Desc.good (d : Desc) (eng : Nat) : Bool :=
  d.op ≤ 4 && d.reservedZero
    && (if d.op = 0 then d.length == 0 else 64 ≤ d.length && d.length ≤ 0xFFFFFFC0)
    && (if d.usesSrc then dmaSpaceOk d.src else d.src == 0)
    && (if d.usesDst then dmaSpaceOk d.dst else d.dst == 0)
    && (if d.op = 4 then 60 ≤ d.frameLen && d.frameLen ≤ 9212 && d.frameLen ≤ d.length && (d.lookup || d.port < 288)
          && !(d.timed && d.lookup) && eng != 8
        else d.frameLen == 0)
    && (d.op != 3 || (dmaSpaceOk d.index && 1 ≤ d.count && d.count ≤ 16777216))

/-! ### EMIT (R520, 12 R393 to R395) -/

/-- Bytes read for a frame: units from SRC on. -/
def readUnits (eng owner : Nat) (s : State) : Nat → Nat → Except (Nat × Nat) (Bytes × Bool)
  | 0, _ => .ok ([], false)
  | n + 1, src =>
    match dmaUnit s eng owner src with
    | .error c => .error (c, src)
    | .ok k =>
      match readUnits eng owner s n (src + 64) with
      | .error e => .error e
      | .ok (r, bad) => let (b, e) := readUnit s k; .ok (b ++ r, bad || e)

/-- The header of an emitted frame. -/
def emitHead (s : State) (eng : Nat) (f : Bytes) (cls : Nat) (tag : Option (Nat × Nat)) : Cell :=
  { ingressHead s eng 288 f (parseFrame f) none false with cls := cls, emit := tag, flags := cfgClassFlags s cls }

/-- A frame without LOOKUP: queued for its port and forwarded whole. -/
def emitPort (eng : Nat) (f : Bytes) (d : Desc) (tag : Nat × Nat) (s : State) : State :=
  let (r, s) := unicastLane eng (ceilDiv f.length 256) ⟨1, [d.port]⟩ s
  match r with
  | none => emitOutcome (some tag) 0x02 0 s
  | some (p, l) =>
    let h := { emitHead s eng f d.cls (some tag) with dest := p, lane := l }
    admitFrame h (qVoq eng p d.cls h.sub) f false false s

/-- The timed frames that a die holds: those that wait, and those that have not begun in its lane queues (12 R393). -/
def timedHeld (s : State) (die : Nat) : Nat :=
  (s.regs.timed.get die).length + s.switch.laneq.cells.foldl (fun a c =>
    if portDie (c.1 / 64) = die then a + (c.2.filter fun f => f.launch.isSome).length else a) 0

/-- A TIMED frame: it waits on the egress port's die. A draining port takes no new frame (03 R114). -/
def emitTimed (eng : Nat) (f : Bytes) (d : Desc) (tag : Nat × Nat) (s : State) : State :=
  let e := portDie d.port
  if !dieUp s e then emitOutcome (some tag) 0x05 0 (count 8 0xB004 0 1 s)
  else if draining s d.port then emitOutcome (some tag) 0x02 0 (count e 0x200D d.port 1 s)
  else if 1024 ≤ timedHeld s e then emitOutcome (some tag) 0x03 0 (count 8 0xB003 0 1 s)
  else
    let (id, s) := nextFrameId eng s
    let h := { emitHead s eng f d.cls (some tag) with dest := d.port, frameId := id }
    let g := cutFrame h f
    let fr : EFrame := ⟨g.headD h, g, nowNs s, false, false, none, 0⟩
    let s := s.onSwitch fun x => { x with egressBytes := x.egressBytes.modify e (· + queueBytes g) }
    s.onRegs fun x => { x with timed := x.timed.modify e (· ++ [⟨BitVec.ofNat 32 d.launch, fr, d.port, d.cls⟩]) }

/-- A frame with LOOKUP: forwarded as one received on the engine's die, and complete once admitted. -/
def emitLookup (eng : Nat) (f : Bytes) (upset : Option (Nat × Nat)) (tag : Nat × Nat) (s : State) : State :=
  let p := parseFrame f
  let (v, s) := verdict eng (eng * 32) f p s
  match v, (if v.reads then upset else none) with
  | .contribution, _ => emitOutcome (some tag) 0x01 0
      (s.onColl fun x => { x with atIngress := x.atIngress.modify eng (· ++ [⟨f, nowNs s, p.smac, 288⟩]) })
  | _, some (array, word) => emitOutcome (some tag) 0x02 0 (lookupUpset eng array word s)
  | .drop ev _, none => emitOutcome (some tag) 0x02 0 (count eng ev 0 1 s)
  | .take w mac routed index _, none =>
    let before := s.switch.frameId.get eng
    let s := forward eng 288 f p w mac routed index s
    let admitted := resAction w = 3 || s.switch.frameId.get eng ≠ before
    emitOutcome (some tag) (if admitted then 0x01 else 0x02) 0 s

def emitFrame (eng : Nat) (b : Bytes) (d : Desc) (tag : Nat × Nat) (s : State) : State :=
  let f := withFcs (b.take d.frameLen)
  if d.lookup then emitLookup eng f d.upset tag s else if d.timed then emitTimed eng f d tag s else emitPort eng f d tag s

/-! ### Fetch and execution (R515, R518 to R521, R523) -/

/-- What a descriptor's transfer came to, as its status; a bus error halts the engine. -/
def settleMoved (eng ch : Nat) (tag : Nat × Nat) (m : Moved) : State :=
  match m.err with
  | some (code, addr) => engineError eng ch code addr (emitOutcome (some tag) 0x09 0 m.st)
  | none => emitOutcome (some tag) (if m.ecc then 0x08 else 0x01) 0 m.st

/-- A descriptor carried out. -/
def runDesc (eng ch : Nat) (d : Desc) (tag : Nat × Nat) (s : State) : State :=
  let owner := chOwner s eng ch
  let out (c : Nat) : State := emitOutcome (some tag) c 0 s
  if !d.aligned then out 0x06
  else if !d.good eng then out 0x07
  else match d.op with
    | 0 => out 0x01
    | 1 => settleMoved eng ch tag (let m := copyUnits eng owner (d.length / 64) d.src d.dst false s
        { m with st := if m.err.isNone then coverMem m.st eng owner d.dst d.length else m.st })
    | 2 => settleMoved eng ch tag (
        let unit := (List.replicate 16 (leBytes 4 d.pattern)).flatten
        let m := fillUnits eng owner unit (d.length / 64) d.dst false s
        { m with st := if m.err.isNone then coverMem m.st eng owner d.dst d.length else m.st })
    | 3 => settleMoved eng ch tag (let m := gatherItems eng owner d.src d.dst d.index (d.length / 64) d.count 0 false s
        { m with st := if m.err.isNone then coverMem m.st eng owner d.dst (d.length * d.count) else m.st })
    | _ => match readUnits eng owner s (ceilDiv d.frameLen 64) d.src with
      | .error (code, addr) => engineError eng ch code addr (out 0x09)
      | .ok (b, bad) => if bad then out 0x08 else emitFrame eng b d tag s

/-- R515: the ring holds a count that fits it, and the ring a size that R525 allows; otherwise the channel fetches nothing
(log 74). -/
def ringSound (c : Chan) (n : Nat) : Bool := 1 ≤ c.ringLog2 && c.ringLog2 ≤ 16 && n ≤ 2 ^ c.ringLog2

/-- The next index that a channel has not begun, and how many are left. -/
def nextIndex (c : Chan) : Nat := (c.tail.toNat + c.flight.length) % 2 ^ 17
def leftToFetch (c : Chan) : Nat := (c.head.toNat + 2 ^ 17 - nextIndex c) % 2 ^ 17

/-- DMA_DESCRIPTOR_FETCH. -/
def dmaFetch (eng ch : Nat) (upset : Option (Nat × Nat)) (s : State) : State :=
  let c := chanAt s eng ch
  let e := engineAt s eng
  if !engineRuns s eng || e.halted || e.halting || !c.enable || c.error || c.flight.any (fun f => 6 ≤ f.outcome)
      || leftToFetch c = 0 || !ringSound c ((c.head - c.tail).toNat) then s
  else
    let i := nextIndex c
    let a := (c.base.toNat + 64 * (i % 2 ^ c.ringLog2)) % 2 ^ 64
    let begin_ (irq : Bool) (s : State) : State := onChan eng ch (fun c => { c with flight := c.flight ++ [⟨i, a, irq, 0, none⟩] }) s
    let tag := (chKey eng ch, i)
    if a % 64 ≠ 0 then emitOutcome (some tag) 0x06 0 (begin_ false s)
    else match dmaUnit s eng (chOwner s eng ch) a with
      | .error _ => engineError eng ch 0x04 a (emitOutcome (some tag) 0x09 0 (begin_ false s))
      | .ok k =>
        if memBad s k 64 then emitOutcome (some tag) 0x08 0 (begin_ false s)
        else
          let d := descOf (memSeen s k 64)
          if d.fence && !c.flight.isEmpty then s else runDesc eng ch { d with upset := upset } tag (begin_ d.irq s)

def execDmaDescriptorFetch (engine : AnyDie) (channel : Fetch) (s : State) : Host.Outcome State Fault Refusal :=
  .next (dmaFetch engine channel.channel channel.upset s)

/-! ### Completion (R521, R522, R523) -/

/-- The channel's registers once a descriptor has completed with a status. -/
def chanDone (eng ch status : Nat) (irq : Bool) (s : State) : State :=
  let s := onChan eng ch (fun c => { c with
    flight := c.flight.drop 1
    tail := c.tail + 1
    lastStatus := status
    done := c.done + 1
    error := c.error || decide (6 ≤ status) }) s
  if irq || 6 ≤ status then irqSet eng ch s else s

/-- DMA_DESCRIPTOR_COMPLETE: the oldest running descriptor, where it has come to an end. STATUS and STAMP are written, or the
write itself ends in a bus error. -/
def dmaComplete (eng ch : Nat) (s : State) : State :=
  match (chanAt s eng ch).flight with
  | [] => s
  | f :: _ =>
    if !engineRuns s eng || f.outcome = 0 then s
    else match dmaUnit s eng (chOwner s eng ch) (f.address / 64 * 64) with
      | .error _ => chanDone eng ch 0x09 f.irq (engineError eng ch 0x05 f.address s)
      | .ok k =>
        let k := k + f.address % 64
        let s := s.putMem (k + 56) [BitVec.ofNat 8 f.outcome]
        let s := match f.stamp with
          | some t => s.putMem (k + 60) (leBytes 4 t.toNat)
          | none => s
        chanDone eng ch f.outcome f.irq s

def execDmaDescriptorComplete (engine : AnyDie) (channel : Fin 32) (s : State) : Host.Outcome State Fault Refusal :=
  .next (dmaComplete engine channel s)

/-- DMA_HALTED (R523, step 4): every channel has completed what it executed. -/
def dmaHalt (eng : Nat) (s : State) : State :=
  let e := engineAt s eng
  if !engineRuns s eng || !e.halting || (upTo 32).any (fun c => !(chanAt s eng c).flight.isEmpty) then s
  else raise 0x0E01 0 (unitOf eng 0 0) (args32 [(e.errChannel : Int), (e.errCode : Int)] ++ beBytes 8 e.errAddr)
    (irqSet eng e.errChannel (onEngine eng (fun e => { e with halted := true, halting := false }) s))

def execDmaHalted (engine : AnyDie) (s : State) : Host.Outcome State Fault Refusal := .next (dmaHalt engine s)

/-- RESUME (R523). -/
def dmaResume (eng : Nat) (s : State) : State :=
  if (engineAt s eng).halted then onEngine eng (fun e => { e with halted := false }) s else s

/-- DMA_RESUME and DMA_ENG_CTL. -/
def execResume (viaObject : Option Role) (master : Fin 16) (engine : AnyDie) (s : State) : Host.Outcome State Fault Refusal :=
  .next <| match viaObject with
    | some role => guardWrite role 0x0E0002 (engine.val + 1) (fun s => answer stDone (dmaResume engine s)) s
    | none => guardReg master engine 0x0E 3 (dmaResume engine) s

/-! ### Channel registers (R515, R516, R525) -/

/-- R521: ABORT ends what the channel runs and clears ENABLE. -/
def chanAbort (eng ch : Nat) (s : State) : State :=
  onChan eng ch (fun c => { c with
    enable := false
    flight := c.flight.map fun f => { f with outcome := 0x0A, stamp := none } }) s

/-- A write of CH_CTL. RING_LOG2 changes only while ENABLE is clear; ENABLE 0 clears ERROR. -/
def chCtlWrite (eng ch : Nat) (v : Word) (s : State) : State :=
  let s := onChan eng ch (fun c => { c with
    enable := v.getLsbD 31
    error := c.error && v.getLsbD 31
    irqTarget := bits v.toNat 10 8
    ringLog2 := if c.enable then c.ringLog2 else bits v.toNat 4 0 }) s
  if v.getLsbD 30 then chanAbort eng ch s else s

def execChEnable (master : Fin 16) (engine : AnyDie) (channel : Fin 32) (value : Word) (s : State) :
    Host.Outcome State Fault Refusal :=
  .next (guardReg master engine 0x0E (0x100 + 16 * channel.val) (chCtlWrite engine channel value) s)

def execChAbort (master : Fin 16) (engine : AnyDie) (channel : Fin 32) (s : State) : Host.Outcome State Fault Refusal :=
  .next (guardReg master engine 0x0E (0x100 + 16 * channel.val) (chanAbort engine channel) s)

/-- A write of CH_HEAD. -/
def chHeadSet (eng ch : Nat) (v : Word) (s : State) : State := onChan eng ch (fun c => { c with head := v.setWidth 17 }) s

def execChHeadWrite (master : Fin 16) (engine : AnyDie) (channel : Fin 32) (value : Word) (s : State) :
    Host.Outcome State Fault Refusal :=
  .next (guardReg master engine 0x0E (0x103 + 16 * channel.val) (chHeadSet engine channel value) s)

/-- CH_CTL as it reads. -/
def chCtl (c : Chan) : Nat := (if c.enable then 2 ^ 31 else 0) + c.irqTarget * 256 + c.ringLog2
/-- CH_STATUS as it reads. -/
def chStatus (c : Chan) : Nat := (if c.error then 2 ^ 31 else 0) + (if c.flight.isEmpty then 2 ^ 30 else 0) + c.lastStatus
/-- DMA_ENG_STATUS as it reads. -/
def engStatus (e : DmaEngine) : Nat :=
  (if e.halted then 2 ^ 31 else 0) + (if e.halting then 2 ^ 30 else 0) + e.errChannel * 256 + e.errCode

/-- A word of block 0x0E read. -/
def dmaReg (s : State) (eng word : Nat) : Nat :=
  let e := engineAt s eng
  if word < 0x100 then
    match word with
    | 0 => engStatus e
    | 1 => e.errAddr % 2 ^ 32
    | 2 => e.errAddr / 2 ^ 32
    | 4 => e.irqStatus.toNat
    | 5 => e.irqEnable.toNat
    | 6 => e.ksramLo * 64
    | 7 => e.ksramHi * 64
    | _ => 0
  else
    let c := chanAt s eng ((word - 0x100) / 16)
    match word % 16 with
    | 0 => chCtl c
    | 1 => c.base.toNat % 2 ^ 32
    | 2 => c.base.toNat / 2 ^ 32
    | 3 => c.head.toNat
    | 4 => c.tail.toNat
    | 5 => chStatus c
    | 6 => c.done.toNat
    | 7 => chOwner s eng ((word - 0x100) / 16)
    | _ => 0

/-- A word of block 0x0E written. -/
def dmaRegWrite (eng word : Nat) (v : Word) (s : State) : State :=
  if word < 0x100 then
    match word with
    | 3 => if v.getLsbD 0 then dmaResume eng s else s
    | 4 => onEngine eng (fun e => { e with irqStatus := w1c e.irqStatus v }) s
    | 5 => onEngine eng (fun e => { e with irqEnable := v }) s
    | 6 => onEngine eng (fun e => { e with ksramLo := bits v.toNat 22 6 }) s
    | 7 => onEngine eng (fun e => { e with ksramHi := bits v.toNat 22 6 }) s
    | _ => s
  else
    let ch := (word - 0x100) / 16
    match word % 16 with
    | 0 => chCtlWrite eng ch v s
    | 1 => onChan eng ch (fun c => if c.enable then c else { c with base := c.base.extractLsb' 32 32 ++ v }) s
    | 2 => onChan eng ch (fun c => if c.enable then c else { c with base := v ++ c.base.extractLsb' 0 32 }) s
    | 3 => chHeadSet eng ch v s
    | 7 => s.onRegs fun x => { x with owners := x.owners.set (chKey eng ch) (some (bits v.toNat 3 0)) }
    | _ => s

end Sys2Proof.Machine
end

