-- ==== Sys2Proof/Machine/Moor.lean ====
section
/-! DEFINITION. Mooring records: fields, checks, home dies and reservations (05 R141 to R148, R158, R172, R183 to R185;
06 R198, R210, R214; 07 R252; 08 R275, R276). -/

namespace Sys2Proof.Machine

/-! ### Fields of a mooring record (R141) -/

def gId (r : Bytes) : Nat := beAt r 0 2
def gFlags (r : Bytes) : Nat := byteAt r 2
def gOp (r : Bytes) : Nat := byteAt r 3
def gRedop (r : Bytes) : Nat := byteAt r 4
def gIn (r : Bytes) : Nat := byteAt r 5
def gOut (r : Bytes) : Nat := byteAt r 6
def gEsc (r : Bytes) : Nat := if byteAt r 7 = 0 then 0x10 else byteAt r 7
def gMembers (r : Bytes) : Nat := beAt r 8 2
def gK (r : Bytes) : Nat := byteAt r 10
def gClass (r : Bytes) : Nat := byteAt r 11
def gChunks (r : Bytes) : Nat := beAt r 12 4
def gElems (r : Bytes) : Nat := beAt r 16 2
def gCap (r : Bytes) : Nat := beAt r 18 2
def gRow (r : Bytes) : Nat := beAt r 20 2
def gCtx (r : Bytes) : Nat := beAt r 22 2
def gImage (r : Bytes) : Nat := beAt r 24 4
def gResident (r : Bytes) : Nat := beAt r 28 4
def gResidual (r : Bytes) : Nat := beAt r 32 4
/-- RETENTION in ns and TIMEOUT in ns, with their defaults. -/
def gRetention (r : Bytes) : Nat := (if beAt r 36 2 = 0 then 500 else beAt r 36 2) * 1000
def gTimeout (r : Bytes) : Nat := (if beAt r 38 2 = 0 then 100 else beAt r 38 2) * 1000000
def gFirst (r : Bytes) : Nat := beAt r 48 2
def gDests (r : Bytes) : Nat := beAt r 50 2
def gRoot (r : Bytes) : Nat := byteAt r 52
def gArg (r : Bytes) : Nat := beAt r 54 2
def gGen (r : Bytes) : Nat := byteAt r 56
def gDestList (r : Bytes) : List Nat := (upTo (gDests r)).map fun i => beAt r (64 + 2 * i) 2
def gComp (r : Bytes) : Bool := bit (gFlags r) 0
def gStoch (r : Bytes) : Bool := bit (gFlags r) 1
def gFeedback (r : Bytes) : Bool := bit (gFlags r) 2
/-- ARITH (R210), defaults applied; 0xFF disables. -/
def gEscBound (r : Bytes) : Nat := if byteAt r 40 = 0 then 48 else byteAt r 40
def gSatLimit (r : Bytes) : Nat := if byteAt r 41 = 0 then 4 else byteAt r 41
def gSjLimit (r : Bytes) : Nat := if byteAt r 44 = 0 then 3 else byteAt r 44
/-- Bytes of a residual (R216). -/
def gResidWidth (r : Bytes) : Nat := if byteAt r 45 = 0 then 4 else 2

/-! ### Operations (R172) -/

def opDense (op : Nat) : Bool := op == 1 || op == 2 || op == 3 || op == 6
def opPass (op : Nat) : Bool := op == 4 || op == 5
def opRows (op : Nat) : Bool := op == 7 || op == 8 || op == 9
def opReduces (op : Nat) : Bool := opDense op || op == 9 || op == 0xA || op == 0xC
/-- Operations that hold contexts (R142). -/
def opContexts (op : Nat) : Bool := !opPass op && op != 0xF
/-- Operations whose counts are in CHUNK_ELEMS (R142). -/
def opCounts (op : Nat) : Bool := opDense op || opPass op || op == 0xA || op == 0xB || op == 0xC || op == 0xD

/-- Bytes of one row in a format. -/
def rowBytes (f n : Nat) : Nat := elemBytes f n

/-- Result blocks of a chunk (R198). -/
def gBlocks (r : Bytes) : Nat := ceilDiv (gElems r) 32

/-- R142: largest payload of a contribution, where the record bounds it. -/
def maxContribution (r : Bytes) : Nat :=
  let w := elemBits (gIn r) / 8
  match gOp r with
  | 7 => 4 * gCap r
  | 8 => gCap r * (4 + rowBytes (gIn r) (gRow r))
  | 9 => 0
  | 0xA => gElems r * (4 + w)
  | 0xB => 4 * gElems r
  | 0xC => gElems r * (4 + w)
  | 0xD => gElems r * (4 + rowBytes (gIn r) (gRow r))
  | 0xE => 0
  | 0xF => 0
  | _ => elemBytes (gIn r) (gElems r)

/-- R142, R212: largest payload of a result. -/
def maxResult (r : Bytes) : Nat :=
  let w := elemBits (gOut r) / 8
  match gOp r with
  | 7 => gCap r * rowBytes (gOut r) (gRow r)
  | 8 => 0
  | 9 => gCap r * rowBytes (gOut r) (gRow r)
  | 0xA => gCap r * (4 + w)
  | 0xB => 4 * gCap r
  | 0xC => gArg r * (4 + w)
  | 0xD => gElems r * (4 + rowBytes (gOut r) (gRow r))
  | 0xE => gCap r * (4 + rowBytes (gIn r) (gRow r))
  | 0xF => 0
  | _ => if opDense (gOp r) && isNarrow (gOut r) then gElems r / 32 * 33 else elemBytes (gOut r) (gElems r)

/-- R198: the format table. -/
def formatsOk (r : Bytes) : Bool :=
  let i := gIn r
  let o := gOut r
  let op := gOp r
  if opDense op || op = 0xD then isNumeric i && isNumeric o
  else if opPass op || op = 0xE then isFormat i && o == i
  else if op = 7 || op = 9 then i == 0x30 && isNumeric o
  else if op = 8 then isNumeric i && o == 0
  else if op = 0xA || op = 0xC then isScalar i && isScalar o
  else if op = 0xB then i == 0x30 && o == 0x30
  else i == 0 && o == 0

/-- R198: a block format for row values needs whole blocks. -/
def rowFormatsOk (r : Bytes) : Bool :=
  let whole (f : Nat) : Bool := !isBlockFormat f || gRow r % 32 == 0
  match gOp r with
  | 7 => whole (gOut r)
  | 8 => whole (gIn r)
  | 9 => whole (gOut r)
  | 0xD => whole (gIn r) && whole (gOut r)
  | 0xE => whole (gIn r)
  | _ => true

/-- R141: every field within its range; the reserved fields (FLAGS[7:3], bytes 46 to 47, 53 and 57 to 63) are ignored
(00 R12). -/
def fieldsOk (r : Bytes) : Bool :=
  let op := gOp r
  let sat := byteAt r 41
  let sj := byteAt r 44
  1 ≤ op && op ≤ 0xF && gRedop r ≤ 2 && (opReduces op || gRedop r == 0)
    && isFormat (gIn r) && isFormat (gOut r) && [0, 0x10, 0x11, 0x15].contains (byteAt r 7)
    && 1 ≤ gMembers r && gMembers r ≤ 256 && 1 ≤ gK r && gK r ≤ 64 && gClass r ≤ 7 && 1 ≤ gChunks r && gCtx r ≤ 4096
    && gResident r ≤ 4096 && gResidual r ≤ 4096
    && beAt r 36 2 ≤ 50000 && beAt r 38 2 ≤ 10000
    && (sat ≤ 32 || sat == 0xFF) && (sj ≤ 126 || sj == 0xFF) && byteAt r 45 ≤ 1
    && gDests r ≤ 256
    && (if op = 4 then gRoot r < gMembers r else gRoot r == 0)
    && (op == 0xC || gArg r == 0)

/-- R142, R147, R172, R174, R177, R178, R198: the rules of the operation. -/
def rulesOk (r : Bytes) : Bool :=
  let op := gOp r
  let none_ := gImage r == 0 && gResident r == 0 && gResidual r == 0
  fieldsOk r && formatsOk r && rowFormatsOk r
    && (!opCounts op || (gElems r != 0
      && ((!isBlockFormat (gIn r) && !isBlockFormat (gOut r)) || gElems r % 32 == 0)))
    && maxContribution r ≤ 8192
    && maxResult r ≤ (if op = 7 || op = 9 || op = 0xE then 16384 else 8192)
    && (!opContexts op || gCtx r != 0)
    && (!opPass op || none_)
    && (op != 0xF || (none_ && gCtx r == 0 && gChunks r == 1))
    && (!(op == 6 || opRows op) || gResident r != 0)
    && (!gFeedback r || (gResidual r != 0 && gRedop r == 0 && op != 6))
    && (!gComp r || gRedop r == 0)
    && (op != 6 || gRedop r == 0)
    && (!opDense op || gBlocks r ≤ 128)
    && (op != 1 || 1 ≤ gDests r)
    && (op != 2 || gDests r == 1)
    && (op != 3 || (1 ≤ gDests r && gChunks r % gDests r == 0))
    && (!opRows op || 1 ≤ gRow r)
    && (op != 0xC || (1 ≤ gArg r && gArg r ≤ gCap r))
    && (op != 0xD || (gElems r ≤ 4096 / (gRow r + 2) && gChunks r * gElems r ≤ 4194304))
    && (op != 0xE || gChunks r == gDests r)

/-- R158. -/
def sigOf (r : Bytes) : Word :=
  let b := r.take 64
  let b := splice b 11 [0]
  let b := splice b 22 [0, 0]
  let b := splice b 36 [0, 0, 0, 0]
  BitVec.ofNat 32 (crc32cStd b)

/-! ### Groups as a die holds them -/

/-- A group in a die's table; 8 is the keeper's own list. -/
def groupOf (s : State) (die g : Nat) : Option Group := s.coll.groups.get (groupKey die g)

/-- The moored groups of the keeper's list. -/
def mooredGroups (s : State) : List Group := s.coll.groups.cells.filterMap fun c => if c.1 / 65536 = 8 then c.2 else none

/-- Other moored or prepared groups. -/
def otherGroups (s : State) (id : Nat) : List Group :=
  (mooredGroups s ++ s.coll.prepared.map (·.2)).filter fun g => gId g.record != id

/-- R276: the residual block of a chunk. -/
def residualBlock (s : State) (r : Bytes) (c : Nat) : Option (Nat × Nat) :=
  if gResidual r = 0 then none else
  match regionAt s (gResidual r) with
  | some x => some (gResidual r, c * gElems r * gResidWidth r / x.blockBytes)
  | none => none

/-- R276: the region blocks that a chunk is bound to: region handle and block. Chunks of row operations are bound to none. -/
def boundBlocks (s : State) (r : Bytes) (c : Nat) : List (Nat × Nat) :=
  if opRows (gOp r) then []
  else (if gOp r = 6 then [(gResident r, c)] else []) ++ (residualBlock s r c).toList

/-- The block that decides a chunk's home die (R276): of REDUCE_UPDATE_BROADCAST the block of its resident region. -/
def chunkBlock (s : State) (r : Bytes) (c : Nat) : Option (Nat × Nat) := (boundBlocks s r c).head?

/-- R145, R24, R276: the home die of a chunk. -/
def homeOf (s : State) (g : Group) (c : Nat) : Nat :=
  match chunkBlock s g.record c with
  | some (h, b) =>
    match regionAt s h with
    | some x => if g.dies.contains (x.dieOf b) then x.dieOf b else partner (x.dieOf b)
    | none => 0
  | none =>
    let k := beBytes 2 (gId g.record) ++ [BitVec.ofNat 8 (gGen g.record), 0] ++ beBytes 4 c
    g.dies.getD (crc32cStd k % g.dies.length) 0

/-- Whether some number from `c` on, of `n` numbers, passes a test. -/
def someFrom (p : Nat → Bool) : Nat → Nat → Bool
  | 0, _ => false
  | n + 1, c => p c || someFrom p n (c + 1)
/-- How many of `n` numbers from `c` on pass a test. -/
def countFrom (p : Nat → Bool) : Nat → Nat → Nat
  | 0, _ => 0
  | n + 1, c => (if p c then 1 else 0) + countFrom p n (c + 1)

/-- R146: whether a die is home to a chunk of a group, and to how many. -/
def isHome (s : State) (g : Group) (d : Nat) : Bool :=
  !opPass (gOp g.record) && g.dies.contains d && someFrom (fun c => homeOf s g c == d) (gChunks g.record) 0
def homedOn (s : State) (g : Group) (d : Nat) : Nat := countFrom (fun c => homeOf s g c == d) (gChunks g.record) 0
def homeDies (s : State) (g : Group) : List Nat := (upTo 8).filter (isHome s g)

/-- R214: the history bytes a group needs on a die. -/
def historyBytes (s : State) (g : Group) (d : Nat) : Nat :=
  let r := g.record
  if opDense (gOp r) && isBlockFormat (gOut r) && gSjLimit r != 0xFF then homedOn s g d * gBlocks r else 0

/-- R210: ESC_BUDGET of an instance on a die; none where there is no limit. -/
def escBudget (s : State) (g : Group) (d : Nat) : Option Nat :=
  let v := beAt g.record 42 2
  if v = 0xFFFF then none
  else if v = 0 then some (ceilDiv (homedOn s g d * gBlocks g.record) 16)
  else some v

/-! ### Images (07 R251, R252) -/

def imageAt (s : State) (h : Nat) : Option Image := s.fabric.images.get h

/-- The image handle that a record selects. -/
def boundImage (s : State) (r : Bytes) : Nat := if gImage r = 0 then s.fabric.library.get (gOp r) else gImage r

/-- Key of an image on a die. -/
def imgKey (die h : Nat) : Nat := die * 256 + h

/-- R252: resident on a die means placed there and not FAILED. -/
def imageUsable (s : State) (die h : Nat) : Bool :=
  h != 0 && h ≤ 64 && s.fabric.placed.get (imgKey die h) != 0 && !s.fabric.failed.get (imgKey die h)

/-- R252, 08 R285: whether the image fits the record's ports. -/
def imageFits (s : State) (r : Bytes) (i : Image) : Bool :=
  bit i.opMask (gOp r) && bit i.inMask (gIn r) && bit i.outMask (gOut r)
    && (!gComp r || bit i.caps 1) && (!gFeedback r || bit i.caps 2) && (!gStoch r || bit i.caps 3)
    && (!bit i.caps 0 || gResident r != 0)
    && (!(i.library.isSome && opRows (gOp r))
        || (match regionAt s (gResident r) with
            | some x => x.rowBytes == 4 * gRow r
            | none => false))

/-! ### The answer to a mooring record (R143) -/

/-- R7, R174: what the S part refuses. -/
def refusedOnS (s : State) (r : Bytes) : Bool :=
  isS s && (!(opPass (gOp r) || gOp r == 0xF) || gImage r != 0 || gResident r != 0 || gResidual r != 0)

/-- R216, R275: region rules broken. -/
def regionRulesBroken (s : State) (r : Bytes) : Bool :=
  let id := gId r
  let op := gOp r
  (match regionAt s (gResident r) with
    | some x => x.kind != 1 || (op == 6 && (x.blocks < gChunks r
          || (otherGroups s id).any fun g => gOp g.record == 6 && gResident g.record == gResident r))
        || (opRows op && x.rowBytes == 0) || (op == 8 && x.mirrored)
    | none => false) ||
  (match regionAt s (gResidual r) with
    | some x => x.kind != 2 || ((otherGroups s id).any fun g => gResidual g.record == gResidual r)
        || (gElems r * gResidWidth r != 0 && x.blockBytes % (gElems r * gResidWidth r) != 0)
        || x.blocks * x.blockBytes < gChunks r * gElems r * gResidWidth r
    | none => false)

/-- R143, R252, R273: an image or region handle that names nothing resident. -/
def unbound (s : State) (g : Group) : Bool :=
  let r := g.record
  let missing (h : Nat) : Bool := h != 0 && !((regionAt s h).any Region.isResident)
  missing (gResident r) || missing (gResidual r) ||
    (opContexts (gOp r) && match imageAt s g.image with
      | some i => !imageFits s r i || !(homeDies s g).all fun d => imageUsable s d g.image
      | none => true)

/-- R144, R146, R214: whether a die can hold a group. -/
def dieHolds (s : State) (g : Group) (d : Nat) : Bool :=
  !isHome s g d || (gK g.record ≤ s.coll.slotsFree.get d
    && (gOp g.record == 0xF || gCtx g.record ≤ s.coll.ctxFree.get d)
    && s.coll.historyUsed.get d + historyBytes s g d ≤ 128000000)

/-- The group that a record would moor (R145). -/
def groupFor (s : State) (r : Bytes) : Group :=
  ⟨r, sigOf r, diesUp s, if opContexts (gOp r) then boundImage s r else 0⟩

def cfgQuarantine (s : State) : Nat := objGet s 0x0A0001 4 25

/-- R184: whether an ID is in quarantine. -/
def quarantined (s : State) (id : Nat) : Bool :=
  match s.coll.quarantine.get id with
  | some t => nowNs s < t + cfgQuarantine s * 1000000
  | none => false

/-- R143: the first status that applies to a record. -/
def moorStatus (s : State) (r : Bytes) : Nat :=
  let id := gId r
  if refusedOnS s r then stUnitAbsent
  else if r.length < 64 || r.length ≠ 64 + 2 * gDests r then stBadLength
  else if !rulesOk r || regionRulesBroken s r then stBadValue
  else if (groupOf s 8 id).isSome || s.coll.prepared.any fun p => p.1 == id then stExists
  else if quarantined s id then stQuarantined
  else if s.coll.lastGen.get id == some (BitVec.ofNat 8 (gGen r)) then stGenReused
  else if unbound s (groupFor s r) then stImageUnbound
  else if !(diesUp s).all (dieHolds s (groupFor s r)) then stNoContext
  else stDone

/-! ### Contexts and slot records (R146, R160) -/

/-- The lowest-numbered unreserved contexts of a die (log 44). -/
def freeContexts (s : State) (d n : Nat) : List Nat :=
  ((upTo 4096).filter fun c => (s.coll.ctx.get (ctxKey d c)).group == 0).take n

/-- Key of a slot record of a group on a die, and of the context half of a BARRIER slot record (R147). -/
def slotOf (d g i : Nat) : Nat := slotKey d g i
def barrierKey (d g i : Nat) : Nat := 2 ^ 40 + slotKey d g i

def onCtx (k : Nat) (f : Ctx → Ctx) (s : State) : State := s.onColl fun x => { x with ctx := x.ctx.modify k f }
def onSlot (k : Nat) (f : Slot → Slot) (s : State) : State := s.onColl fun x => { x with slots := x.slots.modify k f }

/-- The die of a context's key. -/
def ctxDie (k : Nat) : Nat := if k < 2 ^ 40 then k / 4096 else (k - 2 ^ 40) / 2 ^ 32

def groupOfCtx (s : State) (k : Nat) : Option Group := groupOf s (ctxDie k) ((s.coll.ctx.get k).group - 1)
/-- Key of the slot of a context's instance. -/
def slotOfCtx (g : Group) (die inst : Nat) : Nat := slotKey die (gId g.record) (inst % gK g.record)

/-- 06 R218, 08 R279: of the contexts that wait for a lock, in order, the first to have entered COMPUTING; in one clock, the
one of the earlier instance. -/
def nextWaiter (s : State) : List Nat → Option Nat
  | [] => none
  | k :: r =>
    let c := s.coll.ctx.get k
    some (r.foldl (fun best j =>
      let x := s.coll.ctx.get j
      if x.enteredAt = c.enteredAt && later 16 (s.coll.ctx.get best).inst.toNat x.inst.toNat then j else best) k)

/-- One die reserves a group's contexts, slot records and history bytes. -/
def reserveOn (g : Group) (s : State) (d : Nat) : State :=
  if !isHome s g d then s else
  let r := g.record
  let ctxs := if gOp r = 0xF then [] else freeContexts s d (gCtx r)
  let hist := historyBytes s g d
  s.onColl fun x => { x with
    slotsFree := x.slotsFree.modify d (· - gK r)
    ctxFree := x.ctxFree.modify d (· - ctxs.length)
    historyUsed := x.historyUsed.modify d (· + hist)
    ctx := ctxs.foldl (fun t c => t.set (ctxKey d c) { Ctx.reset with group := gId r + 1 }) x.ctx
    slots := (upTo (gK r)).foldl (fun t i =>
      t.set (slotOf d (gId r) i) { Slot.reset with inst := BitVec.ofNat 16 (gFirst r + 65536 - gK r + i) }) x.slots }

/-- One die gives back what a group reserved. -/
def releaseOn (g : Group) (s : State) (d : Nat) : State :=
  if !isHome s g d then s else
  let r := g.record
  let id := gId r
  let mine (k : Nat) (c : Ctx) : Bool := k < 2 ^ 40 && k / 4096 == d && c.group == id + 1
  let n := (s.coll.ctx.cells.filter fun c => mine c.1 c.2).length
  let hist := historyBytes s g d
  s.onColl fun x => { x with
    slotsFree := x.slotsFree.modify d (· + gK r)
    ctxFree := x.ctxFree.modify d (· + n)
    historyUsed := x.historyUsed.modify d (· - hist)
    history := x.history.erase fun k => k / 2 ^ 56 == groupKey d id
    ctx := ⟨x.ctx.dflt, x.ctx.cells.filter fun c =>
      !(mine c.1 c.2) && !((upTo (gK r)).any fun i => c.1 == barrierKey d id i)⟩
    slots := x.slots.erase fun k => k / 65536 == groupKey d id }

/-- The value a mooring reply carries: GENERATION and SIG_EXPECT (R143). -/
def moorValue (g : Group) : Bytes := [BitVec.ofNat 8 (gGen g.record)] ++ beBytes 4 g.sig.toNat

/-- GROUP_CREATE up to the prepare phase (R144). -/
def groupPrepare (r : Bytes) (s : State) : Nat × State :=
  let st := moorStatus s r
  if st ≠ stDone then (st, s)
  else
    let g := groupFor s r
    let s := (diesUp s).foldl (reserveOn g) s
    (stDone, s.onColl fun x => { x with prepared := x.prepared ++ [(gId r, g)] })

/-- GROUP_COMMIT (R144, R30): the commit or abort mark of the oldest prepared record. -/
def groupCommit (commit : Bool) (s : State) : Nat × State :=
  match s.coll.prepared with
  | [] => (stNotReady, s)
  | (id, g) :: rest =>
    let left := (diesUp s).filter fun d => !s.coll.marked.contains (id, d)
    let s := s.onColl fun x => { x with
      prepared := rest
      marked := x.marked.filter (·.1 != id) }
    if commit then
      let s := s.onColl fun x => { x with
        groups := (8 :: left).foldl (fun t d => t.set (groupKey d id) (some g)) x.groups }
      (stDone, { s with bop := { s.bop with answer := stDone, answerValue := moorValue g } })
    else (stNoContext, answer stNoContext (left.foldl (releaseOn g) s))

/-- The commit mark of the oldest record that a die has prepared and not yet resolved arrives at
the die, or, the keeper die being lost, never will: the die discards the record. -/
def commitMark (d : Nat) (arrived : Bool) (s : State) : State :=
  match s.coll.prepared.find? fun p => !s.coll.marked.contains (p.1, d) with
  | none => s
  | some (id, g) =>
    if !arrived && !s.start.keeperLost then s
    else
      let s := if arrived then s.onColl fun x => { x with groups := x.groups.set (groupKey d id) (some g) } else releaseOn g s d
      let s := s.onColl fun x => { x with marked := x.marked ++ [(id, d)] }
      if (diesUp s).all fun e => s.coll.marked.contains (id, e) then
        s.onColl fun x => { x with
          groups := if s.start.keeperLost then x.groups else x.groups.set (groupKey 8 id) (some g)
          prepared := x.prepared.filter (·.1 != id)
          marked := x.marked.filter (·.1 != id) }
      else s

/-- Record and commit at once, for the requests of 16 R473. -/
def groupMoor (r : Bytes) (s : State) : Nat × Bytes × State :=
  let (st, s) := groupPrepare r s
  if st ≠ stDone then (st, [], s)
  else
    -- the record just prepared is the newest; records are committed in order
    let g := groupFor s r
    let (st, s) := (List.range s.coll.prepared.length).foldl (fun (x : Nat × State) _ => groupCommit true x.2) (stDone, s)
    (st, moorValue g, s)

end Sys2Proof.Machine
end

