-- ==== Sys2Proof/Machine/Stores.lean ====
section
/-! DEFINITION. What images reach in memory: words of regions and scratch areas, the read fallback, the mirror tap and the
commit of an updated block (07 R249, R250; 08 R274, R277 to R284, R289, R290). -/

namespace Sys2Proof.Machine

/-- The block of a part that holds an offset: its number in the part. Padding skips fewer than 65 blocks of a part. -/
def blockAt (size first n off : Nat) : Option Nat :=
  if size = 0 || off < first then none else
  let j0 := (off - first) / size
  ((upTo 65).map fun i => j0 - i).find? fun j => decide (j < n) &&
    decide (blockOff size first j ≤ off) && decide (off < blockOff size first j + size)

/-- The block number of the `j`-th block of a part that a die holds. -/
def Region.blockNo (r : Region) (holder copy j : Nat) : Nat :=
  let d := if copy = 0 then holder else partner holder
  j * r.dies.length + (r.dies.findIdx? (· == d)).getD 0

/-- A 64-byte word that a thread reaches: its address, and the region block and byte where it lies in one. -/
structure WordAt where
  addr : Nat
  blk : Option (Nat × Nat × Nat)
  copy : Nat
  deriving DecidableEq, Repr

/-- What an address of a thread leads to: nothing that it may access (WALK_RANGE), memory that is gone, or a word. -/
inductive Reach where
  | range | lost | word (w : WordAt)
  deriving DecidableEq, Repr

/-- R283, R284: a word of the row space. -/
def reachRow (r : Region) (h o : Nat) : Reach :=
  if r.rowBytes = 0 || r.rows * r.rowBytes ≤ o then .range else
  let x := o / r.rowBytes
  let b := x / r.rowsPerBlock
  let byte := x % r.rowsPerBlock * r.rowBytes + o % r.rowBytes
  let copy := r.mainCopy b
  if r.hasCopy b copy then .word ⟨r.addr b copy + byte, some (h, b, byte), copy⟩ else .lost

/-- A word of a part of a region on the die that the address names. -/
def reachPart (s : State) (r : Region) (h die off : Nat) : Reach :=
  let part (copy : Nat) : Option Nat :=
    let k := partKey die copy
    let start := r.parts.get k - 1
    if r.parts.get k ≠ 0 && start ≤ off && off < start + r.sizes.get k then some start else none
  let go (copy start : Nat) : Reach :=
    if !dieUp s die then .lost else
    let n := r.countOn (if copy = 0 then die else partner die)
    match blockAt r.blockBytes (start + 4096) n off with
    | some j => .word ⟨memAddr die off, some (h, r.blockNo die copy j, off - blockOff r.blockBytes (start + 4096) j), copy⟩
    | none => .word ⟨memAddr die off, none, copy⟩
  match part 0, part 1 with
  | some a, _ => go 0 a
  | none, some a => go 1 a
  | none, none => .range

/-- R249, R284: what a thread of a context reaches at an address of bits [47:0]. -/
def reach (s : State) (k : Nat) (g : Group) (a : Nat) : Reach :=
  let die := a / 2 ^ 45 % 8
  let off := a % 2 ^ 45
  let inRegion (h : Nat) : Reach :=
    match regionAt s h with
    | some r => reachPart s r h die off
    | none => .range
  if bit off 44 then
    (if opRows (gOp g.record) then
      match regionAt s (gResident g.record) with
      | some r => reachRow r (gResident g.record) (off - 2 ^ 44)
      | none => .range
    else .range)
  else match inRegion (gResident g.record) with
  | .range =>
    match inRegion (gResidual g.record) with
    | .range =>
      let base := s.fabric.scratch.get (imgKey (ctxDie k) g.image)
      match imageAt s g.image with
      | some i =>
        if die = ctxDie k && base ≠ 0 && base - 1 ≤ off && off + 64 ≤ base - 1 + i.scratchMb * 10 ^ 6 then
          .word ⟨memAddr die off, none, 0⟩
        else .range
      | none => .range
    | x => x
  | x => x

/-- R289: a word whose primary copy cannot be read, from a CLEAN mirror that has acknowledged the latest commit. -/
def fallback (w : WordAt) (s : State) : Option Bytes × State :=
  match w.blk with
  | none => (none, s)
  | some (h, b, byte) =>
    match regionAt s h with
    | none => (none, s)
    | some r =>
      let m := r.addr b 1 + byte
      if r.mirrored && w.copy == 0 && r.hasCopy b 1 && !(getMeta s h b 0).suspect && !s.resident.unacked.get (blockKey h b)
          && !memBad s m 64 then
        let d := memBytes s.mem m 64
        (some d, count (r.copyDie b 0) 0x7002 0 1 (storeMem w.addr d s))
      else (none, s)

/-- A word read; none where an uncorrectable error ends the read. -/
def readWord (w : WordAt) (s : State) : Option Bytes × State :=
  if memBad s w.addr 64 then fallback w s else (some (memBytes s.mem w.addr 64), s)

/-- R290: a context whose image has read a SUSPECT block. -/
def noteSuspect (k : Nat) (w : WordAt) (s : State) : State :=
  match w.blk with
  | some (h, b, _) => if isSuspect s h b then onCtx k (fun c => { c with readSuspect := true }) s else s
  | none => s

/-- R281: the term of one word in BLOCK_CRC. -/
def wordCrc (n : Nat) (d : Bytes) : Word := BitVec.ofNat 32 (crc32cStd (beBytes 4 n ++ d))

/-- Whether the mirror tap forwards writes of a block, and to which die. -/
def tapDie (r : Region) (b : Nat) : Option Nat :=
  if r.mirrored && r.hasCopy b 0 && r.hasCopy b 1 then some (r.copyDie b 1) else none

/-- R277: whether a thread may write a word. -/
def mayWrite (s : State) (k : Nat) (g : Group) (w : WordAt) : Bool :=
  let r := g.record
  let bound := chunkBlock s r (s.coll.ctx.get k).chunk
  let mirrored (h : Nat) : Bool := (regionAt s h).any (·.mirrored)
  match w.blk with
  | some (h, b, _) =>
    !mirrored h || (gOp r == 6 && bound == some (h, b) && (regionAt s h).any fun x => x.mainCopy b == w.copy)
  | none =>
    -- outside every block: a control area or metadata of a mirrored region is never written
    let inPart (h : Nat) : Bool := match regionAt s h with
      | some x => match reachPart s x h (w.addr / 2 ^ 45 % 8) (w.addr % 2 ^ 45) with
        | .range => false
        | _ => true
      | none => false
    !(mirrored (gResident r) && inPart (gResident r))

/-- A word written, with the mirror tap for the block that an update is bound to (R282). -/
def writeWord (k : Nat) (g : Group) (w : WordAt) (d : Bytes) (s : State) : State :=
  let s := storeMem w.addr d s
  match w.blk with
  | some (h, b, byte) =>
    if gOp g.record = 6 && chunkBlock s g.record (s.coll.ctx.get k).chunk == some (h, b) then
      let n := byte / 64
      let s := onCtx k (fun c => { c with wroteWords := c.wroteWords + 1, wroteCrc := c.wroteCrc ^^^ wordCrc n d }) s
      match regionAt s h with
      | some r => match tapDie r b with
        | some m => s.onResident fun x => { x with
            toMirror := x.toMirror.modify m (· ++ [.word h b n ((getMeta s h b (r.mainCopy b)).seq + 1) d]) }
        | none => s
      | none => s
    else s
  | none => s

/-- R279: a context gives back the update lock of a block. -/
def unlockBlock (k key : Nat) (s : State) : State := s.onResident fun x => { x with
  lockHolder := if x.lockHolder.get key == some k then x.lockHolder.set key none else x.lockHolder }

/-- R281, R282: the commit of one block that a context is bound to; a SINGLE block has no metadata to write. -/
def commitBlock (k : Nat) (s : State) (x : Nat × Nat) : State :=
  let c := s.coll.ctx.get k
  let (h, b) := x
  let key := blockKey h b
  match regionAt s h with
  | none => unlockBlock k key s
  | some r =>
    if !r.mirrored then unlockBlock k key s
    else if c.wroteWords ≠ r.blockBytes / 64 then unlockBlock k key (markSuspect h b 4 s)
    else
      let m := { getMeta s h b (r.mainCopy b) with
        seq := (getMeta s h b (r.mainCopy b)).seq + 1
        crc := c.wroteCrc }
      let s := unlockBlock k key (setMeta h b (r.mainCopy b) m s)
      match tapDie r b with
      | some d => s.onResident fun x => { x with
          unacked := x.unacked.set key true
          toMirror := x.toMirror.modify d (· ++ [.commit h b m.seq m.crc c.wroteWords]) }
      | none => s

/-- BLOCK_COMMIT (R281, R282): the blocks of a context whose result has left the image and whose threads have ended. -/
def blockCommit (k : Nat) (s : State) : State :=
  match groupOfCtx s k with
  | none => s
  | some g =>
    (boundBlocks s g.record (s.coll.ctx.get k).chunk).foldl (commitBlock k) (onCtx k (fun c => { c with commitDue := false }) s)

/-- Whether a context's block may be committed now. -/
def commitReady (s : State) (k : Nat) : Bool := (s.coll.ctx.get k).commitDue && (s.coll.ctx.get k).threads == 0

/-- BLOCK_COMMIT (R281). -/
def execBlockCommit (die : DieIx) (context : Fin 4096) (s : State) : Host.Outcome State Fault Refusal :=
  .next (if dieUp s die && clocksRun s && commitReady s (ctxKey die context) then blockCommit (ctxKey die context) s else s)

end Sys2Proof.Machine
end

