-- ==== Sys2Proof/Machine/Results.lean ====
section
/-! DEFINITION. RESULT frames, replies to senders, retention, and the end of a context (05 R149 to R157, R161, R164, R168
to R173, R179, R180, R189). -/

namespace Sys2Proof.Machine

/-! ### A contribution's header (R150, R151) -/

def eplAt (f : Bytes) : Nat := ((parseFrame f).epl).getD 0
def cGroup (f : Bytes) (o : Nat) : Nat := beAt f (o + 16) 2
def cGen (f : Bytes) (o : Nat) : Nat := byteAt f (o + 18)
def cContributor (f : Bytes) (o : Nat) : Nat := byteAt f (o + 19)
def cInst (f : Bytes) (o : Nat) : Nat := beAt f (o + 20) 2
def cOp (f : Bytes) (o : Nat) : Nat := byteAt f (o + 22)
def cFormat (f : Bytes) (o : Nat) : Nat := byteAt f (o + 23)
def cSig (f : Bytes) (o : Nat) : Nat := beAt f (o + 24) 4
def cChunk (f : Bytes) (o : Nat) : Nat := beAt f (o + 28) 4
def cElems (f : Bytes) (o : Nat) : Nat := beAt f (o + 32) 2
def cArg (f : Bytes) (o : Nat) : Nat := beAt f (o + 36) 4
/-- BODY_LEN counts the extension too (log 45). -/
def cBodyLen (f : Bytes) (o : Nat) : Nat := beAt f (o + 6) 2
def cPayload (f : Bytes) (o : Nat) : Bytes := slice f (o + 48) (cBodyLen f o - 32)

/-- R154: the frame holds the whole body, and BODY_CRC agrees. -/
def bodyGood (f : Bytes) (o : Nat) : Bool :=
  32 ≤ cBodyLen f o && o + 16 + cBodyLen f o + 4 ≤ f.length
    && crc32cStd (slice f (o + 16) 28 ++ cPayload f o) == beAt f (o + 44) 4

/-! ### RESULT datagrams (R151, R155, R156) -/

/-- What the extension of a RESULT says. -/
structure ResHead where
  group : Nat
  gen : Nat
  contributor : Nat
  inst : Nat
  op : Nat
  format : Nat
  sig : Nat
  chunk : Nat
  elems : Nat
  code : Nat
  arg : Nat
  deriving DecidableEq, Repr

/-- The trailer of R156: bitmaps as lists of their set bits. -/
structure Trailer where
  members : List Nat
  escape : List Nat
  jump : List Nat
  poison : List Nat
  overflow : Nat
  valid : Nat
  span : Nat
  used : Nat
  deriving DecidableEq, Repr

def Trailer.zero : Trailer := ⟨[], [], [], [], 0, 0, 0, 0⟩

/-- R157: a bitmap of `n` bytes. -/
def bitmapBytes (n : Nat) (l : List Nat) : Bytes := leBytes n ((upTo (8 * n)).foldl (fun a i => if l.contains i then a + 2 ^ i else a) 0)

def trailerBytes (t : Trailer) : Bytes :=
  bitmapBytes 32 t.members ++ bitmapBytes 16 t.escape ++ bitmapBytes 16 t.jump ++ bitmapBytes 16 t.poison
    ++ beBytes 4 t.overflow ++ beBytes 4 t.valid ++ beBytes 4 (min t.span 0xFFFFFFFF) ++ beBytes 2 (min t.used 0xFFFF) ++ [0, 0]

/-- One Epolong RESULT datagram: part `i` of `n`. -/
def resultDatagram (s : State) (cls : Nat) (h : ResHead) (i n : Nat) (body : Bytes) : Bytes :=
  let ext := beBytes 2 h.group ++ beBytes 1 h.gen ++ beBytes 1 h.contributor ++ beBytes 2 h.inst ++ beBytes 1 h.op
    ++ beBytes 1 h.format ++ beBytes 4 h.sig ++ beBytes 4 h.chunk ++ beBytes 2 h.elems ++ beBytes 1 (i * 16 + n - 1)
    ++ beBytes 1 h.code ++ beBytes 4 h.arg ++ beBytes 4 0
  beBytes 1 0x12 ++ beBytes 1 (cls * 32) ++ beBytes 2 0 ++ beBytes 2 (cfgDevIndex s) ++ beBytes 2 (32 + body.length)
    ++ beBytes 8 0 ++ ext ++ beBytes 4 (crc32cStd (ext ++ body)) ++ body

/-- R172: the datagrams of a result: one, or two divided at byte 8,192; the trailer ends the last. -/
def resultParts (s : State) (cls : Nat) (h : ResHead) (payload : Bytes) (t : Trailer) : List Bytes :=
  if payload.length ≤ 8192 then [resultDatagram s cls h 0 1 (payload ++ trailerBytes t)]
  else [resultDatagram s cls h 0 2 (payload.take 8192), resultDatagram s cls h 1 2 (payload.drop 8192 ++ trailerBytes t)]

/-! ### Replication (R164, 03 R104) -/

/-- R164: the egress ports of a destination index, through the die's own DIT and R77. -/
def destPorts (die idx n : Nat) (s : State) : List Nat × State :=
  let w := s.tables.dit.get (tblKey die idx)
  match resAction w with
  | 0 => ([], count die 0x1008 0 1 s)
  | 1 =>
    let b := s.tables.bundle.get (tblKey die (resTarget w))
    if b.ports.isEmpty then ([], count die 0x1008 0 1 s)
    else
      let (r, s) := unicastLane die n b s
      match r with
      | some (p, _) => ([p], s)
      | none => ([], s)
  | 2 =>
    let m := s.tables.mcast.get (tblKey die (resTarget w))
    if m = 0 then ([], count die 0x1008 0 1 s) else ((upTo 288).filter m.getLsbD, s)
  | _ => ([], s)

/-- The copies a datagram goes out as: egress port and destination index. -/
def copiesOf (die : Nat) (dests : List Nat) (n : Nat) (s : State) : List (Nat × Nat) × State :=
  dests.foldl (fun (x : List (Nat × Nat) × State) idx =>
    let (ps, s) := destPorts die idx n x.2
    (x.1 ++ ps.map fun p => (p, idx), s)) ([], s)

/-- The header of the cells of a frame that a die builds for several ports. -/
def builtHead (s : State) (die cls sub group : Nat) (dests : List Nat) : Cell where
  destType := 1
  dest := 0
  lane := 0
  cls := cls
  sub := sub
  ingressDie := die
  frameId := 0
  index := 0
  last := false
  bad := false
  orderSeq := 0
  lenM1 := 0
  ingressTime := nowNs s % 2 ^ 32
  data := []
  port := 288
  cut := false
  routed := false
  stamp := none
  stepSum := 0
  dests := dests
  drainIndex := none
  cells := 0
  frameLen := 0
  pool := 0
  group := group
  stage2 := false
  emit := none
  flags := cfgClassFlags s cls
  good := true

/-- One datagram enters the die's multicast queue as one set of cells (R164); none without a copy. It is admitted always and
charged to no pool: R85 speaks of frames received and emitted, not of results and replies (DESIGN CHOICE, log 195). -/
def sendDatagram (die cls udpSrc : Nat) (dests : List Nat) (d : Bytes) (s : State) : List Nat × State :=
  let (copies, s) := copiesOf die dests (ceilDiv d.length 256) s
  match copies with
  | [] => ([], s)
  | (p, idx) :: _ =>
    let f := buildFrame s p idx cls udpSrc (splice d 2 (beBytes 2 idx))
    let (id, s) := nextFrameId die s
    let h := builtHead s die cls (subscriber f (parseFrame f)) 0 (copies.map fun x => x.1 * 65536 + x.2)
    let q := qMc die cls h.sub
    ([id], (cutFrame { h with frameId := id } f).foldl (fun s c => enqueueCell q c s) s)

/-- A result's parts sent to destinations; answers the frames that carry them. -/
def sendParts (die cls chunk : Nat) (dests : List Nat) (parts : List Bytes) (s : State) : List Nat × State :=
  parts.foldl (fun (x : List Nat × State) d =>
    let (ids, s) := sendDatagram die cls (0xC000 + chunk % 2 ^ 14) dests d x.2
    (x.1 ++ ids, s)) ([], s)

/-! ### Replies to a sender (R155, R171) -/

def cfgErrReplyRate (s : State) : Nat := objGet s 0x0A0001 5 1000000

/-- R171: whether a die may send one more reply in the present second; a second is a whole one of the queue clock (DESIGN CHOICE,
log 150). -/
def replyBudget (die : Nat) (s : State) : Bool × State :=
  let sec := nowNs s / 10 ^ 9
  let n := if s.coll.replySecond.get die = sec then s.coll.replies.get die else 0
  if n < cfgErrReplyRate s then
    (true, s.onColl fun x => { x with replies := x.replies.set die (n + 1), replySecond := x.replySecond.set die sec })
  else (false, s)

/-- ARG of a result or reply about a chunk: POSITION_BASE in ATTN_MERGE (R151, R178). -/
def positionBase (g : Group) (chunk : Nat) : Nat := if gOp g.record = 0xD then chunk * gElems g.record % 2 ^ 22 else 0

/-- An error reply to the sender of a contribution: fields of its own header, the group's where it is moored (log 46). -/
def replyTo (die : Nat) (f : Bytes) (code : Nat) (g : Option Group) (s : State) : State :=
  let (ok, s) := replyBudget die s
  if !ok then count die 0x4007 0 1 s else
  let o := eplAt f
  let cls := match g with
    | some g => gClass g.record
    | none => eplClass f o
  let h : ResHead := ⟨cGroup f o, cGen f o, cContributor f o, cInst f o,
    match g with | some g => gOp g.record | none => cOp f o,
    match g with | some g => gOut g.record | none => cFormat f o,
    match g with | some g => g.sig.toNat | none => 0, cChunk f o, 0, code,
    match g with
    | some g => positionBase g (cChunk f o)
    | none => if cOp f o = 0xD then cArg f o % 2 ^ 22 else 0⟩
  (sendParts die cls h.chunk [eplSrc f o] (resultParts s cls h [] Trailer.zero) s).2

/-! ### Retention (R168) -/

def cfgRetainMem (s : State) : Nat := objGet s 0x0A0001 6 1024
def partsSize (l : List Bytes) : Nat := l.foldl (fun a b => a + b.length) 0
/-- Bytes of a die's retention store: the 8 MiB ring, then RETAIN_MEM (R148, R168). -/
def retainRoom (s : State) : Nat := 8 * 2 ^ 20 + cfgRetainMem s * 10 ^ 6

/-- Whether a retained result has left the store by age. -/
def retainedOut (s : State) (die : Nat) (r : Retained) : Bool :=
  match groupOf s die r.group with
  | some g => gRetention g.record ≤ (nowNs s + 2 ^ 32 - r.time % 2 ^ 32) % 2 ^ 32
  | none => true

/-- The oldest results leave until `n` bytes fit; each is counted in RETAIN_EVICT. -/
def evict (die n : Nat) : Nat → State → State
  | 0, s => s
  | fuel + 1, s =>
    match s.coll.retained.get die with
    | [] => s
    | _ :: rest =>
      if (s.coll.retained.get die).foldl (fun a r => a + partsSize r.parts) 0 + n ≤ retainRoom s then s
      else evict die n fuel (count die 0x4006 0 1 (s.onColl fun x => { x with retained := x.retained.set die rest }))

/-- A result written to the retention store. -/
def retain (die : Nat) (r : Retained) (s : State) : State :=
  let s := s.onColl fun x => { x with retained := x.retained.modify die (·.filter fun y => !retainedOut s die y) }
  let s := evict die (partsSize r.parts) (s.coll.retained.get die).length s
  s.onColl fun x => { x with retained := x.retained.modify die (· ++ [r]) }

/-- RETENTION_EXPIRE (R168): results whose window has ended leave the store. -/
def execRetentionExpire (die : DieIx) (s : State) : Host.Outcome State Fault Refusal :=
  .next (if dieUp s die && clocksRun s then
    s.onColl fun x => { x with retained := x.retained.modify die (·.filter fun y => !retainedOut s die y) } else s)

/-! ### Slots and contexts -/

/-- Keys of the contexts of a die that a test picks. -/
def ctxKeys (s : State) (die : Nat) (p : Ctx → Bool) : List Nat :=
  (s.coll.ctx.cells.filter fun c => ctxDie c.1 == die && c.2.state != .free && p c.2).map (·.1)

/-- The context that holds a chunk of an instance, if any. -/
def ctxOf (s : State) (die id inst chunk : Nat) : Option Nat :=
  (ctxKeys s die fun c => c.group == id + 1 && c.inst.toNat == inst && c.chunk == chunk).head?

/-- R172: the destinations of a chunk's result; a row operation answers its senders. -/
def chunkDests (g : Group) (c : Nat) : List Nat :=
  let r := g.record
  let l := gDestList r
  let op := gOp r
  if op = 3 then (l[c / (gChunks r / gDests r)]?).toList
  else if opRows op then []
  else if op = 0xE then (l[c]?).toList
  else l

/-- The extension of a chunk's result; ATTN_MERGE carries POSITION_BASE in ARG (R178). -/
def resultHead (g : Group) (inst chunk contributor elems code : Nat) : ResHead :=
  let r := g.record
  ⟨gId r, gGen r, contributor, inst, gOp r, gOut r, g.sig.toNat, chunk, elems, code, positionBase g chunk⟩

/-- A chunk of an instance has ended on a die; with the last, the slot becomes ENDED (R161). -/
def chunkEnds (g : Group) (die inst chunk : Nat) (completed : Bool) (s : State) : State :=
  let n := homedOn s g die
  onSlot (slotOfCtx g die inst) (fun x =>
    if x.inst.toNat ≠ inst then x else
    let ended := if x.ended.contains chunk then x.ended else x.ended ++ [chunk]
    { x with
      ended := ended
      done := if completed && x.isOpen && !x.done.contains chunk then x.done ++ [chunk] else x.done
      isOpen := x.isOpen && decide (ended.length < n) }) s

/-- A context gives up every lock it holds or waits for (06 R218, 08 R279). -/
def dropLocks (k : Nat) (s : State) : State :=
  let holder (t : Tab (Option Nat)) : Tab (Option Nat) := ⟨t.dflt, t.cells.filter fun c => c.2 != some k⟩
  let wait (t : Tab (List Nat)) : Tab (List Nat) := ⟨t.dflt, t.cells.filterMap fun c =>
    let l := c.2.filter (· != k)
    if l.isEmpty then none else some (c.1, l)⟩
  let s := s.onColl fun x => { x with residHolder := holder x.residHolder, residWait := wait x.residWait }
  s.onResident fun x => { x with lockHolder := holder x.lockHolder, lockWait := wait x.lockWait }

/-- A context returns to its group's reservation; its staged contributions leave the staging, its locks are free. -/
def freeCtx (k : Nat) (s : State) : State :=
  let s := dropLocks k s
  let c := s.coll.ctx.get k
  let die := ctxDie k
  let s := s.onColl fun x => { x with
    ctx := x.ctx.set k { Ctx.reset with group := if k < 2 ^ 40 then c.group else 0 }
    staging := x.staging.modify (groupKey die (c.group - 1)) (· - c.staged.length)
    deliver := x.deliver.modify die (·.filter (· != k)) }
  s.onSwitch fun x => { x with ctxSpilled := x.ctxSpilled.set k false, ctxArea := x.ctxArea.set k x.ctxArea.dflt }

/-- R161 and 01 R33: the contexts of a lost die are gone with it. The die can send nothing, so a member whose contribution it
held receives no result; their locks are free (08 R296). -/
def contextsLost (d : Nat) (s : State) : State :=
  let s := (ctxKeys s d fun _ => true).foldl (fun s k => dropLocks k s) s
  let s := s.onColl fun x => { x with
    ctx := x.ctx.erase fun k => ctxDie k == d
    slots := x.slots.erase fun k => k / 65536 / 65536 == d
    staging := x.staging.erase fun k => k / 65536 == d
    atIngress := x.atIngress.set d []
    atHome := x.atHome.set d []
    deliver := x.deliver.set d []
    poisonNotices := x.poisonNotices.set d []
    retained := x.retained.set d []
    residHolder := x.residHolder.erase fun k => k / 2 ^ 32 / 65536 == d
    residWait := x.residWait.erase fun k => k / 2 ^ 32 / 65536 == d }
  s.onSwitch fun x => { x with
    ctxSpilled := x.ctxSpilled.erase fun k => ctxDie k == d
    ctxArea := x.ctxArea.erase fun k => ctxDie k == d }

/-- The members that have arrived and the span, as a trailer shows them (R156). -/
def spanOf (c : Ctx) : Nat := c.lastTime - c.firstTime

/-- R213: the successful claims of an instance; none are known once another instance holds the slot. -/
def escapesUsed (s : State) (g : Group) (die : Nat) (inst : BitVec 16) : Nat :=
  let x := s.coll.slots.get (slotOfCtx g die inst.toNat)
  if x.inst = inst then x.escapes else 0

/-- A context ends with an error code: the payload-free result goes to the chunk's destinations and is retained. Of a row
operation, which has none, it goes to the senders that still wait for their rows (DESIGN CHOICE, log 197). -/
def endContext (k code : Nat) (members : List Nat) (s : State) : State :=
  let c := s.coll.ctx.get k
  let die := ctxDie k
  match groupOfCtx s k with
  | none => freeCtx k s
  | some g =>
    let dests := if opRows (gOp g.record) then (c.items ++ c.staged).map fun x => eplSrc x.2 0 else chunkDests g c.chunk
    let t : Trailer := ⟨members, c.escaped, c.jumped, c.poison, c.overflow, 0, spanOf c, escapesUsed s g die c.inst⟩
    let cls := gClass g.record
    let parts := resultParts s cls (resultHead g c.inst.toNat c.chunk 0 0 code) [] t
    let s := if dests.isEmpty then s else
      retain die ⟨gId g.record, gGen g.record, c.inst, c.chunk, nowNs s % 2 ^ 32, members, parts, dests⟩
        (sendParts die cls c.chunk dests parts s).2
    chunkEnds g die c.inst.toNat c.chunk false (freeCtx k s)

/-! ### Pending work of an image (07 R260) -/

/-- Whether a stream ingress of an image holds tokens of a contribution that the fabric has not taken. -/
def ingressHolds (s : State) (die h : Nat) : Bool := match imageAt s h with
  | some i =>
    let a := s.fabric.placed.get (imgKey die h) - 1
    (upTo i.tiles).any fun t => (upTo 4).any fun p => !(s.fabric.edgeOut.get ((die * 8 + a + t) * 32 + p)).isEmpty
  | none => false

/-- Whether an image has pending work on a die: a contribution to deliver, or a context COMPUTING. -/
def imagePending (s : State) (die h : Nat) : Bool :=
  ingressHolds s die h || (ctxKeys s die fun c => !c.staged.isEmpty || c.state == .computing).any fun k => match groupOfCtx s k with
    | some g => g.image == h && h != 0
    | none => false

/-- The stall watch of an image that has had no pending work starts its count. -/
def watchFrom (die h : Nat) (s : State) : State :=
  if imagePending s die h then s else
  s.onFabric fun x => { x with progressAt := x.progressAt.set (imgKey die h) (nowNs s) }

/-! ### Arrival lag (R189) -/

def lagKey (id contributor : Nat) : Nat := id * 256 + contributor

/-- R189: each contributor's lag behind the chunk's earliest contribution. -/
def recordLags (id : Nat) (c : Ctx) (s : State) : State :=
  s.onColl fun x => { x with lags := c.times.foldl (fun t p => t.modify (lagKey id p.1) fun l =>
    let d := p.2 - c.firstTime
    ⟨l.samples + 1, (l.sum + d) % 2 ^ 64, max l.largest d, l.lastCount + if p.1 = c.lastContributor then 1 else 0⟩) x.lags }

/-- A context's result is on its way to destinations: the context is SENDING (R161, R164). -/
def completeTo (dests : List Nat) (k : Nat) (h : ResHead) (payload : Bytes) (t : Trailer) (s : State) : State :=
  let c := s.coll.ctx.get k
  let die := ctxDie k
  match groupOfCtx s k with
  | none => freeCtx k s
  | some g =>
    let cls := gClass g.record
    let parts := resultParts s cls h payload t
    let (ids, s) := if dests.isEmpty then ([], s) else sendParts die cls c.chunk dests parts s
    let s := recordLags (gId g.record) c s
    onCtx k (fun c => { c with
      state := .sending
      sent := some ⟨gId g.record, gGen g.record, c.inst, c.chunk, 0, t.members, parts, dests⟩
      sentIds := ids }) s

/-- A context's result is on its way to the chunk's destinations. -/
def completeCtx (k : Nat) (h : ResHead) (payload : Bytes) (t : Trailer) (s : State) : State :=
  match groupOfCtx s k with
  | none => freeCtx k s
  | some g => completeTo (chunkDests g (s.coll.ctx.get k).chunk) k h payload t s

/-- Whether every cell of a context's result has left the home die's queues. -/
def cellsGone (s : State) (k : Nat) : Bool :=
  let die := ctxDie k
  let c := s.coll.ctx.get k
  s.switch.mcq.cells.all fun x => x.2.all fun y => !(y.ingressDie == die && c.sentIds.contains y.frameId)

/-- RESULT_SEND_COMPLETE (R161, R168): the last cell has left, the result is retained and the context is free. -/
def sendComplete (k : Nat) (s : State) : State :=
  let s := if commitReady s k then blockCommit k s else s
  let c := s.coll.ctx.get k
  let die := ctxDie k
  match groupOfCtx s k, c.sent with
  | some g, some r =>
    let s := if r.dests.isEmpty then s else retain die { r with time := nowNs s % 2 ^ 32 } s
    chunkEnds g die c.inst.toNat c.chunk true (freeCtx k s)
  | _, _ => freeCtx k s

/-- The context named, or, where it is not sending, the first BARRIER record of the die whose result has left. -/
def execResultSendComplete (die : DieIx) (context : Fin 4096) (s : State) : Host.Outcome State Fault Refusal :=
  .next <| if !dieUp s die || !clocksRun s then s else
    let ready (k : Nat) : Bool := (s.coll.ctx.get k).state == .sending && cellsGone s k
      && (!(s.coll.ctx.get k).commitDue || commitReady s k)
    let k := ctxKey die context
    if ready k then sendComplete k s
    else match (ctxKeys s die fun c => c.state == .sending).find? fun k => 2 ^ 40 ≤ k && ready k with
      | some k => sendComplete k s
      | none => s

end Sys2Proof.Machine
end

