-- ==== Sys2Proof/Machine/Encode.lean ====
section
/-! DEFINITION. The accumulators of a context and the re-quantisation of its blocks: what decode units, context ports and
encode units do, for images and for the library's operations alike (06 R200 to R219; 18 R537, R538). -/

namespace Sys2Proof.Machine

/-- An index with its list element. -/
def indexed {α : Type} : Nat → List α → List (Nat × α)
  | _, [] => []
  | n, x :: r => (n, x) :: indexed (n + 1) r

/-! ### Decoding and poisoning (R200, R202) -/

/-- R204: a DISPATCH group copies values unread and never poisons. -/
def neverPoisons (s : State) (k : Nat) : Bool := match groupOfCtx s k with
  | some g => gOp g.record == 0xE
  | none => false

/-- R202, R240: blocks that a contribution's values poison, and its contributor. -/
def recordPoison (k j : Nat) (blocks : List Nat) (s : State) : State :=
  if blocks.isEmpty || neverPoisons s k then s else
  onCtx k (fun c => { c with
    poison := c.poison ++ blocks.filter fun b => !c.poison.contains b
    poisoners := if c.poisoners.contains j then c.poisoners else c.poisoners ++ [j] }) s

/-- Blocks whose values, from an element on, are not all finite. -/
def badBlocks (start : Nat) (vals : List Word) : List Nat :=
  ((indexed start vals).filter fun x => poisons x.2).foldl (fun l x => if l.contains (x.1 / 32) then l else l ++ [x.1 / 32]) []

/-! ### Accumulators (R201, R537) -/

/-- Key of the shadow of lo. -/
def shadowLo (e : Nat) : Nat := 65536 + e

/-- One element combined into an accumulator and its shadow; `load` sets it. -/
def accElem (redop : Nat) (comp load : Bool) (c : Ctx) (e : Nat) (x : Word) : Ctx :=
  let one (hi lo : Word) : Word × Word := if load then (x, 0) else combine redop comp hi lo x
  let (h, l) := one (c.hi.get e) (c.lo.get e)
  let (sh, sl) := one (c.shadow.get e) (c.shadow.get (shadowLo e))
  { c with
    hi := c.hi.set e h
    lo := c.lo.set e l
    shadow := if c.sampled then (c.shadow.set e sh).set (shadowLo e) sl else c.shadow }

/-- R201, R202: values combined into a context from an element on; a dense block whose accumulator is no longer finite is
poisoned. Values for a block that is poisoned already are ignored, those too that the poisoning contribution itself brings, as a
library image combines them after its poison is recorded (the manual speaks of later contributions: DESIGN CHOICE, log 192). -/
def accumulate (k : Nat) (g : Group) (load : Bool) (start : Nat) (vals : List Word) (s : State) : State :=
  let r := g.record
  let ignored (e : Nat) : Bool := opDense (gOp r) && !load && (s.coll.ctx.get k).poison.contains (e / 32)
  let s := onCtx k (fun c => (indexed start vals).foldl (fun c x =>
    if ignored x.1 then c else accElem (gRedop r) (gComp r) load c x.1 x.2) c) s
  if !opDense (gOp r) then s else
  let c := s.coll.ctx.get k
  let bad := badBlocks start ((indexed start vals).map fun x => if poisons (c.hi.get x.1) then c.hi.get x.1 else c.lo.get x.1)
  onCtx k (fun c => { c with poison := c.poison ++ bad.filter fun b => !c.poison.contains b }) s

/-- The value that R201 passes to re-quantisation. -/
def ctxValue (g : Group) (c : Ctx) (e : Nat) : Word := accValue (gComp g.record) (c.hi.get e) (c.lo.get e)

/-- R280: a value as READ and READF answer it for a group bound to a PARAM region. -/
def portValue (g : Group) (c : Ctx) (e : Nat) (v : Word) : Word :=
  if gResident g.record ≠ 0 && c.poison.contains (e / 32) then nan32 else v

/-- R537: whether every accumulator equals its shadow. -/
def shadowAgrees (g : Group) (c : Ctx) : Bool :=
  !c.sampled || (upTo (gElems g.record * (if gOp g.record = 0xD then gRow g.record + 2 else 1))).all fun e =>
    c.hi.get e == c.shadow.get e && c.lo.get e == c.shadow.get (shadowLo e)

/-- CROSSCHECK_FAIL (R538): the chunk ends with COMPUTE_ERROR; stage 0 accumulate, 1 encode. -/
def crosscheckFail (k tile stage : Nat) (s : State) : State :=
  let c := s.coll.ctx.get k
  let die := ctxDie k
  let id := c.group - 1
  let s := endContext k 8 c.arrived s
  raise 0x1002 0 (unitOf die tile 0) (args32 [(id : Int), (c.inst.toNat : Int), (c.chunk : Int), (stage : Int)])
    (count die 0x6002 tile 1 s)

/-! ### Random draws (R208) -/

/-- `n` fresh 16-bit numbers of a die's generator where the mode is STOCHASTIC. -/
def drawBits (die : Nat) (stoch : Bool) : Nat → State → List (Option Nat) × State
  | 0, s => ([], s)
  | n + 1, s =>
    if stoch then
      let (v, s) := drawOn die s
      let (l, s) := drawBits die stoch n s
      (some (v % 65536) :: l, s)
    else
      let (l, s) := drawBits die stoch n s
      (none :: l, s)

/-! ### One block of a dense operation (R219) -/

/-- Where element `e` of a chunk has its residual: the address, if the region is there. -/
def residAddr (s : State) (g : Group) (chunk e : Nat) : Option Nat :=
  let r := g.record
  let w := gResidWidth r
  match regionAt s (gResidual r) with
  | none => none
  | some x =>
    let off := (chunk * gElems r + e) * w
    let b := off / x.blockBytes
    some (x.addr b (x.mainCopy b) + off % x.blockBytes)

/-- R217: the chunk's residuals set to zero after an uncorrectable error. -/
def zeroResiduals (g : Group) (chunk : Nat) (s : State) : State :=
  match residAddr s g chunk 0 with
  | some a => storeMem a (List.replicate (gElems g.record * gResidWidth g.record) 0) s
  | none => s

/-- Key of a block's history byte. -/
def historyKey (die id chunk b : Nat) : Nat := groupKey die id * 2 ^ 56 + chunk * 2 ^ 24 + b

/-- R213: one claim on the budget of the context's instance, and the state after it. -/
def claimBudget (k : Nat) (g : Group) (s : State) : Bool × State :=
  let c := s.coll.ctx.get k
  let die := ctxDie k
  let key := slotOfCtx g die c.inst.toNat
  let x := s.coll.slots.get key
  if x.inst ≠ c.inst then (true, s)
  else
    let room := match escBudget s g die with
      | none => true
      | some n => decide (x.escapes < n)
    if room then (true, onSlot key (fun x => { x with escapes := x.escapes + 1 }) s)
    else if x.degraded then (false, s)
    else
      (false, raise 0x0A02 1 (unitOf die 0 0) (args32 [(gId g.record : Int), (c.inst.toNat : Int)])
        (count die 0x5003 0 1 (onSlot key (fun x => { x with degraded := true }) s)))

/-- R203: a block of `n` elements sent poisoned in a format. -/
def sendPoisoned (k f b n : Nat) (s : State) : Bytes × State :=
  (poisonedBlock f n,
    if neverPoisons s k then s else
    count (ctxDie k) 0x5000 0 1 (onCtx k (fun c => { c with
      poison := if c.poison.contains b then c.poison else c.poison ++ [b] }) s))

/-- R209, R215, R217: what the encodings of a chunk leave behind, once its result is computed and sent: history bytes,
residuals, and the count of saturated elements. The chunk's residual lock is free from here on (R218). -/
def settleEncodings (k : Nat) (sent : Bool) (s : State) : State :=
  let c := s.coll.ctx.get k
  let s := onCtx k (fun c => { c with newHistory := [], newResid := [], saturated := 0 }) s
  let s := if !sent then s else
    let s := s.onColl fun x => { x with history := c.newHistory.foldl (fun t y => t.set y.1 y.2) x.history }
    let s := c.newResid.foldl (fun s y => storeMem y.1 y.2 s) s
    if c.saturated = 0 then s else count (ctxDie k) 0x5001 0 c.saturated s
  s.onColl fun x => { x with residHolder := ⟨x.residHolder.dflt, x.residHolder.cells.filter fun y => y.2 != some k⟩ }

/-- R219 for block `b` with the values handed on by R201; none where a residual could not be read. A second encoding of a block
claims, counts and draws anew, against the same history and residual (DESIGN CHOICE, log 115). -/
def encodeBlock (k : Nat) (g : Group) (b : Nat) (vals : List Word) (s : State) : Option Bytes × State :=
  let r := g.record
  let die := ctxDie k
  let c := s.coll.ctx.get k
  let out := gOut r
  let w := gResidWidth r
  let n := vals.length
  let addr := if gFeedback r then residAddr s g c.chunk (32 * b) else none
  if gFeedback r && (match addr with
      | some a => memBad s a (n * w)
      | none => true) then
    (none, count die 0x5005 0 1 (zeroResiduals g c.chunk s))
  else
    let resid := match addr with
      | some a => (pieces w n (memBytes s.mem a (n * w))).map (residValue w)
      | none => []
    let a := if gFeedback r then (vals.zip resid).map fun x => fAdd x.1 x.2 else vals
    if c.poison.contains b || a.any poisons then
      let (bytes, s) := sendPoisoned k out b n s
      (some bytes, s)
    else
      let E := blockExp out a
      let s := if isBlockFormat out && gSjLimit r ≠ 0xFF then
          let key := historyKey die (gId r) c.chunk b
          let h := (s.coll.history.get key).toNat
          let jump := h != 0xFF && decide ((gSjLimit r : Int) < (E + 127 - h).natAbs)
          let s := if jump then
              count die 0x5004 0 1 (onCtx k (fun c => { c with jumped := c.jumped ++ [b] }) s)
            else s
          onCtx k (fun c => { c with newHistory := c.newHistory ++ [(key, BitVec.ofNat 8 (E + 127).toNat)] }) s
        else s
      let (draws, s) := drawBits die (gStoch r) n s
      let (enc, q, sat) := quantBlock out E draws a
      let wants := isNarrow out && escapes (gEscBound r) (gSatLimit r) (scaledBlock E a) q sat
      let (claimed, s) := if wants then claimBudget k g s else (false, s)
      let (f, E, enc, sat, s) :=
        if claimed then
          let e2 := blockExp (gEsc r) a
          let (d2, s) := drawBits die (gStoch r) n s
          let (enc2, _, sat2) := quantBlock (gEsc r) e2 d2 a
          (gEsc r, e2, enc2, sat2,
            count die 0x5002 0 1 (onCtx k (fun c => { c with escaped := c.escaped ++ [b] }) s))
        else (out, E, enc, sat, s)
      let new := match addr with
        | some p => [(p, (a.zip enc).flatMap fun x => residBytes w (fSub x.1 (sentValue f E x.2)))]
        | none => []
      (some (packBlock f E enc), onCtx k (fun c => { c with
        newResid := c.newResid ++ new
        saturated := c.saturated + sat }) s)

/-- Blocks of a dense result from the values of consecutive elements, block number `b` first. -/
def encodeBlocks (k : Nat) (g : Group) : Nat → Nat → List Word → State → Option Bytes × State
  | 0, _, _, s => (some [], s)
  | n + 1, b, vals, s =>
    match encodeBlock k g b (vals.take 32) s with
    | (none, s) => (none, s)
    | (some x, s) =>
      match encodeBlocks k g n (b + 1) (vals.drop 32) s with
      | (none, s) => (none, s)
      | (some y, s) => (some (x ++ y), s)

/-! ### Plain mode (R205 to R207, R203) -/

/-- One block in plain mode, block `b` of its context's result: a poisoned one is sent as R203 says, the saturated elements
of another are counted once it is sent (R209). -/
def plainBlock (k f : Nat) (stoch : Bool) (b : Nat) (a : List Word) (s : State) : Bytes × State :=
  if a.any poisons then sendPoisoned k f b a.length s
  else
    let E := blockExp f a
    let (d, s) := drawBits (ctxDie k) stoch a.length s
    let (enc, _, sat) := quantBlock f E d a
    (packBlock f E enc, onCtx k (fun c => { c with saturated := c.saturated + sat }) s)

/-- Values in `n` blocks of 32, block number `b` first. -/
def plainBlocks (k f : Nat) (stoch : Bool) : Nat → Nat → List Word → State → Bytes × State
  | 0, _, _, s => ([], s)
  | n + 1, b, a, s =>
    let (x, s) := plainBlock k f stoch b (a.take 32) s
    let (y, s) := plainBlocks k f stoch n (b + 1) (a.drop 32) s
    (x ++ y, s)

/-- The rows of a result, each in blocks of its own, block number `b` first. -/
def plainRows (k f : Nat) (stoch : Bool) : Nat → List (List Word) → State → Bytes × State
  | _, [], s => ([], s)
  | b, a :: r, s =>
    let n := ceilDiv a.length 32
    let (x, s) := plainBlocks k f stoch n b a s
    let (y, s) := plainRows k f stoch (b + n) r s
    (x ++ y, s)

/-! ### The code and trailer of a result (R156, R180, R204) -/

/-- R180: the first of the causes that are not failing; `code` is what the image gave. -/
def resultCode (k : Nat) (g : Group) (code overflow : Nat) (s : State) : Nat :=
  let c := s.coll.ctx.get k
  let x := s.coll.slots.get (slotOfCtx g (ctxDie k) c.inst.toNat)
  if code = 8 then 8
  else if c.readSuspect then 10
  else if code = 7 || !c.poison.isEmpty then 7
  else if code = 6 || overflow ≠ 0 then 6
  else if opDense (gOp g.record) && x.inst = c.inst && x.degraded then 13
  else 0

/-- R204: whether a poisoning value poisons the whole chunk. -/
def wholePoison (op : Nat) : Bool := op == 9 || op == 0xA || op == 0xC || op == 0xD

/-- The trailer of a chunk's result (R156). -/
def resultTrailer (k : Nat) (g : Group) (code valid overflow : Nat) (s : State) : Trailer :=
  let c := s.coll.ctx.get k
  let x := s.coll.slots.get (slotOfCtx g (ctxDie k) c.inst.toNat)
  { members := if code = 7 then c.poisoners else c.arrived
    escape := c.escaped
    jump := c.jumped
    poison := if code = 7 && !opDense (gOp g.record) then upTo 128 else c.poison
    overflow := overflow
    valid := valid
    span := spanOf c
    used := if x.inst = c.inst then x.escapes else 0 }

/-- Whether a context is bound to blocks, which are committed once its result has left the image (08 R281). -/
def bound (k : Nat) (g : Group) (s : State) : Bool := !(boundBlocks s g.record (s.coll.ctx.get k).chunk).isEmpty

/-- A chunk's result leaves the image: code, payload and counts (R243, R244, R180). A failing result, and a chunk poisoned
as a whole, carry no payload. The blocks of a bound chunk are committed whatever the code (08 R281): with code 8 such a
context too is SENDING until its commit. -/
def finishChunk (k code elems valid overflow : Nat) (payload : Bytes) (s : State) : State :=
  match groupOfCtx s k with
  | none => s
  | some g =>
    let c := s.coll.ctx.get k
    let due := bound k g s
    if code = 8 then
      if !due then endContext k 8 c.arrived s
      else
        let s := onCtx k (fun c => { c with commitDue := true }) (settleEncodings k false s)
        completeCtx k (resultHead g c.inst.toNat c.chunk 0 0 8) [] { resultTrailer k g 8 0 overflow s with members := c.arrived } s
    else
      let whole := code = 7 || (wholePoison (gOp g.record) && !c.poison.isEmpty)
      let code := resultCode k g code overflow s
      let h := resultHead g c.inst.toNat c.chunk 0 (if whole then 0 else elems) code
      let t := resultTrailer k g code (if whole then 0 else valid) overflow s
      let t := if whole then { t with poison := upTo 128 } else t
      let s := onCtx k (fun c => { c with commitDue := due }) (settleEncodings k (!whole) s)
      completeCtx k h (if whole then [] else payload) t s

end Sys2Proof.Machine
end

