-- ==== Sys2Proof/Machine/LibOps.lean ====
section
/-! DEFINITION. What the library images make of contributions and results, operation by operation (05 R172 to R178; 06 R201 to
R204; 08 R280, R283 to R286, R290). The manual gives the operations, not the library's programs; a group bound to a
library image runs by these rules, a group bound to another image by that image's program. -/

namespace Sys2Proof.Machine

/-! ### A contribution enters its context -/

/-- R204: the whole chunk is poisoned; `j` is the contributor whose value did it, if any. -/
def poisonChunk (k : Nat) (j : Option Nat) (s : State) : State :=
  onCtx k (fun c => { c with
    poison := if c.poison.contains 0 then c.poison else c.poison ++ [0]
    poisoners := match j with
      | some j => if c.poisoners.contains j then c.poisoners else c.poisoners ++ [j]
      | none => c.poisoners }) s

def addOverflow (k n : Nat) (s : State) : State := onCtx k (fun c => { c with overflow := c.overflow + n }) s

/-- Whether an accumulator of a context is finite. -/
def accFinite (c : Ctx) (e : Nat) : Bool := !poisons (c.hi.get e) && !poisons (c.lo.get e)

/-- R173: one pair of SPARSE_ALLREDUCE or TOPK_REDUCE. -/
def addPair (k : Nat) (g : Group) (j idx : Nat) (v : Word) (s : State) : State :=
  let r := g.record
  let c := s.coll.ctx.get k
  let put (load : Bool) (p : Nat) (s : State) : State :=
    let s := if poisons v then poisonChunk k (some j) s else s
    let s := onCtx k (fun c => accElem (gRedop r) (gComp r) load c p v) s
    if accFinite (s.coll.ctx.get k) p then s else poisonChunk k none s
  match c.items.findIdx? fun x => x.1 == idx with
  | some p => put false p s
  | none =>
    if c.items.length < gCap r then put true c.items.length (onCtx k (fun c => { c with items := c.items ++ [(idx, [])] }) s)
    else addOverflow k 1 s

/-- R173: one key of SET_UNION. -/
def addKey (k : Nat) (g : Group) (key : Nat) (s : State) : State :=
  let c := s.coll.ctx.get k
  if c.items.any fun x => x.1 == key then s
  else if c.items.length < gCap g.record then onCtx k (fun c => { c with items := c.items ++ [(key, [])] }) s
  else addOverflow k 1 s

/-- R177: one row of DISPATCH, its contributor written into bits [31:24] of its header. -/
def addRow (k : Nat) (g : Group) (j : Nat) (row : Bytes) (s : State) : State :=
  let c := s.coll.ctx.get k
  if c.items.length < gCap g.record then
    onCtx k (fun c => { c with items := c.items ++ [(j, BitVec.ofNat 8 j :: row.drop 1)] }) s
  else addOverflow k 1 s

/-- R178: one partial merged into M, S and O; S = 0 stands for M = -inf. -/
def attnMerge (m z : Word) (o : List Word) (lam : Word) (x : List Word) : Word × Word × List Word :=
  if z = 0 then (lam, 0x3F800000, x)
  else if !(dec32 m).lt false (dec32 lam) then
    let w := fExp (fSub lam m)
    (m, fAdd z w, (o.zip x).map fun p => fAdd p.1 (fMul w p.2))
  else
    let w := fExp (fSub m lam)
    (lam, fAdd (fMul z w) 0x3F800000, (o.zip x).map fun p => fAdd (fMul p.1 w) p.2)

/-- Where the values O of a position start among the accumulators. -/
def attnBase (g : Group) (p : Nat) : Nat := gElems g.record + p * gRow g.record

def attnO (g : Group) (t : Tab Word) (p : Nat) : List Word := (upTo (gRow g.record)).map fun j => t.get (attnBase g p + j)
def putWords (t : Tab Word) (at_ : Nat) (l : List Word) : Tab Word := (indexed at_ l).foldl (fun t x => t.set x.1 x.2) t

/-- R178, R204: one position of a partial. -/
def addPosition (k : Nat) (g : Group) (j p : Nat) (lam : Word) (o : List Word) (s : State) : State :=
  if lam = negInf then s
  else if poisons lam || o.any poisons then poisonChunk k (some j) s
  else
    let s := onCtx k (fun c =>
      let (m, z, v) := attnMerge (c.hi.get p) (c.lo.get p) (attnO g c.hi p) lam o
      let (sm, sz, sv) := attnMerge (c.shadow.get p) (c.shadow.get (shadowLo p)) (attnO g c.shadow p) lam o
      { c with
        hi := putWords (c.hi.set p m) (attnBase g p) v
        lo := c.lo.set p z
        shadow := if c.sampled then putWords ((c.shadow.set p sm).set (shadowLo p) sz) (attnBase g p) sv else c.shadow }) s
    let c := s.coll.ctx.get k
    if accFinite c p && (attnO g c.hi p).all (fun x => !poisons x) then s else poisonChunk k none s

/-- A contribution of a context enters by the rules of its operation; row operations hold it until it is served. -/
def libAccept (k : Nat) (g : Group) (j : Nat) (f : Bytes) (s : State) : State :=
  let r := g.record
  let op := gOp r
  let n := cElems f 0
  let p := cPayload f 0
  let w := elemBits (gIn r) / 8
  let first := (s.coll.ctx.get k).arrived.head? == some j
  if opDense op then
    let vals := decodeElems (gIn r) (gElems r) p
    accumulate k g first 0 vals (recordPoison k j (badBlocks 0 vals) s)
  else if opRows op then onCtx k (fun c => { c with items := c.items ++ [(j, f)] }) s
  else match op with
  | 0xD =>
    let rb := 4 + rowBytes (gIn r) (gRow r)
    (indexed 0 (pieces rb (gElems r) p)).foldl (fun s x =>
      addPosition k g j x.1 (BitVec.ofNat 32 (beAt x.2 0 4)) (decodeElems (gIn r) (gRow r) (x.2.drop 4)) s) s
  | 0xE => (pieces (4 + rowBytes (gIn r) (gRow r)) n p).foldl (fun s x => addRow k g j x s) s
  | 0xB =>
    let kept := min n (gElems r)
    (pieces 4 kept p).foldl (fun s x => addKey k g (beNat x) s) (addOverflow k (n - kept) s)
  | _ =>
    let kept := min n (gElems r)
    (pieces (4 + w) kept p).foldl (fun s x =>
      addPair k g j (beAt x 0 4) (decodeScalar (gIn r) (beNat (x.drop 4))) s) (addOverflow k (n - kept) s)

/-! ### Rows of a region (08 R283 to R286) -/

/-- FP32 words as memory holds them (R11). -/
def wordsOf (b : Bytes) : List Word := (pieces 4 (b.length / 4) b).map fun x => BitVec.ofNat 32 (leNat x)
def bytesOf (l : List Word) : Bytes := l.flatMap fun x => leBytes 4 x.toNat

/-- Words of 64 bytes of the row space from byte `o` on; none after an error that the memory does not mend. -/
def readRowWords (k : Nat) (r : Region) (h : Nat) : Nat → Nat → State → Option Bytes × State
  | 0, _, s => (some [], s)
  | n + 1, o, s =>
    match reachRow r h o with
    | .word w =>
      match readWord w (noteSuspect k w s) with
      | (some x, s) =>
        match readRowWords k r h n (o + 64) s with
        | (some y, s) => (some (x ++ y), s)
        | (none, s) => (none, s)
      | (none, s) => (none, s)
    | _ => (none, s)

/-- R286: FP32 values added to a row, word by word. -/
def addRowWords (k : Nat) (g : Group) (r : Region) (h : Nat) : Nat → Nat → List Word → State → Bool × State
  | 0, _, _, s => (true, s)
  | n + 1, o, v, s =>
    match reachRow r h o with
    | .word w =>
      match readWord w s with
      | (some x, s) =>
        let d := bytesOf (((wordsOf x).zip (v.take 16 ++ List.replicate (16 - v.length) 0)).map fun y => fAdd y.1 y.2)
        addRowWords k g r h n (o + 64) (v.drop 16) (writeWord k g w d s)
      | (none, s) => (false, s)
    | _ => (false, s)

/-- What serving a contribution of a row operation gives. -/
structure RowReply where
  rows : List (List Word)
  overflow : Nat
  error : Bool
  poison : Bool
  deriving DecidableEq, Repr

/-- R285: the row of an index: its values, zeros where it is skipped or out of range (none: it takes no part). -/
def fetchRow (k : Nat) (g : Group) (r : Region) (idx : Nat) (x : RowReply) (s : State) : Option (List Word) × RowReply × State :=
  if idx = 0xFFFFFFFF then (none, x, s)
  else if r.rows ≤ idx then (none, { x with overflow := x.overflow + 1 }, s)
  else match readRowWords k r (gResident g.record) (r.rowBytes / 64) (idx * r.rowBytes) s with
  | (some b, s) => (some ((wordsOf b).take (gRow g.record)), x, s)
  | (none, s) => (none, { x with error := true }, s)

/-- R201 to R204: rows combined into a bag's accumulators, hi and lo by element. -/
def bagCombine (g : Group) (acc : Option (List (Word × Word))) (row : List Word) : List (Word × Word) :=
  match acc with
  | none => row.map fun x => (x, 0)
  | some l => (l.zip row).map fun x => combine (gRedop g.record) (gComp g.record) x.1.1 x.1.2 x.2

/-- One bag of GATHER_REDUCE. -/
def serveBag (k : Nat) (g : Group) (r : Region) (ids : List Nat) (x : RowReply) (s : State) : RowReply × State :=
  let (acc, x, s) := ids.foldl (fun (y : Option (List (Word × Word)) × RowReply × State) i =>
    let (row, x, s) := fetchRow k g r i y.2.1 y.2.2
    match row with
    | none => (y.1, x, s)
    | some v =>
      let acc := bagCombine g y.1 v
      (some acc, { x with poison := x.poison || v.any poisons || acc.any fun p => poisons p.1 || poisons p.2 }, s)) (none, x, s)
  let v := match acc with
    | some l => l.map fun p => accValue (gComp g.record) p.1 p.2
    | none => List.replicate (gRow g.record) 0
  ({ x with rows := x.rows ++ [v], poison := x.poison || v.any poisons }, s)

/-- The bags of a contribution's payload: `n` lists of indices. -/
def bagsOf : Nat → Bytes → List (List Nat)
  | 0, _ => []
  | n + 1, b =>
    let m := beAt b 0 4
    (pieces 4 m (b.drop 4)).map beNat :: bagsOf n (b.drop (4 + 4 * m))

/-- The rows, sums or additions that answer one contribution. -/
def serveRows (k : Nat) (g : Group) (r : Region) (f : Bytes) (s : State) : RowReply × State :=
  let rec_ := g.record
  let n := cElems f 0
  let p := cPayload f 0
  let kept := min n (gCap rec_)
  let x : RowReply := ⟨[], n - kept, false, false⟩
  match gOp rec_ with
  | 7 => (pieces 4 kept p).foldl (fun (y : RowReply × State) i =>
      let (row, x, s) := fetchRow k g r (beNat i) y.1 y.2
      ({ x with rows := x.rows ++ [row.getD (List.replicate (gRow rec_) 0)] }, s)) (x, s)
  | 8 => (pieces (4 + rowBytes (gIn rec_) (gRow rec_)) kept p).foldl (fun (y : RowReply × State) i =>
      let (x, s) := y
      let idx := beAt i 0 4
      let v := decodeElems (gIn rec_) (gRow rec_) (i.drop 4)
      let bad := v.any poisons
      let x := { x with poison := x.poison || bad }
      if idx = 0xFFFFFFFF then (x, s)
      else if r.rows ≤ idx then ({ x with overflow := x.overflow + 1 }, s)
      else if bad then (x, s)
      else
        let (ok, s) := addRowWords k g r (gResident rec_) (r.rowBytes / 64) (idx * r.rowBytes) v s
        ({ x with error := x.error || !ok }, s)) (x, s)
  | _ => ((bagsOf n p).take kept).foldl (fun (y : RowReply × State) ids => serveBag k g r ids y.1 y.2) (x, s)

/-- A row operation answers the contribution that waits longest, to its sender (R172); after the last of a complete
context, the context is SENDING. -/
def sendRowReply (k code elems valid overflow : Nat) (payload : Bytes) (poisonAll : Bool) (s : State) : State :=
  match groupOfCtx s k, (s.coll.ctx.get k).items with
  | some g, (j, f) :: rest =>
    let c := s.coll.ctx.get k
    let die := ctxDie k
    let s := settleEncodings k (!payload.isEmpty) s
    let s := onCtx k (fun c => { c with items := rest, readSuspect := false, poison := [], poisoners := [] }) s
    let h := resultHead g c.inst.toNat c.chunk 0 elems code
    let t : Trailer := { Trailer.zero with
      members := if code ≠ 7 then c.arrived else if gOp g.record = 8 then [j] else []
      poison := if poisonAll then upTo 128 else if gOp g.record = 8 then [] else c.poison
      overflow := overflow
      valid := valid
      span := spanOf c }
    let dest := eplSrc f 0
    if c.state = .computing && rest.isEmpty && c.staged.isEmpty then completeTo [dest] k h payload t s
    else
      let parts := resultParts s (gClass g.record) h payload t
      retain die ⟨gId g.record, gGen g.record, c.inst, c.chunk, nowNs s % 2 ^ 32, t.members, parts, [dest]⟩
        (sendParts die (gClass g.record) c.chunk [dest] parts s).2
  | _, _ => s

/-- A library row operation serves one contribution. MIRROR_SUSPECT comes before POISONED_INPUT and shows the rows as they were
read (R180, 08 R290); a poisoned bag without it is answered without rows (R204). -/
def libServe (k : Nat) (g : Group) (f : Bytes) (s : State) : State :=
  let rec_ := g.record
  match regionAt s (gResident rec_) with
  | none => s
  | some r =>
    let s := onCtx k (fun c => { c with readSuspect := false }) s
    let (x, s) := serveRows k g r f s
    let suspect := (s.coll.ctx.get k).readSuspect
    if x.error then sendRowReply k 8 0 0 x.overflow [] false s
    else if x.poison && gOp rec_ = 9 && !suspect then sendRowReply k 7 0 0 x.overflow [] true s
    else
      let rows := gOp rec_ ≠ 8
      let items := min (cElems f 0) (gCap rec_)
      let full := gCap rec_ * rowBytes (gOut rec_) (gRow rec_)
      let (payload, s) := plainRows k (gOut rec_) (gStoch rec_) 0 x.rows s
      let poisoned := x.poison || !(s.coll.ctx.get k).poison.isEmpty
      let code := if suspect then 10 else if poisoned then 7 else if x.overflow ≠ 0 then 6 else 0
      let whole := x.poison && gOp rec_ = 9
      sendRowReply k code (if rows then gCap rec_ else 0) (if rows && !whole then items else 0) x.overflow
        (if rows then padTo full payload else []) whole s

/-! ### Results -/

/-- A list with an element put before the first that it precedes. -/
def insertBy {α : Type} (lt : α → α → Bool) (x : α) : List α → List α
  | [] => [x]
  | y :: r => if lt x y then x :: y :: r else y :: insertBy lt x r
def sortBy {α : Type} (lt : α → α → Bool) (l : List α) : List α := l.foldr (insertBy lt) []

/-- R172: descending value, ties by lower index. -/
def topBefore (a b : Nat × Word) : Bool :=
  (dec32 b.2).lt false (dec32 a.2) || ((dec32 b.2).eqv (dec32 a.2) && a.1 < b.1)

/-- The pairs that a set operation sends, and how many items its padded result holds. -/
def setPairs (g : Group) (c : Ctx) : List (Nat × Word) × Nat :=
  let l := (indexed 0 c.items).map fun x => (x.2.1, ctxValue g c x.1)
  if gOp g.record = 0xC then ((sortBy topBefore l).take (gArg g.record), gArg g.record)
  else (sortBy (fun a b => a.1 < b.1) l, gCap g.record)

/-- ATTN_MERGE: the result of one position (R178): its values are one row. -/
def attnResult (k : Nat) (g : Group) (p : Nat) (s : State) : Bytes × State :=
  let c := s.coll.ctx.get k
  let r := g.record
  let z := c.lo.get p
  let (lam, o) :=
    if z = 0 then (negInf, List.replicate (gRow r) (0 : Word))
    else (fAdd (c.hi.get p) (fLog z), (attnO g c.hi p).map fun x => fMul x (fRcp z))
  let (b, s) := plainRows k (gOut r) (gStoch r) (p * ceilDiv (gRow r) 32) [o] s
  (beBytes 4 lam.toNat ++ b, s)

/-- The new bytes of a block written back, word by word (08 R280). -/
def writeBlock (k : Nat) (g : Group) (r : Region) (h b : Nat) : Nat → Nat → Bytes → State → State
  | 0, _, _, s => s
  | n + 1, i, d, s =>
    let w : WordAt := ⟨r.addr b (r.mainCopy b) + 64 * i, some (h, b, 64 * i), r.mainCopy b⟩
    writeBlock k g r h b n (i + 1) (d.drop 64) (writeWord k g w (d.take 64) s)

/-- A block's words read; none after an error that the memory does not mend. -/
def readBlock (r : Region) (h b : Nat) : Nat → Nat → State → Option Bytes × State
  | 0, _, s => (some [], s)
  | n + 1, i, s =>
    match readWord ⟨r.addr b (r.mainCopy b) + 64 * i, some (h, b, 64 * i), r.mainCopy b⟩ s with
    | (some x, s) =>
      match readBlock r h b n (i + 1) s with
      | (some y, s) => (some (x ++ y), s)
      | (none, s) => (none, s)
    | (none, s) => (none, s)

/-- A list of words of a length. -/
def fitWords (n : Nat) (l : List Word) : List Word := l.take n ++ List.replicate (n - l.length) 0

/-- 08 R280: a block after the update: the state of an element whose gradient is not finite stays as it was. -/
def updatedBlock (size : Nat) (old new : Bytes) (grad : List Word) : Bytes :=
  (upTo size).map fun i =>
    if poisons (grad.getD (Config.libraryOwner size grad.length i) 0) then old.getD i 0 else new.getD i 0

/-- REDUCE_UPDATE_BROADCAST: the block is updated from the gradient and the weights to broadcast are answered (05 R175, 08
R280); none where the block cannot be read. -/
def libUpdate (k : Nat) (g : Group) (grad : List Word) (s : State) : Option (List Word) × State :=
  let h := gResident g.record
  let c := s.coll.ctx.get k
  match regionAt s h with
  | none => (none, s)
  | some r =>
    let n := r.blockBytes / 64
    match readBlock r h c.chunk n 0 s with
    | (none, s) => (none, s)
    | (some old, s) =>
      let grad := (indexed 0 grad).map fun x => portValue g c x.1 x.2
      let new := updatedBlock r.blockBytes old (Config.libraryUpdate old grad) grad
      (some (fitWords (gElems g.record) (Config.libraryWeights old grad)), writeBlock k g r h c.chunk n 0 new s)

/-- A dense chunk's result from the values to re-quantise (R219). -/
def denseResult (k : Nat) (g : Group) (vals : List Word) (s : State) : State :=
  let n := gElems g.record
  match encodeBlocks k g (gBlocks g.record) 0 vals s with
  | (some payload, s) => finishChunk k 0 n n 0 payload s
  | (none, s) => endContext k 8 (s.coll.ctx.get k).arrived s

/-- The result of a chunk whose context is COMPUTING, by the rules of its operation. -/
def libResult (k tile : Nat) (g : Group) (s : State) : State :=
  let r := g.record
  let c := s.coll.ctx.get k
  let op := gOp r
  if !shadowAgrees g c then crosscheckFail k tile 0 s
  else if opDense op then
    let vals := (upTo (gElems r)).map (ctxValue g c)
    if op = 6 then
      match libUpdate k g vals s with
      | (some w, s) => denseResult k g w s
      | (none, s) => endContext k 8 c.arrived s
    else denseResult k g vals s
  else match op with
  | 0xB =>
    let keys := sortBy (fun a b => decide (a < b)) (c.items.map (·.1))
    finishChunk k 0 (gCap r) keys.length c.overflow (padTo (4 * gCap r) (keys.flatMap (beBytes 4))) s
  | 0xD =>
    if !c.poison.isEmpty then finishChunk k 7 (gElems r) (gElems r) 0 [] s else
    let (b, s) := (upTo (gElems r)).foldl (fun (x : Bytes × State) p =>
      let (y, s) := attnResult k g p x.2
      (x.1 ++ y, s)) ([], s)
    finishChunk k 0 (gElems r) (gElems r) 0 b s
  | 0xE =>
    let rb := 4 + rowBytes (gIn r) (gRow r)
    finishChunk k 0 (gCap r) c.items.length c.overflow (padTo (gCap r * rb) (c.items.flatMap (·.2))) s
  | _ =>
    let (l, n) := setPairs g c
    let s := if l.any fun x => poisons x.2 then poisonChunk k none s else s
    if !(s.coll.ctx.get k).poison.isEmpty then finishChunk k 7 n l.length c.overflow [] s else
    let (b, s) := l.foldl (fun (x : Bytes × State) p =>
      let (y, s) := plainRows k (gOut r) (gStoch r) 0 [[p.2]] x.2
      (x.1 ++ beBytes 4 p.1 ++ y, s)) ([], s)
    finishChunk k 0 n l.length c.overflow (padTo (n * (4 + elemBits (gOut r) / 8)) b) s

end Sys2Proof.Machine
end

