-- ==== Sys2Proof/Machine/Tiles.lean ====
section
/-! DEFINITION. Images on tiles: the sections of a container, the tiles an image covers, links and edge buffers, registers at
load, and what a fault does (07 R222 to R229, R237, R251, R253, R254, R260 to R265). -/

namespace Sys2Proof.Machine

/-! ### Sections of a container (R253, R254) -/

/-- Offset, length and record count of a section. -/
structure Sect where
  off : Nat
  len : Nat
  n : Nat
  deriving DecidableEq, Repr

def sectEntry (b : Bytes) (i : Nat) : Nat × Nat × Sect :=
  let o := leAt b 44 4 + 16 * i
  (leAt b o 2, leAt b (o + 2) 2, ⟨leAt b (o + 4) 4, leAt b (o + 8) 4, leAt b (o + 12) 4⟩)
def sectEntries (b : Bytes) : List (Nat × Nat × Sect) := (upTo (leAt b 42 2)).map (sectEntry b)
def sectOf (b : Bytes) (ty : Nat) : Option Sect := ((sectEntries b).find? fun x => x.1 == ty).map fun x => x.2.2
/-- The records of a section. -/
def sectRecords (b : Bytes) (ty len : Nat) : List Bytes :=
  match sectOf b ty with
  | some x => pieces len x.n (slice b x.off (x.n * len))
  | none => []

def cellRecords (b : Bytes) : List Bytes := sectRecords b 1 296
def switchRecords (b : Bytes) : List Bytes := sectRecords b 2 20
def bindRecords (b : Bytes) : List Bytes := sectRecords b 4 8
def regRecords (b : Bytes) : List Bytes := sectRecords b 5 68

/-- The record of a position, by its first three bytes. -/
def atPosition (l : List Bytes) (t r c : Nat) : Option Bytes :=
  l.find? fun x => byteAt x 0 == t && byteAt x 1 == r && byteAt x 2 == c

/-- R231: trigger entry `i` of a cell record, and R234: instruction `i`. -/
def triggerOf (rec_ : Bytes) (i : Nat) : Nat := leAt rec_ (4 + 4 * i) 4
def instrOf (rec_ : Bytes) (i : Nat) : Nat := leAt rec_ (40 + 8 * i) 8
/-- R237: the select code of output `k` of a switchbox; 31 where no record names it. -/
def selectOf (b : Bytes) (t r c k : Nat) : Nat :=
  match atPosition (switchRecords b) t r c with
  | some x => leAt x 4 16 / 2 ^ (5 * k) % 32
  | none => 31
/-- R247: instruction `i` of walk program `p`. -/
def walkInstr (b : Bytes) (p i : Nat) : Nat :=
  match sectOf b 3 with
  | some x => leAt b (x.off + 64 * p + 4 * i) 4
  | none => 0
/-- R251: pair `i`: ingress tile and port, egress tile and port. -/
def pairOf (b : Bytes) (i : Nat) : Option (Nat × Nat × Nat × Nat) :=
  ((bindRecords b).find? fun x => byteAt x 0 == i).map fun x => (byteAt x 1, byteAt x 2, byteAt x 3, byteAt x 4)

/-! ### Tiles of an image -/

/-- Handle, image and logical tile of the image that covers a tile. -/
def imageOn (s : State) (die tile : Nat) : Option (Nat × Image × Nat) :=
  ((upTo 65).filterMap fun h =>
    let a := s.fabric.placed.get (imgKey die h)
    match imageAt s h with
    | some i => if a ≠ 0 && a - 1 ≤ tile && tile < a - 1 + i.tiles then some (h, i, tile - (a - 1)) else none
    | none => none).head?

/-- The image of a tile, where it runs. -/
def runningOn (s : State) (die tile : Nat) : Option (Nat × Image × Nat) :=
  match imageOn s die tile with
  | some (h, i, t) =>
    if s.fabric.stopped.get (imgKey die h) || s.fabric.failed.get (imgKey die h) || !tileUp s die tile || !dieUp s die
        || !clocksRun s then none
    else some (h, i, t)
  | none => none

/-- Contexts of an image on a die that a test picks. -/
def imageCtxs (s : State) (die h : Nat) (p : Ctx → Bool) : List Nat :=
  (ctxKeys s die p).filter fun k => k < 2 ^ 40 && match groupOfCtx s k with
    | some g => g.image == h
    | none => false

/-- R260: progress of an image. -/
def progress (die h : Nat) (s : State) : State :=
  s.onFabric fun x => { x with progressAt := x.progressAt.set (imgKey die h) (nowNs s) }

/-! ### Keys and buffers (R224, R229) -/

def tileKey (die tile : Nat) : Nat := die * 8 + tile
def cellKey (die tile row col : Nat) : Nat := (tileKey die tile * 8 + row) * 16 + col
/-- Buffers of a position: 0 to 15 the tracks by their source codes, 16 to 19 the cell's output ports, 20 to 23 its inputs. -/
def linkKey (die tile row col k : Nat) : Nat := cellKey die tile row col * 24 + k
/-- Edge units: 0 to 15 north, 16 to 31 south. -/
def unitKey (die tile unit : Nat) : Nat := tileKey die tile * 32 + unit

/-- Source code of an edge unit's outbound track at its switchbox, with the row and column. -/
def unitPlace (unit : Nat) : Nat × Nat × Nat := if unit < 16 then (0, unit, 0) else (7, unit - 16, 8)

/-- The tokens that wait at a source of a switchbox: the outbound track of an edge unit is that unit's own buffer. -/
def srcTokens (s : State) (die tile row col code : Nat) : List Token :=
  if row = 0 && code = 0 then s.fabric.edgeOut.get (unitKey die tile col)
  else if row = 7 && code = 8 then s.fabric.edgeOut.get (unitKey die tile (16 + col))
  else s.fabric.links.get (linkKey die tile row col code)
def setSrc (die tile row col code : Nat) (l : List Token) (s : State) : State :=
  s.onFabric fun x =>
    if row = 0 && code = 0 then { x with edgeOut := x.edgeOut.set (unitKey die tile col) l }
    else if row = 7 && code = 8 then { x with edgeOut := x.edgeOut.set (unitKey die tile (16 + col)) l }
    else { x with links := x.links.set (linkKey die tile row col code) l }

/-- R229: whether the outbound track of an edge unit has a route. -/
def unitRouted (i : Image) (lt unit : Nat) : Bool :=
  let (r, c, code) := unitPlace unit
  (upTo 20).any fun k => selectOf i.bytes lt r c k == code

/-- Whether an edge unit may give a token, and the token given; without a route it is discarded. -/
def unitRoom (s : State) (die tile unit : Nat) (routed : Bool) : Bool :=
  !routed || (s.fabric.edgeOut.get (unitKey die tile unit)).length < 4
def unitGive (die tile unit : Nat) (routed : Bool) (t : Token) (s : State) : State :=
  if routed then s.onFabric fun x => { x with edgeOut := x.edgeOut.modify (unitKey die tile unit) (· ++ [t]) } else s

def unitHead (s : State) (die tile unit : Nat) : Option Token := (s.fabric.edgeIn.get (unitKey die tile unit)).head?
def unitTake (die tile unit : Nat) (s : State) : State :=
  s.onFabric fun x => { x with edgeIn := x.edgeIn.modify (unitKey die tile unit) (·.drop 1) }

def unitWork (s : State) (die tile unit : Nat) : UnitWork := s.fabric.work.get (unitKey die tile unit)
def onWork (die tile unit : Nat) (f : UnitWork → UnitWork) (s : State) : State :=
  s.onFabric fun x => { x with work := x.work.modify (unitKey die tile unit) f }

/-- A unit gives the oldest of its waiting tokens, where there is room. -/
def unitDrain (die tile unit h : Nat) (routed : Bool) (s : State) : State :=
  match (unitWork s die tile unit).queue with
  | t :: rest =>
    if unitRoom s die tile unit routed then
      progress die h (unitGive die tile unit routed t (onWork die tile unit (fun x => { x with queue := rest }) s))
    else s
  | [] => s

/-! ### Tokens as bytes and elements (R225, R227) -/

def lanes16 (l : List Word) : List Word := l.take 16 ++ List.replicate (16 - l.length) 0
def lane (t : Token) (j : Nat) : Nat := (t.data.getD j 0).toNat
/-- R225: the bytes that a token carries. -/
def tokenBytes (t : Token) : Bytes := (upTo 16).flatMap fun j => beBytes 4 (lane t j)
def bytesToken (b : Bytes) (tag : BitVec 16) : Token :=
  ⟨(pieces 4 16 (padTo 64 b)).map fun x => BitVec.ofNat 32 (beNat x), tag, 0⟩
/-- A token of a kind with given lanes. -/
def natToken (kind : Nat) (tag : BitVec 16) (l : List Nat) : Token := ⟨lanes16 (l.map (BitVec.ofNat 32)), tag, kind⟩
/-- R227: an element stream of `n` elements. -/
def elemTokens (tag : BitVec 16) (l : List Word) : List Token := (pieces 16 (ceilDiv l.length 16) l).map fun x => ⟨lanes16 x, tag, 0⟩
/-- R227: the DATA tokens of a packed stream, and its LAST. -/
def packedTokens (tag : BitVec 16) (b : Bytes) : List Token :=
  (pieces 64 (ceilDiv b.length 64) b).map (bytesToken · tag) ++ [natToken 2 tag [b.length]]

/-- R228: the context that a tag names, where its group is bound to the image. -/
def tagCtx (s : State) (die h : Nat) (tag : BitVec 16) : Option (Nat × Group) :=
  let k := ctxKey die (tag.toNat % 4096)
  match groupOfCtx s k with
  | some g => if (s.coll.ctx.get k).group ≠ 0 && g.image = h then some (k, g) else none
  | none => none

/-! ### Load and faults (R254, R260 to R262) -/

/-- Tiles that an image covers on a die. -/
def tilesOf (s : State) (die h : Nat) : List Nat :=
  match imageAt s h with
  | some i => (upTo i.tiles).map (· + s.fabric.placed.get (imgKey die h) - 1)
  | none => []

/-- Every buffer, unit and thread of a set of tiles emptied. -/
def emptyTiles (die : Nat) (tiles : List Nat) (s : State) : State :=
  let mine (t : Nat) : Bool := tiles.any fun x => tileKey die x == t
  s.onFabric fun x => { x with
    links := x.links.erase fun k => mine (k / 3072)
    edgeIn := x.edgeIn.erase fun k => mine (k / 32)
    edgeOut := x.edgeOut.erase fun k => mine (k / 32)
    du := x.du.erase fun k => mine (k / 4096 / 32)
    work := x.work.erase fun k => mine (k / 32)
    threads := x.threads.erase fun k => mine (k / 512) }

/-- A cell's registers with one REGINIT record applied. -/
def initReg (c : CellRegs) (rec_ : Bytes) : CellRegs :=
  let n := byteAt rec_ 3
  if n < 16 then
    { c with v := (upTo 16).foldl (fun t j => t.set (16 * n + j) (BitVec.ofNat 32 (leAt rec_ (4 + 4 * j) 4))) c.v }
  else { c with p := c.p.set (n - 16) (BitVec.ofNat 16 (leAt rec_ 4 2)) }

/-- R254: every cell of an image takes its REGINIT values, or zero. -/
def loadCells (die h : Nat) (s : State) : State :=
  match imageAt s h with
  | none => s
  | some i =>
    let a := s.fabric.placed.get (imgKey die h) - 1
    let mine (k : Nat) : Bool := (upTo i.tiles).any fun t => k / 128 == tileKey die (a + t)
    s.onFabric fun x => { x with cells := (regRecords i.bytes).foldl (fun t r =>
      t.modify (cellKey die (a + byteAt r 0) (byteAt r 1) (byteAt r 2)) fun c => initReg c r) (x.cells.erase mine) }

/-- The cause number that an event shows: R236 numbers 1 to 4; 5 TAG_FOREIGN, 6 UNIT_SEQUENCE, 7 CP_RANGE, 8 WALK_RANGE, 9
WALK_ALIGN, 10 WALK_UNDERRUN, 11 STALL and 12 a retirement have none in the manual. -/
def causeNumber (c : Nat) : Nat := if c ≤ 4 then c else Config.faultCause c

/-- R261 step 1: no thread of the image runs any more, so no context waits for one. -/
def threadsStop (die h : Nat) (s : State) : State :=
  (imageCtxs s die h fun _ => true).foldl (fun s k => onCtx k (fun c => { c with threads := 0 }) s) s

/-- R261, R262: an image faults on its die. -/
def faultImage (die h : Nat) (f : ImageFaultRec) (s : State) : State :=
  let k := imgKey die h
  let s := threadsStop die h (emptyTiles die (tilesOf s die h) s)
  let s := s.onFabric fun x => { x with stopped := x.stopped.set k true }
  let keys := imageCtxs s die h fun c => c.state == .collecting || c.state == .computing
  let s := keys.foldl (fun s k => endContext k 11 (s.coll.ctx.get k).arrived s) s
  let s := raise 0x0B01 0 (unitOf die f.tile 0)
    (args32 [(h : Int), (f.row : Int), (f.col : Int), (causeNumber f.cause : Int), (f.addr : Int)]) s
  let recent := (s.fabric.faultTimes.get k).filter fun t => nowNs s < t + 10 ^ 9
  let times := nowNs s :: recent
  s.onFabric fun x => { x with
    faultRec := x.faultRec.modify h fun l => (l ++ [f]).drop (l.length + 1 - 16)
    faultTimes := x.faultTimes.set k times
    failed := if 4 ≤ times.length then x.failed.set k true else x.failed }

/-- A fault of an edge unit: it has neither a cell nor a program address, which the manual leaves open (log 10). -/
def unitFault (die tile h cause : Nat) (s : State) : State :=
  let (r, s) := draw s
  let (c, s) := draw s
  let (a, s) := draw s
  faultImage die h ⟨die, tile, r % 8, c % 16, cause, a % 32, 0⟩ s

/-- R261 step 4, R264: an image resumes from its resident copy with REGINIT values. -/
def resumeImage (die h : Nat) (s : State) : State :=
  let s := loadCells die h (threadsStop die h (emptyTiles die (tilesOf s die h) s))
  progress die h (s.onFabric fun x => { x with stopped := x.stopped.set (imgKey die h) false })

end Sys2Proof.Machine
end

