-- ==== Sys2Proof/Machine/Cells.lean ====
section
/-! DEFINITION. Operator cells: operands, opcodes, triggers, firing and switchbox routes (07 R229 to R238). -/

namespace Sys2Proof.Machine

/-! ### Fields of an instruction (R234) -/

def iOp (w : Nat) : Nat := bits w 63 58
def iEnd (w : Nat) : Bool := bit w 57
def iDst (w : Nat) : Nat := bits w 52 48
def iA (w : Nat) : Nat := bits w 47 43
def iB (w : Nat) : Nat := bits w 42 38
def iC (w : Nat) : Nat := bits w 37 33
def iImm (w : Nat) : Nat := bits w 31 0

/-! ### Lane operations (R235) -/

/-- 06 R208: fresh random words of a die's generator. -/
def drawWords (die : Nat) : Nat → State → List Word × State
  | 0, s => ([], s)
  | n + 1, s =>
    let (v, s) := drawOn die s
    let (l, s) := drawWords die n s
    (BitVec.ofNat 32 v :: l, s)

/-- Both BF16 halves of a lane, [31:16] first. -/
def halves (f : Nat → Nat → Nat → Nat) (a b c : Word) : Word :=
  BitVec.ofNat 32 (f (a.toNat / 65536) (b.toNat / 65536) (c.toNat / 65536) * 65536
    + f (a.toNat % 65536) (b.toNat % 65536) (c.toNat % 65536))

/-- One lane of an arithmetic opcode. -/
def laneOp (op imm : Nat) (a b c : Word) : Word :=
  match op with
  | 0x01 => a
  | 0x03 => a + b
  | 0x04 => a - b
  | 0x05 => a * b
  | 0x06 => a &&& b
  | 0x07 => a ||| b
  | 0x08 => a ^^^ b
  | 0x09 => a <<< (b.toNat % 32)
  | 0x0A => a >>> (b.toNat % 32)
  | 0x0B => a.sshiftRight (b.toNat % 32)
  | 0x0C => if b.slt a then b else a
  | 0x0D => if a.slt b then b else a
  | 0x10 => fAdd a b
  | 0x11 => fSub a b
  | 0x12 => fMul a b
  | 0x13 => fFma a b c
  | 0x14 => fMax a b
  | 0x15 => fMin a b
  | 0x18 => fRcp a
  | 0x19 => fRsqrt a
  | 0x1A => fSqrt a
  | 0x1B => fExp a
  | 0x1C => fLog a
  | 0x1D => fCvtI a
  | 0x1E => iCvtF a
  | 0x20 => halves (fun x y z => bfOut 0x20 x y z ((decBf x).add (decBf y))) a b 0
  | 0x21 => halves (fun x y z => bfOut 0x21 x y z ((decBf x).mul (decBf y))) a b 0
  | 0x22 => halves (fun x y z => bfOut 0x22 x y z (((decBf x).mul (decBf y)).add (decBf z))) a b c
  | 0x23 => halves (fun x y _ => (x + y) % 65536) a b 0
  | 0x24 => halves (fun x y _ => x * y % 65536) a b 0
  | 0x25 => BitVec.ofNat 32 ((if bit imm 0 then a.toNat / 65536 else a.toNat % 65536) * 65536)
  | 0x26 => BitVec.ofNat 32 (bfOut 0x26 a.toNat 0 0 (dec32 a) * 65536 + bfOut 0x26 b.toNat 0 0 (dec32 b))
  | _ => 0

/-- ICMP (R235). -/
def icmp (kind : Nat) (a b : Word) : Bool :=
  match kind with
  | 0 => a == b | 1 => a != b | 2 => a.slt b | 3 => a.sle b | 4 => b.slt a | 5 => b.sle a | 6 => a.ult b | _ => b.ule a

/-- FCMP (R235). -/
def fcmp (kind : Nat) (a b : Word) : Bool :=
  let x := dec32 a
  let y := dec32 b
  match kind with
  | 0 => x.eqv y | 1 => x.lt false y | 2 => x.lt false y || x.eqv y | _ => x.isNan || y.isNan

/-- FCLASS (R235). -/
def fclass (mask : Nat) (a : Word) : Bool :=
  let v := dec32 a
  let ex := a.toNat / 2 ^ 23 % 256
  let man := a.toNat % 2 ^ 23
  (bit mask 0 && v.isNan) || (bit mask 1 && v.isInf) || (bit mask 2 && ex == 0 && man == 0) || (bit mask 3 && ex == 0 && man != 0)

/-- Predicate bits from one Boolean per lane. -/
def predBits (l : List Bool) : BitVec 16 := BitVec.ofNat 16 ((indexed 0 l).foldl (fun a x => if x.2 then a + 2 ^ x.1 else a) 0)

/-! ### A firing (R230 to R236) -/

/-- A cell in the course of a firing: registers, tokens sent, and the exception that stopped it. -/
structure Firing where
  regs : CellRegs
  sent : List (Nat × Token)
  fault : Option (Nat × Nat)
  deriving DecidableEq, Repr

/-- R230: the 16 lanes of an operand; none for a port outside IN_MASK. -/
def operand (r : CellRegs) (heads : List (Option Token)) (inMask imm code : Nat) : Option (List Word) :=
  if code < 16 then some ((upTo 16).map fun j => r.v.get (16 * code + j))
  else match code with
  | 0x14 => some (List.replicate 16 (BitVec.ofNat 32 imm))
  | 0x15 => some ((upTo 16).map (BitVec.ofNat 32))
  | 0x17 => some (List.replicate 16 (BitVec.ofNat 32 r.tag.toNat))
  | 0x16 => some (List.replicate 16 0)
  | _ =>
    if 0x10 ≤ code && code ≤ 0x13 then
      (if bit inMask (code - 0x10) then some (lanes16 (((heads.getD (code - 0x10) none).map (·.data)).getD [])) else none)
    else some (List.replicate 16 0)

/-- Which operands an opcode reads: SA, SB, SC (R235). -/
def readsA (op : Nat) : Bool := !(op == 0x00 || op == 0x30 || op == 0x31 || op == 0x3A || op == 0x3B)
def readsB (op : Nat) : Bool :=
  (0x03 ≤ op && op ≤ 0x0E) || (0x10 ≤ op && op ≤ 0x16) || (0x20 ≤ op && op ≤ 0x24) || op == 0x26 || op == 0x28
def readsC (op : Nat) : Bool := op == 0x13 || op == 0x22

/-- Lanes that the guard of an instruction lets through (R234). -/
def guardLanes (r : CellRegs) (w : Nat) : BitVec 16 :=
  if bit w 56 then
    let p := r.p.get (bits w 54 53)
    if bit w 55 then ~~~p else p
  else 0xFFFF#16

/-- A vector register written under a guard. -/
def writeV (r : CellRegs) (d : Nat) (g : BitVec 16) (l : List Word) : CellRegs :=
  { r with v := (indexed 0 (l.take 16)).foldl (fun t x => if g.getLsbD x.1 then t.set (16 * (d % 16) + x.1) x.2 else t) r.v }
/-- A predicate register written under a guard. -/
def writeP (r : CellRegs) (d : Nat) (g b : BitVec 16) : CellRegs :=
  let d := d % 4
  { r with p := r.p.set d ((r.p.get d &&& ~~~g) ||| (b &&& g)) }

/-- One instruction (R235). -/
def execInstr (die : Nat) (heads : List (Option Token)) (inMask outMask w : Nat) (f : Firing) (s : State) : Firing × State :=
  let op := iOp w
  let imm := iImm w
  let r := f.regs
  let opd (use : Bool) (code : Nat) : Option (List Word) :=
    if use then operand r heads inMask imm code else some (List.replicate 16 0)
  match opd (readsA op) (iA w), opd (readsB op) (iB w), opd (readsC op) (iC w) with
  | some a, some b, some c =>
    let g := guardLanes r w
    let d := iDst w
    let wv (l : List Word) : Firing := { f with regs := writeV r d g l }
    let wp (l : List Bool) : Firing := { f with regs := writeP r d g (predBits l) }
    let lanesOf (h : Word → Word → Word → Word) : List Word := ((a.zip b).zip c).map fun x => h x.1.1 x.1.2 x.2
    if op = 0x00 then (f, s)
    else if op = 0x0E then (wp ((a.zip b).map fun x => icmp (imm % 8) x.1 x.2), s)
    else if op = 0x16 then (wp ((a.zip b).map fun x => fcmp (imm % 4) x.1 x.2), s)
    else if op = 0x17 then (wp (a.map (fclass (imm % 16))), s)
    else if op = 0x28 then (wv (b.map fun x => a.getD (x.toNat % 16) 0), s)
    else if op = 0x29 then (wv (List.replicate 16 (a.getD (imm % 16) 0)), s)
    else if op = 0x2B then (wv (List.replicate 16 (fRed (imm % 4) a)), s)
    else if op = 0x30 then
      let x := r.p.get (iA w % 4)
      let y := r.p.get (iB w % 4)
      (wp ((upTo 16).map fun j => bit imm (2 * (if x.getLsbD j then 1 else 0) + if y.getLsbD j then 1 else 0)), s)
    else if op = 0x31 then ({ f with regs := writeP r d g (BitVec.ofNat 16 imm) }, s)
    else if op = 0x38 then
      let o := d % 4
      if !g.getLsbD 0 then (f, s)
      else if !bit outMask o || f.sent.any fun x => x.1 == o then ({ f with fault := some (2, 0) }, s)
      else
        let tag := if bit imm 4 then BitVec.ofNat 16 (imm / 65536) else r.tag
        ({ f with sent := f.sent ++ [(o, ⟨a, tag, imm % 16⟩)] }, s)
    else if op = 0x39 then
      ((if g.getLsbD 0 then { f with regs := { r with tag := BitVec.ofNat 16 (a.headD 0).toNat } } else f), s)
    else if op = 0x3A then
      let (l, s) := drawWords die 16 s
      (wv l, s)
    else if op = 0x3B then ({ f with fault := some (3, imm % 256) }, s)
    else (wv (lanesOf (laneOp op imm)), s)
  | _, _, _ => ({ f with fault := some (1, 0) }, s)

/-- R233: a block from an address to its END; the address where a fault stopped it. -/
def runBlock (die : Nat) (rec_ : Bytes) (heads : List (Option Token)) (inMask outMask : Nat) : Nat → Nat → Firing → State → Nat × Firing × State
  | 0, pc, f, s => (pc, f, s)
  | n + 1, pc, f, s =>
    let w := instrOf rec_ pc
    let (f, s) := execInstr die heads inMask outMask w f s
    if f.fault.isSome || iEnd w then (pc, f, s) else runBlock die rec_ heads inMask outMask n (pc + 1) f s

/-- R231, R232: whether a trigger entry is eligible. -/
def eligible (s : State) (key t : Nat) (heads : List (Option Token)) (r : CellRegs) : Bool :=
  let inMask := bits t 30 27
  let outMask := bits t 22 19
  bit t 31 && (upTo 4).all (fun i => !bit inMask i || (heads.getD i none).isSome)
    && (!bit t 18 || ((heads.getD (bits t 17 16) none).map (·.kind)) == some (bits t 15 12))
    && (!bit t 11 || (r.p.get (bits t 10 9)).getLsbD 0 == bit t 8)
    && (upTo 4).all fun o => !bit outMask o || (s.fabric.links.get (key * 24 + 16 + o)).length < 4

/-- CELL_FIRE: the lowest eligible trigger of a cell fires and its block runs to END. -/
def cellFire (die tile row col : Nat) (s : State) : State :=
  match runningOn s die tile with
  | none => s
  | some (h, i, lt) =>
    match atPosition (cellRecords i.bytes) lt row col with
    | none => s
    | some rec_ =>
      let key := cellKey die tile row col
      let heads := (upTo 4).map fun p => (s.fabric.links.get (key * 24 + 20 + p)).head?
      let regs := s.fabric.cells.get key
      match ((upTo 8).map (triggerOf rec_)).find? fun t => eligible s key t heads regs with
      | none => s
      | some t =>
        if regs.parityBad then faultImage die h ⟨die, tile, row, col, 4, bits t 4 0, 0⟩ s
        else
          let inMask := bits t 30 27
          let tag := (((upTo 4).find? (bit inMask)).bind fun p => (heads.getD p none).map (·.tag)).getD 0
          let (pc, f, s) := runBlock die rec_ heads inMask (bits t 22 19) 32 (bits t 4 0) ⟨{ regs with tag := tag }, [], none⟩ s
          match f.fault with
          | some (cause, code) => faultImage die h ⟨die, tile, row, col, cause, pc, code⟩ s
          | none =>
            let deq := bits t 26 23
            progress die h (s.onFabric fun x => { x with
              cells := x.cells.set key f.regs
              links := f.sent.foldl (fun l y => l.modify (key * 24 + 16 + y.1) (· ++ [y.2]))
                ((upTo 4).foldl (fun l p => if bit deq p then l.modify (key * 24 + 20 + p) (·.drop 1) else l) x.links) })

def execCellFire (die : DieIx) (tile : TileIx) (row : Fin 8) (col : Fin 16) (s : State) : Host.Outcome State Fault Refusal :=
  .next (cellFire die tile row col s)

/-! ### Routes (R223, R229, R237) -/

/-- Where an output of a switchbox ends. -/
inductive Hop where
  | link (tile row col k : Nat)
  | edge (unit : Nat)
  | cut
  deriving DecidableEq, Repr

/-- R237: the far end of output `k`; tracks that leave the footprint are cut (R223). -/
def hopOf (i : Image) (tile lt row col k : Nat) : Hop :=
  let t := k % 4
  if 16 ≤ k then .link tile row col (20 + t)
  else match k / 4 with
  | 0 => if row = 0 then (if t = 0 then .edge col else .cut) else .link tile (row - 1) col (8 + t)
  | 1 => if col < 15 then .link tile row (col + 1) (12 + t) else if lt + 1 < i.tiles then .link (tile + 1) row 0 (12 + t) else .cut
  | 2 => if row = 7 then (if t = 0 then .edge (16 + col) else .cut) else .link tile (row + 1) col t
  | _ => if 0 < col then .link tile row (col - 1) (4 + t) else if 0 < lt then .link (tile - 1) row 15 (4 + t) else .cut

/-- Whether the far end of a hop has room: 4 tokens a buffer. -/
def hopRoom (s : State) (die tile : Nat) : Hop → Bool
  | .link t r c k => (s.fabric.links.get (linkKey die t r c k)).length < 4
  | .edge u => (s.fabric.edgeIn.get (unitKey die tile u)).length < 4
  | .cut => false

def hopPut (die tile : Nat) (t : Token) (s : State) : Hop → State
  | .link tl r c k => s.onFabric fun x => { x with links := x.links.modify (linkKey die tl r c k) (· ++ [t]) }
  | .edge u => s.onFabric fun x => { x with edgeIn := x.edgeIn.modify (unitKey die tile u) (· ++ [t]) }
  | .cut => s

/-- TOKEN_LINK_CROSSING: the head token of the source that an output selects crosses every output that selects it, once
each of them has room. -/
def tokenCross (die tile row col output : Nat) (s : State) : State :=
  match runningOn s die tile with
  | none => s
  | some (_, i, lt) =>
    let code := selectOf i.bytes lt row col output
    if 20 ≤ code then s
    else match srcTokens s die tile row col code with
    | [] => s
    | t :: rest =>
      let hops := ((upTo 20).filter fun k => selectOf i.bytes lt row col k == code).map (hopOf i tile lt row col)
      if hops.all (hopRoom s die tile) then
        hops.foldl (hopPut die tile t) (setSrc die tile row col code rest s)
      else s

def execTokenLinkCrossing (die : DieIx) (tile : TileIx) (row : Fin 8) (col : Fin 16) (output : Fin 20) (s : State) :
    Host.Outcome State Fault Refusal :=
  .next (tokenCross die tile row col output s)

end Sys2Proof.Machine
end

