-- ==== Sys2Proof/Machine/Collect.lean ====
section
/-! DEFINITION. Contributions at their ingress and home dies, instances, poisoning, timeouts, and the life of a group (05
R141 to R190, 03 R111, 01 R33, R34). -/

namespace Sys2Proof.Machine

/-! ### Checks of a contribution (R159, R199) -/

/-- R172: the ELEM_COUNT of a fixed operation. -/
def fixedCount (r : Bytes) : Option Nat :=
  if opDense (gOp r) || gOp r = 0xD then some (gElems r) else if gOp r = 0xF then some 0 else none

/-- R159; a chunk the group does not have is taken as offending (log 47). -/
def offends (g : Group) (f : Bytes) (o : Nat) : Bool :=
  let r := g.record
  cSig f o != g.sig.toNat || cOp f o != gOp r || cFormat f o != gIn r || gChunks r ≤ cChunk f o
    || (match fixedCount r with
        | some n => cElems f o != n
        | none => false)

/-- The bytes that `n` bags take: each a length and its indices. -/
def bagBytes : Nat → Bytes → Nat
  | 0, _ => 0
  | n + 1, b =>
    let k := 4 + 4 * beAt b 0 4
    k + bagBytes n (b.drop k)

/-- R199: the payload length that FORMAT, ELEM_COUNT and the operation give; none where the format or operation code is
not defined, or the count is not a whole number of blocks. -/
def expectedLen (r : Bytes) (op fmt n : Nat) (payload : Bytes) : Option Nat :=
  let whole (k : Nat) : Bool := !isBlockFormat fmt || k % 32 == 0
  let row := rowBytes fmt (gRow r)
  if opDense op || opPass op then (if whole n then some (elemBytes fmt n) else none)
  else match op with
  | 7 => some (4 * n)
  | 8 => if whole (gRow r) then some (n * (4 + row)) else none
  | 9 => some (bagBytes n payload)
  | 0xA => some (n * (4 + elemBits fmt / 8))
  | 0xB => some (4 * n)
  | 0xC => some (n * (4 + elemBits fmt / 8))
  | 0xD => if whole (gRow r) then some (n * (4 + row)) else none
  | 0xE => if whole (gRow r) then some (n * (4 + row)) else none
  | 0xF => some 0
  | _ => some payload.length

/-- R142, R199: a contribution of a length that its fields do not give, or above 8,192 bytes where the record sets no
bound. An undefined format code is left to R159. -/
def badLength (g : Group) (f : Bytes) (o : Nat) : Bool :=
  let p := cPayload f o
  ((gOp g.record == 9 || gOp g.record == 0xE) && 8192 < p.length)
    || (isFormat (cFormat f o) && expectedLen g.record (cOp f o) (cFormat f o) (cElems f o) p != some p.length)

/-! ### The ingress die (R149, R154, R170, R174) -/

/-- A contribution that goes no further frees its peer's credit. -/
def contributionGone (c : Contribution) (s : State) : State :=
  unitsFreed c.port (eplClass c.bytes (eplAt c.bytes)) (ceilDiv c.bytes.length 256) s

/-- PASSTHROUGH_CONTRIBUTION (R174). -/
def passThrough (die : Nat) (g : Group) (f : Bytes) (o : Nat) (s : State) : State :=
  let r := g.record
  let j := cContributor f o
  if gMembers r ≤ j then count die 0x4002 0 1 s
  else if offends g f o then replyTo die f 1 (some g) s
  else if gOp r = 4 && j ≠ gRoot r then count die 0x4003 0 1 s
  else
    let n := cElems f o
    let kept := min n (gElems r)
    let payload := padTo (elemBytes (gIn r) (gElems r)) ((cPayload f o).take (elemBytes (gIn r) kept))
    let code := if gElems r < n then 6 else 0
    let h := resultHead g (cInst f o) (cChunk f o) j (gElems r) code
    let t : Trailer := ⟨[j], [], [], [], n - kept, kept, 0, 0⟩
    (sendParts die (gClass r) h.chunk (gDestList r) (resultParts s (gClass r) h payload t) s).2

/-- A contribution enters the reduction list of its group and class, bound for its home die (03 R112). -/
def toReduction (die home : Nat) (c : Contribution) (s : State) : State :=
  let p := parseFrame c.bytes
  let h := ingressHead s die c.port c.bytes p none false
  let id := cGroup c.bytes (eplAt c.bytes)
  let before := s.switch.frameId.get die
  let s := admitFrame { h with destType := 2, dest := home, group := id, ingressTime := c.time % 2 ^ 32, stamp := none }
    (qRed die id h.cls) c.bytes false false s
  if s.switch.frameId.get die = before then contributionGone c s else s

/-- CONTRIBUTION_INGRESS: the oldest stored contribution of a die. -/
def contributionIngress (die : Nat) (s : State) : State :=
  match s.coll.atIngress.get die with
  | [] => s
  | c :: rest =>
    let s := s.onColl fun x => { x with atIngress := x.atIngress.set die rest }
    let f := c.bytes
    let o := eplAt f
    if !bodyGood f o then contributionGone c (count die 0x4000 0 1 s)
    else match groupOf s die (cGroup f o) with
    | none => contributionGone c (replyTo die f 4 none s)
    | some g =>
      if cGen f o ≠ gGen g.record then contributionGone c (replyTo die f 9 (some g) s)
      else if badLength g f o then contributionGone c (count die 0x4008 0 1 s)
      else if opPass (gOp g.record) then contributionGone c (passThrough die g f o s)
      else
        let home := homeOf s g (cChunk f o)
        if !dieUp s home then contributionGone c (replyTo die f 8 (some g) s)
        else toReduction die home c s

def execContributionIngress (die : DieIx) (s : State) : Host.Outcome State Fault Refusal :=
  .next (if dieUp s die && clocksRun s then contributionIngress die s else s)

/-! ### Poisoning (R166) -/

/-- One die ends an instance as poisoned: its COLLECTING contexts with SIGNATURE_MISMATCH, its slot ENDED with the code,
and one event. -/
def poisonHere (die : Nat) (g : Group) (inst : Nat) (offenders : List Nat) (s : State) : State :=
  let id := gId g.record
  let keys := ctxKeys s die fun c => c.group == id + 1 && c.inst.toNat == inst && c.state == .collecting
  let s := keys.foldl (fun s k => endContext k 1 offenders s) s
  let s := onSlot (slotOfCtx g die inst) (fun x => { x with inst := BitVec.ofNat 16 inst, isOpen := false, endCode := 1 }) s
  raise 0x0A01 1 (unitOf die 0 0)
    (args32 [(id : Int), (gGen g.record : Int), (inst : Int), (offenders.length : Int)]) s

/-- POISON_INSTANCE: the home die poisons the instance and tells every other die of L in service. -/
def poisonInstance (die : Nat) (g : Group) (inst : Nat) (offenders : List Nat) (s : State) : State :=
  let note := (gId g.record, (BitVec.ofNat 8 (gGen g.record) : Byte), (BitVec.ofNat 16 inst : BitVec 16))
  let s := poisonHere die g inst offenders s
  s.onColl fun x => { x with poisonNotices :=
    (g.dies.filter fun d => d != die && dieUp s d).foldl (fun t d => t.modify d (· ++ [note])) x.poisonNotices }

/-- POISON_NOTICE_RECEIVE: a notice for an instance that opens here later is kept by the slot; one for an instance that the
die has poisoned already changes nothing. -/
def poisonNotice (die : Nat) (s : State) : State :=
  match s.coll.poisonNotices.get die with
  | [] => s
  | (id, gen, inst) :: rest =>
    let s := s.onColl fun x => { x with poisonNotices := x.poisonNotices.set die rest }
    match groupOf s die id with
    | none => s
    | some g =>
      if gGen g.record ≠ gen.toNat then s else
      let k := slotOfCtx g die inst.toNat
      let x := s.coll.slots.get k
      if x.inst = inst && !x.isOpen && x.endCode = 1 then s
      else if x.inst = inst || (later 16 inst.toNat x.inst.toNat && !x.isOpen) then poisonHere die g inst.toNat [] s
      else if later 16 inst.toNat x.inst.toNat then onSlot k (fun x => { x with noted := x.noted ++ [inst.toNat] }) s
      else s

def execPoisonNoticeReceive (die : DieIx) (s : State) : Host.Outcome State Fault Refusal :=
  .next (if dieUp s die && clocksRun s then poisonNotice die s else s)

/-! ### Ended instances (R167, R169) -/

/-- R169: whether a 32-bit time has reached the end of a window that starts at another; a time before the start has not. -/
def windowOver (start time len : Nat) : Bool :=
  let d := (time + 2 ^ 32 - start % 2 ^ 32) % 2 ^ 32
  decide (len ≤ d) && decide (d < 2 ^ 31)

/-- R169: the retained result that answers a contribution: one that its sender is a destination of, before another (a row operation
has several results of a chunk, R172). -/
def retainedFor (s : State) (die : Nat) (g : Group) (f : Bytes) (o time : Nat) : Option Retained :=
  let l := (s.coll.retained.get die).filter fun r =>
    r.group == gId g.record && r.generation == gGen g.record && r.inst.toNat == cInst f o && r.chunk == cChunk f o
      && r.members.contains (cContributor f o) && !retainedOut s die r
      && !windowOver r.time time (gRetention g.record)
  match l.find? fun r => r.dests.contains (eplSrc f o) with
  | some r => some r
  | none => l.head?

def answerEnded (die : Nat) (g : Group) (f : Bytes) (o time : Nat) (s : State) : State :=
  let x := s.coll.slots.get (slotOfCtx g die (cInst f o))
  let holds := x.inst.toNat == cInst f o
  if holds && x.endCode = 1 then replyTo die f 1 (some g) s
  else if holds && x.endCode = 3 && !x.done.contains (cChunk f o) then replyTo die f 2 (some g) s
  else match retainedFor s die g f o time with
  | none => replyTo die f 2 (some g) s
  | some r =>
    if r.dests.contains (eplSrc f o) then
      count die 0x4005 0 1 (sendParts die (gClass g.record) r.chunk [eplSrc f o] r.parts s).2
    else count die 0x4001 0 1 s

/-! ### Acceptance (R161 to R163) -/

/-- Reduction SRAM that a group's context takes (R148). -/
def ctxBytes (g : Group) : Nat := gElems g.record * if gComp g.record then 8 else 4

/-- R279: a context takes a block's update lock, or waits for it. -/
def takeUpdateLock (k : Nat) (s : State) (x : Nat × Nat) : State :=
  let b := blockKey x.1 x.2
  if (s.resident.lockHolder.get b).isNone && !s.resident.unacked.get b && (s.resident.lockWait.get b).isEmpty then
    s.onResident fun x => { x with lockHolder := x.lockHolder.set b (some k) }
  else s.onResident fun x => { x with lockWait := x.lockWait.modify b (· ++ [k]) }

/-- R278, R279, 06 R218: a context whose bitmap is complete enters COMPUTING and takes its locks, or waits for them. -/
def enterComputing (k : Nat) (g : Group) (s : State) : State :=
  let c := s.coll.ctx.get k
  let die := ctxDie k
  let r := g.record
  let blocks := boundBlocks s r c.chunk
  if blocks.any fun x => isSuspect s x.1 x.2 then endContext k 10 c.arrived s
  else
    let s := onCtx k (fun c => { c with state := .computing, doneDue := true, enteredAt := nowNs s }) s
    let s := blocks.foldl (takeUpdateLock k) s
    if gFeedback r then
      let b := groupKey die (gId r) * 2 ^ 32 + c.chunk
      if (s.coll.residHolder.get b).isNone && (s.coll.residWait.get b).isEmpty then
        s.onColl fun x => { x with residHolder := x.residHolder.set b (some k) }
      else s.onColl fun x => { x with residWait := x.residWait.modify b (· ++ [k]) }
    else s

/-- The key of a chunk's residual lock. -/
def residKey (die id chunk : Nat) : Nat := groupKey die id * 2 ^ 32 + chunk

/-- RESIDUAL_LOCK_GRANT (06 R218): the next waiting context takes a chunk's residual lock. -/
def execResidualLockGrant (die : DieIx) (group : Fin 65536) (chunk : Nat) (s : State) : Host.Outcome State Fault Refusal :=
  .next <|
    let b := residKey die group chunk
    match s.coll.residHolder.get b, nextWaiter s (s.coll.residWait.get b) with
    | none, some k =>
      if dieUp s die && clocksRun s then
        s.onColl fun x => { x with residHolder := x.residHolder.set b (some k), residWait := x.residWait.modify b (·.filter (· != k)) }
      else s
    | _, _ => s

/-- Whether a context holds every lock that its work needs. -/
def locksHeld (s : State) (k : Nat) (g : Group) : Bool :=
  let c := s.coll.ctx.get k
  (boundBlocks s g.record c.chunk).all (fun x => s.resident.lockHolder.get (blockKey x.1 x.2) == some k)
    && (!gFeedback g.record || s.coll.residHolder.get (residKey (ctxDie k) (gId g.record) c.chunk) == some k)

/-- The tile on which a group's image starts on a die. -/
def imageTile (s : State) (die h : Nat) : Nat := s.fabric.placed.get (imgKey die h) - 1

/-- R162, R163, 18 R537: the context of a chunk, taken from the reservation where it has none. -/
def takeCtx (die : Nat) (g : Group) (inst chunk : Nat) (s : State) : Option (Nat × State) :=
  let r := g.record
  let id := gId r
  match ctxOf s die id inst chunk with
  | some k => some (k, s)
  | none =>
    let fresh := { Ctx.reset with state := .collecting, group := id + 1, inst := BitVec.ofNat 16 inst, chunk := chunk }
    if gOp r = 0xF then
      let k := barrierKey die id (inst % gK r)
      some (k, onCtx k (fun _ => fresh) s)
    else
      match (upTo 4096).find? fun c =>
          (s.coll.ctx.get (ctxKey die c)).group == id + 1 && (s.coll.ctx.get (ctxKey die c)).state == .free with
      | none => none
      | some c =>
        let k := ctxKey die c
        let rate := cfgCrosscheckRate s
        if (opDense (gOp r) || gOp r = 0xD) && rate ≠ 0 then
          let (d, s) := drawOn die s
          let pick := d % rate == 0
          let s := if pick then count die 0x6001 (imageTile s die g.image) 1 s else s
          some (k, onCtx k (fun _ => { fresh with sampled := pick }) s)
        else some (k, onCtx k (fun _ => fresh) s)

/-- R163: a contribution that does not offend and whose bit is clear is accepted: staged for the image, in order. The last one
to be accepted is the one that arrived last (R189; DESIGN CHOICE, log 198). -/
def acceptInto (k : Nat) (g : Group) (f : Bytes) (o t : Nat) (s : State) : State :=
  let die := ctxDie k
  let j := cContributor f o
  let barrier := gOp g.record = 0xF
  let s := watchFrom die g.image s
  let s := onCtx k (fun c => { c with
    arrived := c.arrived ++ [j]
    firstTime := if c.arrived.isEmpty then t else min c.firstTime t
    lastTime := if c.arrived.isEmpty then t else max c.lastTime t
    times := c.times ++ [(j, t)]
    lastContributor := j
    lastContribution := nowNs s
    staged := if barrier then c.staged else c.staged ++ [(j, f.drop o)] }) s
  let s := if barrier then s else s.onColl fun x => { x with deliver := x.deliver.modify die (· ++ [k]) }
  let c := s.coll.ctx.get k
  if c.arrived.length < gMembers g.record then s
  else if barrier then
    let h := resultHead g c.inst.toNat c.chunk 0 0 0
    completeCtx k h [] { Trailer.zero with members := c.arrived, span := spanOf c } s
  else enterComputing k g s

/-- A contribution leaves the group's arrival staging (R112, R148). -/
def unstage (die id : Nat) (s : State) : State :=
  s.onColl fun x => { x with staging := x.staging.modify (groupKey die id) (· - 1) }

/-- R160's accept(n). A contribution for a chunk that has ended while its instance is still OPEN is answered as R167 and R169
answer one for an ENDED instance (DESIGN CHOICE, log 196). -/
def acceptHome (die : Nat) (g : Group) (f : Bytes) (o time t : Nat) (s : State) : State :=
  let id := gId g.record
  let inst := cInst f o
  let j := cContributor f o
  if offends g f o then unstage die id (poisonInstance die g inst [j] s)
  else if (s.coll.slots.get (slotOfCtx g die inst)).ended.contains (cChunk f o) then
    unstage die id (answerEnded die g f o time s)
  else match takeCtx die g inst (cChunk f o) s with
  | none => unstage die id (replyTo die f 12 (some g) s)
  | some (k, s) =>
    let c := s.coll.ctx.get k
    if c.state ≠ .collecting || c.arrived.contains j then unstage die id (count die 0x4001 0 1 s)
    else
      let s := if gOp g.record = 0xF then unstage die id s else s
      acceptInto k g f o t s

/-! ### The timeout (R165) -/

/-- Every COLLECTING context of the instance ends with TIMEOUT and the slot becomes ENDED. -/
def timeoutHere (die : Nat) (g : Group) (inst : Nat) (s : State) : State :=
  let id := gId g.record
  let keys := ctxKeys s die fun c => c.group == id + 1 && c.inst.toNat == inst && c.state == .collecting
  let s := keys.foldl (fun s k => endContext k 3 (s.coll.ctx.get k).arrived s) s
  onSlot (slotOfCtx g die inst) (fun x => { x with isOpen := false, endCode := 3 }) s

/-- R165: whether an open instance has reached its timeout at a 64-bit time. -/
def timedOut (g : Group) (x : Slot) (t : Nat) : Bool := x.isOpen && decide (x.openedAt + gTimeout g.record ≤ t)

/-- R165: a 32-bit time extended to the latest 64-bit value not later than the present. -/
def extendTime (s : State) (t : Nat) : Nat := nowNs s - (nowNs s + 2 ^ 32 - t % 2 ^ 32) % 2 ^ 32

/-! ### The home die (R160) -/

/-- A contribution to an instance whose slot state has been brought up to date. -/
def atSlot (die : Nat) (g : Group) (f : Bytes) (o time t : Nat) (s : State) : State :=
  let inst := cInst f o
  let k := slotOfCtx g die inst
  let x := s.coll.slots.get k
  let id := gId g.record
  if x.inst.toNat = inst && x.isOpen then acceptHome die g f o time t s
  else if x.inst.toNat = inst || later 16 x.inst.toNat inst then unstage die id (answerEnded die g f o time s)
  else if x.isOpen then unstage die id (replyTo die f 5 (some g) s)
  else if x.noted.contains inst then
    unstage die id (answerEnded die g f o time
      (poisonHere die g inst [] (onSlot k (fun x => { x with noted := x.noted.filter (· != inst) }) s)))
  else
    acceptHome die g f o time t (onSlot k (fun x => { Slot.reset with
      inst := BitVec.ofNat 16 inst
      isOpen := true
      openedAt := t
      noted := x.noted }) s)

/-! ### Room in reduction SRAM (03 R111, R148) -/

/-- Bytes of a die's contexts that a test picks. -/
def ctxUse (s : State) (die : Nat) (p : Nat → Bool) : Nat :=
  (ctxKeys s die fun _ => true).foldl (fun a k =>
    match groupOfCtx s k with
    | some g => if k < 2 ^ 40 && p k then a + ctxBytes g else a
    | none => a) 0

/-- Whether a context has been written out. -/
def ctxOut (s : State) (k : Nat) : Bool := s.switch.ctxSpilled.get k

/-- Whether SRAM has no room for one more context of a group. -/
def sramFull (s : State) (die : Nat) (g : Group) : Bool :=
  48 * 2 ^ 20 < ctxUse s die (fun k => !ctxOut s k) + ctxBytes g

/-- The group of a contribution at a home die that needs a new context, if any. -/
def needsCtx (s : State) (die : Nat) (c : Contribution) : Option Group :=
  let f := c.bytes
  let o := eplAt f
  match groupOf s die (cGroup f o) with
  | none => none
  | some g =>
    let x := s.coll.slots.get (slotOfCtx g die (cInst f o))
    let done := x.inst.toNat == cInst f o && (!x.isOpen || x.ended.contains (cChunk f o))
    if opContexts (gOp g.record) && cGen f o == gGen g.record && !done
        && (ctxOf s die (gId g.record) (cInst f o) (cChunk f o)).isNone then some g else none

/-- A group with a contribution at a home die that needs a new context, if any. -/
def neededCtx (s : State) (die : Nat) : Option Group := (s.coll.atHome.get die).findSome? (needsCtx s die)

/-- Whether a contribution at a home die waits in staging for SRAM to have room for its context (03 R111). -/
def waitsForSram (s : State) (die : Nat) (c : Contribution) : Bool := (needsCtx s die c).any fun g => sramFull s die g

/-- The oldest contribution that does not wait, and the others: one that waits holds back its own group's only (R182, 03 R112). -/
def nextHome (s : State) (die : Nat) : List Nat → List Contribution → Option (Contribution × List Contribution)
  | _, [] => none
  | held, c :: rest =>
    let id := cGroup c.bytes (eplAt c.bytes)
    if held.contains id || waitsForSram s die c then (nextHome s die (id :: held) rest).map fun x => (x.1, c :: x.2)
    else some (c, rest)

/-- CONTRIBUTION_HOME: the oldest contribution that has reached a home die and does not wait. -/
def contributionHome (die : Nat) (s : State) : State :=
  match nextHome s die [] (s.coll.atHome.get die) with
  | none => s
  | some (c, rest) =>
    let s := s.onColl fun x => { x with atHome := x.atHome.set die rest }
    let f := c.bytes
    let o := eplAt f
    let id := cGroup f o
    match groupOf s die id with
    | none => unstage die id (replyTo die f 4 none s)
    | some g =>
      if cGen f o ≠ gGen g.record then unstage die id (replyTo die f 9 (some g) s)
      else if gMembers g.record ≤ cContributor f o then unstage die id (count die 0x4002 0 1 s)
      else if opContexts (gOp g.record) && s.fabric.failed.get (imgKey die g.image) then
        -- 07 R262: a result that carries IMAGE_FAULT, to the chunk's destinations, or to the sender of a row operation
        let h := resultHead g (cInst f o) (cChunk f o) 0 0 11
        let dests := if opRows (gOp g.record) then [eplSrc f o] else chunkDests g (cChunk f o)
        let t := { Trailer.zero with members := [cContributor f o] }
        let parts := resultParts s (gClass g.record) h [] t
        unstage die id (retain die ⟨id, gGen g.record, BitVec.ofNat 16 (cInst f o), h.chunk, nowNs s % 2 ^ 32, t.members, parts, dests⟩
          (sendParts die (gClass g.record) h.chunk dests parts s).2)
      else
        let t := extendTime s c.time
        let x := s.coll.slots.get (slotOfCtx g die (cInst f o))
        let s := if timedOut g x t then timeoutHere die g x.inst.toNat s else s
        atSlot die g f o c.time t s

def execContributionHome (die : DieIx) (s : State) : Host.Outcome State Fault Refusal :=
  .next (if dieUp s die && clocksRun s then contributionHome die s else s)

/-- INSTANCE_TIMEOUT (R165): contributions that have reached the die come first. -/
def instanceTimeout (die id inst : Nat) (s : State) : State :=
  let s := (s.coll.atHome.get die).foldl (fun s _ => contributionHome die s) s
  match groupOf s die id with
  | none => s
  | some g =>
    let x := s.coll.slots.get (slotOfCtx g die inst)
    if x.inst.toNat = inst && timedOut g x (nowNs s) then timeoutHere die g inst s else s

def execInstanceTimeout (die : DieIx) (group : Fin 65536) (inst : BitVec 16) (s : State) : Host.Outcome State Fault Refusal :=
  .next (if dieUp s die && clocksRun s then instanceTimeout die group inst.toNat s else s)

/-! ### The life of a group (R143, R144, R183 to R186) -/

/-- GROUP_CREATE: refused at once, or prepared on every die until its commit mark. -/
def execGroupCreate (role : Role) (record : Bytes) (s : State) : Host.Outcome State Fault Refusal :=
  .next (guardWrite role 0x0A0002 1 (fun s =>
    let (st, s) := groupPrepare record s
    answer st s) s)

/-- GROUP_COMMIT: the commit mark, or the abort mark; without the keeper die no mark arrives and the record is discarded
(01 R30). -/
def execGroupCommit (commit : Bool) (s : State) : Host.Outcome State Fault Refusal :=
  .next (if clocksRun s && !s.coll.prepared.isEmpty then (groupCommit (commit && !s.start.keeperLost) s).2 else s)

/-- A table whose entries at the keys that a test picks are changed. -/
def tabRefit {α : Type} [DecidableEq α] (mine : Nat → Bool) (f : Nat → α → α) (t : Tab α) : Tab α :=
  t.cells.foldl (fun t c => if mine c.1 then t.set c.1 (f c.1 c.2) else t) t

/-- R183: the tokens of contexts that go leave a die's fabric, with what its edge units and threads do for them, so that no other
context of the image meets them. -/
def dropTokens (die : Nat) (gone : Nat → Bool) (s : State) : State :=
  let left (_ : Nat) (l : List Token) : List Token := l.filter fun t => !gone (t.tag.toNat % 4096)
  let feeds (k : Nat) (w : UnitWork) : Bool :=
    -- a retriever port that takes a thread's data: ports 0 to 3 are units 12 to 15, ports 4 to 7 units 24 to 27
    let u := k % 32
    (12 ≤ u && u < 16 || 24 ≤ u && u < 28)
      && gone (s.fabric.threads.get ((k / 32 * 8 + if u < 16 then u - 12 else u - 20) * 64 + w.bytes)).ctx
  s.onFabric fun x => { x with
    links := tabRefit (fun k => k / 3072 / 8 == die) left x.links
    edgeIn := tabRefit (fun k => k / 32 / 8 == die) left x.edgeIn
    edgeOut := tabRefit (fun k => k / 32 / 8 == die) left x.edgeOut
    du := x.du.erase fun k => k / 4096 / 32 / 8 == die && gone (k % 4096)
    work := tabRefit (fun k => k / 32 / 8 == die) (fun k w =>
      if w.busy && (gone (w.cmd.tag.toNat % 4096) || feeds k w) then x.work.dflt else { w with queue := left k w.queue }) x.work
    threads := tabRefit (fun k => k / 512 / 8 == die) (fun _ t => if t.active && gone t.ctx then x.threads.dflt else t) x.threads }

/-- R183: one die removes a group. Threads that still run for a result on its way end with the group (DESIGN CHOICE, log
166). -/
def deleteOn (g : Group) (s : State) (d : Nat) : State :=
  let id := gId g.record
  let keys := ctxKeys s d fun c => c.group == id + 1 && (c.state == .collecting || c.state == .computing)
  let s := keys.foldl (fun s k => endContext k 4 (s.coll.ctx.get k).arrived s) s
  -- a result that is SENDING completes: its block is committed with what its threads have written, its locks are free
  let sending := ctxKeys s d fun c => c.group == id + 1 && c.state == .sending
  let s := sending.foldl (fun s k => dropLocks k (if (s.coll.ctx.get k).commitDue then blockCommit k s else s)) s
  let s := dropTokens d (fun c => (s.coll.ctx.get (ctxKey d c)).group == id + 1) s
  let s := releaseOn g s d
  s.onColl fun x => { x with
    groups := x.groups.set (groupKey d id) none
    retained := x.retained.modify d (·.filter fun r => r.group != id)
    staging := x.staging.set (groupKey d id) 0
    residHolder := x.residHolder.erase fun k => k / 2 ^ 32 == groupKey d id
    residWait := x.residWait.erase fun k => k / 2 ^ 32 == groupKey d id }

/-- GROUP_DELETE (R183 to R185). The group's lag records go with it (DESIGN CHOICE, log 200). -/
def groupDelete (id : Nat) (s : State) : Nat × State :=
  match groupOf s 8 id with
  | none => (stNotFound, s)
  | some g =>
    let s := (diesUp s).foldl (deleteOn g) s
    (stDone, s.onColl fun x => { x with
      groups := x.groups.set (groupKey 8 id) none
      quarantine := x.quarantine.set id (some (nowNs s))
      lastGen := x.lastGen.set id (some (BitVec.ofNat 8 (gGen g.record)))
      lags := x.lags.erase fun k => k / 256 == id })

def execGroupDelete (role : Role) (group : Fin 65536) (s : State) : Host.Outcome State Fault Refusal :=
  .next (guardWrite role 0x0A0002 2 (fun s =>
    let (st, s) := groupDelete group s
    answer st s) s)

/-- QUARANTINE_END (R184): the recorded delete time is dropped when the quarantine has ended. -/
def execQuarantineEnd (group : Fin 65536) (s : State) : Host.Outcome State Fault Refusal :=
  .next (if clocksRun s && !quarantined s group then
    s.onColl fun x => { x with quarantine := x.quarantine.set group none } else s)

/-- LAG_CLEAR (R189, R190): any value clears the selected group's records. -/
def lagClearWrite (s : State) : State :=
  let id := objGet s 0x0A0100 1 0
  answer stDone (s.onColl fun x => { x with lags := x.lags.erase fun k => k / 256 == id })

def execLagClear (role : Role) (_value : Byte) (s : State) : Host.Outcome State Fault Refusal :=
  .next (guardWrite role 0x0A0100 4 lagClearWrite s)

/-! ### Context spill (03 R111) -/

/-- The idle context in SRAM whose last contribution came longest ago. -/
def spillVictim (s : State) (die : Nat) : Option Nat :=
  ((ctxKeys s die fun c => c.state == .collecting && c.staged.isEmpty).filter fun k => k < 2 ^ 40 && !ctxOut s k).foldl
    (fun (m : Option Nat) k => match m with
      | none => some k
      | some j => if (s.coll.ctx.get k).lastContribution < (s.coll.ctx.get j).lastContribution then some k else some j) none

/-- CONTEXT_SPILL (03 R111): a new context is needed while SRAM use is at CTX_SPILL_ON of 48 MiB: the idle context whose last
contribution came longest ago is written to the spill area of 64 MiB, where that has room. -/
def contextSpill (die : Nat) (s : State) : State :=
  if (neededCtx s die).isNone || ctxUse s die (fun k => !ctxOut s k) * 100 < cfgCtxSpillOn s * (48 * 2 ^ 20) then s else
  match spillVictim s die with
  | none => s
  | some k =>
    match groupOfCtx s k with
    | none => s
    | some g =>
      if ctxUse s die (ctxOut s) + ctxBytes g ≤ 64 * 2 ^ 20 then
        let c := s.coll.ctx.get k
        onCtx k (fun c => { c with hi := .empty 0, lo := .empty 0 }) (s.onSwitch fun x => { x with
          ctxSpilled := x.ctxSpilled.set k true
          ctxArea := x.ctxArea.set k (c.hi, c.lo) })
      else s

def execContextSpill (die : DieIx) (s : State) : Host.Outcome State Fault Refusal :=
  .next (if dieUp s die && clocksRun s then contextSpill die s else s)

/-- A spilled context's accumulators are read from the spill area, once SRAM has room for them. -/
def contextReadback (die k : Nat) (s : State) : State :=
  match groupOfCtx s k with
  | none => s
  | some g =>
    if !ctxOut s k || sramFull s die g then s
    else
      let (hi, lo) := s.switch.ctxArea.get k
      onCtx k (fun c => { c with hi := hi, lo := lo }) (s.onSwitch fun x => { x with
        ctxSpilled := x.ctxSpilled.set k false
        ctxArea := x.ctxArea.set k x.ctxArea.dflt })

/-- CONTEXT_READBACK (03 R111). -/
def execContextReadback (die : DieIx) (group : Fin 65536) (inst : BitVec 16) (chunk : Nat) (s : State) :
    Host.Outcome State Fault Refusal :=
  .next <| match ctxOf s die group inst.toNat chunk with
    | some k => if dieUp s die && clocksRun s then contextReadback die k s else s
    | none => s

end Sys2Proof.Machine
end

