-- ==== Sys2Proof/Machine/EdgeUnits.lean ====
section
/-! DEFINITION. Edge units: stream ingress, decode units, context ports, encode units and stream egress (07 R226 to R228, R239
to R244, R251). Each command moves one token, or one contribution into a stream ingress; a context bound to a library image
is served by the rules of its operation. -/

namespace Sys2Proof.Machine

/-- Unit numbers on a tile (R224). -/
def uSI (p : Nat) : Nat := p
def uDU (p : Nat) : Nat := 4 + p
def uCP (p : Nat) : Nat := 8 + p
def uSE (p : Nat) : Nat := 16 + p
def uEU (p : Nat) : Nat := 20 + p
def uRP (p : Nat) : Nat := if p < 4 then 12 + p else 20 + p

/-- R251: the pair that a context uses. -/
def ctxPair (i : Image) (k : Nat) : Nat := k % 4096 % i.pairs

/-- Whether a context's stream ingress, or its stream egress, is the one named. -/
def onIngress (i : Image) (lt port k : Nat) : Bool :=
  match pairOf i.bytes (ctxPair i k) with
  | some (t, p, _, _) => t == lt && p == port
  | none => false
def onEgress (i : Image) (lt port k : Nat) : Bool :=
  match pairOf i.bytes (ctxPair i k) with
  | some (_, _, t, p) => t == lt && p == port
  | none => false

/-! ### Stream ingress (R239) -/

/-- Low and high lanes of an address of 48 bits. -/
def addrLanes (a : Nat) : List Nat := [a % 2 ^ 32, a / 2 ^ 32 % 65536]

/-- HEAD of a contribution. -/
def headToken (k : Nat) (g : Group) (j : Nat) (f : Bytes) (first : Bool) : Token :=
  let r := g.record
  natToken 1 (BitVec.ofNat 16 (k % 4096)) ([j, cElems f 0, gIn r + 256 * gOp r + 65536 * gRedop r + 2 ^ 24 * gFlags r,
    cChunk f 0, cInst f 0, gId r, if first then 1 else 0, cArg f 0, (cPayload f 0).length, k % 4096])

/-- DONE of a context. -/
def doneToken (s : State) (k : Nat) (g : Group) : Token :=
  let r := g.record
  let c := s.coll.ctx.get k
  let die := ctxDie k
  let block : Nat := match chunkBlock s r c.chunk with
    | some (h, b) => match regionAt s h with
      | some x => x.addr b (x.mainCopy b)
      | none => 0
    | none => 0
  let base : Nat := match regionAt s (gResident r) with
    | some x =>
      let copy := if x.parts.get (partKey die 0) ≠ 0 then 0 else 1
      if x.parts.get (partKey die copy) = 0 then 0 else memAddr die (x.partAt die copy)
    | none => 0
  let scratch := s.fabric.scratch.get (imgKey die g.image)
  natToken 3 (BitVec.ofNat 16 (k % 4096)) ([gMembers r, c.chunk, gElems r, c.inst.toNat, gId r] ++ addrLanes block
    ++ addrLanes base ++ [k % 4096, 0] ++ addrLanes (if scratch = 0 then 0 else memAddr die (scratch - 1)))

/-- A contribution leaves staging for the image. -/
def popStaged (die k : Nat) (rest : List (Nat × Bytes)) (s : State) : State :=
  let id := (s.coll.ctx.get k).group - 1
  let s := onCtx k (fun c => { c with staged := rest }) s
  unstage die id (s.onColl fun x => { x with deliver := x.deliver.modify die (·.erase k) })

/-- STREAM_INGRESS_DELIVER: the next contribution in order of acceptance, or a DONE that is due, of a context whose pair
names this stream ingress. A DONE waits for the context's locks. A token routed into the unit, which accepts none, faults the
image (R226). -/
def streamDeliver (die tile port : Nat) (s : State) : State :=
  match runningOn s die tile with
  | none => s
  | some (h, i, lt) =>
    let u := uSI port
    let routed := unitRouted i lt u
    let mine (k : Nat) : Bool := onIngress i lt port k && !s.switch.ctxSpilled.get k
      && (match groupOfCtx s k with
          | some g => g.image == h
          | none => false)
    let idle := (s.fabric.edgeOut.get (unitKey die tile u)).isEmpty
    -- R264: new deliveries are held while a cell of the image is being retired
    let held := s.fabric.retiring.any fun x => x.1 == die && (imageOn s die x.2.1).any fun y => y.1 == h
    if (unitHead s die tile u).isSome then unitFault die tile h 6 s else
    match (if held then none else (s.coll.deliver.get die).find? mine) with
    | some k =>
      match (s.coll.ctx.get k).staged, groupOfCtx s k with
      | (j, f) :: rest, some g =>
        if i.library.isSome then progress die h (libAccept k g j f (popStaged die k rest s))
        else if !idle then s
        else
          let first := (s.coll.ctx.get k).arrived.head? == some j
          let s := popStaged die k rest s
          let s := if opRows (gOp g.record) then onCtx k (fun c => { c with items := c.items ++ [(j, f)] }) s else s
          let c := s.coll.ctx.get k
          let done := c.doneDue && c.staged.isEmpty && locksHeld s k g
          let tokens := headToken k g j f first :: packedTokens (BitVec.ofNat 16 (k % 4096)) (cPayload f 0)
            ++ if done then [doneToken s k g] else []
          let s := if done then onCtx k (fun c => { c with doneDue := false }) s else s
          progress die h (if routed then s.onFabric fun x => { x with edgeOut := x.edgeOut.set (unitKey die tile u) tokens } else s)
      | _, _ => s
    | none =>
      match (imageCtxs s die h fun c => c.state == .computing && c.doneDue && c.staged.isEmpty).find? fun k =>
          mine k && (match groupOfCtx s k with
            | some g => locksHeld s k g
            | none => false) with
      | some k =>
        match groupOfCtx s k with
        | some g =>
          if i.library.isSome then progress die h (onCtx k (fun c => { c with doneDue := false }) s)
          else if !idle then s
          else progress die h (unitGive die tile u routed (doneToken s k g) (onCtx k (fun c => { c with doneDue := false }) s))
        | none => s
      | none => s

def execStreamIngressDeliver (die : DieIx) (tile : TileIx) (port : Fin 4) (s : State) : Host.Outcome State Fault Refusal :=
  .next (streamDeliver die tile port s)

/-! ### Decode units (R240) -/

def duKey (die tile unit ctx : Nat) : Nat := unitKey die tile unit * 4096 + ctx

/-- Whole pieces of a byte string: elements decoded, and what is left. -/
def decodeWhole (f : Nat) (b : Bytes) : List Word × Bytes :=
  let n := if isBlockFormat f then b.length / (1 + 4 * elemBits f) * 32 else b.length / (elemBits f / 8)
  (decodeElems f n b, b.drop (elemBytes f n))

/-- One DATA token of a contribution: the elements it completes leave as tokens of 16, up to the element count. -/
def duData (d : DuSet) (tag : BitVec 16) (b : Bytes) : DuSet × List Token × List Nat :=
  let (vals, left) := decodeWhole d.format (d.left ++ b)
  let vals := vals.take (d.count - d.emitted)
  let bad := badBlocks d.emitted vals
  let all := d.half ++ vals
  let n := all.length / 16 * 16
  ({ d with left := left, emitted := d.emitted + vals.length, half := all.drop n }, elemTokens tag (all.take n), bad)

/-- DECODE_TOKEN: a waiting token leaves, or the unit takes one token and gives what it makes of it. -/
def decodeToken (die tile port : Nat) (s : State) : State :=
  match runningOn s die tile with
  | none => s
  | some (h, i, lt) =>
    let u := uDU port
    let routed := unitRouted i lt u
    if !(unitWork s die tile u).queue.isEmpty then unitDrain die tile u h routed s
    else match unitHead s die tile u with
    | none => s
    | some t =>
      match tagCtx s die h t.tag with
      | none => unitFault die tile h 5 s
      | some (k, _) =>
        let key := duKey die tile u (t.tag.toNat % 4096)
        let d := s.fabric.du.get key
        let taken := unitTake die tile u s
        let give (l : List Token) (s : State) : State :=
          unitDrain die tile u h routed (progress die h (onWork die tile u (fun x => { x with queue := l }) s))
        match t.kind with
        | 1 =>
          let f := lane t 2 % 256
          let s := taken.onFabric fun x => { x with du := x.du.set key ⟨f, lane t 1, lane t 0 % 256, 0, 0, [], !isNumeric f, []⟩ }
          give [t] s
        | 3 => give [t] taken
        | 0 =>
          if d.passing then give [t] taken
          else
            let (d, l, bad) := duData d t.tag (tokenBytes t)
            give l (recordPoison k d.contributor bad (taken.onFabric fun x => { x with du := x.du.set key d }))
        | 2 =>
          let l := elemTokens t.tag d.half ++ [natToken 2 t.tag [d.count]]
          give l (taken.onFabric fun x => { x with du := x.du.set key { d with half := [] } })
        | _ => unitFault die tile h 6 s

def execDecodeToken (die : DieIx) (tile : TileIx) (port : Fin 4) (s : State) : Host.Outcome State Fault Refusal :=
  .next (decodeToken die tile port s)

/-! ### Context ports (R242) -/

/-- The words of a context as READ (0) or READF (3) return them, as an element stream. -/
def cpStream (k : Nat) (g : Group) (op first n : Nat) (tag : BitVec 16) (s : State) : List Token :=
  let c := s.coll.ctx.get k
  let v (e : Nat) : Word := portValue g c e (if op = 3 then ctxValue g c e else c.hi.get e)
  elemTokens tag ((upTo (16 * n)).map fun j => v (16 * first + j)) ++ [natToken 2 tag [16 * n]]

/-- A context port serves operation `op`: a waiting token leaves, a command is taken, or a DATA token of it. -/
def contextPort (op die tile port : Nat) (s : State) : State :=
  match runningOn s die tile with
  | none => s
  | some (h, i, lt) =>
    let u := uCP port
    let routed := unitRouted i lt u
    let w := unitWork s die tile u
    if !w.queue.isEmpty then (if lane w.cmd 0 = op then unitDrain die tile u h routed s else s)
    else match unitHead s die tile u with
    | none => s
    | some t =>
      match tagCtx s die h t.tag with
      | none => unitFault die tile h 5 s
      | some (k, g) =>
        let taken := unitTake die tile u s
        if t.kind = 4 && !w.busy then
          if lane t 0 ≠ op then s
          else
            let first := lane t 1
            let n := lane t 2
            if n ≠ 0 && gElems g.record ≤ 16 * (first + n - 1) then unitFault die tile h 7 s
            else if op = 0 || op = 3 then
              if (s.coll.ctx.get k).state == .computing && !shadowAgrees g (s.coll.ctx.get k) then
                crosscheckFail k tile 0 taken
              else
                unitDrain die tile u h routed (progress die h (onWork die tile u (fun x => { x with
                  cmd := t
                  queue := cpStream k g op first n t.tag s }) taken))
            else progress die h (onWork die tile u (fun x => { x with cmd := t, busy := decide (0 < n), blocks := 0 }) taken)
        else if t.kind = 0 && w.busy then
          if lane w.cmd 0 ≠ op then s
          else
            let first := lane w.cmd 1
            let n := lane w.cmd 2
            let load := op = 1 || bit (lane w.cmd 3) 0
            let s := onWork die tile u (fun x => { x with blocks := x.blocks + 1, busy := decide (x.blocks + 1 < n) }) taken
            match tagCtx s die h w.cmd.tag with
            | some (k, g) => progress die h (accumulate k g load (16 * (first + w.blocks)) t.data s)
            | none => unitFault die tile h 5 s
        else unitFault die tile h 6 s

def execCpRead (die : DieIx) (tile : TileIx) (port : Fin 4) (s : State) : Host.Outcome State Fault Refusal :=
  .next (contextPort 0 die tile port s)
def execCpWrite (die : DieIx) (tile : TileIx) (port : Fin 4) (s : State) : Host.Outcome State Fault Refusal :=
  .next (contextPort 1 die tile port s)
def execCpAcc (die : DieIx) (tile : TileIx) (port : Fin 4) (s : State) : Host.Outcome State Fault Refusal :=
  .next (contextPort 2 die tile port s)
def execCpReadf (die : DieIx) (tile : TileIx) (port : Fin 4) (s : State) : Host.Outcome State Fault Refusal :=
  .next (contextPort 3 die tile port s)

/-! ### Encode units (R241) -/

/-- Bytes that have filled whole tokens, and the rest. -/
def packOut (tag : BitVec 16) (b : Bytes) : List Token × Bytes :=
  let n := b.length / 64
  ((pieces 64 n b).map (bytesToken · tag), b.drop (64 * n))

/-- One block of an encode unit: in GROUP mode by R219, else plain; none where R219 ended the chunk. -/
def euBlock (k : Nat) (g : Group) (cmd : Token) (b : Nat) (vals : List Word) (s : State) : Option Bytes × State :=
  let mode := lane cmd 13
  if bit mode 8 then encodeBlock k g b vals s
  else
    let (x, s) := plainBlock k (mode % 256) (bit mode 9) b vals s
    (some x, s)

/-- ENCODE_CMD: a waiting token leaves, or the unit takes a CMD, one element token, or the LAST of its stream. Where the chunk ends
with COMPUTE_ERROR, the rest of the stream is discarded up to its LAST, which ends the unit's output. -/
def encodeStep (die tile port : Nat) (s : State) : State :=
  match runningOn s die tile with
  | none => s
  | some (h, i, lt) =>
    let u := uEU port
    let routed := unitRouted i lt u
    let w := unitWork s die tile u
    if !w.queue.isEmpty then unitDrain die tile u h routed s
    else match unitHead s die tile u with
    | none => s
    | some t =>
      match tagCtx s die h t.tag with
      | none => unitFault die tile h 5 s
      | some (k, g) =>
        let taken := unitTake die tile u s
        let give (f : UnitWork → UnitWork) (l : List Token) (s : State) : State :=
          unitDrain die tile u h routed (progress die h (onWork die tile u (fun x => { f x with queue := l }) s))
        if t.kind = 4 && !w.busy then
          let n := 32 * lane t 15
          give (fun x => { x with busy := true, dead := false, cmd := t, half := [], blocks := 0, bytes := 0, left := [] })
            [natToken 1 t.tag [0, n, n, 0]] taken
        else if t.kind = 0 && w.busy then
          if w.dead then progress die h taken
          else if w.half.isEmpty then give (fun x => { x with half := t.data }) [] taken
          else
            match euBlock k g w.cmd (lane w.cmd 14 + w.blocks) (w.half ++ t.data) taken with
            | (some b, s) =>
              let (l, left) := packOut t.tag (w.left ++ b)
              give (fun x => { x with half := [], blocks := x.blocks + 1, bytes := x.bytes + b.length, left := left }) l s
            | (none, s) => progress die h (endContext k 8 (s.coll.ctx.get k).arrived
                (onWork die tile u (fun x => { x with dead := true, half := [] }) s))
        else if t.kind = 2 && w.busy then
          give (fun x => { x with busy := false, dead := false, half := [], left := [] })
            ((if w.left.isEmpty then [] else [bytesToken w.left t.tag]) ++ [natToken 2 t.tag [w.bytes]]) taken
        else unitFault die tile h 6 s

def execEncodeCmd (die : DieIx) (tile : TileIx) (port : Fin 4) (s : State) : Host.Outcome State Fault Refusal :=
  .next (encodeStep die tile port s)

/-! ### Stream egress (R243, R244) -/

/-- The result that a stream egress has taken whole: it answers a sender or ends the chunk. -/
def egressResult (k : Nat) (g : Group) (cmd : Token) (payload : Bytes) (s : State) : State :=
  let code := lane cmd 0
  let c := s.coll.ctx.get k
  if opRows (gOp g.record) then
    (if code = 8 then sendRowReply k 8 0 0 (lane cmd 3) [] false s
    else
      let whole := code = 7 || (wholePoison (gOp g.record) && !c.poison.isEmpty)
      let out := if c.readSuspect then 10 else if whole || !c.poison.isEmpty then 7
        else if code = 6 || lane cmd 3 ≠ 0 then 6 else 0
      if whole && out ≠ 10 then sendRowReply k out 0 0 (lane cmd 3) [] true s
      else if whole then sendRowReply k out (lane cmd 1) 0 (lane cmd 3) payload true s
      else sendRowReply k out (lane cmd 1) (lane cmd 2) (lane cmd 3) payload false s)
  else if c.state ≠ .computing then s
  else
    finishChunk k code (lane cmd 1) (lane cmd 2) (lane cmd 3) (if code = 7 then [] else payload)
      (onCtx k (fun c => { c with overflow := lane cmd 3 }) s)

/-- A context of a library image whose result this stream egress produces. -/
def libReady (s : State) (die h : Nat) (i : Image) (lt port : Nat) : Option (Nat × Group) :=
  ((imageCtxs s die h fun c => (!c.items.isEmpty && (c.state == .collecting || c.state == .computing))
      || (c.state == .computing && c.staged.isEmpty)).filterMap fun k =>
    match groupOfCtx s k with
    | some g =>
      let c := s.coll.ctx.get k
      let ready := if opRows (gOp g.record) then !c.items.isEmpty
        else c.state == .computing && c.staged.isEmpty && !c.doneDue && locksHeld s k g
      if onEgress i lt port k && ready then some (k, g) else none
    | none => none).head?

/-- STREAM_EGRESS_LAST: one token of the result stream; with LAST the frames are built and the context passes to SENDING. -/
def egressLast (die tile port : Nat) (s : State) : State :=
  match runningOn s die tile with
  | none => s
  | some (h, i, lt) =>
    let u := uSE port
    if i.library.isSome then
      match libReady s die h i lt port with
      | some (k, g) =>
        progress die h (if opRows (gOp g.record) then
            match (s.coll.ctx.get k).items with
            | (_, f) :: _ => libServe k g f s
            | [] => s
          else libResult k tile g s)
      | none => s
    else match unitHead s die tile u with
    | none => s
    | some t =>
      match tagCtx s die h t.tag with
      | none => unitFault die tile h 5 s
      | some (k, g) =>
        let w := unitWork s die tile u
        let taken := unitTake die tile u s
        if t.kind = 1 && !w.busy then
          let code := lane t 0
          if code = 0 || code = 6 || code = 7 || code = 8 then
            progress die h (onWork die tile u (fun x => { x with busy := true, cmd := t, left := [] }) taken)
          else unitFault die tile h 6 s
        else if t.kind = 0 && w.busy then
          progress die h (onWork die tile u (fun x => { x with left := x.left ++ tokenBytes t }) taken)
        else if t.kind = 2 && w.busy then
          if 16384 < lane t 0 then unitFault die tile h 6 s
          else
            progress die h (egressResult k g w.cmd (padTo (lane t 0) w.left)
              (onWork die tile u (fun x => { x with busy := false, left := [] }) taken))
        else unitFault die tile h 6 s

def execStreamEgressLast (die : DieIx) (tile : TileIx) (port : Fin 4) (s : State) : Host.Outcome State Fault Refusal :=
  .next (egressLast die tile port s)

end Sys2Proof.Machine
end

