-- ==== Sys2Proof/Machine/Retrievers.lean ====
section
/-! DEFINITION. Retriever ports, their threads and the walk operations (07 R245 to R250; 08 R274, R277, R284, R289). A thread
runs one walk instruction at a time; a port hands out the responses of its threads in the order in which they started. -/

namespace Sys2Proof.Machine

def threadKey (die tile port n : Nat) : Nat := (tileKey die tile * 8 + port) * 64 + n
def threadAt (s : State) (die tile port n : Nat) : Thread := s.fabric.threads.get (threadKey die tile port n)
def onThread (die tile port n : Nat) (f : Thread → Thread) (s : State) : State :=
  s.onFabric fun x => { x with threads := x.threads.modify (threadKey die tile port n) f }

/-- `n` words that the manual leaves open. -/
def freeWords : Nat → State → List Word × State
  | 0, s => ([], s)
  | n + 1, s =>
    let (v, s) := draw s
    let (l, s) := freeWords n s
    (BitVec.ofNat 32 v :: l, s)

/-- The busy threads of a port. -/
def busyThreads (s : State) (die tile port : Nat) : List Nat := (upTo 64).filter fun n => (threadAt s die tile port n).active
/-- The busy thread of a port that started first. -/
def oldestThread (s : State) (die tile port : Nat) : Option Nat :=
  (busyThreads s die tile port).foldl (fun m n => match m with
    | none => some n
    | some j => if (threadAt s die tile port n).order < (threadAt s die tile port j).order then some n else some j) none

/-- R246: the port gives the oldest thread's next response; a thread whose LAST has left is free. -/
def portDrain (die tile port h : Nat) (routed : Bool) (s : State) : State :=
  let u := uRP port
  match oldestThread s die tile port with
  | none => s
  | some n =>
    match (threadAt s die tile port n).emitted with
    | [] => s
    | t :: rest =>
      if !unitRoom s die tile u routed then s
      else
        let s := progress die h (unitGive die tile u routed t s)
        if t.kind = 2 then onThread die tile port n (fun _ => Thread.reset) s
        else onThread die tile port n (fun x => { x with emitted := rest }) s

/-! ### Accesses -/

/-- What an instruction of a thread did: it goes on with a state, it waits for data, it ended on an error of the memory, or
the image faults. -/
inductive Walked where
  | on (t : Thread) (s : State)
  | wait
  | memError (t : Thread) (s : State)
  | fault (cause : Nat)
  deriving DecidableEq, Repr

/-- A thread emits a DATA token. -/
def Thread.emit (t : Thread) (l : List Word) : Thread :=
  { t with emitted := t.emitted ++ [⟨lanes16 l, t.tag, 0⟩], count := t.count + 1 }

def Thread.reg (t : Thread) (a : Nat) : Nat := t.a.get a
def Thread.setReg (t : Thread) (a v : Nat) : Thread := { t with a := t.a.set a (v % 2 ^ 48) }

/-- Data tokens that an instruction takes: `n` of them, or it waits, or the request carries too few. -/
def takeData (waiting : Nat) (t : Thread) (n : Nat) : Option (List Token × Thread) × Bool :=
  if n ≤ t.data.length then (some (t.data.take n, { t with data := t.data.drop n }), false)
  else (none, decide (t.data.length + waiting < n))

/-- One word read and emitted. -/
def readEmit (k : Nat) (g : Group) (a : Nat) (t : Thread) (s : State) : Walked :=
  match reach s k g a with
  | .range => .fault 8
  | .lost => .memError t s
  | .word w =>
    match readWord w (noteSuspect k w s) with
    | (some b, s) => .on (t.emit (wordsOf b)) s
    | (none, s) => .memError t s

/-- R246: up to `n` of the words that a thread's instruction still has to read, read and emitted. -/
def readTodo (k : Nat) (g : Group) : Nat → Thread → State → Walked
  | 0, t, s => .on t s
  | n + 1, t, s =>
    match t.todo with
    | [] => .on t s
    | (a, m) :: r =>
      match readEmit k g a { t with todo := if m ≤ 1 then r else (a + 64, m - 1) :: r } s with
      | .on t s => readTodo k g n t s
      | x => x

/-- One word written, or added to with `add` (R247, R277). -/
def writeOne (k : Nat) (g : Group) (add : Bool) (a : Nat) (d : List Word) (t : Thread) (s : State) : Walked :=
  match reach s k g a with
  | .range => .fault 8
  | .lost => .memError t s
  | .word w =>
    if !mayWrite s k g w then .fault 8
    else if add then
      match readWord w s with
      | (some b, s) => .on t (writeWord k g w (bytesOf (((wordsOf b).zip (lanes16 d)).map fun x => fAdd x.1 x.2)) s)
      | (none, s) => .memError t s
    else .on t (writeWord k g w (bytesOf (lanes16 d)) s)

/-- Data tokens written to, or added into, consecutive words. -/
def writeMany (k : Nat) (g : Group) (add : Bool) : List Token → Nat → Thread → State → Walked
  | [], _, t, s => .on t s
  | d :: r, a, t, s =>
    match writeOne k g add a d.data t s with
    | .on t s => writeMany k g add r (a + 64) t s
    | x => x

/-- IDXA: `n` data tokens added at each of a list of bases. -/
def addIndexed (k : Nat) (g : Group) (n : Nat) : List Nat → List Token → Thread → State → Walked
  | [], _, t, s => .on t s
  | a :: r, d, t, s =>
    match writeMany k g true (d.take n) a t s with
    | .on t s => addIndexed k g n r (d.drop n) t s
    | x => x

/-! ### The hash probe (R248) -/

/-- What a probe meets in one bucket: the key, an empty entry, or neither. -/
def bucketSlot (b : Bytes) (key : Nat) : Option (Nat × Bool) :=
  ((upTo 4).filterMap fun i =>
    let x := leAt b (16 * i) 8
    if x = key then some (i, true) else if x = 2 ^ 64 - 1 then some (i, false) else none).head?

/-- One probe from bucket `h`, `n` buckets left. -/
def probe (k : Nat) (g : Group) (insert : Bool) (key value base mask : Nat) : Nat → Nat → Thread → State → Walked
  | 0, _, t, s =>
    -- neither a value nor an entry: those lanes are left open (log 10)
    let st := if insert then 3 else 1
    let (l, s) := freeWords 4 s
    .on { t.emit (BitVec.ofNat 32 st :: l) with status := some st } s
  | n + 1, h, t, s =>
    let a := (base + 64 * (h % (mask + 1))) % 2 ^ 48
    match reach s k g a with
    | .range => .fault 8
    | .lost => .memError t s
    | .word w =>
      match readWord w (noteSuspect k w s) with
      | (none, s) => .memError t s
      | (some b, s) =>
        let answer (st v i : Nat) (t : Thread) : Thread :=
          let e := a + 16 * i
          { t.emit ([st, v % 2 ^ 32, v / 2 ^ 32, e % 2 ^ 32, e / 2 ^ 32 % 65536].map (BitVec.ofNat 32)) with
            status := some (if st = 1 then 1 else 0) }
        match bucketSlot b key with
        | none => probe k g insert key value base mask n (h + 1) t s
        | some (i, true) => .on (answer 0 (leAt b (16 * i + 8) 8) i t) s
        | some (i, false) =>
          if !insert then
            let (v, s) := draw s
            .on (answer 1 (v % 2 ^ 64) i t) s
          else if !mayWrite s k g w then .fault 8
          else .on (answer 2 value i t) (writeWord k g w (splice b (16 * i) (leBytes 8 key ++ leBytes 8 value)) s)

/-! ### One walk instruction (R247) -/

/-- An instruction that uses an address register, or S, checks its alignment (R249). -/
def aligned (v : Nat) : Bool := v % 64 == 0

/-- The instruction at a thread's pc; `waiting` data tokens of its request have not arrived, and there is room for `room` more
responses (R246). An instruction with nowhere to put a response waits. -/
def walkStep (k : Nat) (g : Group) (i : Image) (waiting room : Nat) (t : Thread) (s : State) : Walked :=
  let w := walkInstr i.bytes t.program t.pc
  let op := bits w 31 27
  let ra := bits w 26 25
  let rb := bits w 24 23
  let imm := bits w 19 0
  let off : Int := signed 20 imm * 64
  let a := unsigned 48 ((t.reg ra : Int) + off)
  let next : Thread := { t with pc := t.pc + 1 }
  let needs (n : Nat) (f : List Token → Thread → Walked) : Walked :=
    match takeData waiting next n with
    | (some (d, t), _) => f d t
    | (none, true) => .fault 10
    | (none, false) => .wait
  let at_ (x : Walked) : Walked := if aligned (t.reg ra) then x else .fault 9
  let both (x : Walked) : Walked := if aligned (t.reg ra) && aligned t.s then x else .fault 9
  let valid (d : Token) : List Nat := (((upTo 16).map (lane d)).filter (· != 0xFFFFFFFF)).map fun x =>
    (t.reg ra + x * t.s) % 2 ^ 48
  let key (d : Token) : Nat := lane d 1 * 2 ^ 32 + lane d 0
  let mask : Nat := 2 ^ min (imm % 32) 30 - 1
  let emits (x : Walked) : Walked := if room = 0 then .wait else x
  let reads (l : List Nat) (n : Nat) (t : Thread) : Walked :=
    emits (readTodo k g room { t with todo := if n = 0 then [] else l.map fun a => (a, n) } s)
  let search (insert : Bool) : Walked := at_ <| emits (needs 1 fun l t =>
    let d := l.headD ⟨[], 0, 0⟩
    probe k g insert (key d) (lane d 3 * 2 ^ 32 + lane d 2) (t.reg ra) mask t.n
      (crc32cStd (beBytes 8 (key d)) % (mask + 1)) t s)
  match op with
  | 0x00 => emits (.on { t with status := some (t.status.getD 0), active := false } s)
  | 0x01 => at_ (reads [a] 1 next)
  | 0x02 => at_ (reads [a] t.n next)
  | 0x03 => at_ (needs 1 fun d t => writeMany k g false d a t s)
  | 0x04 => at_ (needs t.n fun d t => writeMany k g false d a t s)
  | 0x05 => at_ (needs 1 fun d t => writeMany k g true d a t s)
  | 0x06 => at_ (needs t.n fun d t => writeMany k g true d a t s)
  | 0x07 => at_ (.on (next.setReg ra a) s)
  | 0x08 => both (.on (next.setReg ra (t.reg ra + t.s)) s)
  | 0x09 => .on { next with n := imm } s
  | 0x0A =>
    let n := if t.n = 0 then 2 ^ 32 - 1 else t.n - 1
    .on { t with n := n, pc := if n ≠ 0 then imm % 16 else t.pc + 1 } s
  | 0x0B => both (needs 1 fun l t => reads (valid (l.headD ⟨[], 0, 0⟩)) t.n t)
  | 0x0C => both (needs 1 fun l _ =>
      let bases := valid (l.headD ⟨[], 0, 0⟩)
      needs (1 + t.n * bases.length) fun d t => addIndexed k g t.n bases (d.drop 1) t s)
  | 0x0D => search false
  | 0x0E => search true
  | 0x0F => (if aligned (t.reg rb) && aligned t.s then
      needs 1 fun l t => .on (t.setReg ra (t.reg rb + lane (l.headD ⟨[], 0, 0⟩) (imm % 16) * t.s)) s
    else .fault 9)
  | _ => .on { t with status := some (t.status.getD 0), active := false } s

/-- A thread's responses end: LAST with its status and the number of DATA tokens it emitted. -/
def Thread.last (t : Thread) (status : Nat) : Thread :=
  { t with
    active := true
    status := some status
    emitted := t.emitted ++ [natToken 2 t.tag [status, t.count]] }

/-- Whether a thread has emitted its LAST. -/
def Thread.ended (t : Thread) : Bool := t.emitted.any (·.kind == 2)

/-- R246: how many responses thread `n` of a port may make now: its 16 reads in flight, and for a thread that is not the
oldest the room of the reorder buffer of 256 tokens. -/
def responseRoom (s : State) (die tile port n : Nat) : Nat :=
  let old := oldestThread s die tile port
  let early := ((busyThreads s die tile port).filter fun j => some j != old).foldl
    (fun a j => a + (threadAt s die tile port j).emitted.length) 0
  if old = some n then 16 - (threadAt s die tile port n).emitted.length else min 16 (256 - early)

/-- One instruction of thread `n` of a port, or the next words of one that reads, and what follows from it. -/
def threadRun (die tile port n h : Nat) (i : Image) (s : State) : State :=
  let t := threadAt s die tile port n
  let u := uRP port
  let w := unitWork s die tile u
  let waiting := if w.busy && w.bytes = n then w.blocks else 0
  if !t.active || t.ended then s else
  let k := ctxKey die t.ctx
  match groupOfCtx s k with
  | none => unitFault die tile h 5 s
  | some g =>
    let finish (t : Thread) (status : Nat) (s : State) : State :=
      onCtx k (fun c => { c with threads := c.threads - 1 })
        (onThread die tile port n (fun _ => { t.last status with data := [] }) s)
    let room := responseRoom s die tile port n
    if !t.todo.isEmpty && room = 0 then s
    else if t.todo.isEmpty && 16 ≤ t.pc then progress die h (finish t (t.status.getD 0) s)
    else match (if t.todo.isEmpty then walkStep k g i waiting room t s else readTodo k g room t s) with
    | .wait => s
    | .fault cause => unitFault die tile h cause s
    | .memError t s => progress die h (finish t 2 s)
    | .on t s =>
      progress die h (if t.active then onThread die tile port n (fun _ => t) s else finish t (t.status.getD 0) s)

/-! ### Requests (R245) -/

/-- A free thread takes the HEAD of a walk request; the DATA tokens that follow are its own (R245). -/
def startThread (die tile port n k : Nat) (t : Token) (s : State) : State :=
  let m := lane t 11 % 65536
  let regs := (upTo 4).foldl (fun (a : Tab Nat) r => a.set r (lane t (2 * r) + lane t (2 * r + 1) % 65536 * 2 ^ 32)) (.empty 0)
  let s := onThread die tile port n (fun _ => { Thread.reset with
    active := true
    a := regs
    s := lane t 8
    n := lane t 9
    program := lane t 10 / 16 ^ port % 16
    ctx := lane t 12 % 4096
    tag := t.tag
    order := s.fabric.threadSerial }) s
  let s := s.onFabric fun x => { x with threadSerial := x.threadSerial + 1 }
  let s := onCtx k (fun c => { c with threads := c.threads + 1 }) s
  onWork die tile (uRP port) (fun y => { y with busy := decide (0 < m), blocks := m, bytes := n }) s

/-- WALK_REQUEST: the port hands out a response, then takes a DATA token for the thread it is feeding, or a HEAD that
starts a free thread and runs its first instruction. -/
def walkRequest (die tile port : Nat) (s : State) : State :=
  match runningOn s die tile with
  | none => s
  | some (h, i, lt) =>
    let u := uRP port
    let s := portDrain die tile port h (unitRouted i lt u) s
    let w := unitWork s die tile u
    match unitHead s die tile u with
    | none => s
    | some t =>
      if w.busy then
        if t.kind ≠ 0 then unitFault die tile h 6 s
        else
          let x := threadAt s die tile port w.bytes
          let s := unitTake die tile u s
          let s := onWork die tile u (fun y => { y with blocks := y.blocks - 1, busy := decide (1 < y.blocks) }) s
          -- tokens for a thread that has ended are discarded (R249)
          let s := if x.active && !x.ended then onThread die tile port w.bytes (fun y => { y with data := y.data ++ [t] }) s else s
          threadRun die tile port w.bytes h i (progress die h s)
      else if t.kind ≠ 1 then unitFault die tile h 6 s
      else
        let c := lane t 12 % 4096
        match tagCtx s die h (BitVec.ofNat 16 c) with
        | none => unitFault die tile h 5 s
        | some (k, _) =>
          match (upTo 64).find? fun n => !(threadAt s die tile port n).active with
          | none => s
          | some n =>
            threadRun die tile port n h i (progress die h (startThread die tile port n k t (unitTake die tile u s)))

def execWalkRequest (die : DieIx) (tile : TileIx) (port : Fin 8) (s : State) : Host.Outcome State Fault Refusal :=
  .next (walkRequest die tile port s)

/-- RETRIEVER_ACCESS_COMPLETE: an access of a thread is done and the thread runs its next instruction; the port hands out
a response. -/
def accessComplete (die tile port n : Nat) (s : State) : State :=
  match runningOn s die tile with
  | none => s
  | some (h, i, lt) =>
    let s := threadRun die tile port n h i s
    match runningOn s die tile with
    | none => s
    | some _ => portDrain die tile port h (unitRouted i lt (uRP port)) s

def execRetrieverAccessComplete (die : DieIx) (tile : TileIx) (port : Fin 8) (thread : Fin 64) (s : State) :
    Host.Outcome State Fault Refusal :=
  .next (accessComplete die tile port thread s)

end Sys2Proof.Machine
end

