-- ==== Sys2Proof/Machine/Sha.lean ====
section
/-! DEFINITION. SHA-256 of FIPS 180-4 and HMAC-SHA-256 of RFC 2104, which the manual names (14 R430, R437; 16 R470), and the
measurements they extend (log 50). -/

namespace Sys2Proof.Machine

/-- The round constants of FIPS 180-4. -/
def shaK : List (BitVec 32) :=
  [0x428A2F98, 0x71374491, 0xB5C0FBCF, 0xE9B5DBA5, 0x3956C25B, 0x59F111F1, 0x923F82A4, 0xAB1C5ED5] ++
  [0xD807AA98, 0x12835B01, 0x243185BE, 0x550C7DC3, 0x72BE5D74, 0x80DEB1FE, 0x9BDC06A7, 0xC19BF174] ++
  [0xE49B69C1, 0xEFBE4786, 0x0FC19DC6, 0x240CA1CC, 0x2DE92C6F, 0x4A7484AA, 0x5CB0A9DC, 0x76F988DA] ++
  [0x983E5152, 0xA831C66D, 0xB00327C8, 0xBF597FC7, 0xC6E00BF3, 0xD5A79147, 0x06CA6351, 0x14292967] ++
  [0x27B70A85, 0x2E1B2138, 0x4D2C6DFC, 0x53380D13, 0x650A7354, 0x766A0ABB, 0x81C2C92E, 0x92722C85] ++
  [0xA2BFE8A1, 0xA81A664B, 0xC24B8B70, 0xC76C51A3, 0xD192E819, 0xD6990624, 0xF40E3585, 0x106AA070] ++
  [0x19A4C116, 0x1E376C08, 0x2748774C, 0x34B0BCB5, 0x391C0CB3, 0x4ED8AA4A, 0x5B9CCA4F, 0x682E6FF3] ++
  [0x748F82EE, 0x78A5636F, 0x84C87814, 0x8CC70208, 0x90BEFFFA, 0xA4506CEB, 0xBEF9A3F7, 0xC67178F2]
def shaInit : List (BitVec 32) := [0x6A09E667, 0xBB67AE85, 0x3C6EF372, 0xA54FF53A, 0x510E527F, 0x9B05688C, 0x1F83D9AB, 0x5BE0CD19]

def rotr (n : Nat) (x : BitVec 32) : BitVec 32 := x.rotateRight n

/-- One step of the message schedule: the last 16 words, newest first. -/
def shaNextW (w : List (BitVec 32)) : BitVec 32 :=
  let g (i : Nat) : BitVec 32 := w.getD i 0
  let a := g 1
  let b := g 14
  (rotr 17 a ^^^ rotr 19 a ^^^ (a >>> 10)) + g 6 + (rotr 7 b ^^^ rotr 18 b ^^^ (b >>> 3)) + g 15

/-- One round on the eight working words. -/
def shaRound (v : List (BitVec 32)) (k w : BitVec 32) : List (BitVec 32) :=
  match v with
  | [a, b, c, d, e, f, g, h] =>
    let t1 := h + (rotr 6 e ^^^ rotr 11 e ^^^ rotr 25 e) + ((e &&& f) ^^^ (~~~e &&& g)) + k + w
    let t2 := (rotr 2 a ^^^ rotr 13 a ^^^ rotr 22 a) + ((a &&& b) ^^^ (a &&& c) ^^^ (b &&& c))
    [t1 + t2, a, b, c, d + t1, e, f, g]
  | _ => v

/-- The rounds of one block: `todo` words of the block still unread, `win` the schedule, newest first. -/
def shaRounds : List (BitVec 32) → List (BitVec 32) → List (BitVec 32) → List (BitVec 32) → List (BitVec 32)
  | [], _, _, v => v
  | k :: ks, todo, win, v =>
    match todo with
    | w :: r => shaRounds ks r (w :: win) (shaRound v k w)
    | [] =>
      let w := shaNextW win
      shaRounds ks [] (w :: win.take 15) (shaRound v k w)

/-- The words of 64 bytes. -/
def shaWords : Nat → Bytes → List (BitVec 32)
  | 0, _ => []
  | n + 1, b => BitVec.ofNat 32 (beNat (b.take 4)) :: shaWords n (b.drop 4)

/-- `n` blocks of a padded message. -/
def shaBlocks : Nat → Bytes → List (BitVec 32) → List (BitVec 32)
  | 0, _, h => h
  | n + 1, b, h =>
    shaBlocks n (b.drop 64) ((h.zip (shaRounds shaK (shaWords 16 b) [] h)).map fun x => x.1 + x.2)

/-- SHA-256. -/
def sha256 (m : Bytes) : Bytes :=
  let z := (119 - m.length % 64) % 64
  let p := m ++ [0x80] ++ List.replicate z 0 ++ beBytes 8 (8 * m.length)
  (shaBlocks (p.length / 64) p shaInit).flatMap fun x => beBytes 4 x.toNat

/-- HMAC-SHA-256 with a key of at most 64 bytes. -/
def hmac (key m : Bytes) : Bytes :=
  let k := padTo 64 key
  sha256 (k.map (· ^^^ 0x5C) ++ sha256 (k.map (· ^^^ 0x36) ++ m))

/-- R437: a measurement extended by a 32-byte digest. -/
def measExtend (i : Nat) (x : Bytes) (s : State) : State :=
  s.onKeeper fun k => { k with meas := k.meas.set i (sha256 (k.meas.get i ++ x)) }

/-- R437: MEAS5 extended with an event code. -/
def measEvent (code : Nat) (s : State) : State := measExtend 5 (sha256 (beBytes 4 code)) s

/-! ### Keys in fuses (14 R427, R430, R445) -/

def fuseKey (s : State) (n : Nat) : Bytes := beBytes 32 (s.keeper.voted.get (8 + n))
def fuseUse (s : State) (n : Nat) : Nat := s.keeper.voted.get (16 + n)
/-- R427: a slot is usable when it is not blank and not revoked. -/
def keyUsable (s : State) (n : Nat) : Bool := n < 8 && s.keeper.voted.get (8 + n) != 0 && !bit (fuseUse s n) 2
def bootPolicy (s : State) : Nat := s.keeper.voted.get 24
/-- R435: the ROLLBACK counter. -/
def rollback (s : State) : Nat := ((upTo 64).filter fun k => s.keeper.voted.get (25 + k) == 1).foldl (fun m k => max m (k + 1)) 0

/-- R255: algorithm, key identifier and signature of a block of 7,864 bytes. -/
def sigAlgorithm (b : Bytes) : Nat := leAt b 0 4
def sigKey (b : Bytes) : Nat := leAt b 4 4
def sigGood (s : State) (body block : Bytes) : Bool :=
  sigAlgorithm block == 1 && Config.slhVerify (fuseKey s (sigKey block)) body (slice block 8 7856)

end Sys2Proof.Machine
end

