-- ==== Sys2Proof/Machine/Images.lean ====
section
/-! DEFINITION. Images: container checks, residency, placement, faults and the stall watch, spare cells (07 R231, R234, R237,
R253 to R266; 14 R441, R442, R445; 18 R536). -/

namespace Sys2Proof.Machine

/-! ### Container checks (R253 to R256) -/

/-- Opcodes of R235 and walk operations of R247. -/
def opcodeDefined (op : Nat) : Bool :=
  op ≤ 1 || (3 ≤ op && op ≤ 0x0E) || (0x10 ≤ op && op ≤ 0x1E) || (0x20 ≤ op && op ≤ 0x26) || op == 0x28 || op == 0x29
    || op == 0x2B || op == 0x30 || op == 0x31 || (0x38 ≤ op && op ≤ 0x3B)

/-- R234, R235: an instruction without reserved fields or encodings. -/
def instrOk (w : Nat) : Bool :=
  opcodeDefined (iOp w) && !bit w 32 && iDst w < 16 && iA w < 0x18 && iB w < 0x18 && iC w < 0x18
    && (iOp w != 0x2B || iImm w % 4 < 3)

/-- R231: a trigger entry by itself. -/
def triggerOk (t : Nat) : Bool :=
  bits t 7 5 == 0 && (!bit t 31 || (bits t 30 27 != 0 && (upTo 4).all (fun i => !bit (bits t 26 23) i || bit (bits t 30 27) i)
    && (!bit t 18 || bit (bits t 30 27) (bits t 17 16))))

/-- R256: a block reaches an END by address 31, sends at most once on a port and within OUT_MASK. The END may stand at
address 31 itself (DEDUCED, log 163): cell U of the chapter's own update image ends a block there. -/
def blockOk (rec_ : Bytes) (outMask : Nat) : Nat → Nat → List Nat → Bool
  | 0, _, _ => false
  | n + 1, pc, sent =>
    let w := instrOf rec_ pc
    let o := iDst w % 4
    let send := iOp w == 0x38
    (!send || (bit outMask o && !sent.contains o)) && (iEnd w || blockOk rec_ outMask n (pc + 1) (if send then o :: sent else sent))

def cellOk (tiles : Nat) (rec_ : Bytes) : Bool :=
  byteAt rec_ 0 < tiles && byteAt rec_ 1 < 8 && byteAt rec_ 2 < 16 && byteAt rec_ 3 == 0 && leAt rec_ 36 4 == 0
    && (upTo 32).all (fun i => instrOk (instrOf rec_ i))
    && (upTo 8).all fun i =>
      let t := triggerOf rec_ i
      triggerOk t && (!bit t 31 || blockOk rec_ (bits t 22 19) (32 - bits t 4 0) (bits t 4 0) [])

/-- R224, R237: whether a track of a switchbox connects to something: outputs by their index, sources by their code. -/
def trackConnected (tiles t r c k : Nat) : Bool :=
  let n := k % 4
  if 16 ≤ k then true else
  match k / 4 with
  | 0 => r != 0 || n == 0
  | 1 => c != 15 || t + 1 < tiles
  | 2 => r != 7 || (n == 0 && c < 12)
  | _ => c != 0 || t != 0

def switchOk (tiles : Nat) (rec_ : Bytes) : Bool :=
  let t := byteAt rec_ 0
  let r := byteAt rec_ 1
  let c := byteAt rec_ 2
  let w := leAt rec_ 4 16
  t < tiles && r < 8 && c < 16 && byteAt rec_ 3 == 0 && w < 2 ^ 100 && (upTo 20).all fun k =>
    let code := w / 2 ^ (5 * k) % 32
    code == 31 || (code < 20 && trackConnected tiles t r c k && trackConnected tiles t r c code)

def walkOk (b : Bytes) : Bool := (upTo 256).all fun i =>
  let w := leAt b (4 * i) 4
  bits w 31 27 ≤ 0x0F && bits w 22 20 == 0 && (!(bits w 31 27 == 0x0D || bits w 31 27 == 0x0E) || w % 32 ≤ 30)

def bindOk (tiles : Nat) (x : Bytes) : Bool :=
  byteAt x 1 < tiles && byteAt x 2 < 4 && byteAt x 3 < tiles && byteAt x 4 < 4 && allZero (slice x 5 3)

def reginitOk (tiles : Nat) (x : Bytes) : Bool := byteAt x 0 < tiles && byteAt x 1 < 8 && byteAt x 2 < 16 && byteAt x 3 ≤ 0x13

/-- Record lengths of the section types; NAMES have none. -/
def sectRecLen (ty : Nat) : Nat := match ty with | 1 => 296 | 2 => 20 | 3 => 1024 | 4 => 8 | 5 => 68 | _ => 0

/-- Format bits that the masks may hold (05 R152). -/
def formatMask : Nat := 2 ^ 0 + 2 ^ 1 + 2 ^ 2 + 2 ^ 0x10 + 2 ^ 0x11 + 2 ^ 0x12 + 2 ^ 0x13 + 2 ^ 0x14 + 2 ^ 0x15 + 2 ^ 0x18
  + 2 ^ 0x19 + 2 ^ 0x30 + 2 ^ 0x31
def maskOk (m allowed : Nat) : Bool := Nat.land m allowed == m

/-- Where the body of a container ends and its signature block, if any, begins. -/
def bodyEnd (b : Bytes) : Nat := leAt b 8 4 - if bit (leAt b 6 2) 0 then 7864 else 0

/-- R253, R254, R256: the layout of a container of `n` staged bytes. -/
def layoutOk (b : Bytes) : Bool :=
  let total := leAt b 8 4
  let tiles := byteAt b 16
  let pairs := byteAt b 17
  let n := leAt b 42 2
  let so := leAt b 44 4
  let stop := bodyEnd b
  let entries := sectEntries b
  b.length == total && 128 ≤ stop && slice b 0 4 == [0x41, 0x48, 0x52, 0x4E] && leAt b 4 2 == 1 && leAt b 6 2 < 2
    && 1 ≤ tiles && tiles ≤ 8 && 1 ≤ pairs && pairs ≤ 16 && !bit (leAt b 18 2) 0
    && maskOk (leAt b 20 8) formatMask && maskOk (leAt b 28 8) formatMask && leAt b 36 4 < 16 && leAt b 40 2 ≤ 1024
    && 1 ≤ n && n ≤ 16 && so + 16 * n ≤ stop && allZero (slice b 80 48)
    && entries.all (fun x => 1 ≤ x.1 && x.1 ≤ 6 && x.2.1 == 0 && x.2.2.off + x.2.2.len ≤ stop
        && (x.1 == 6 || x.2.2.len == x.2.2.n * sectRecLen x.1) && (x.1 != 3 || x.2.2.n == 1)
        && (entries.filter fun y => y.1 == x.1).length == 1)
    && (cellRecords b).all (cellOk tiles) && (switchRecords b).all (switchOk tiles) && (regRecords b).all (reginitOk tiles)
    && (sectRecords b 3 1024).all walkOk && (bindRecords b).all (bindOk tiles)
    && (bindRecords b).length == pairs && (upTo pairs).all fun i => (pairOf b i).isSome

/-- Whether DIGEST agrees. -/
def digestOk (b : Bytes) : Bool := sha256 (slice b 128 (bodyEnd b - 128)) == slice b 48 32

/-- Codes of R259, in the order of its table (log 51). -/
def imDone : Nat := 0
def imBadLayout : Nat := 1
def imBadSignature : Nat := 2
def imPolicy : Nat := 3
def imTooLarge : Nat := 4
def imNoSlot : Nat := 5
def imNoTiles : Nat := 6
def imNoMemory : Nat := 7
def imBusy : Nat := 8
def imNotFound : Nat := 9

/-- R445: policy and signature of a container. -/
def signatureCheck (s : State) (b : Bytes) : Nat :=
  if bit (leAt b 6 2) 0 then
    let body := b.take (bodyEnd b)
    let block := b.drop (bodyEnd b)
    let n := sigKey block
    if !keyUsable s n || !bit (fuseUse s n) 1 then imPolicy
    else if sigGood s body block then imDone else imBadSignature
  else if bit (bootPolicy s) 1 then imDone else imPolicy

/-- The checks of a commit: size, layout, signature and policy, a free handle. -/
def commitCheck (s : State) (b : Bytes) : Nat :=
  if !layoutOk b || !digestOk b then imBadLayout
  else
    let c := signatureCheck s b
    if c ≠ imDone then c
    else if ((upTo 65).find? fun h => h != 0 && (imageAt s h).isNone).isNone then imNoSlot else imDone

/-- The lowest free handle. -/
def freeHandle (s : State) : Nat := ((upTo 65).find? fun h => h != 0 && (imageAt s h).isNone).getD 0

def imageOf (b : Bytes) (library : Option Nat) : Image where
  header := b.take 128
  digest := slice b 48 32
  tiles := byteAt b 16
  pairs := byteAt b 17
  opMask := leAt b 18 2
  inMask := leAt b 20 8
  outMask := leAt b 28 8
  caps := leAt b 36 4
  scratchMb := leAt b 40 2
  bytes := b
  library := library

/-! ### Residency (R257, R258, R259, R266) -/

def setCommitResult (st h : Nat) (s : State) : State := s.onFabric fun x => { x with commitResult := st * 256 + h }
def setPlaceResult (st dies : Nat) (s : State) : State := s.onFabric fun x => { x with placeResult := st * 256 + dies }

/-- IMAGE_STAGE_DATA: what a short write does not fill is zero (16 R480). -/
def imageStage (data : Bytes) (s : State) : State :=
  if 1024 < data.length then answer stBadLength s else
  let o := s.fabric.stageOffset
  answer stDone ((s.putMem (imgStageAddr o) (padTo 1024 data)).onFabric fun x => { x with
    stageOffset := o + data.length
    stageLen := max x.stageLen (o + data.length) })

def execImageStageData (role : Role) (data : Bytes) (s : State) : Host.Outcome State Fault Refusal :=
  .next (guardWrite role 0x0B0001 2 (imageStage data) s)

/-- A container made resident in a handle on every die in service. -/
def admitImage (h : Nat) (b : Bytes) (library : Option Nat) (s : State) : State :=
  s.onFabric fun x => { x with images := x.images.set h (some (imageOf b library)) }

/-- IMAGE_COMMIT: the staged bytes verified and made resident; the staging buffer is then empty. -/
def imageCommit (s : State) : State :=
  let n := s.fabric.stageLen
  let total := leNat (memBytes s.mem (imgStageAddr 8) 4)
  let s := answer stDone s
  if 2097152 < total || 2097152 < n then setCommitResult imTooLarge 0 s
  else
    let b := memBytes s.mem (imgStageAddr 0) (min n total)
    let st := commitCheck s b
    if st ≠ imDone then setCommitResult st 0 s
    else
      let h := freeHandle s
      let s := measExtend 4 (slice b 48 32) (admitImage h b none s)
      setCommitResult imDone h (s.onFabric fun x => { x with stageLen := 0 })

def execImageCommit (role : Role) (_value : Byte) (s : State) : Host.Outcome State Fault Refusal :=
  .next (guardWrite role 0x0B0001 3 imageCommit s)

/-- Whether an image is placed on any die. -/
def placedAnywhere (s : State) (h : Nat) : Bool := (upTo 8).any fun d => s.fabric.placed.get (imgKey d h) != 0
/-- Whether a moored group binds an image. -/
def imageBound (s : State) (h : Nat) : Bool :=
  (mooredGroups s).any (fun g => g.image == h) || s.coll.prepared.any fun p => p.2.image == h

/-- IMAGE_UNLOAD: its status stands in COMMIT_RESULT (log 52). -/
def imageUnload (h : Nat) (s : State) : State :=
  let s := answer stDone s
  if (imageAt s h).isNone then setCommitResult imNotFound h s
  else if placedAnywhere s h then setCommitResult imBusy h s
  else setCommitResult imDone h (s.onFabric fun x => { x with
    images := x.images.set h none
    library := ⟨x.library.dflt, x.library.cells.filter fun c => c.2 != h⟩
    faultRec := x.faultRec.set h [] })

def execImageUnload (role : Role) (handle : Byte) (s : State) : Host.Outcome State Fault Refusal :=
  .next (guardWrite role 0x0B0002 1 (imageUnload handle.toNat) s)

/-! ### Placement (R258) -/

/-- The dies of a bitmap. -/
def diesOf (m : Nat) : List Nat := (upTo 8).filter (bit m)
def dieBits (l : List Nat) : Nat := (upTo 8).foldl (fun a d => if l.contains d then a + 2 ^ d else a) 0

/-- Whether a die has the tiles free for a placement, and the offset of its scratch area. -/
def tilesFree (s : State) (d h a n : Nat) : Bool :=
  dieUp s d && a + n ≤ 8 && s.fabric.placed.get (imgKey d h) == 0
    && (upTo n).all fun t => tileUp s d (a + t) && (imageOn s d (a + t)).isNone
def scratchAt (s : State) (d : Nat) (i : Image) : Option Nat :=
  if i.scratchMb = 0 then some 0 else firstFit (usedRanges s d) (regionLimit s d) fun _ => i.scratchMb * 10 ^ 6

/-- One die places an image. -/
def placeOn (h a : Nat) (i : Image) (s : State) (d : Nat) : State :=
  let off := (scratchAt s d i).getD 0
  let k := imgKey d h
  let s := s.onFabric fun x => { x with
    placed := x.placed.set k (a + 1)
    scratch := x.scratch.set k (if i.scratchMb = 0 then 0 else off + 1)
    failed := x.failed.set k false
    stopped := x.stopped.set k false
    faultTimes := x.faultTimes.set k [] }
  progress d h (loadCells d h (emptyTiles d (tilesOf s d h) s))

/-- IMAGE_PLACE: every named die, or none. -/
def imagePlace (h dies a : Nat) (s : State) : State :=
  let s := answer stDone s
  match imageAt s h with
  | none => setPlaceResult imNotFound 0 s
  | some i =>
    let l := diesOf dies
    let noTiles := l.filter fun d => !tilesFree s d h a i.tiles
    let noMem := l.filter fun d => (scratchAt s d i).isNone
    if !noTiles.isEmpty then setPlaceResult imNoTiles (dieBits (noTiles ++ noMem)) s
    else if !noMem.isEmpty then setPlaceResult imNoMemory (dieBits noMem) s
    else setPlaceResult imDone 0 (l.foldl (placeOn h a i) s)

def execImagePlace (role : Role) (handle : Byte) (dies : BitVec 8) (tile : Byte) (s : State) :
    Host.Outcome State Fault Refusal :=
  .next (guardWrite role 0x0B0003 1 (imagePlace handle.toNat dies.toNat tile.toNat) s)

/-- One die unplaces an image; its scratch area is freed, not cleared. -/
def unplaceOn (h : Nat) (s : State) (d : Nat) : State :=
  let k := imgKey d h
  if s.fabric.placed.get k = 0 then s else
  (emptyTiles d (tilesOf s d h) s).onFabric fun x => { x with
    placed := x.placed.set k 0
    scratch := x.scratch.set k 0
    failed := x.failed.set k false
    stopped := x.stopped.set k false
    faultTimes := x.faultTimes.set k [] }

/-- IMAGE_UNPLACE. -/
def imageUnplace (h dies : Nat) (s : State) : State :=
  let s := answer stDone s
  if (imageAt s h).isNone then setPlaceResult imNotFound 0 s
  else if imageBound s h then setPlaceResult imBusy (dieBits ((diesOf dies).filter fun d => s.fabric.placed.get (imgKey d h) != 0)) s
  else setPlaceResult imDone 0 ((diesOf dies).foldl (unplaceOn h) s)

def execImageUnplace (role : Role) (handle : Byte) (dies : BitVec 8) (s : State) : Host.Outcome State Fault Refusal :=
  .next (guardWrite role 0x0B0003 2 (imageUnplace handle.toNat dies.toNat) s)

/-! ### Library images (R257, R445) -/

/-- The container with which a library image already stands, if any. -/
def libraryHandle (s : State) (b : Bytes) : Option Nat := (upTo 65).find? fun h => match imageAt s h with
  | some i => i.library.isSome && i.bytes == b
  | none => false

/-- The library image of one operation code, checked and made resident in the lowest free handle. -/
def loadLibrary (op : Nat) (s : State) : State :=
  let none_ (s : State) : State := s.onFabric fun x => { x with library := x.library.set op 0 }
  match Config.libraryImage s.keeper.fwVersion op with
  | none => none_ s
  | some b =>
    match libraryHandle s b with
    | some h => s.onFabric fun x => { x with library := x.library.set op h }
    | none =>
      if commitCheck s b ≠ imDone then none_ s
      else
        let h := freeHandle s
        (admitImage h b (some op) s).onFabric fun x => { x with library := x.library.set op h }

/-- Every operation that binds an image: all but the pass-through operations and BARRIER. -/
def loadLibraries (s : State) : State :=
  ([1, 2, 3, 6, 7, 8, 9, 0xA, 0xB, 0xC, 0xD, 0xE]).foldl (fun s op => loadLibrary op s) s

/-! ### Faults (R260 to R262) -/

/-- IMAGE_FAULT: an exception of a cell or unit of the image that covers a tile. -/
def execImageFault (die : DieIx) (tile : TileIx) (row : Fin 8) (col : Fin 16) (cause addr : Nat) (s : State) :
    Host.Outcome State Fault Refusal :=
  .next <| match runningOn s die tile with
    | some (h, _, _) => faultImage die h ⟨die, tile, row, col, cause, addr, 0⟩ s
    | none => s

/-- STALL_WATCH: pending work without progress for 1 ms. -/
def execStallWatch (die : DieIx) (handle : Nat) (s : State) : Host.Outcome State Fault Refusal :=
  .next <|
    let k := imgKey die handle
    let tile := s.fabric.placed.get k - 1
    if s.fabric.placed.get k ≠ 0 && clocksRun s && dieUp s die && !s.fabric.stopped.get k && !s.fabric.failed.get k
        && imagePending s die handle && s.fabric.progressAt.get k + 1000000 ≤ nowNs s then unitFault die tile handle 11 s
    else s

/-- Whether an image stands stopped and may resume. -/
def resumable (s : State) (die h : Nat) : Bool :=
  s.fabric.stopped.get (imgKey die h) && !s.fabric.failed.get (imgKey die h) && s.fabric.placed.get (imgKey die h) != 0

/-- IMAGE_RESUME: in hardware mode of COLL_RECOVERY_MODE (R261 step 4). -/
def execImageResume (die : DieIx) (handle : Nat) (s : State) : Host.Outcome State Fault Refusal :=
  .next (if dieUp s die && clocksRun s && cfgCollRecovery s = 0 && resumable s die handle then resumeImage die handle s else s)

/-- IMAGE_RESTART (R261, R266): in host-assisted mode, resumes the image on every die where it waits; in hardware mode the
image resumes by itself and the write changes nothing (DESIGN CHOICE, log 165). -/
def imageRestart (h : Nat) (s : State) : State :=
  if (imageAt s h).isNone then answer stNotFound s
  else if cfgCollRecovery s = 0 then answer stDone s
  else answer stDone (((diesUp s).filter fun d => resumable s d h).foldl (fun s d => resumeImage d h s) s)

def execImageRestart (role : Role) (handle : Byte) (s : State) : Host.Outcome State Fault Refusal :=
  .next (guardWrite role 0x0B0005 1 (imageRestart handle.toNat) s)

/-- COLL_RECOVERY_MODE (R441, R442): on return to hardware mode, every image that waits for IMAGE_RESTART resumes. -/
def collRecoveryWrite (v : Nat) (s : State) : State :=
  if 1 < v then answer stBadValue s else
  let s := answer stDone (objSet 0x0A0001 7 v s)
  if v = 1 then s else
  (upTo 512).foldl (fun s i => if resumable s (i / 64) (i % 64 + 1) then resumeImage (i / 64) (i % 64 + 1) s else s) s

def execCollRecoveryMode (role : Role) (value : Byte) (s : State) : Host.Outcome State Fault Refusal :=
  .next (guardWrite role 0x0A0001 7 (collRecoveryWrite value.toNat) s)

/-! ### Spare cells (R263 to R265) -/

/-- A tile leaves service (R5, R265): its image becomes FAILED and its open contexts end with IMAGE_FAULT. -/
def tileLost (die tile cause : Nat) (s : State) : State :=
  if !tileUp s die tile then s else
  let on := imageOn s die tile
  let s := s.onStart fun x => { x with aihornTiles := x.aihornTiles &&& ~~~(BitVec.ofNat 64 (2 ^ (8 * die + tile))) }
  let s := match on with
    | none => s
    | some (h, _, _) =>
      let s := threadsStop die h (emptyTiles die (tilesOf s die h) s)
      let keys := imageCtxs s die h fun (c : Ctx) => c.state == CtxState.collecting || c.state == CtxState.computing
      let s := keys.foldl (fun s k => endContext k 11 (s.coll.ctx.get k).arrived s) s
      s.onFabric fun x => { x with
        stopped := x.stopped.set (imgKey die h) true
        failed := x.failed.set (imgKey die h) true }
  let s := s.onFabric fun x => { x with retiring := x.retiring.filter fun y => !(y.1 == die && y.2.1 == tile) }
  permanentCauses (unitLost die tile cause s)

def rowKey (die tile row : Nat) : Nat := tileKey die tile * 8 + row

/-- R263: the position of logical column `c` of a row. Cells, links and routes are held by logical column, as switchboxes move
with their cells, bypass wiring keeps every route and edge ports stay. -/
def positionOf (s : State) (die tile row c : Nat) : Nat :=
  match s.fabric.retired.get (rowKey die tile row) with
  | 0 => c
  | f + 1 => if c < f then c else c + 1

/-- R263: the logical column that a position serves; none for a retired position and a spare not in use. -/
def columnAt (s : State) (die tile row pos : Nat) : Option Nat := (upTo 16).find? fun c => positionOf s die tile row c == pos

/-- The row's spare takes the place of a position, and every cell of the image reloads (R263, R264). -/
def remapRow (die tile row pos : Nat) (quiet : Bool) (s : State) : State :=
  let col := (columnAt s die tile row pos).getD 15
  let s := s.onFabric fun x => { x with retired := x.retired.set (rowKey die tile row) (pos + 1) }
  match imageOn s die tile with
  | none => s
  | some (h, _, _) =>
    if s.fabric.stopped.get (imgKey die h) then s
    else if quiet then progress die h (loadCells die h s)
    else faultImage die h ⟨die, tile, row, col, 12, 0, 0⟩ s

/-- Whether no context of the image on a tile is COMPUTING. -/
def tileQuiet (s : State) (die tile : Nat) : Bool := match imageOn s die tile with
  | some (h, _, _) => (imageCtxs s die h fun c => c.state == .computing).isEmpty
  | none => true

/-- A retirement that waits for the image to be quiet, and when its 100 us end. -/
def retiringAt (s : State) (die tile row pos : Nat) : Option Nat :=
  (s.fabric.retiring.find? fun x => x.1 == die && x.2.1 == tile && x.2.2.1 == row && x.2.2.2.1 == pos).map (·.2.2.2.2)

/-- R265: whether a row's spare is in use, about to be, or unusable. -/
def spareTaken (s : State) (die tile row : Nat) : Bool :=
  s.fabric.retired.get (rowKey die tile row) != 0 || s.fabric.spareBad.get (rowKey die tile row)
    || s.fabric.retiring.any fun x => x.1 == die && x.2.1 == tile && x.2.2.1 == row

/-- R264, R265, 18 R536: a position that failed is retired: at once where no context of the image is COMPUTING, else with
new deliveries held for up to 100 us. -/
def retireNow (die tile row pos : Nat) (s : State) : State :=
  let k := rowKey die tile row
  if s.fabric.retired.get k = pos + 1 || (retiringAt s die tile row pos).isSome then s
  else if spareTaken s die tile row then (if pos = 16 && s.fabric.spareBad.get k then s else tileLost die tile 5 s)
  else if pos = 16 then s.onFabric fun x => { x with spareBad := x.spareBad.set k true }
  else if tileQuiet s die tile then remapRow die tile row pos true s
  else s.onFabric fun x => { x with retiring := x.retiring ++ [(die, tile, row, pos, nowNs s + 100000)] }

/-- SPARE_NEEDED (R264): a retirement posted to the host. -/
def postSpare (die tile row pos : Nat) (s : State) : State :=
  if s.fabric.spareNeeded.contains (die, tile, row, pos) then s else
  raise 0x0B02 1 (unitOf die tile 0) (args32 [(row : Int), (pos : Int)])
    (s.onFabric fun x => { x with spareNeeded := x.spareNeeded ++ [(die, tile, row, pos)] })

/-- A retirement by the mode of spare-cell switching; where the spare is taken the tile leaves service in both (R265). -/
def retireCell (die tile row pos : Nat) (s : State) : State :=
  if cfgSpareMode s = 1 && pos ≠ 16 && !spareTaken s die tile row then postSpare die tile row pos s
  else retireNow die tile row pos s

/-- A held retirement goes on: the row is remapped once the image is quiet, or as a fault when the 100 us have passed. -/
def retireHeld (die tile row pos deadline : Nat) (s : State) : State :=
  let quiet := tileQuiet s die tile
  if !quiet && nowNs s < deadline then s
  else remapRow die tile row pos quiet (s.onFabric fun x => { x with
    retiring := x.retiring.filter fun y => !(y.1 == die && y.2.1 == tile && y.2.2.1 == row && y.2.2.2.1 == pos) })

/-- SPARE_SWITCH: a posted retirement is carried out. -/
def spareSwitch (die tile row pos : Nat) (s : State) : State :=
  if 7 < die || 7 < tile || 7 < row || 16 < pos then answer stBadValue s
  else if !s.fabric.spareNeeded.contains (die, tile, row, pos) then answer stNotFound s
  else
    let s := s.onFabric fun x => { x with spareNeeded := x.spareNeeded.filter (· != (die, tile, row, pos)) }
    answer stDone (retireNow die tile row pos s)

/-- SPARE_MODE (R441, R442): on return to hardware mode, every posted retirement is carried out. -/
def spareModeWrite (v : Nat) (s : State) : State :=
  if 1 < v then answer stBadValue s else
  let s := answer stDone (objSet 0x0B0001 5 v s)
  if v = 1 then s else
  let l := s.fabric.spareNeeded
  l.foldl (fun s x => retireNow x.1 x.2.1 x.2.2.1 x.2.2.2 s) (s.onFabric fun x => { x with spareNeeded := [] })

end Sys2Proof.Machine
end

