-- ==== Sys2Proof/Machine/Lanes.lean ====
section
/-! DEFINITION. Photonic lanes at work (09): lock loops and beacon checks, training, lane control blocks and messages,
margin, monitors, migration, mesh spares and loops. -/

namespace Sys2Proof.Machine

/-! ### Mesh channels and their spares (03 R90; R332, R333) -/

/-- Key of a mesh channel. -/
def channelKey (a b c : Nat) : Nat := (a * 8 + b) * 128 + c
/-- The spare channels of an ordered pair. -/
def spareChannels : List Nat := [80, 81, 82, 83, 84, 85, 86, 87]
/-- R90: the working channels of an ordered pair. -/
def channelsWork (s : State) (a b : Nat) : Nat :=
  ((upTo 80).filter fun c => s.optics.channels.get (channelKey a b c) == 0).length +
    (spareChannels.filter fun c => s.optics.channels.get (channelKey a b c) == 2).length

/-- Bits 3 and 7 of DEGRADED_CAUSES over the links between dies in service (15 R459). -/
def meshCauses (s : State) : State :=
  let links := (diesUp s).flatMap fun a => ((diesUp s).filter (· != a)).map fun b => channelsWork s a b
  setCause 7 (links.any (· < 74)) (setCause 3 (links.any (· < 80)) s)

/-- R90: fewer than 80 channels of a link of two dies in service work. -/
def meshDegraded (a b : Nat) (s : State) : State :=
  let w := channelsWork s a b
  if w < 80 && dieUp s a && dieUp s b then raise 0x040C 1 (unitOf a a b) (args32 [(w : Int)]) s else s

/-- A spare that can stand for a channel: it is free, and neither of its rings is in FAULT. The spares' rings were brought up
with the others in OPTICS_CAL (R333, 15 R455). -/
def spareUsable (s : State) (a b x : Nat) : Bool :=
  s.optics.channels.get (channelKey a b x) == 0 && (ringOf s (2 * 2 ^ 20 + channelKey a b x)).state != .fault
    && (ringOf s (3 * 2 ^ 20 + channelKey a b x)).state != .fault

/-- A free spare takes the number of a channel that is out. -/
def takeSpare (a b c : Nat) (s : State) : State :=
  match spareChannels.find? (spareUsable s a b) with
  | some sp => s.onOptics fun x => { x with
      channels := x.channels.set (channelKey a b sp) 2, channelFor := x.channelFor.set (channelKey a b sp) (c + 1) }
  | none => s

/-- What an abrupt failure loses: the cells that one of the `n` channels carried, words to the mirror among them (08 R282). Which
of those on the link they are is free (log 36). -/
def meshLoses (a b n : Nat) (s : State) : State :=
  let (d, s) := draw s
  let kept {α : Type} (l : List α) (word : α → Bool) : List α :=
    (l.zipIdx.filter fun y => !word y.1 || y.2 % n != d % n).map Prod.fst
  let s := s.onSwitch fun x => { x with mesh := x.mesh.modify (meshKey a b) fun l => kept l fun _ => true }
  if b = partner a then
    s.onResident fun x => { x with toMirror := x.toMirror.modify b fun l => kept l fun
      | .word .. => true
      | _ => false }
  else s

/-- MESH_SPARE_SUBSTITUTE (R333): the channel, or the spare that stands for it, goes out; a free spare takes its number. An
abrupt failure loses what the channel carried. -/
def meshSubstitute (a b c : Nat) (abrupt : Bool) (s : State) : State :=
  let k (x : Nat) : Nat := channelKey a b x
  let standing := spareChannels.find? fun x => s.optics.channels.get (k x) == 2 && s.optics.channelFor.get (k x) == (c + 1 : Nat)
  let out := standing.getD c
  if standing.isNone && s.optics.channels.get (k c) ≠ 0 then s else
  let n := channelsWork s a b
  let s := s.onOptics fun x => { x with
    channels := x.channels.set (k out) (if out < 80 then 1 else 3), channelFor := x.channelFor.set (k out) 0 }
  let s := takeSpare a b c s
  meshCauses (meshDegraded a b (if abrupt then meshLoses a b n s else s))

/-- R333: a ring of a mesh channel has entered FAULT: the number that its channel carries moves to a spare, abruptly. -/
def meshRingFault (id : RingId) (s : State) : State :=
  let go (a b c : Nat) : State :=
    if !dieUp s a || !dieUp s b || a = b then s
    else if c < 80 then (if s.optics.channels.get (channelKey a b c) = 0 then meshSubstitute a b c true s else s)
    else if s.optics.channels.get (channelKey a b c) = 2 then meshSubstitute a b (s.optics.channelFor.get (channelKey a b c) - 1) true s
    else s
  match id with
  | .txMesh a b c => go a b c
  | .rxMesh a b c => go a b c
  | _ => s

/-- Ring FAULT at work (R310), with what R333 makes of a mesh channel's. -/
def ringFails (id : RingId) (last : Nat) (s : State) : State := meshRingFault id (ringFault id last s)

/-- R333: a line of an ELS-I at 2.0 dB or more below its baseline takes its channels out of every ordered pair that the module
feeds; line I8 takes the spares. -/
def meshFade (m : Nat) (s : State) : State :=
  let lines := (upTo 9).filter fun k => (elsOf s m).baseline.get k |>.any fun b => (elsOf s m).power.get k ≤ b - 200
  lines.foldl (fun s k =>
    (([2 * (m - 16), 2 * (m - 16) + 1].filter (dieUp s)).flatMap fun a => ((diesUp s).filter (· != a)).map fun b => (a, b)).foldl
      (fun s ab =>
        let (a, b) := ab
        if k < 8 then
          (upTo 10).foldl (fun s w =>
            if s.optics.channels.get (channelKey a b (8 * w + k)) = 0 then meshSubstitute a b (8 * w + k) false s else s) s
        else if spareChannels.all fun c => s.optics.channels.get (channelKey a b c) == 3 then s
        else meshCauses (meshDegraded a b (spareChannels.foldl (fun s c => s.onOptics fun x => { x with
            channels := x.channels.set (channelKey a b c) 3, channelFor := x.channelFor.set (channelKey a b c) 0 }) s))) s) s

/-! ### Lock loops (R309 to R313) -/

/-- Whether rings act: the device is past memory training, and the ring's die is in service. -/
def ringsAct (s : State) (d : Nat) : Bool := dieUp s d && clocksRun s && 6 ≤ stateCode s.start.state && s.start.state != .halted

/-- R310: whether the lane, channel or path of a ring needs it. In NEAR_SERIAL the modulator stays idle (R334). -/
def ringNeeded (s : State) (id : RingId) : Bool :=
  let path (k : Nat) (use : Path → Bool) : Bool := s.express.paths.cells.any fun c =>
    c.1 / 64 == k && c.2.state != .idle && c.2.drained && use c.2
  match id with
  | .expDrop p k => path k fun x => x.a == p.val
  | .expAdd p k => path k fun x => x.b == p.val
  | .txMesh a b _ => dieUp s a && dieUp s b && a != b
  | .rxMesh a b _ => dieUp s a && dieUp s b && a != b
  | _ =>
    match laneOfRing s id with
    | some (p, l) =>
      let x := laneAt s p l
      !heldByPath s p l && !x.claimed && x.state != .fault &&
        !(x.state == .loop && (s.optics.ports.get p).loopMode == 1 && match id with
          | .txPort _ _ => true
          | _ => false)
    | none => s.start.state == .opticsCal

/-- RING_LOOP_TICK (R310): 10 us of a ring's loop. The working point that the loop pulls to is not stated (log 32). -/
def ringTick (id : RingId) (v : RingSight) (s : State) : State :=
  let k := ringKey id
  let r := ringOf s k
  match r.state with
  | .off => if v.light && ringNeeded s id then ringFollowed id (seekFrom id .setPoint v.temp
      (onRing k (fun r => if r.first then { r with spTemp := v.temp } else r) s)) else s
  | .seek =>
    if r.held then s
    else if r.fresh then onRing k (fun r => { r with heater := seekStart s r r.startAs v.temp, fresh := false }) s
    else if v.resonance then onRing k (fun r => { r with state := .acquire, inRangeNs := 0 }) s
    else
      let h := min 6000 (r.heater + 50)
      if h < 6000 then onRing k (fun r => { r with heater := h }) s
      else if r.restarted then ringFails id 2 s
      else onRing k (fun r => { r with heater := 0, restarted := true }) s
  | .acquire =>
    let (d, s) := draw s
    onRing k (fun r => { r with heater := d % 6001, inRangeNs := if v.inRange then r.inRangeNs + 10000 else 0 }) s
  | .locked =>
    if v.inRange then
      let (d, s) := draw s
      onRing k (fun r => { r with heater := d % 6001 }) s
    else ringFollowed id (onRing k (fun r => { r with state := .acquire, inRangeNs := 0, checkAt := none }) s)
  | _ => s

def execRingLoopTick (ring : RingId) (sight : RingSight) (s : State) : Host.Outcome State Fault Refusal :=
  .next (if ringsAct s (ringDie ring) then ringTick ring sight s else s)

/-- RING_ACQUIRE_DONE: 200 us within range; the beacon check of VERIFY begins. -/
def execRingAcquireDone (ring : RingId) (sight : RingSight) (s : State) : Host.Outcome State Fault Refusal :=
  .next <|
    let k := ringKey ring
    let r := ringOf s k
    if ringsAct s (ringDie ring) && r.state == .acquire && sight.inRange && 200000 ≤ r.inRangeNs then
      onRing k (fun r => { r with state := .verify, checkAt := some (nowNs s) }) s
    else s

/-- BEACON_CHECK_START: 100 ms after the last check of a LOCKED ring. -/
def execBeaconCheckStart (ring : RingId) (s : State) : Host.Outcome State Fault Refusal :=
  .next <|
    let k := ringKey ring
    let r := ringOf s k
    if ringsAct s (ringDie ring) && r.state == .locked && r.checkAt.isNone && r.checkedAt + 100000000 ≤ nowNs s then
      onRing k (fun r => { r with checkAt := some (nowNs s) }) s
    else s

/-- A result of R311: MATCH, MISMATCH with the slot found, or NONE. -/
inductive Beacon where
  | match_
  | mismatch (slot : Nat)
  | none_
  deriving DecidableEq, Repr

/-- R311: the nine tones' depths in units of 0.001 %; 6 dB is a factor of 1.995 in depth (log 33). -/
def beaconResult (expected : Nat) (tones : List Nat) : Beacon :=
  let t (k : Nat) : Nat := tones.getD k 0
  let top := (upTo 9).foldl (fun m k => max m (t k)) 0
  if top < 250 then .none_
  else if t expected = top then
    if (upTo 9).all fun k => k == expected || t k * 1995 ≤ top * 1000 then .match_ else .none_
  else match (upTo 9).find? fun k => t k == top with
    | some k => .mismatch k
    | none => .none_

/-- R312: the seek after a MISMATCH: a slot of lower frequency (a higher number) was met too hot. -/
def mismatchStart (r : Ring) (expected found : Nat) : SeekStart :=
  if expected < found then .backoff else .above r.heater

/-- The lane of a ring leaves its spray set on a MISMATCH (R312): its frames move, CLOSE and LANE_DOWN follow. -/
def mismatchLane (id : RingId) (s : State) : State :=
  match id with
  | .expDrop p k => dropGate p k true s
  | .expAdd p k => addGate p k true s
  | _ => match laneOfRing s id with
    | some (p, l) => if (sprayLanes s p).contains l then laneDown p l 2 (leaveAbrupt p l s) else s
    | none => s

/-- BEACON_MISMATCH of the lane that the ring serves (R312). -/
def countMismatch (id : RingId) (s : State) : State :=
  match laneOfRing s id with
  | some (p, l) => count (portDie p) 0x8002 (laneKey p l) 1 s
  | none => s

/-- BEACON_CHECK_COMPLETE (R311, R312, 15 R455). In the first seek a MISMATCH moves the ring on past the resonance, by one step of
the sweep (DESIGN CHOICE, log 185). -/
def beaconComplete (id : RingId) (tones : List Nat) (v : RingSight) (s : State) : State :=
  let k := ringKey id
  let r := ringOf s k
  let s := onRing k (fun r => { r with checkAt := none }) s
  match beaconResult (ringSlot id) tones with
  | .match_ =>
    let s := onRing k (fun r => { r with
      state := .locked, mismatches := 0, checkedAt := nowNs s, storedAt := if r.state = .locked then r.storedAt else nowNs s
      first := false, sp := if r.first then r.heater else r.sp, spTemp := if r.first then v.temp else r.spTemp }) s
    match id with
    | .expDrop p c => dropGate p c false s
    | .expAdd p c => addGate p c false s
    | _ => ringFollowed id s
  | .mismatch found =>
    let s := mismatchLane id (countMismatch id s)
    if r.first then ringFollowed id (onRing k (fun r => { r with state := .seek, heater := min 6000 (r.heater + 50) }) s)
    else if 2 ≤ r.mismatches then ringFollowed id (ringFails id 1 (onRing k (fun r => { r with mismatches := 0 }) s))
    else
      let s := onRing k (fun r => { r with mismatches := r.mismatches + 1 }) s
      ringFollowed id (seekFrom id (mismatchStart r (ringSlot id) found) v.temp s)
  | .none_ =>
    let s := onRing k (fun r => { r with mismatches := 0 }) s
    if r.state = .locked then
      if v.light then ringFollowed id (onRing k (fun r => { r with state := .acquire, inRangeNs := 0 }) s)
      else ringFollowed id (parkRing k s)
    else if r.first then ringFollowed id (onRing k (fun r => { r with state := .seek }) s)
    else ringFollowed id (seekFrom id .setPoint v.temp s)

def execBeaconCheckComplete (ring : RingId) (tones : List Nat) (sight : RingSight) (s : State) :
    Host.Outcome State Fault Refusal :=
  .next <|
    let r := ringOf s (ringKey ring)
    match r.checkAt with
    | some t =>
      if ringsAct s (ringDie ring) && (r.state == .verify || r.state == .locked) && t + 1000000 ≤ nowNs s then
        beaconComplete ring tones sight s
      else s
    | none => s

/-- R309: TCOEF refitted by least squares once the points span 5 degrees C, within -1.00 to 0.00 mW/degree C. -/
def refit (points : List (Int × Nat)) (old : Int) : Int :=
  match points with
  | [] => old
  | p :: r =>
    let lo := r.foldl (fun m x => min m x.1) p.1
    let hi := r.foldl (fun m x => max m x.1) p.1
    if hi - lo < 50 then old else
    let n : Int := (points.length : Int)
    let st := points.foldl (fun a x => a + x.1) (0 : Int)
    let sh := points.foldl (fun a x => a + (x.2 : Int)) (0 : Int)
    let sth := points.foldl (fun a x => a + x.1 * (x.2 : Int)) (0 : Int)
    let stt := points.foldl (fun a x => a + x.1 * x.1) (0 : Int)
    clampInt (-100) 0 (roundDiv (10 * (n * sth - st * sh)) (n * stt - st * st).toNat)

/-- SETPOINT_STORE (R309): once a second while LOCKED. -/
def execSetpointStore (ring : RingId) (temp : Int) (s : State) : Host.Outcome State Fault Refusal :=
  .next <|
    let k := ringKey ring
    let r := ringOf s k
    if ringsAct s (ringDie ring) && r.state == .locked && r.storedAt + 1000000000 ≤ nowNs s then
      onRing k (fun r =>
        let pts := r.points ++ [(temp, r.heater)]
        { r with sp := r.heater, spTemp := temp, points := pts, tcoef := refit pts r.tcoef, storedAt := nowNs s }) s
    else s

/-- RING_SEEK (R313, R320). A notice is pending until the seek that it asks for is started (DEDUCED, log 176). -/
def ringSeekWrite (p : Nat) (receive : Bool) (slot : Fin 9) (start : Nat) (s : State) : State :=
  if 6000 < start then answer stBadValue s else
  let k := if receive then rxRingKey p slot else txRingKey p slot
  let r := ringOf s k
  let s := answer stDone (s.onOptics fun x => { x with notices := x.notices.filter (·.1 != k) })
  let s := if (r.state == .seek && r.held) || r.state == .fault then
      onRing k (fun r => { r with
        state := .seek, heater := start, held := false, fresh := false, restarted := false, inRangeNs := 0, checkAt := none, mismatches := 0 }) s
    else s
  let l? := (upTo 8).find? fun l => (if receive then rxSlotOf s p l else txSlotOf s p l) == slot.val
  match l? with
  | some l => if (laneAt s p l).state = .fault then onLane p l (fun x => { x.restart (nowNs s) with failures := 0 }) s
      else laneFollows p l s
  | none => s

def execRingSeek (role : Role) (port : FibreIx) (receive : Bool) (slot : Fin 9) (start : Nat) (s : State) :
    Host.Outcome State Fault Refusal :=
  .next (guardWrite role (0x040500 + port.val) 1 (ringSeekWrite port receive slot start) s)

/-! ### Loops (R334) -/

/-- A lane is in a loop (R334). NEAR_SERIAL leaves the modulator idle; in NEAR_OPTICAL the drop ring seeks the device's own slot;
FAR asks the peer, and the far end (mode 4) returns what it receives (`frameIngress`). The checker's count is free (log 35). -/
def loopNow (p l mode : Nat) (s : State) : State :=
  let (d, s) := draw s
  let s := onLane p l (fun x => { x with
    state := .loop, enteredAt := nowNs s, trainedFrom := true, loopErrors := if mode = 4 then x.loopErrors else d, testing := false, rxTesting := false
    leaving := 0, farEnd := mode == 4 }) s
  let s := if mode = 4 then s else emitOut (.prbs p l mode) s
  match mode with
  | 1 => parkRing (txRingKey p (txSlotOf s p l)) s
  | 2 => onLane p l (fun x => { x with peerSlot := some x.rxSlot, rxSlot := x.txSlot })
      (parkRing (rxRingKey p (rxSlotOf s p l)) s)
  | 3 => sendLcm p 7 l (txSlotOf s p l) 0 1 s
  | _ => s

/-- A lane that is to enter a loop enters it once its last frame has left (03 R76). -/
def leaveDone (p l : Nat) (s : State) : State :=
  let m := (laneAt s p l).leaving
  if m ≠ 0 && laneEmpty s p l then loopNow p l m s else s

/-- A lane is to enter a loop (R334): it first leaves the spray set in order. -/
def enterLoop (p l mode : Nat) (s : State) : State :=
  leaveDone p l (onLane p l (fun x => { x with leaving := mode }) (leaveOrderly p l 4 s))

/-- A lane leaves a loop, or the way to one, and trains again (R334). -/
def leaveLoop (p l : Nat) (s : State) : State :=
  if (laneAt s p l).state = .loop || (laneAt s p l).leaving ≠ 0 then
    let s := parkRing (txRingKey p (txSlotOf s p l)) (parkRing (rxRingKey p (rxSlotOf s p l)) (leaveAbrupt p l s))
    onLane p l (fun x => { x.restart (nowNs s) with
      trainedFrom := true, leaving := 0, rxSlot := x.peerSlot.getD x.rxSlot, peerSlot := none }) s
  else s

/-! ### Training (R316 to R320, R324, R325) -/

def lanesAct (s : State) (p : Nat) : Bool := dieUp s (portDie p) && clocksRun s && !s.start.darkHold

/-- LANE_SIGNAL_OK: 1 ms of good signal takes a lane from SIGNAL to TRAIN. -/
def execLaneSignalOk (port : FibreIx) (lane : LaneIx) (goodForNs : Nat) (s : State) : Host.Outcome State Fault Refusal :=
  .next <|
    if lanesAct s port && (laneAt s port lane).state == .signal && 1000000 ≤ goodForNs then
      onLane port lane (fun x => { x with state := .train, rxOk := true, enteredAt := nowNs s }) s
    else s

/-- TRAIN_LCB_SEND: a TRAIN block falls due on a lane whose modulator is LOCKED and which is not in SERVICE. -/
def execTrainLcbSend (port : FibreIx) (lane : LaneIx) (s : State) : Host.Outcome State Fault Refusal :=
  .next <|
    let x := laneAt s port lane
    let ok := match x.state with
      | .dark | .service | .loop | .fault => false
      | _ => true
    if lanesAct s port && ok && ringLocked s (txRingKey port (txSlotOf s port lane)) && x.trainAt + 1000 ≤ nowNs s then
      dueBlock port lane 3 0 0 0 (onLane port lane (fun x => { x with trainAt := nowNs s }) s)
    else s

/-- MARKER_SEND: every 100 us in SERVICE. -/
def execMarkerSend (port : FibreIx) (lane : LaneIx) (s : State) : Host.Outcome State Fault Refusal :=
  .next <|
    let x := laneAt s port lane
    if lanesAct s port && x.state == .service && x.markerAt + 100000 ≤ nowNs s then
      leaveDone port lane (dueBlock port lane 4 0 0 0 (onLane port lane (fun x => { x with markerAt := nowNs s }) s))
    else s

/-- R325: both directions show an estimate of at least REJOIN_MARGIN. -/
def estimatesGood (s : State) (x : Lane) : Bool :=
  (x.estimate.any fun e => (cfgRejoinMargin s : Int) ≤ e) && (x.peerEstimate.any fun e => (cfgRejoinMargin s : Int) ≤ e)

/-- R324: a lane that trains from DARK runs the margin test: always during a start, in hardware mode afterwards, never in
headless operation. -/
def testsMargin (s : State) (x : Lane) : Bool :=
  !x.trainedFrom && !s.start.headless && (stateCode s.start.state < 8 || !marginHost s)

/-- R324: in host-assisted mode a lane that trains from DARK after the start waits in READY. -/
def waitsInReady (s : State) (x : Lane) : Bool :=
  !x.trainedFrom && marginHost s && 8 ≤ stateCode s.start.state

/-- ARG of MARGIN_START (R323): 0.25 dB, 32 steps, 200 us, 100 us. -/
def marginStartArg (mask : Nat) : BitVec 64 := BitVec.ofNat 64 (mask * 2 ^ 56 + 5 * 2 ^ 48 + 32 * 2 ^ 40 + 200 * 2 ^ 24 + 100)

/-- R323: the next pass of a port's test: lanes 0 to 3 first, then 4 to 7, once no lane of the other pass is under test. The
first step falls at the start of dwell 0. No test begins in headless operation (01 R29). -/
def marginPass (p : Nat) (s : State) : State :=
  if s.start.headless then s else
  let waits (l : Nat) : Bool :=
    (laneAt s p l).state == .margin && (laneAt s p l).txMargin.isNone && !(laneAt s p l).testing && (laneAt s p l).dwell < 32
  let low := (upTo 4).filter waits
  let high := [4, 5, 6, 7].filter waits
  let busy (l : List Nat) : Bool := l.any fun l => (laneAt s p l).testing
  let go (l : List Nat) (s : State) : State :=
    match l with
    | [] => s
    | x :: _ =>
      let s := l.foldl (fun s y => onLane p y (fun z => { z with
        testing := true, dwell := 0, dwellAt := nowNs s + 100000, omaSteps := 1 }) s) s
      sendLcm p 4 x (txSlotOf s p x) 0 (marginStartArg (l.foldl (fun a y => a + 2 ^ y) 0)) s
  if !low.isEmpty && !busy [4, 5, 6, 7] then go low s
  else if !high.isEmpty && !busy [0, 1, 2, 3] then go high s
  else s

/-- A migration's end (R329 step 8): the lane is in SERVICE on its new slot on every port. A port whose lane is dark, in FAULT or in
a loop, is held out, or belongs to a path, takes the slot when it next trains (R328) and is not waited for. -/
def migrationDone (m : Nat) (s : State) : State :=
  match (elsOf s m).migrating with
  | none => s
  | some j =>
    let slot := j % 16
    let ports := (upTo 16).map fun i => 16 * m + i
    let onTarget (p l : Nat) : Bool := txSlotOf s p l == (if j < 16 then 8 else slot)
    let out (x : Lane) : Bool := x.held || match x.state with
      | .dark | .fault | .loop | .marginLow => true
      | _ => false
    let mine (p l : Nat) : Bool := !out (laneAt s p l) && (if j < 16 then l == slot || (laneAt s p l).txSlot == 9 else l == slot)
    let waiting := ports.any fun p => (upTo 8).any fun l => mine p l && !laneTaken s p l &&
      (!onTarget p l || (laneAt s p l).state != .service || (laneAt s p l).peerMigrating)
    if waiting then s else
    let moved := (ports.filter fun p => (upTo 8).any fun l => mine p l && onTarget p l && (laneAt s p l).state == .service).length
    raise 0x0405 2 (unitEls s m slot) (args32 [moved]) (onEls m (fun e => { e with
      migrating := none, spare := if j < 16 then e.spare else 0xFF }) s)

/-- A lane enters SERVICE and joins the spray set (R319). Where only the own direction had left (R327), the peer's counts run on. -/
def enterService (p l : Nat) (s : State) : State :=
  let both := !(laneAt s p l).oneWay
  let s := sprayJoin p l both (onLane p l (fun x => { x with
    state := .service, enteredAt := nowNs s, markerAt := nowNs s, failures := 0, trainedFrom := true, oneWay := false }) s)
  migrationDone (moduleOf p) s

/-- A lane becomes READY. -/
def enterReady (p l : Nat) (s : State) : State := onLane p l (fun x => { x with state := .ready, enteredAt := nowNs s, failures := 0 }) s

/-- R319, R324, R325: how far a trained lane may go. -/
def trainAdvance (p l : Nat) (s : State) : State :=
  let x := laneAt s p l
  match x.state with
  | .train =>
    if !(x.rxOk && x.idOk && x.peerRxOk && x.peerIdOk) then s
    else if testsMargin s x then
      marginPass p (onLane p l (fun x => { x with
        state := .margin, enteredAt := nowNs s, txMargin := none, rxMargin := none, dwell := 0 }) s)
    else if !estimatesGood s x then s
    else if waitsInReady s x then onLane p l (fun x => { x with state := .ready, enteredAt := nowNs s, failures := 0, held := true }) s
    else enterReady p l s
  | .ready => if x.peerReady && !x.held && !x.removedLow && x.leaving == 0 then enterService p l s else s
  | _ => s

/-- The marker a device sends (R317). -/
def markerWord (s : State) (p l : Nat) : BitVec 64 :=
  BitVec.ofNat 64 (cfgNodeId s % 2 ^ 32 * 2 ^ 32 + p * 2 ^ 23 + l * 2 ^ 20 + txSlotOf s p l * 2 ^ 16 + 0x100)

/-- LANE_STATE code (R316). -/
def laneCode : LaneState → Nat
  | .dark => 0 | .locking => 1 | .signal => 2 | .train => 3 | .margin => 4 | .ready => 5 | .service => 6 | .retune => 7
  | .loop => 8 | .marginLow => 9 | .fault => 10

/-- The training status a device sends (R317). -/
def trainWord (s : State) (p l : Nat) : BitVec 64 :=
  let x := laneAt s p l
  let ready := (x.state == .ready && !x.held) || x.state == .service
  BitVec.ofNat 64 (laneCode x.state * 2 ^ 60 + (if x.rxOk then 2 ^ 59 else 0) + (if x.idOk then 2 ^ 58 else 0) + (if ready then 2 ^ 57 else 0))

/-- PEER_EXPECT of a port, where set: NODE_ID and PORT (R335). -/
def peerExpect (s : State) (p : Nat) : Option (Nat × Nat) :=
  match cellFind (objKey (0x040100 + p) 1) s.obj with
  | some v =>
    let b := varBytes v
    if b.isEmpty then none else some (beAt b 0 4, beAt b 4 2)
  | none => none

/-- NODE_ID and PORT of a marker. -/
def markerPeer (w : BitVec 64) : Nat × Nat := (w.toNat / 2 ^ 32, w.toNat / 2 ^ 23 % 512)

/-- R318, the first three conditions: LANE, SLOT and PROTO. -/
def markerPlace (s : State) (p l : Nat) (w : BitVec 64) : Bool :=
  let v := w.toNat
  v / 2 ^ 20 % 8 == l && v / 2 ^ 16 % 16 == rxSlotOf s p l && v / 256 % 256 == 1

/-- R318, the last two: the same peer on every other lane in TRAIN or a later state that has received a marker, and PEER_EXPECT.
A lane given up to a claim is exempt (10 R350). -/
def markerIdentity (s : State) (p l : Nat) (w : BitVec 64) : Bool :=
  (laneAt s p l).claimed ||
    ((upTo 8).all fun k => k == l || !(laneTalks (laneAt s p k) && (laneAt s p k).peerMarker.toNat / 256 % 256 == 1)
        || markerPeer (laneAt s p k).peerMarker == markerPeer w)
      && (match peerExpect s p with
        | some e => e == markerPeer w
        | none => true)

/-- PEER_MISMATCH (R318): once per port and per change of the marker that a lane sees. -/
def peerMismatch (p l : Nat) (w : BitVec 64) (s : State) : State :=
  let x := laneAt s p l
  if (s.optics.ports.get p).mismatchSent = some (markerPeer w)
      || (x.peerMarker ≠ 0 && !x.idOk && markerPeer x.peerMarker == markerPeer w) then s
  else raise 0x040A 1 (unitPort p 0) (args32 [((markerPeer w).1 : Int), ((markerPeer w).2 : Int)])
    (onFPort p (fun q => { q with mismatchSent := some (markerPeer w) }) s)

/-- A received marker's identity (R318); PEER_SEEN. A marker that breaks either of the last two conditions is reported, whatever
the others; a good one ends the report. -/
def markerSeen (p l : Nat) (w : BitVec 64) (s : State) : Bool × State :=
  let ident := markerIdentity s p l w
  let ok := markerPlace s p l w && ident
  let s := if ident then s else peerMismatch p l w s
  let s := if ok then onFPort p (fun q => { q with peerSeen := some (markerPeer w), mismatchSent := none }) s else s
  (ok, s)

/-- What a TRAIN or MARKER block says of the peer (R317, R318). -/
def peerSays (ok : Bool) (w0 w1 : BitVec 64) (x : Lane) : Lane :=
  { x with peerMarker := w0, idOk := ok, peerRxOk := w1.getLsbD 59, peerIdOk := w1.getLsbD 58, peerReady := w1.getLsbD 57 }

/-- 04 R132: the peer shows SERVICE on a lane whose CLOSE has been applied: the lane has rejoined the peer's spray set, and RCVD
starts at zero again (DESIGN CHOICE, log 184). -/
def peerRejoins (p l : Nat) (w1 : BitVec 64) (s : State) : State :=
  if w1.toNat / 2 ^ 60 = 6 then
    ((upTo 8).filter fun c => s.flow.closed.get (laneqKey p l c)).foldl (fun s c => s.onFlow fun x => { x with
      rcvd := x.rcvd.set (laneqKey p l c) 0, closed := x.closed.set (laneqKey p l c) false }) s
  else s

/-- R318, R319: a lane that waits in READY whose peer's marker fails goes back to TRAIN. -/
def readyFails (p l : Nat) (ok : Bool) (s : State) : State :=
  if !ok && (laneAt s p l).state = .ready then
    onLane p l (fun x => { x with state := .train, enteredAt := nowNs s, lockingAt := nowNs s }) s
  else s

/-- TRAIN_LCB_RECEIVE (R318, R319). -/
def trainReceive (p l : Nat) (w0 w1 : BitVec 64) (s : State) : State :=
  let (ok, s) := markerSeen p l w0 s
  let s := readyFails p l ok (onLane p l (peerSays ok w0 w1) (peerRejoins p l w1 s))
  trainAdvance p l (trainAdvance p l s)

/-- MARKER_RECEIVE (R319): a failing marker sends the lane back to TRAIN and out of the spray set. -/
def markerReceive (p l : Nat) (w0 w1 : BitVec 64) (s : State) : State :=
  let (ok, s) := markerSeen p l w0 s
  let s := onLane p l (peerSays ok w0 w1) (peerRejoins p l w1 s)
  if ok then trainAdvance p l s
  else if (laneAt s p l).state = .service then
    onLane p l (fun x => { x with state := .train, enteredAt := nowNs s, lockingAt := nowNs s }) (laneFails p l 5 s)
  else readyFails p l ok s

/-- LANE_TRAIN_TIMEOUT (R320): 500 ms since LOCKING without READY. -/
def execLaneTrainTimeout (port : FibreIx) (lane : LaneIx) (s : State) : Host.Outcome State Fault Refusal :=
  .next <|
    let x := laneAt s port lane
    let tries := match x.state with
      | .locking | .signal | .train | .margin => true
      | _ => false
    if !lanesAct s port || !tries || nowNs s < x.lockingAt + 500000000 then s else
    let s := laneRelock port lane (count (portDie port) 0x8003 (laneKey port lane) 1 s)
    onLane port lane (fun y => { y with
      failures := x.failures + 1, state := if 2 ≤ x.failures then .fault else .locking }) s

/-- LANE_FAULT_RETRY (R320): in hardware mode of MARGIN_MODE (14 R441), 10 s in FAULT. -/
def execLaneFaultRetry (port : FibreIx) (lane : LaneIx) (s : State) : Host.Outcome State Fault Refusal :=
  .next <|
    let x := laneAt s port lane
    if lanesAct s port && x.state == .fault && !marginHost s && x.enteredAt + 10000000000 ≤ nowNs s then
      onLane port lane (fun y => { y.restart (nowNs s) with failures := 0 }) s
    else s

/-! ### The margin test (R323, R325) -/

/-- R325: both margins known: READY, or the rings seek once more, or MARGIN_LOW. -/
def marginJudge (p l : Nat) (s : State) : State :=
  let x := laneAt s p l
  match x.state, x.txMargin, x.rxMargin with
  | .margin, some t, some r =>
    let f := s.optics.ports.get p
    let s := onLane p l (fun x => { x with
      baseSet := true, baseS2 := f.s2.get (txSlotOf s p l), baseS3 := x.s3, baseS4 := f.s4, baseS5 := f.s5, baseS6 := x.s6
      basePeerS4 := f.peerS4, basePeerS5 := f.peerS5 }) s
    if (cfgStartMargin s : Int) ≤ t && (cfgStartMargin s : Int) ≤ r then enterReady p l s
    else if marginHost s then laneEnter p l .marginLow s
    else if x.retried then raise 0x0407 1 (unitPort p l) (args32 [t, r]) (laneEnter p l .marginLow s)
    else
      let s := laneRelock p l s
      onLane p l (fun x => { x with retried := true, txMargin := none, rxMargin := none }) s
  | _, _, _ => s

/-- A MARGIN_RESULT's ARG. -/
def marginResultArg (margin status : Nat) : BitVec 64 := BitVec.ofNat 64 (margin * 2 ^ 48 + status)

/-- The receiving end's result for one lane. -/
def marginResult (p l margin status : Nat) (s : State) : State :=
  let s := onLane p l (fun x => { x with rxTesting := false, rxMargin := some (margin : Int) }) s
  marginJudge p l (sendLcm p 5 l (rxSlotOf s p l) 0 (marginResultArg margin status) s)

/-- MARGIN_DWELL (R323): one dwell of 200 us ends on a lane under test, and the next begins with one step more; dwell 31 is the
last. `berReached` is none where no signal arrived: of that result the manual gives the status and no margin, and the model sends
0 (DESIGN CHOICE, log 169). -/
def execMarginDwell (port : FibreIx) (lane : LaneIx) (berReached : Option Bool) (s : State) : Host.Outcome State Fault Refusal :=
  .next <|
    let x := laneAt s port lane
    if !lanesAct s port || !(x.testing || x.rxTesting) then s else
    let s := if x.testing then onLane port lane (fun y => { y with
        omaSteps := if y.dwell < 31 then y.dwell + 2 else 0, dwell := y.dwell + 1, dwellAt := nowNs s, testing := y.dwell < 31 }) s
      else s
    if !x.rxTesting then s
    else match berReached with
    | none => marginResult port lane 0 2 s
    | some true => marginResult port lane ((x.rxDwell - 1) * x.rxStep) 0 s
    | some false =>
      if x.rxSteps ≤ x.rxDwell + 1 then marginResult port lane 160 1 s
      else onLane port lane (fun y => { y with rxDwell := y.rxDwell + 1 }) s

/-- MARGIN_RUN (R324): tests of lanes that wait in READY, or are held out by their margin. -/
def marginRunWrite (p mask : Nat) (s : State) : State :=
  let s := answer stDone s
  let lanes := (laneBits mask).filter fun l =>
    (laneAt s p l).state == .marginLow || ((laneAt s p l).state == .ready && (laneAt s p l).held)
  marginPass p (lanes.foldl (fun s l => onLane p l (fun x => { x with
    state := .margin, enteredAt := nowNs s, lockingAt := nowNs s, held := false, txMargin := none, rxMargin := none, dwell := 0 }) s) s)

def execMarginRun (role : Role) (port : FibreIx) (lanes : Byte) (s : State) : Host.Outcome State Fault Refusal :=
  .next (guardWrite role (0x040100 + port.val) 6 (marginRunWrite port lanes.toNat) s)

/-- LANE_ADMIT (R324, R325). -/
def laneAdmitWrite (p mask : Nat) (s : State) : State :=
  let s := answer stDone s
  (laneBits mask).foldl (fun s l =>
    let x := laneAt s p l
    if x.state = .marginLow || (x.state = .ready && x.held) then
      trainAdvance p l (onLane p l (fun x => { x with state := .ready, held := false, enteredAt := nowNs s }) s)
    else s) s

def execLaneAdmit (role : Role) (port : FibreIx) (lanes : Byte) (s : State) : Host.Outcome State Fault Refusal :=
  .next (guardWrite role (0x040100 + port.val) 7 (laneAdmitWrite port lanes.toNat) s)

/-! ### Loss location (R315) -/

/-- Whether a reading has dropped 1.0 dB or more below its baseline. -/
def dropped (reading base : Int) : Bool := reading ≤ base - 100

/-- R315: the stages of a lane's path that have dropped, by their code, in the order of the path. A lane whose margin test has yet
to record its baselines has the module's only. None stands for a drop of S5 with the peer's S4, to which the table gives no code. -/
def stagesDown (s : State) (p l : Nat) : List (Option Nat) :=
  let x := laneAt s p l
  let f := s.optics.ports.get p
  let e := elsOf s (moduleOf p)
  let slot := txSlotOf s p l
  let own (down : Bool) (code : Option Nat) : List (Option Nat) := if x.baseSet && down then [code] else []
  (if (e.baseline.get slot).any (fun b => dropped (e.power.get slot) b) then [some 1] else [])
    ++ own (dropped (f.s2.get slot) x.baseS2) (some 2) ++ own (dropped x.s3 x.baseS3) (some 3)
    ++ own (dropped f.s4 x.baseS4) (some 4) ++ own (dropped f.peerS5 x.basePeerS5) (some 5)
    ++ own (dropped f.s5 x.baseS5) (if dropped f.peerS4 x.basePeerS4 then none else some 6)
    ++ own (dropped x.s6 x.baseS6) (some 7)

/-- The margin of a lane: the lesser of its two directions' estimates. -/
def laneMargin (x : Lane) : Option Int :=
  match x.estimate, x.peerEstimate with
  | some a, some b => some (if a ≤ b then a else b)
  | some a, none => some a
  | none, b => b

/-- A lane that R315 watches: the device itself has not taken its light away. -/
def watched (s : State) (p l : Nat) (x : Lane) : Bool :=
  x.state != .retune && x.state != .loop && !laneTaken s p l

/-- OPTICAL_LOSS (R315): when a stage drops, and when the margin falls below 1.5 dB, each once while it lasts. The code is the
first dropped stage's, 8 where none has dropped. -/
def lossLocate (p l : Nat) (s : State) : State :=
  let x := laneAt s p l
  if !watched s p l x then s else
  let down := stagesDown s p l
  let now := down.foldl (fun a c => a + 2 ^ c.getD 0) 0
  let low := (laneMargin x).any fun m => m < 30
  let new := down.any (fun c => !bit x.lossStages (c.getD 0)) || (low && !x.lossLow)
  let s := if now = x.lossStages && low = x.lossLow then s else onLane p l (fun x => { x with lossStages := now, lossLow := low }) s
  if !new then s
  else match down.head? with
    | none => raise 0x0409 1 (unitPort p l) (args32 [8]) s
    | some (some c) => raise 0x0409 1 (unitPort p l) (args32 [(c : Int)]) s
    | some none =>
      let (d, s) := draw s
      raise 0x0409 1 (unitPort p l) (args32 [((1 + d % 8 : Nat) : Int)]) s

/-! ### Thresholds and migration (R327 to R331) -/

/-- A line's level below its baseline, where it has one. -/
def lineDrop (s : State) (m slot : Nat) : Int :=
  match (elsOf s m).baseline.get slot with
  | some b => b - (elsOf s m).power.get slot
  | none => 0

/-- A transmitted lane on a line whose reported margin lies below 1.5 dB. -/
def lineWeak (s : State) (m slot : Nat) : Bool :=
  (upTo 16).any fun i => (upTo 8).any fun l =>
    txSlotOf s (16 * m + i) l == slot && (laneAt s (16 * m + i) l).state == .service
      && (laneAt s (16 * m + i) l).peerEstimate.any fun e => e < 30

/-- R330: no spare is to be had. -/
def spareForbidden (s : State) (m : Nat) : Bool := (elsOf s m).spare != 0xFF || 200 ≤ lineDrop s m 8

/-- MIGRATE for one lane (R329 step 2). -/
def sendMigrate (p l src dst : Nat) (s : State) : State :=
  onLane p l (fun x => { x with peerMigrating := true, retuneAt := nowNs s }) (sendLcm p 2 l src dst 0 s)

/-- R329 step 4: the lane's modulator moves to another slot: both rings are parked, and the new one seeks while light is
present (R310). -/
def retuneTx (p l dst : Nat) (st : LaneState) (s : State) : State :=
  let s := parkRing (txRingKey p dst) (parkRing (txRingKey p (txSlotOf s p l)) s)
  onLane p l (fun x => { x.restart (nowNs s) with
    state := st, txSlot := if dst = l then 0 else dst + 1, nextSlot := none, trainedFrom := x.trainedFrom || st == .retune }) s

/-- R328, R329: one port's part: a lane in SERVICE leaves in order and retunes when its queue has emptied. Another takes the new slot
in its assignment: at once where it does not send, and else when it next trains. A lane that a path holds stays (10 R355). -/
def migrateLane (p l src dst : Nat) (s : State) : State :=
  let x := laneAt s p l
  let assigned := if dst = l then 0 else dst + 1
  if laneTaken s p l || txSlotOf s p l ≠ src then s
  else match x.state with
    | .service =>
      let s := if (sprayLanes s p).contains l then
          sendMigrate p l src dst (laneDown p l 6 (sprayLeave p l s)) else s
      if laneEmpty s p l then retuneTx p l dst .retune s else s
    | .dark | .fault | .loop => onLane p l (fun x => { x with txSlot := assigned }) (sendMigrate p l src dst s)
    | .locking => retuneTx p l dst .locking (sendMigrate p l src dst s)
    | .retune => retuneTx p l dst .retune (sendMigrate p l src dst s)
    | _ => onLane p l (fun x => { x with nextSlot := some assigned }) s

/-- The lane of a port that a migration of a slot concerns. -/
def laneOnSlot (s : State) (p slot : Nat) : Option Nat := (upTo 8).find? fun l => txSlotOf s p l == slot

/-- LINE_MIGRATION (R329), or a return under R331, on the 16 ports: each step that can be taken is taken. -/
def migrateStep (m : Nat) (s : State) : State :=
  match (elsOf s m).migrating with
  | none => s
  | some j =>
    let slot := j % 16
    let (src, dst) := if j < 16 then (slot, 8) else (8, slot)
    let s := (upTo 16).foldl (fun s i =>
      match laneOnSlot s (16 * m + i) src with
      | some l => migrateLane (16 * m + i) l src dst s
      | none => s) s
    migrationDone m s

/-- A migration of a line begins (R328): W8 is marked as in use. -/
def startMigration (m slot : Nat) (s : State) : State :=
  migrateStep m (onEls m (fun e => { e with spare := slot, migrating := some slot }) s)

/-- The line that R330 prefers: the one furthest below its baseline, the lower slot where two lie equally far. -/
def furthestLine (s : State) (m : Nat) : List Nat → Option Nat
  | [] => none
  | a :: r => some (r.foldl (fun b x => if lineDrop s m b < lineDrop s m x then x else b) a)

/-- LASER_FADE_NO_SPARE, once per line (R330). -/
def noSpare (m slot : Nat) (s : State) : State :=
  let e := elsOf s m
  if e.noSpareSent.get slot then s
  else raise 0x0403 0 (unitEls s m slot) (args32 [e.power.get slot, (e.baseline.get slot).getD 0])
    (onEls m (fun e => { e with noSpareSent := e.noSpareSent.set slot true }) s)

/-- LASER_FADE_WARN (R327): at 1.0 dB below the baseline; again only after the line has risen above 0.8 dB below it. -/
def fadeWarn (m : Nat) (s : State) : State :=
  (upTo 9).foldl (fun s slot =>
    let e := elsOf s m
    match e.baseline.get slot with
    | none => s
    | some b =>
      let v := e.power.get slot
      if v ≤ b - 100 && !e.warned.get slot then
        raise 0x0402 1 (unitEls s m slot) (args32 [v, b]) (onEls m (fun e => { e with warned := e.warned.set slot true }) s)
      else if b - 80 < v then onEls m (fun e => { e with warned := e.warned.set slot false }) s
      else s) s

/-- The lines of W0 to W7 that R327 would migrate. -/
def fadingLines (s : State) (m : Nat) : List Nat :=
  (upTo 8).filter fun slot => (elsOf s m).spare != slot && (200 ≤ lineDrop s m slot || lineWeak s m slot)

/-- MIGRATION_NEEDED (R328), once for a line until it no longer qualifies. -/
def migrationNeeded (m slot : Nat) (s : State) : State :=
  let e := elsOf s m
  if e.neededSent.get slot then s
  else raise 0x0404 1 (unitEls s m slot) (args32 [e.power.get slot, (e.baseline.get slot).getD 0])
    (onEls m (fun e => { e with neededSent := e.neededSent.set slot true }) s)

/-- R327, R328, R330: the thresholds of a module's lines. W8 goes to the line furthest below its baseline. -/
def fadeCheck (m : Nat) (s : State) : State :=
  if 16 ≤ m then fadeWarn m s else
  let s := fadeWarn m s
  let lines := fadingLines s m
  let s := onEls m (fun e => { e with
    neededSent := (upTo 8).foldl (fun t k => if lines.contains k then t else t.set k false) e.neededSent }) s
  match furthestLine s m lines with
  | none => s
  | some best =>
    if spareForbidden s m then lines.foldl (fun s slot => noSpare m slot s) s
    else if migrationHost s then lines.foldl (fun s slot => migrationNeeded m slot s) s
    else startMigration m best ((lines.filter (· != best)).foldl (fun s slot => noSpare m slot s) s)

/-- R327: the thresholds of a transmitted lane by the peer's latest report. In host-assisted mode those of 0.5 dB and of
LANE_MARGIN_LOW apply while the line waits for LANE_MIGRATE (R328). -/
def laneThresholds (p l : Nat) (s : State) : State :=
  let x := laneAt s p l
  match x.peerEstimate with
  | none => s
  | some e =>
    let m := moduleOf p
    let slot := txSlotOf s p l
    let s := if x.state = .service && e < 30 then
        if slot = 8 || spareForbidden s m || migrationHost s then
          let s := if slot = 8 then noSpare m 8 s else s
          if (laneAt s p l).lowSent then s
          else raise 0x0406 1 (unitPort p l) (args32 [e]) (onLane p l (fun x => { x with lowSent := true }) s)
        else s
      else if 30 ≤ e && x.lowSent then onLane p l (fun x => { x with lowSent := false }) s else s
    let s := if x.state = .service then fadeCheck m s else s
    let x := laneAt s p l
    if x.state = .service && e < 10 && (sprayLanes s p).contains l then
      onLane p l (fun x => { x with state := .ready, enteredAt := nowNs s, removedLow := true, oneWay := true }) (leaveOrderly p l 1 s)
    else if x.state = .ready && x.removedLow && (cfgRejoinMargin s : Int) ≤ e then
      trainAdvance p l (onLane p l (fun x => { x with removedLow := false }) s)
    else s

/-- Readings of nine taps. -/
def tapReadings (v : List Int) (t : Tab Int) : Tab Int := (upTo 9).foldl (fun t k => t.set k (tapReading (v.getD k (-32768)))) t

/-- R306: every line of a module is at power at S1, which R305 has at +20.0 dBm or more. -/
def elsAtPower (s : State) (m : Nat) : Bool := elsEnabled s m && (upTo 9).all fun k => 2000 ≤ (elsOf s m).power.get k

/-- The S1 taps of a module; a module that was enabled is lit once they show every line at power (R306, R314). -/
def tapLines (m : Nat) (v : List Int) (s : State) : State :=
  let s := onEls m (fun e => { e with power := tapReadings v e.power }) s
  if (elsOf s m).state = 2 && elsAtPower s m then elsCause (onEls m (fun e => { e with state := 3 }) s) else s

/-- MONITOR_REFRESH (R314, R315, R327): `s1` are the lines of the port's module and `s1i` those of the die's ELS-I, averaged over
10 ms; `taps` are E1 and E2 of buses that no path uses or whose paths end at the port (10 R338). -/
def monitorRefresh (p : Nat) (s1 s1i s2 s3 : List Int) (s4 s5 : Int) (s6 : List Int) (taps : List (Nat × Int × Int)) (s : State) :
    State :=
  let m := moduleOf p
  let i := 16 + portDie p / 2
  let s := tapLines i s1i (tapLines m s1 s)
  let s := onFPort p (fun q => { q with
    s2 := tapReadings s2 q.s2
    s4 := tapReading s4, s5 := tapReading s5, monitorAt := nowNs s }) s
  let s := (upTo 8).foldl (fun s l => onLane p l (fun x => { x with
    s3 := tapReading (s3.getD l (-32768)), s6 := tapReading (s6.getD l (-32768)) }) s) s
  let s := taps.foldl (fun s x =>
    if (pathOf s x.1).state = .idle || (pathOf s x.1).b = p then busTaps x.1 (tapReading x.2.1) (tapReading x.2.2) s else s) s
  let s := (upTo 8).foldl (fun s l => leaveDone p l (lossLocate p l s)) s
  if isUp s then (upTo 8).foldl (fun s l => laneThresholds p l s) (meshFade i (fadeCheck i (fadeCheck m s))) else s

def execMonitorRefresh (port : FibreIx) (s1 : S1Lines) (s2 s3 : List Int) (s4 s5 : Int) (received : ReceiveTaps)
    (s : State) : Host.Outcome State Fault Refusal :=
  .next (if lanesAct s port && 6 ≤ stateCode s.start.state then
      monitorRefresh port s1.elsE s1.elsI s2 s3 s4 s5 received.s6 (received.buses.map fun x => (x.1.val, x.2)) s
    else s)

/-- LINE_MIGRATION (R329): in hardware mode of the line that qualifies and to which R330 gives W8, and every further step of one
that has begun. -/
def execLineMigration (module : Fin 16) (slot : Fin 8) (s : State) : Host.Outcome State Fault Refusal :=
  .next <|
    if !clocksRun s || !isUp s then s
    else if (elsOf s module).migrating.isSome then migrateStep module s
    else if furthestLine s module (fadingLines s module) = some slot.val && !spareForbidden s module && !migrationHost s then
      startMigration module slot s
    else s

/-- MIGRATE_REPEAT (R329): every 100 ms until the peer follows. -/
def execMigrateRepeat (port : FibreIx) (lane : LaneIx) (s : State) : Host.Outcome State Fault Refusal :=
  .next <|
    let x := laneAt s port lane
    if !lanesAct s port || !x.peerMigrating || nowNs s < x.retuneAt + 100000000 then s else
    let dst := txSlotOf s port lane
    sendMigrate port lane (if dst = 8 then lane else 8) dst s

/-- LANE_MIGRATE (R328). -/
def laneMigrateWrite (m slot : Nat) (s : State) : State :=
  if 7 < slot then answer stBadValue s
  else if spareForbidden s m then answer stBusy (noSpare m slot s)
  else startMigration m slot (answer stDone s)

def execLaneMigrate (role : Role) (module : Fin 16) (slot : Byte) (s : State) : Host.Outcome State Fault Refusal :=
  .next (guardWrite role (0x040040 + module.val) 1 (laneMigrateWrite module slot.toNat) s)

/-- LANE_RESTORE (R331). -/
def laneRestoreWrite (m slot : Nat) (s : State) : State :=
  if 7 < slot then answer stBadValue s
  else if (elsOf s m).spare ≠ slot then answer stNotFound s
  else migrateStep m (onEls m (fun e => { e with migrating := some (16 + slot) }) (answer stDone s))

def execLaneRestore (role : Role) (module : Fin 16) (slot : Byte) (s : State) : Host.Outcome State Fault Refusal :=
  .next (guardWrite role (0x040040 + module.val) 2 (laneRestoreWrite module slot.toNat) s)

/-! ### In-service estimation and reports (R326, R327) -/

/-- MARGIN_ESTIMATE (R326): one bin of 1 ms; an uncorrectable codeword counts as 160 bits. RX_OK holds while the bin's BER lies
below 2.4e-4, 51,000 of its 212.5 Mbit (R317). -/
def execMarginEstimate (port : FibreIx) (lane : LaneIx) (correctedBits uncorrectable : Nat) (s : State) :
    Host.Outcome State Fault Refusal :=
  .next <|
    let x := laneAt s port lane
    if !lanesAct s port || laneUnlocked x.state then s else
    let bins := ((correctedBits + 160 * uncorrectable) :: x.bins).take 1000
    let (e, s) := match estimateOf bins with
      | some e => (e, s)
      | none =>
        let (d, s) := draw s
        (signed 16 d, s)
    let s := onLane port lane (fun x => { x with
      bins := bins, binAt := nowNs s, estimate := some e
      rxOk := if laneTalks x then correctedBits + 160 * uncorrectable < 51000 else x.rxOk }) s
    trainAdvance port lane (lossLocate port lane s)

/-- R327: whether the estimate has crossed a threshold since it was last reported. -/
def crossed (s : State) (x : Lane) : Bool :=
  match x.estimate, x.reported with
  | some e, some r => [10, 30, (cfgRejoinMargin s : Int)].any fun t => (decide (e < t)) != (decide (r < t))
  | some _, none => true
  | none, _ => false

/-- ARG of MARGIN_REPORT (R321). -/
def reportArg (e s6 s5 s4 : Int) : BitVec 64 :=
  BitVec.ofNat 64 (unsigned 16 e * 2 ^ 48 + unsigned 16 s6 * 2 ^ 32 + unsigned 16 s5 * 2 ^ 16 + unsigned 16 s4)

/-- MARGIN_REPORT_SEND (R327). -/
def execMarginReportSend (port : FibreIx) (lane : LaneIx) (s : State) : Host.Outcome State Fault Refusal :=
  .next <|
    let x := laneAt s port lane
    match x.estimate with
    | none => s
    | some e =>
      if !lanesAct s port || laneUnlocked x.state || !(x.reportAt + 10000000 ≤ nowNs s || crossed s x) then s else
      let f := s.optics.ports.get port
      let s := onLane port lane (fun x => { x with reportAt := nowNs s, reported := some e }) s
      laneThresholds port lane (sendLcm port 6 lane (rxSlotOf s port lane) 0 (reportArg e x.s6 f.s5 f.s4) s)

/-- MARGIN_REPORT received (R327). -/
def reportReceive (p l : Nat) (arg : BitVec 64) (s : State) : State :=
  let v := arg.toNat
  let s := onLane p l (fun x => { x with peerEstimate := some (signed 16 (v / 2 ^ 48)) }) s
  let s := onFPort p (fun q => { q with peerS5 := signed 16 (v / 2 ^ 16), peerS4 := signed 16 v }) s
  trainAdvance p l (laneThresholds p l (lossLocate p l s))

/-! ### Received messages (R321, R331, R334, 10 R350, R355) -/

/-- MIGRATE received: the drop ring moves at once, whatever its state; a lane in use enters RETUNE, and its training
afterwards runs no margin test (R324, R331). -/
def migrateReceive (p l dst : Nat) (s : State) : State :=
  let s := laneFails p l 6 s
  let s := parkRing (rxRingKey p dst) (parkRing (rxRingKey p (rxSlotOf s p l)) s)
  let inUse := !(laneUnlocked (laneAt s p l).state)
  onLane p l (fun x => { x.restart (nowNs s) with
    state := if inUse then .retune else x.state, rxSlot := if dst = l then 0 else dst + 1
    trainedFrom := x.trainedFrom || inUse }) s

/-- MARGIN_START received: the lanes of the mask are measured (R323). -/
def marginStartReceive (p : Nat) (arg : BitVec 64) (s : State) : State :=
  let v := arg.toNat
  (laneBits (v / 2 ^ 56)).foldl (fun s l => onLane p l (fun x => { x with
    rxTesting := true, rxDwell := 0, rxStep := v / 2 ^ 48 % 256, rxSteps := v / 2 ^ 40 % 256 }) s) s

/-- What an LCM of the peer does, and the status of its ACK. From the acceptance of a claim on, the device sends the peer no message
about the lane (10 R350). -/
def lcmAct (p msg lane slot2 : Nat) (arg : BitVec 64) (s : State) : Nat × State :=
  let held := heldByPath s p lane
  match msg with
  | 2 => if held then (3, s) else if 8 < slot2 then (2, s) else (0, migrateReceive p lane slot2 s)
  | 3 => (0, s)
  | 4 =>
    let lanes := laneBits (arg.toNat / 2 ^ 56)
    if lanes.any fun l => heldByPath s p l || (laneAt s p l).state == .retune then (3, s) else (0, marginStartReceive p arg s)
  | 5 =>
    let s := onLane p lane (fun x => { x with testing := false, omaSteps := 0, txMargin := some (signed 16 (arg.toNat / 2 ^ 48)) }) s
    (0, marginPass p (marginJudge p lane s))
  | 6 => (0, reportReceive p lane arg s)
  | 7 =>
    if held then (3, s)
    else match arg.toNat % 256 with
      | 0 => (0, leaveLoop p lane s)
      | 1 => (0, enterLoop p lane 4 s)
      | _ => (2, s)
  | 8 =>
    if held then (3, s)
    else (0, onFPort p (fun q => { q with pending := q.pending.filter (·.lane != lane) })
      (onLane p lane (fun x => { x with claimed := true, state := .dark, enteredAt := nowNs s }) (sprayLeave p lane s)))
  | 9 =>
    if (laneAt s p lane).claimed then
      (0, laneFromDark p lane (onLane p lane (fun x => { x with claimed := false }) s))
    else (0, s)
  | _ => (2, s)

/-- ACK received (R321): the message it names is complete; its status goes to the rule concerned. -/
def ackReceive (p : Nat) (arg : BitVec 64) (s : State) : State :=
  let v := arg.toNat
  let msg := v / 2 ^ 56
  let seq := v / 2 ^ 48 % 256
  let status := v % 256
  match (s.optics.ports.get p).pending.find? fun m => m.msg == msg && m.seq == seq with
  | none => s
  | some m =>
    let s := onFPort p (fun q => { q with pending := q.pending.filter fun x => !(x.msg == msg && x.seq == seq) }) s
    match msg with
    | 2 => if status = 0 then migrationDone (moduleOf p) (onLane p m.lane (fun x => { x with peerMigrating := false }) s) else s
    | 4 => if status = 0 then s else
        (laneBits (m.arg.toNat / 2 ^ 56)).foldl (fun s l => onLane p l (fun x => { x with testing := false, omaSteps := 0 }) s) s
    | 8 => claimAnswered p (m.arg.toNat % 65536) (m.arg.toNat / 2 ^ 30 % 4) (m.arg.toNat / 2 ^ 32) (status == 0) s
    | _ => s

/-- An LCM received: acted on once among the last 16 sequence numbers, every copy acknowledged (R322). -/
def lcmReceive (p on : Nat) (w0 w1 : BitVec 64) (s : State) : State :=
  let v := w0.toNat
  let msg := v / 2 ^ 56
  let seq := v / 2 ^ 48 % 256
  let lane := v / 2 ^ 45 % 8
  if msg = 1 then ackReceive p w1 s
  else match (s.optics.ports.get p).seenSeqs.find? fun x => x.1 == seq with
  | some x => sendAck p on msg seq lane x.2 s
  | none =>
    let (status, s) := lcmAct p msg lane (v / 2 ^ 37 % 16) w1 s
    sendAck p on msg seq lane status (onFPort p (fun q => { q with seenSeqs := ((seq, status) :: q.seenSeqs).take 16 }) s)

/-- LCM_RESEND (R322): every 100 us, where a lane can carry the message; after the tenth send LCM_TIMEOUT. -/
def execLcmResend (port : FibreIx) (s : State) : Host.Outcome State Fault Refusal :=
  .next <|
    if !lanesAct s port then s else
    let due := (s.optics.ports.get port).pending.filter fun m => m.sentAt + 100000 ≤ nowNs s
    due.foldl (fun s m =>
      if m.sends < 10 then
        match carrier s port m.lane with
        | some c => dueBlock port c 2 (lcmWord0 m.msg m.seq m.lane m.slot m.slot2) m.arg 0
            (onFPort port (fun q => { q with pending := q.pending.map fun x =>
              if x.msg == m.msg && x.seq == m.seq then { x with sends := x.sends + 1, sentAt := nowNs s } else x }) s)
        | none => s
      else
        let s := onFPort port (fun q => { q with pending := q.pending.filter fun x => !(x.msg == m.msg && x.seq == m.seq) }) s
        let s := raise 0x040B 1 (unitPort port m.lane) (args32 [(m.msg : Int), (m.seq : Int)]) (count (portDie port) 0x8001 port 1 s)
        if m.msg = 8 then claimAnswered port (m.arg.toNat % 65536) (m.arg.toNat / 2 ^ 30 % 4) (m.arg.toNat / 2 ^ 32) false s else s) s

/-! ### Lane control blocks (R302 to R304) -/

/-- R303: CRC-16, polynomial 0x1021, initial value 0xFFFF. -/
def crc16Byte (c b : Nat) : Nat :=
  (upTo 8).foldl (fun c _ => if 0x8000 ≤ c then Nat.xor (c * 2 % 65536) 0x1021 else c * 2) (Nat.xor c (b * 256))
def crc16 (b : Bytes) : Nat := b.foldl (fun c x => crc16Byte c x.toNat) 0xFFFF

/-- The bytes CHECK covers. -/
def lcbCovered (a : Bytes) (w0 w1 : BitVec 64) : Bytes := slice a 1 4 ++ beBytes 8 w0.toNat ++ beBytes 8 w1.toNat

/-- R302: the three blocks of an LCB, each with its sync header. -/
def lcbBlocks (kind seq : Nat) (w0 w1 : BitVec 64) : List (Nat × Bytes) :=
  let head := beBytes 1 0x4B ++ beBytes 1 kind ++ beBytes 1 seq ++ [0, 0x0F]
  [(2, head ++ beBytes 2 (crc16 (lcbCovered head w0 w1)) ++ [0]), (1, beBytes 8 w0.toNat), (1, beBytes 8 w1.toNat)]

/-- R302: whether block A is one of an LCB: its block type and O code. -/
def isLcb (b : Lcb) : Bool := byteAt b.blockA 0 == 0x4B && byteAt b.blockA 4 % 16 == 0xF

/-- R303: whether a received LCB is taken. -/
def lcbGood (b : Lcb) : Bool :=
  b.fecGood && beAt b.blockA 5 2 == crc16 (lcbCovered b.blockA b.word0 b.word1) && 1 ≤ byteAt b.blockA 1 && byteAt b.blockA 1 ≤ 4

/-- LCB_RECEIVE. A block of another type is no LCB. -/
def lcbReceive (p l : Nat) (b : Lcb) (s : State) : State :=
  if !isLcb b then s
  else if !lcbGood b then count (portDie p) 0x8000 (laneKey p l) 1 s
  else match byteAt b.blockA 1 with
    | 1 => creditWordReceive p l b.word1 (creditWordReceive p l b.word0 s)
    | 2 => lcmReceive p l b.word0 b.word1 s
    | 3 => trainReceive p l b.word0 b.word1 s
    | _ => markerReceive p l b.word0 b.word1 s

def execLcbReceive (port : FibreIx) (lane : LaneIx) (block : Lcb) (s : State) : Host.Outcome State Fault Refusal :=
  .next <|
    let st := (laneAt s port lane).state
    if lanesAct s port && st != .dark && st != .locking && st != .fault && st != .retune then lcbReceive port lane block s else s

/-- Whether a due block may go now: a CLOSE waits until the departed lane's queue has emptied (04 R132), and so does the ACK that
gives a lane up (10 R350). -/
def dueNow (s : State) (p l : Nat) (e : Nat × Nat × BitVec 64 × BitVec 64 × Nat) : Bool :=
  e.1 == l && (e.2.1 != 5 || laneEmpty s p (e.2.2.2.2 / 8 % 8)) &&
    (e.2.1 != 2 || e.2.2.2.2 == 0 || laneEmpty s p (e.2.2.2.2 - 1))

/-- The word of a due credit block, a CLOSE with its final SENT. -/
def flowWord (s : State) (e : Nat × Nat × BitVec 64 × BitVec 64 × Nat) : BitVec 64 :=
  if e.2.1 = 5 then e.2.2.1 + (s.flow.sent.get e.2.2.2.2).setWidth 64 else e.2.2.1

/-- A list without its first element that a test picks. -/
def removeFirst {α : Type} (p : α → Bool) : List α → List α
  | [] => []
  | x :: r => if p x then r else x :: removeFirst p r

/-- LCB_SEND (R304): between frames, the block that fell due first; a FLOW block takes two credit words where two are
due. -/
def execLcbSend (port : FibreIx) (lane : LaneIx) (s : State) : Host.Outcome State Fault Refusal :=
  .next <|
    if !lanesAct s port || (s.switch.sending.get (laneKey port lane)).isSome then s else
    let q := s.optics.ports.get port
    match q.due.find? (dueNow s port lane) with
    | none => s
    | some e =>
      let isFlow := e.2.1 == 1 || e.2.1 == 5
      let rest := removeFirst (dueNow s port lane) q.due
      let second := if isFlow then rest.find? fun d => dueNow s port lane d && (d.2.1 == 1 || d.2.1 == 5) else none
      let rest := if second.isSome then removeFirst (fun d => dueNow s port lane d && (d.2.1 == 1 || d.2.1 == 5)) rest else rest
      let kind := if isFlow then 1 else e.2.1
      let w0 := if isFlow then flowWord s e else if kind = 2 then e.2.2.1 else markerWord s port lane
      let w1 := if isFlow then (match second with
          | some d => flowWord s d
          | none => 0)
        else if kind = 2 then e.2.2.2.1 else trainWord s port lane
      let seq := (laneAt s port lane).txSeq.toNat
      let s := onFPort port (fun q => { q with due := rest }) s
      let s := onLane port lane (fun x => { x with txSeq := x.txSeq + 1 }) s
      emitOut (.lcb port lane (lcbBlocks kind seq w0 w1)) s

/-! ### Lanes that fail, loops, mesh spares (03 R76, R90; R333, R334) -/

/-- LANE_FAILS_ABRUPTLY (03 R76): the frames of its queue move; a frame being sent is lost; the lane locks again. -/
def execLaneFailsAbruptly (port : FibreIx) (lane : LaneIx) (s : State) : Host.Outcome State Fault Refusal :=
  .next <|
    if !lanesAct s port || !laneUsable s port lane then s
    else onLane port lane (fun x => { x with trainedFrom := true }) (laneRelock port lane s)

/-- LOOP_MODE (R334, 10 R355). A lane given up to a claim counts as held, since LOOP_REQ may not name it (10 R350; DESIGN CHOICE,
log 186). -/
def loopModeWrite (p mode : Nat) (s : State) : State :=
  let named := laneBits (objGet s (0x040100 + p) 5 0)
  let lanes := if mode = 2 then upTo 8 else named
  let old := (s.optics.ports.get p).loopMode
  if 3 < mode then answer stBadValue s
  else if mode ≠ 0 && lanes.any fun l => laneTaken s p l then answer stBusy s
  else
    let s := answer stDone (objSet (0x040100 + p) 4 mode s)
    let s := (upTo 8).foldl (fun s l =>
      if ((laneAt s p l).state = .loop || (laneAt s p l).leaving ≠ 0) && (mode = 0 || !lanes.contains l || old ≠ mode) then
        leaveLoop p l (if old = 3 && (laneAt s p l).state = .loop then sendLcm p 7 l (txSlotOf s p l) 0 0 s else s) else s) s
    let s := onFPort p (fun q => { q with loopMode := mode }) s
    if mode = 0 then s else
    lanes.foldl (fun s l => if (laneAt s p l).state = .loop || (laneAt s p l).leaving ≠ 0 then s else enterLoop p l mode s) s

def execLoopMode (role : Role) (port : FibreIx) (mode : Byte) (s : State) : Host.Outcome State Fault Refusal :=
  .next (guardWrite role (0x040100 + port.val) 4 (loopModeWrite port mode.toNat) s)

def execMeshSpareSubstitute (s_ t : DieIx) (channel : Fin 80) (abrupt : Bool) (s : State) :
    Host.Outcome State Fault Refusal :=
  .next (if clocksRun s && dieUp s s_ && dieUp s t && s_ != t then meshSubstitute s_ t channel abrupt s else s)

/-! ### Laser modules (R306) -/

/-- ELS_POWER_TIMEOUT: 200 ms after enable without power. -/
def execElsPowerTimeout (module : Fin 20) (s : State) : Host.Outcome State Fault Refusal :=
  .next <|
    let e := elsOf s module
    if !clocksRun s || e.state ≠ 2 || wallNs s < e.enabledAt + 200000000 then s
    else elsCause (raise 0x0401 0 (unitEls s module 0) (args32 [0]) (onEls module (fun e => { e with state := 4 }) s))

/-- ELS_POLL (R306): a module's own line monitors and alarms. A lit module whose lines are all dark is in fault, as an interlock of
the board leaves it (13 R418). -/
def elsPoll (m : Nat) (powers : List Int) (flags : Nat) (s : State) : State :=
  let e := elsOf s m
  let s := onEls m (fun e => { e with polledAt := nowNs s, lines := tapReadings powers e.lines }) s
  let s :=
    if flags ≠ 0 then
      if e.state = 4 then s
      else raise 0x0401 0 (unitEls s m 0) (args32 [(flags : Int)]) (onEls m (fun e => { e with state := 4 }) s)
    else if (e.state = 2 || e.state = 4) && elsAtPower s m then onEls m (fun e => { e with state := 3 }) s
    else if e.state = 3 && (upTo 9).all (fun k => (elsOf s m).lines.get k == -32768) then
      raise 0x0401 0 (unitEls s m 0) (args32 [0]) (onEls m (fun e => { e with state := 4 }) s)
    else s
  let s := elsCause s
  if isUp s then fadeCheck m s else s

def execElsPoll (module : Fin 20) (powers : List Int) (faultFlags : Nat) (s : State) : Host.Outcome State Fault Refusal :=
  .next (if keeperUp s && 6 ≤ stateCode s.start.state && (elsOf s module).state != 0 then elsPoll module powers faultFlags s else s)

end Sys2Proof.Machine
end

