-- ==== Sys2Proof/Machine/Modes.lean ====
section
/-! DEFINITION. Hardware and host-assisted modes of the optics (14 R441, R442), and the return of every function to hardware
mode at entry to headless operation (01 R29). -/

namespace Sys2Proof.Machine

/-- A mode object is written; on a change to hardware mode the device acts on the notices that are pending (R442). -/
def modeWrite (sub v : Nat) (act : State → State) (s : State) : State :=
  if 1 < v then answer stBadValue s
  else
    let s := answer stDone (objSet 0x040001 sub v s)
    if v = 0 then act s else s

/-- Every ring that a notice holds in SEEK seeks at the next tick of its loop, from the start point that R309 and R312 give
then (R313). -/
def releaseRings (s : State) : State :=
  s.onOptics fun x => { x with
    rings := ⟨x.rings.dflt, x.rings.cells.map fun c =>
      if c.2.state == .seek && c.2.held then (c.1, { c.2 with held := false, fresh := true }) else c⟩
    notices := [] }

/-- RING_LOCK_MODE. -/
def execRingLockMode (role : Role) (value : Byte) (s : State) : Host.Outcome State Fault Refusal :=
  .next (guardWrite role 0x040001 1 (modeWrite 1 value.toNat releaseRings) s)

/-- Every migration that MIGRATION_NEEDED has announced begins, where its line still qualifies (R327, R328). -/
def releaseMigrations (s : State) : State :=
  (upTo 16).foldl (fun s m =>
    let pending := (upTo 8).any fun k => (elsOf s m).neededSent.get k
    let s := onEls m (fun e => { e with neededSent := .empty false }) s
    if pending && isUp s then fadeCheck m s else s) s

/-- MIGRATION_MODE. -/
def execMigrationMode (role : Role) (value : Byte) (s : State) : Host.Outcome State Fault Refusal :=
  .next (guardWrite role 0x040001 2 (modeWrite 2 value.toNat releaseMigrations) s)

/-- Every lane that waits in READY for MARGIN_RUN runs its test (R324). -/
def releaseLanes (s : State) : State :=
  let waits := s.optics.lanes.cells.filter fun c => c.2.state == .ready && c.2.held
  waits.foldl (fun s c =>
    let p := c.1 / 8
    marginPass p (onLane p (c.1 % 8) (fun x => { x with
      state := .margin, enteredAt := nowNs s, lockingAt := nowNs s, held := false, txMargin := none, rxMargin := none }) s)) s

/-- MARGIN_MODE. -/
def execMarginMode (role : Role) (value : Byte) (s : State) : Host.Outcome State Fault Refusal :=
  .next (guardWrite role 0x040001 3 (modeWrite 3 value.toNat releaseLanes) s)

/-- R29: a margin test ends at entry to headless operation: the lane is in TRAIN again, at full amplitude, and goes on by its
estimates (09 R324). -/
def Lane.testEnds (x : Lane) : Lane :=
  if x.state == .margin then { x with state := .train, testing := false, omaSteps := 0, rxTesting := false } else x

/-- R29: every function but the time servo in hardware mode. No margin test runs in headless operation, so a lane that waits
in READY for one goes on by its estimates. -/
def modesToHardware (s : State) : State :=
  let s := releaseMigrations (releaseRings (objSet 0x040001 3 0 (objSet 0x040001 2 0 (objSet 0x040001 1 0 s))))
  let s := s.onOptics fun x => { x with
    lanes := ⟨x.lanes.dflt, x.lanes.cells.map fun c => (c.1, { c.2.testEnds with held := false })⟩ }
  let s := objSet 0x080001 1 0 (s.onTables fun x => { x with
    notices := .empty []
    posted := .empty false })
  { spareModeWrite 0 (collRecoveryWrite 0 s) with bop := s.bop }

end Sys2Proof.Machine
end

