-- ==== Sys2Proof/Machine/Ports.lean ====
section
/-! DEFINITION. Electrical and management ports (11): enable and modes, bring-up, link training, loops, equalisers, module
management, and the management ports. -/

namespace Sys2Proof.Machine

def epOf (s : State) (n : Nat) : EPort := s.mgmt.eports.get n
def onEp (n : Nat) (f : EPort → EPort) (s : State) : State := s.onMgmt fun x => { x with eports := x.eports.modify n f }
/-- UNIT of an electrical port (16 R493), by its egress port number. -/
def unitEp (n : Nat) : Nat := unitOf (portDie (256 + n)) (256 + n) 0

/-- The lanes of a member (R361). -/
def memberLanes (mode m : Nat) : List Nat := if mode = 1 then [0, 1, 2, 3] else if mode = 2 then [2 * m, 2 * m + 1] else [m]

/-- Writes of EP_MODE and EP_ENABLE that wait for an application select take effect at once where the select has no end: the module
is gone or the medium changes (R373; DESIGN CHOICE, log 190). -/
def EPort.takePending (e : EPort) : EPort :=
  { e with mode := e.pendingMode.getD e.mode, enable := e.pendingEnable.getD e.enable, pendingMode := none, pendingEnable := none }

/-- R366: whether the port's lanes transmit. -/
def epTransmits (e : EPort) : Bool := e.enable && e.present && (e.copper || e.moduleState == 3) && e.loop == 0

/-- Bring-up of those of the members named that are not up begins (R366, R367): taps at their presets, copper lanes in link
training. -/
def bringUp (n : Nat) (which : List Nat) (s : State) : State :=
  onEp n (fun e =>
    let down := which.filter fun m => m < memberCount e.mode && !e.membersUp.getLsbD m
    let lanes := down.flatMap (memberLanes e.mode)
    { e with
      bringupAt := down.foldl (fun t m => t.set m (some (nowNs s))) e.bringupAt
      trainingAt := lanes.foldl (fun t l => t.set l (if e.copper then some (nowNs s) else none)) e.trainingAt
      taps := lanes.foldl (fun t l => (upTo 5).foldl (fun t k => t.set (l * 8 + k) (Config.presetTap 1 k)) t) e.taps
      rxReady := lanes.foldl (fun t l => t.set l false) e.rxReady
      peerReady := lanes.foldl (fun t l => t.set l false) e.peerReady
      smallGains := lanes.foldl (fun t l => t.set l 0) e.smallGains }) s

/-- R364, R367: a member goes down: the frame it was sending is lost, EQ_FREEZE of its lanes clears (R369). With its last member
the port's lane leaves the spray set, and its frames go as 03 R76 has it. -/
def memberGoesDown (n m : Nat) (s : State) : State :=
  let p := 256 + n
  let s := match s.switch.sending.get (laneKey p m) with
    | some d => dropAtEgress p d.frame (s.onSwitch fun x => { x with sending := x.sending.set (laneKey p m) none })
    | none => s
  let s := onEp n (fun e => { e with
    membersUp := e.membersUp &&& ~~~(BitVec.ofNat 4 (2 ^ m))
    eqFreeze := (memberLanes e.mode m).foldl (fun b l => b &&& ~~~(BitVec.ofNat 4 (2 ^ l))) e.eqFreeze }) s
  if (epOf s n).membersUp = 0 then moveFrames p 0 s else s

/-- Every member goes down and bring-up stops. -/
def portDown (n : Nat) (s : State) : State :=
  let s := (upTo 4).foldl (fun s m => if (epOf s n).membersUp.getLsbD m then memberGoesDown n m s else s) s
  onEp n (fun e => { e with bringupAt := .empty none, trainingAt := .empty none }) s

/-- A change of the module or medium lets the port transmit, or stops it. -/
def epRefresh (n : Nat) (s : State) : State :=
  if epTransmits (epOf s n) then
    (if (epOf s n).bringupAt.cells.isEmpty && (epOf s n).membersUp = 0 then bringUp n (upTo 4) s else s)
  else portDown n s

/-- Module management as the port's enable and medium stand (R371, R372). -/
def moduleSettle (n : Nat) (s : State) : State :=
  let e := epOf s n
  let st :=
    if !e.present then 0
    else if e.copper then 3
    else if !e.enable then 1
    else if e.moduleState = 3 || e.moduleState = 4 || e.moduleState = 5 then e.moduleState else 2
  let s := onEp n (fun e => { e with
    moduleState := st, activateAt := if st = 2 then some (e.activateAt.getD (nowNs s)) else none }) s
  epRefresh n s

/-- EP_ENABLE (R366, R371, R373). -/
def epEnableWrite (n v : Nat) (s : State) : State :=
  if 1 < v then answer stBadValue s
  else
    let e := epOf s n
    let s := answer stDone (objSet (0x060100 + n) 3 v s)
    if e.moduleState = 2 then onEp n (fun e => { e with pendingEnable := some (v == 1) }) s
    else moduleSettle n (onEp n (fun e => { e with
      enable := v == 1, moduleState := if v = 0 && !e.copper && e.present then 1 else e.moduleState }) s)

def execEpEnable (role : Role) (port : ElecIx) (value : Byte) (s : State) : Host.Outcome State Fault Refusal :=
  .next (guardWrite role (0x060100 + port.val) 3 (epEnableWrite port value.toNat) s)

/-- R373: whether a change of mode or medium is taken. -/
def epChangeOk (s : State) (n : Nat) : Bool := !(epOf s n).enable || s.switch.drainState.get (256 + n) == 2

/-- A mode applied: the members start anew. -/
def applyMode (n v : Nat) (s : State) : State :=
  let s := portDown n s
  let s := onEp n (fun e => { e with mode := v, moduleState := if e.copper then e.moduleState else if e.enable && e.present then 2 else e.moduleState, activateAt := none }) s
  moduleSettle n s

/-- EP_MODE and EP_MEDIA (R361, R373). A change of medium ends an application select. -/
def epModeWrite (n : Nat) (media : Bool) (v : Nat) (s : State) : State :=
  if media then
    if 1 < v then answer stBadValue s
    else if !epChangeOk s n then answer stBusy s
    else
      let s := answer stDone (objSet (0x060100 + n) 2 v s)
      let s := portDown n s
      moduleSettle n (onEp n (fun e => { e.takePending with
        copper := v == 1, moduleState := if e.present then 1 else 0, activateAt := none, application := 0 }) s)
  else if v < 1 || 4 < v then answer stBadValue s
  else if !epChangeOk s n then answer stBusy s
  else
    let s := answer stDone (objSet (0x060100 + n) 1 v s)
    if (epOf s n).moduleState = 2 then onEp n (fun e => { e with pendingMode := some v }) s
    else applyMode n v s

def execEpMode (role : Role) (port : ElecIx) (media : Bool) (value : Byte) (s : State) : Host.Outcome State Fault Refusal :=
  .next (guardWrite role (0x060100 + port.val) (if media then 2 else 1) (epModeWrite port media value.toNat) s)

/-! ### Bring-up (R366 to R369) -/

def epActs (s : State) (n : Nat) : Bool := dieUp s (portDie (256 + n)) && clocksRun s && !s.start.darkHold

/-- R368: as requester the device asks for a change of one tap until its receiver is ready; which tap and which way is free. -/
def askTap (n lane : Nat) (s : State) : State :=
  if (epOf s n).rxReady.get lane || ((epOf s n).trainingAt.get lane).isNone then s
  else
    let (d, s) := draw s
    emitOut (.trainingRequest (256 + n) lane (d % 5) (d / 5 % 2 == 1)) s

/-- The taps of a lane at a preset. -/
def presetTaps (lane preset : Nat) (t : Tab Int) : Tab Int :=
  (upTo 5).foldl (fun t k => t.set (lane * 8 + k) (Config.presetTap preset k)) t

/-- LINK_TRAINING_REQUEST (R368): a peer's request for one tap is applied, or answered with the status of a limit reached, whose
size is not stated (log 38). Taps 2 to 6 stand for a request for preset 1 to 5 (DESIGN CHOICE, log 189). As requester the device is
ready after 8 requests in a row that gained less than 0.1 dB, and asks again until then. A lane leaves training when both ends are
ready. -/
def linkTraining (n lane : Nat) (tap change : Int) (peerReady : Bool) (gain : Nat) (s : State) : State :=
  let e := epOf s n
  match e.trainingAt.get lane with
  | none => s
  | some _ =>
    let k := lane * 8 + (tap + 3).toNat
    let v := e.taps.get k + change
    let names := decide (-3 ≤ tap) && decide (tap ≤ 1) && change != 0
    let preset := decide (2 ≤ tap) && decide (tap ≤ 6)
    let within := decide (v.natAbs ≤ Config.tapLimit (tap + 3).toNat)
    let s := if names then emitOut (.trainingStatus (256 + n) lane (tap + 3).toNat (!within)) s else s
    let small := if gain < 1 then e.smallGains.get lane + 1 else 0
    let ready := e.rxReady.get lane || 8 ≤ small
    let peer := e.peerReady.get lane || peerReady
    askTap n lane (onEp n (fun e => { e with
      taps := if names && within then e.taps.set k v else if preset then presetTaps lane (tap - 1).toNat e.taps else e.taps
      smallGains := e.smallGains.set lane small
      rxReady := e.rxReady.set lane ready
      peerReady := e.peerReady.set lane peer
      trainingAt := if ready && peer then e.trainingAt.set lane none else e.trainingAt }) s)

def execLinkTrainingRequest (port : ElecIx) (lane : Fin 4) (tap change : Int) (peerReady : Bool) (snrGainTenths : Nat) (s : State) :
    Host.Outcome State Fault Refusal :=
  .next (if epActs s port then linkTraining port lane tap change peerReady snrGainTenths s else s)

/-- LINK_TRAINING_TIMEOUT (R368): 450 ms; R367 restarts the lane. -/
def execLinkTrainingTimeout (port : ElecIx) (lane : Fin 4) (s : State) : Host.Outcome State Fault Refusal :=
  .next <| match (epOf s port).trainingAt.get lane with
    | some t => if epActs s port && t + 450000000 ≤ nowNs s then
        onEp port (fun e => { e with trainingAt := e.trainingAt.set lane none }) s else s
    | none => s

/-- MEMBER_UP (R367): 1 ms of lock without an uncorrectable codeword. -/
def execMemberUp (port : ElecIx) (member : Fin 4) (cleanNs : Nat) (s : State) : Host.Outcome State Fault Refusal :=
  .next <|
    let e := epOf s port
    let training := (memberLanes e.mode member).any fun l => (e.trainingAt.get l).isSome
    if epActs s port && epTransmits e && member.val < memberCount e.mode && (e.bringupAt.get member).isSome && !training
        && 1000000 ≤ cleanNs then
      onEp port (fun e => { e with
        membersUp := e.membersUp ||| BitVec.ofNat 4 (2 ^ member.val), bringupAt := e.bringupAt.set member none }) s
    else s

/-- MEMBER_DOWN (R367, R373): the member starts again, in headless operation on the COPPER medium only. -/
def execMemberDown (port : ElecIx) (member : Fin 4) (s : State) : Host.Outcome State Fault Refusal :=
  .next <|
    let e := epOf s port
    if !epActs s port || !e.membersUp.getLsbD member then s else
    let s := memberGoesDown port member s
    if s.start.headless && !e.copper then s
    else if epTransmits (epOf s port) then bringUp port [member.val] s else s

/-- EP_TRAIN_TIMEOUT (R367): 500 ms since the start of bring-up; the lanes restart from the presets. -/
def execEpTrainTimeout (port : ElecIx) (member : Fin 4) (s : State) : Host.Outcome State Fault Refusal :=
  .next <| match (epOf s port).bringupAt.get member with
    | some t =>
      if !epActs s port || nowNs s < t + 500000000 then s
      else bringUp port [member.val] (count (portDie (256 + port.val)) 0xA000 (256 + port.val) 1 s)
    | none => s

/-- The errors that the checkers of a looped port have counted since they were last read: a free number for each lane
(R370; log 35). -/
def loopCounts (n : Nat) (s : State) : State :=
  (upTo 4).foldl (fun s l =>
    let (d, s) := draw s
    onEp n (fun e => { e with loopErrors := e.loopErrors.modify l (· + d) }) s) s

/-- EP_LOOP (R370): in the near loops the generator's data stay on the die and the cage sees the idle level; in FAR the port returns
what it receives (`frameIngress`). LOOP_ERRORS is brought up to date when it is read. -/
def epLoopWrite (n v : Nat) (s : State) : State :=
  if 3 < v then answer stBadValue s
  else if v ≠ 0 && s.switch.drainState.get (256 + n) ≠ 2 then answer stBusy s
  else
    let s := answer stDone (objSet (0x060100 + n) 7 v s)
    if v = 0 then
      if (epOf s n).loop = 0 then s else epRefresh n (onEp n (fun e => { e with loop := 0 }) s)
    else onEp n (fun e => { e with loop := v }) (portDown n s)

def execEpLoop (role : Role) (port : ElecIx) (value : Byte) (s : State) : Host.Outcome State Fault Refusal :=
  .next (guardWrite role (0x060100 + port.val) 7 (epLoopWrite port value.toNat) s)

/-- What the equaliser of a lane has settled on: CTLE, feed-forward and DFE taps, unless they are held, estimated signal-to-noise
ratio and pre-FEC BER (R369, R377). -/
def eqSettle (n l : Nat) (s : State) : State :=
  let first := if (epOf s n).eqFreeze.getLsbD l then 37 else 0
  ((upTo 39).drop first).foldl (fun s k =>
    let (v, s) := draw s
    onEp n (fun e => { e with eq := e.eq.set (l * 64 + k) (signed 16 v) }) s) s

/-- EQ_FREEZE (R369): the taps of a lane that it newly holds stay at their present values. -/
def eqFreezeWrite (n v : Nat) (s : State) : State :=
  if 15 < v then answer stBadValue s
  else
    let held := (upTo 4).filter fun l => bit v l && !(epOf s n).eqFreeze.getLsbD l
    answer stDone (onEp n (fun e => { e with eqFreeze := BitVec.ofNat 4 v }) (held.foldl (fun s l => eqSettle n l s) s))

def execEqFreeze (role : Role) (port : ElecIx) (value : Byte) (s : State) : Host.Outcome State Fault Refusal :=
  .next (guardWrite role (0x060100 + port.val) 8 (eqFreezeWrite port value.toNat) s)

/-! ### Modules (R371 to R373) -/

/-- R371, R372: the firmware reads the identity pages of a module that is seated; what stands in them is the module's. -/
def readIdentity (n : Nat) (s : State) : State :=
  let id := (upTo 49).map fun i => BitVec.ofNat 8 (Config.freeValue (s.free + i))
  onEp n (fun e => { e with identity := id }) { s with free := s.free + 49 }

/-- MODULE_PRESENCE_CHANGE: debounced over 10 ms (13 R417); a removed module takes every member down at once. -/
def execModulePresenceChange (port : ElecIx) (present : Bool) (steadyNs : Nat) (s : State) : Host.Outcome State Fault Refusal :=
  .next <|
    let e := epOf s port
    if !clocksRun s || e.present == present || steadyNs < 10000000 then s
    else if present then
      if s.start.headless || !keeperUp s then epRefresh port (onEp port (fun e => { e with present := true }) s)
      else moduleSettle port (readIdentity port (onEp port (fun e => { e with
        present := true, moduleState := 1, application := 0, activateAt := none }) s))
    else
      portDown port (onEp port (fun e => { e.takePending with
        present := false, moduleState := 0, application := 0, activateAt := none, identity := [] }) s)

/-- Writes that waited for the application select to end (R373). -/
def pendingWrites (n : Nat) (s : State) : State :=
  let e := epOf s n
  let s := onEp n (fun e => { e with pendingMode := none, pendingEnable := none }) s
  let s := match e.pendingEnable with
    | some b => moduleSettle n (onEp n (fun e => { e with enable := b, moduleState := if b then e.moduleState else 1 }) s)
    | none => s
  match e.pendingMode with
  | some v => applyMode n v s
  | none => s

/-- The end of an application select. MODULE_FAULT gives the CMIS module state (16 R493), which the module shows and is free here. -/
def moduleEnds (n st : Nat) (s : State) : State :=
  let s := onEp n (fun e => { e with moduleState := st, activateAt := none }) s
  let s := if st = 4 then raise 0x0601 1 (unitEp n) [] s
    else if st = 5 then
      let (d, s) := draw s
      raise 0x0602 0 (unitEp n) (args32 [((d % 256 : Nat) : Int)]) s
    else s
  pendingWrites n (epRefresh n s)

/-- MODULE_ACTIVATE (R372): the matching application, and whether every lane has reached its activated state. -/
def execModuleActivate (port : ElecIx) (application : Option Nat) (lanesActive : Bool) (s : State) : Host.Outcome State Fault Refusal :=
  .next <|
    let e := epOf s port
    if !keeperUp s || e.moduleState ≠ 2 then s
    else match application with
      | none => moduleEnds port 4 s
      | some a =>
        let s := onEp port (fun e => { e with application := a }) s
        if lanesActive then moduleEnds port 3 s else s

/-- MODULE_ACTIVATE_TIMEOUT (R372): 5 s. -/
def execModuleActivateTimeout (port : ElecIx) (s : State) : Host.Outcome State Fault Refusal :=
  .next <|
    let e := epOf s port
    match e.activateAt with
    | some t => if keeperUp s && e.moduleState == 2 && t + 5000000000 ≤ nowNs s then moduleEnds port 5 s else s
    | none => s

/-- MODULE_POLL (R372): `acknowledged` is false after the third failure; `faultState` is a fault the module reports. -/
def execModulePoll (port : ElecIx) (acknowledged : Bool) (faultState : Option Nat) (s : State) : Host.Outcome State Fault Refusal :=
  .next <|
    let e := epOf s port
    if !keeperUp s || !e.present then s
    else
      let s := onEp port (fun e => { e with polledAt := nowNs s }) s
      if !acknowledged then count (portDie (256 + port.val)) 0xA001 (256 + port.val) 1 s
      else match faultState with
        | some f =>
          if e.copper || e.moduleState = 5 || e.moduleState = 1 then s
          else
            let s := raise 0x0602 0 (unitEp port) (args32 [(f : Int)]) (onEp port (fun e => { e with moduleState := 5, activateAt := none }) s)
            pendingWrites port (epRefresh port s)
        | none => s

/-! ### Management ports (R374 to R376) -/

/-- Addresses of a management port: link-local from its MAC address, and MP_ADDR. -/
def mpMac (s : State) (mp : Nat) : Nat := macBase s + mp
def mpLinkLocal (s : State) (mp : Nat) : Bytes :=
  let m := beBytes 6 (mpMac s mp)
  [0xFE, 0x80, 0, 0, 0, 0, 0, 0] ++ [BitVec.ofNat 8 (Nat.xor (byteAt m 0) 2)] ++ slice m 1 2 ++ [0xFF, 0xFE] ++ slice m 3 3
def cfgMpAddr (s : State) (mp : Nat) : Bytes := beBytes 16 (objGet s 0x060001 (2 + mp) 0)

/-- R375: the frames a management port accepts: neighbour discovery, echo requests, BOP and the firmware transfer (UDP
port 47303, 14 R432). -/
def mpAccepts (f : Bytes) : Bool :=
  let p := parseFrame f
  p.fam == some 0 &&
    ((p.proto == 58 && [133, 134, 135, 136, 137, 128].contains (byteAt f p.l4))
      || (p.proto == 17 && (p.dport == 47301 || p.dport == 47303)))

/-- R375: 200,000 accepted frames a second on each port. -/
def mpBudget (mp : Nat) (s : State) : Bool × State :=
  let sec := nowNs s / 1000000000
  let used := if s.mgmt.mpSecond.get mp = sec then s.mgmt.mpCount.get mp else 0
  if used < 200000 then
    (true, s.onMgmt fun x => { x with mpSecond := x.mpSecond.set mp sec, mpCount := x.mpCount.set mp (used + 1) })
  else (false, s)

/-- R375: what a management port takes from its peer counts towards its limit, and is dropped beyond it. -/
def mpTake (mp : Nat) (f : State → State) (s : State) : State :=
  let (ok, s) := mpBudget mp s
  if ok then f s else count 8 0xA002 0 1 s

/-- R376: the address to which a request was sent and from which its reply leaves. A request's source is the host's address in bits
127 to 0, and bit 128 says that the host wrote to MP_ADDR, not to the link-local address. -/
def mpOwn (s : State) (mp source : Nat) : Bytes := if source.testBit 128 then cfgMpAddr s mp else mpLinkLocal s mp

/-- A BOP message to a host (R376). -/
def sendBop (mp source : Nat) (d : Bytes) (s : State) : State := emitOut (.bop mp (mpOwn s mp source) (source % 2 ^ 128) d) s

/-- The answer to a neighbour solicitation or an echo request for one of the port's own addresses. -/
def mpAnswer (s : State) (mp : Nat) (f : Bytes) : Option Bytes :=
  let p := parseFrame f
  let own (a : Bytes) : Bool := a == mpLinkLocal s mp || (a == cfgMpAddr s mp && !allZero a)
  let me := mpMac s mp
  if p.proto ≠ 58 then none
  else if byteAt f p.l4 = 135 && own (slice f (p.l4 + 8) 16) then
    let target := slice f (p.l4 + 8) 16
    let dad := allZero p.src
    let dst : Bytes := if dad then [0xFF, 0x02] ++ List.replicate 13 0 ++ [1] else p.src
    let msg := [136, 0, 0, 0] ++ beBytes 4 (if dad then 0x20000000 else 0x60000000) ++ target ++ [2, 1] ++ beBytes 6 me
    some (answer6 (if dad then 0x333300000001 else p.smac) me 255 target dst msg)
  else if byteAt f p.l4 = 128 && own p.dst then
    some (answer6 p.smac me 64 p.dst p.src (splice (slice f p.l4 (beAt f (p.l3 + 4) 2)) 0 [129]))
  else none

/-- MP_FRAME_RECEIVE (R375): accepted or dropped; BOP and transfer messages go to their own rows. -/
def execMpFrameReceive (mp : Fin 2) (bytes : Bytes) (s : State) : Host.Outcome State Fault Refusal :=
  .next <|
    if !keeperUp s || !s.mgmt.mpUp.getLsbD mp then s else
    if !fcsGood bytes || !mpAccepts bytes then count 8 0xA002 0 1 s else
    let (ok, s) := mpBudget mp s
    if !ok then count 8 0xA002 0 1 s
    else match mpAnswer s mp bytes with
      | some a => emitOut (.management mp a) s
      | none => s

/-- R376: the port of Foghorn events. -/
def foghornPort (s : State) : Nat :=
  let primary := objGet s 0x060001 1 0
  if s.mgmt.mpUp.getLsbD primary then primary
  else if s.mgmt.mpUp.getLsbD (1 - primary) then 1 - primary else primary

/-- MP0 and MP1 begin their bring-up, as far as they are not at it (R374; 14 R432, 15 R450). -/
def mpStart (s : State) : State :=
  s.onMgmt fun x => { x with mpBegun := (upTo 2).foldl (fun t mp => if (t.get mp).isSome then t else t.set mp (some (nowNs s))) x.mpBegun }

/-- MP_FAILOVER (R376): a management port goes up, its receiver having run without an uncorrectable codeword for 1 ms (R367), or goes
down and starts again. -/
def execMpFailover (mp : Fin 2) (up : Bool) (s : State) : Host.Outcome State Fault Refusal :=
  .next <|
    let ready := match s.mgmt.mpBegun.get mp with
      | some t => !up || t + 1000000 ≤ nowNs s
      | none => false
    if !keeperUp s || !ready then s else
    let mask : BitVec 2 := BitVec.ofNat 2 (2 ^ mp.val)
    let s := s.onMgmt fun x => { x with
      mpUp := if up then x.mpUp ||| mask else x.mpUp &&& ~~~mask
      mpBegun := if up then x.mpBegun else x.mpBegun.set mp (some (nowNs s)) }
    s.onMgmt fun x => { x with foghornOnMp1 := foghornPort s == 1 }

end Sys2Proof.Machine
end

