-- ==== Sys2Proof/Machine/Resident.lean ====
section
/-! DEFINITION. Regions: creation, control words, update locks, the mirror protocol and its audit, export, and what die loss
and headless operation do to regions (08 R268 to R297). -/

namespace Sys2Proof.Machine

/-! ### Codes of R269, in the order of its table (log 53) -/

def rgDone : Nat := 0
def rgBadValue : Nat := 1
def rgExists : Nat := 2
def rgNoSlot : Nat := 3
def rgNoMemory : Nat := 4
def rgDieOut : Nat := 5
def rgBusy : Nat := 6
def rgNotFound : Nat := 7

/-- A region request is answered: the object write with DONE, the request in REGION_RESULT (R298). -/
def regionResult (h st dies : Nat) (s : State) : State :=
  answer stDone (s.onResident fun x => { x with regionResult := h * 65536 + st * 256 + dies })

/-- The dies of a list as a bitmap. -/
def dieMap (l : List Nat) : Nat := (upTo 8).foldl (fun a d => if l.contains d then a + 2 ^ d else a) 0

/-- A region's handle. -/
def handleOk (h : Nat) : Bool := 1 ≤ h && h ≤ 4096

/-- R275, R269: whether a moored group names a region. -/
def regionMoored (s : State) (h : Nat) : Bool :=
  let names (g : Group) : Bool := gResident g.record == h || gResidual g.record == h
  (mooredGroups s).any names || s.coll.prepared.any fun p => names p.2

def exporting (s : State) (h : Nat) : Bool := match s.resident.exportRun with
  | some (x, _) => x == h
  | none => false

/-! ### Creation (R268 to R273) -/

def regionOf (b : Bytes) : Region where
  kind := byteAt b 2
  mirrored := byteAt b 3 == 1
  dieMask := BitVec.ofNat 8 (byteAt b 4)
  blockBytes := beAt b 8 4
  blocks := beAt b 12 4
  rowBytes := beAt b 16 4
  state := .initialising
  parts := .empty 0
  sizes := .empty 0
  lost := 0
  lastLost := 0
  unchecked := 0

/-- R268: every field in range. -/
def regionFieldsOk (b : Bytes) : Bool :=
  let bb := beAt b 8 4
  let row := beAt b 16 4
  handleOk (beAt b 0 2) && (byteAt b 2 == 1 || byteAt b 2 == 2) && byteAt b 3 ≤ 1 && (byteAt b 2 == 1 || byteAt b 3 == 0)
    && byteAt b 4 != 0 && allZero (slice b 5 3) && 256 ≤ bb && bb ≤ 16777216 && bb % 256 == 0 && 1 ≤ beAt b 12 4
    && (row == 0 || (row % 64 == 0 && bb % row == 0)) && allZero (slice b 20 4)

/-- The parts a die is to hold: (copy, primary blocks laid out there). -/
def partsWanted (r : Region) (d : Nat) : List (Nat × Nat) :=
  (if r.dieMask.getLsbD d then [(0, r.countOn d)] else [])
    ++ (if r.mirrored && r.dieMask.getLsbD (partner d) then [(1, r.countOn (partner d))] else [])

/-- R271, R272: a die's parts placed, in the lowest free ranges; none where one does not fit. -/
def placeParts (s : State) (d : Nat) : List (Nat × Nat) → List (Nat × Nat) → Region → Option Region
  | [], _, r => some r
  | (copy, n) :: rest, used, r =>
    match firstFit used (regionLimit s d) (partSize r n) with
    | none => none
    | some off =>
      let size := partSize r n off
      placeParts s d rest ((off, size) :: used) { r with
        parts := r.parts.set (partKey d copy) (off + 1)
        sizes := r.sizes.set (partKey d copy) size }

/-- Every die's parts placed, and the dies on which they do not fit. -/
def placeAll (s : State) (r : Region) : Region × List Nat :=
  (upTo 8).foldl (fun (x : Region × List Nat) d =>
    match placeParts s d (partsWanted r d) (usedRanges s d) x.1 with
    | some r => (r, x.2)
    | none => (x.1, x.2 ++ [d])) (r, [])

/-- REGION_CREATE. -/
def regionCreate (b : Bytes) (s : State) : State :=
  if b.length ≠ 24 then answer stBadLength s else
  let h := beAt b 0 2
  let r := regionOf b
  let out := (upTo 8).filter fun d => !(partsWanted r d).isEmpty && !dieUp s d
  let (placed, full) := placeAll s r
  if !regionFieldsOk b then regionResult h rgBadValue 0 s
  else if (regionAt s h).isSome then regionResult h rgExists 0 s
  else if 4096 ≤ (s.resident.regions.cells.filter fun c => c.2.isSome).length then regionResult h rgNoSlot 0 s
  else if !out.isEmpty then regionResult h rgDieOut (dieMap out) s
  else if !full.isEmpty then regionResult h rgNoMemory (dieMap full) s
  else regionResult h rgDone 0 (s.onResident fun x => { x with regions := x.regions.set h (some placed) })

def execRegionCreate (role : Role) (record : Bytes) (s : State) : Host.Outcome State Fault Refusal :=
  .next (guardWrite role 0x0C0001 1 (regionCreate record) s)

/-- R273: every control area and block of a part at zero, and for MIRRORED its metadata. -/
def zeroPart (r : Region) (die copy : Nat) (s : State) : State :=
  let k := partKey die copy
  if r.parts.get k = 0 then s else
  zeroMem (memAddr die (r.parts.get k - 1)) (r.sizes.get k) s

def zeroMeta (h : Nat) (r : Region) (s : State) : State :=
  if !r.mirrored then s else
  let m : Meta := ⟨0, blockCrc (List.replicate r.blockBytes 0), false, 0⟩
  (upTo r.blocks).foldl (fun s b => importMark h b m s) s

/-- REGION_READY (R273): the device has cleared a new region. A MIRRORED region that lost a die meanwhile has its
takeover (R296) from here on (DESIGN CHOICE, log 162). -/
def regionReady (h : Nat) (s : State) : State :=
  match regionAt s h with
  | some r =>
    if r.state ≠ .initialising then s
    else
      let s := (upTo 8).foldl (fun s d => zeroPart r d 1 (zeroPart r d 0 s)) s
      let whole := r.lost == 0
      let s := onRegion h (fun r => { r with state := if whole then .ready else .takeover }) (zeroMeta h r s)
      if !whole then s else raise 0x0C01 2 (unitOf 15 0 0) (args32 [(h : Int)]) s
  | none => s

def execRegionReady (handle : Nat) (s : State) : Host.Outcome State Fault Refusal :=
  .next (if clocksRun s then regionReady handle s else s)

/-- REGION_DELETE (R269). -/
def regionDelete (h : Nat) (s : State) : State :=
  if !handleOk h then regionResult h rgBadValue 0 s
  else if (regionAt s h).isNone then regionResult h rgNotFound 0 s
  else if regionMoored s h || exporting s h || s.resident.importRun == some h then regionResult h rgBusy 0 s
  else
    let mine (k : Nat) : Bool := k / 2 ^ 32 == h
    regionResult h rgDone 0 (s.onResident fun x => { x with
      regions := x.regions.set h none
      metas := x.metas.erase mine
      lockHolder := x.lockHolder.erase mine
      lockWait := x.lockWait.erase mine
      unacked := x.unacked.erase mine
      mirrorIn := x.mirrorIn.erase mine })

def execRegionDelete (role : Role) (handle : BitVec 16) (s : State) : Host.Outcome State Fault Refusal :=
  .next (guardWrite role 0x0C0001 2 (regionDelete handle.toNat) s)

/-- REGION_CONTROL_DATA (R274): one word in every copy of the control area. -/
def regionControlData (h : Nat) (data : Bytes) (s : State) : State :=
  if 64 < data.length then answer stBadLength s else
  match regionAt s h with
  | none => answer stNotFound s
  | some r =>
    let w := objGet s (0x0C1000 + h) 3 0
    let put (s : State) (k : Nat) : State :=
      if r.parts.get k = 0 || !dieUp s (k % 8) then s
      else storeMem (memAddr (k % 8) (r.parts.get k - 1 + 64 * w)) (padTo 64 data) s
    answer stDone ((upTo 16).foldl put s)

def execRegionControlData (role : Role) (handle : Nat) (data : Bytes) (s : State) : Host.Outcome State Fault Refusal :=
  .next (guardWrite role (0x0C1000 + handle) 4 (regionControlData handle data) s)

/-! ### Update locks and the mirror protocol (R279, R282) -/

/-- UPDATE_LOCK_GRANT (R279): the next waiting context takes a block's lock. -/
def updateLockGrant (key : Nat) (s : State) : State :=
  match s.resident.lockHolder.get key, s.resident.unacked.get key, nextWaiter s (s.resident.lockWait.get key) with
  | none, false, some k => s.onResident fun x => { x with
      lockHolder := x.lockHolder.set key (some k)
      lockWait := x.lockWait.modify key (·.filter (· != k)) }
  | _, _, _ => s

def execUpdateLockGrant (handle block : Nat) (s : State) : Host.Outcome State Fault Refusal :=
  .next (if clocksRun s then updateLockGrant (blockKey handle block) s else s)

/-- The oldest message of the mirror protocol for a die, taken. -/
def takeMirror (die : Nat) (s : State) : Option (MirrorMsg × State) :=
  match s.resident.toMirror.get die with
  | [] => none
  | m :: r => some (m, s.onResident fun x => { x with toMirror := x.toMirror.set die r })

def sendMirror (die : Nat) (m : List MirrorMsg) (s : State) : State :=
  s.onResident fun x => { x with toMirror := x.toMirror.modify die (· ++ m) }

/-- MIRROR_WORD_RECEIVE: the mirror die writes a word in place and adds it to its own BLOCK_CRC. -/
def mirrorWordReceive (die : Nat) (s : State) : State :=
  match takeMirror die s with
  | some (.word h b w seq data, t) =>
    (match regionAt s h with
    | some r =>
      let key := blockKey h b
      let old := s.resident.mirrorIn.get key
      let m : MirrorIn := if old.seq = seq then old else ⟨seq, 0, 0⟩
      (storeMem (r.addr b 1 + 64 * w) data t).onResident fun x => { x with
        mirrorIn := x.mirrorIn.set key ⟨seq, m.crc ^^^ BitVec.ofNat 32 (crc32cStd (beBytes 4 w ++ data)), m.words + 1⟩ }
    | none => t)
  | _ => s

def execMirrorWordReceive (die : DieIx) (s : State) : Host.Outcome State Fault Refusal :=
  .next (if dieUp s die && clocksRun s then mirrorWordReceive die s else s)

/-- MIRROR_COMMIT_RECEIVE: the mirror agrees with what it received and writes its metadata, or refuses. -/
def mirrorCommitReceive (die : Nat) (s : State) : State :=
  match takeMirror die s with
  | some (.commit h b seq crc words, t) =>
    (match regionAt s h with
    | some r =>
      let key := blockKey h b
      let m := s.resident.mirrorIn.get key
      let good := m.seq == seq && m.crc == crc && m.words == words
      let t := t.onResident fun x => { x with mirrorIn := x.mirrorIn.set key x.mirrorIn.dflt }
      let t := if good then setMeta h b 1 ⟨seq, crc, false, 0⟩ t else t
      sendMirror (r.dieOf b) [.ack h b good] t
    | none => t)
  | _ => s

def execMirrorCommitReceive (die : DieIx) (s : State) : Host.Outcome State Fault Refusal :=
  .next (if dieUp s die && clocksRun s then mirrorCommitReceive die s else s)

/-- The whole block as messages of one update. -/
def blockMessages (h b seq : Nat) (d : Bytes) : List MirrorMsg :=
  (upTo (d.length / 64)).map fun w => .word h b w seq (slice d (64 * w) 64)

/-- MIRROR_ACK: the primary's lock is free of the mirror, or the block is sent again. -/
def mirrorAck (die : Nat) (s : State) : State :=
  match takeMirror die s with
  | some (.ack h b good, t) =>
    (match regionAt s h with
    | some r =>
      if good then t.onResident fun x => { x with unacked := x.unacked.set (blockKey h b) false }
      else
        let d := copyBytes t r b 0
        let seq := (getMeta t h b 0).seq
        let t := count die 0x7000 0 1 (setMeta h b 0 { getMeta t h b 0 with crc := blockCrc d } t)
        sendMirror (r.copyDie b 1) (blockMessages h b seq d ++ [.commit h b seq (blockCrc d) (d.length / 64)]) t
    | none => t)
  | _ => s

def execMirrorAck (die : DieIx) (s : State) : Host.Outcome State Fault Refusal :=
  .next (if dieUp s die && clocksRun s then mirrorAck die s else s)

/-! ### Audit and resolution (R287, R288, R290) -/

/-- R279: whether a block's update lock is held, the mirror's acknowledgement included. -/
def lockHeld (s : State) (h b : Nat) : Bool :=
  (s.resident.lockHolder.get (blockKey h b)).isSome || s.resident.unacked.get (blockKey h b)

/-- A copy written with another's contents and metadata. -/
def copyOver (h : Nat) (r : Region) (b src : Nat) (m : Meta) (s : State) : State :=
  setMeta h b (1 - src) m (storeMem (r.addr b (1 - src)) (copyBytes s r b src) s)

/-- R287: the table, for two copies of a block of which each is valid or not. -/
def compareCopies (h : Nat) (r : Region) (b : Nat) (pv mv : Bool) (s : State) : State :=
  let p := getMeta s h b 0
  let m := getMeta s h b 1
  let die := r.dieOf b
  let wins (src : Nat) : State :=
    let w := getMeta s h b src
    let l := getMeta s h b (1 - src)
    count die 0x7001 0 1 (copyOver h r b src { l with seq := w.seq, crc := w.crc } s)
  let suspect (cause : Nat) : State := if p.suspect && m.suspect then s else markSuspect h b cause s
  match pv, mv with
  | true, true => if m.seq < p.seq then wins 0 else if p.seq < m.seq then wins 1
    else if p.crc = m.crc then s else suspect 1
  | true, false => wins 0
  | false, true => wins 1
  | false, false => suspect 2

def cfgAuditRate (s : State) : Nat := objGet s 0x0C0004 1 2000

/-- MIRROR_AUDIT_BLOCK (R288); the operands say whether each copy is read without an uncorrectable error. -/
def mirrorAuditBlock (h b : Nat) (primaryReads mirrorReads : Bool) (s : State) : State :=
  match regionAt s h with
  | some r =>
    if !r.mirrored || r.blocks ≤ b || r.state = .initialising || cfgAuditRate s = 0 || lockHeld s h b
        || !r.hasCopy b 0 || !r.hasCopy b 1 || !dieUp s (r.dieOf b) then s
    else compareCopies h r b (primaryReads && copyValid s h r b 0) (mirrorReads && copyValid s h r b 1) s
  | none => s

def execMirrorAuditBlock (handle block : Nat) (primaryReads mirrorReads : Bool) (s : State) :
    Host.Outcome State Fault Refusal :=
  .next (if clocksRun s then mirrorAuditBlock handle block primaryReads mirrorReads s else s)

/-- MIRROR_RESOLVE (R290). -/
def mirrorResolve (h b src : Nat) (s : State) : State :=
  if !handleOk h || 1 < src then regionResult h rgBadValue 0 s else
  match regionAt s h with
  | none => regionResult h rgNotFound 0 s
  | some r =>
    let both := r.hasCopy b 0 && r.hasCopy b 1
    if !r.mirrored || (r.state = .unprotected && !both && src ≠ 0) then regionResult h rgBadValue 0 s
    else if r.blocks ≤ b || !(r.hasCopy b 0 || r.hasCopy b 1) then regionResult h rgNotFound 0 s
    else if lockHeld s h b then regionResult h rgBusy 0 s
    else if both then
      let seq := max (getMeta s h b 0).seq (getMeta s h b 1).seq + 1
      let m : Meta := ⟨seq, blockCrc (copyBytes s r b src), false, 0⟩
      regionResult h rgDone 0 (setMeta h b src m (copyOver h r b src m s))
    else
      let c := r.mainCopy b
      regionResult h rgDone 0 (setMeta h b c ⟨(getMeta s h b c).seq, blockCrc (copyBytes s r b c), false, 0⟩ s)

def execMirrorResolve (role : Role) (handle : BitVec 16) (block : Word) (source : Byte) (s : State) :
    Host.Outcome State Fault Refusal :=
  .next (guardWrite role 0x0C0005 1 (mirrorResolve handle.toNat block.toNat source.toNat) s)

/-! ### Export (R292, R293) -/

/-- EXPORT_START. A region that is still being cleared answers BUSY, so that nothing of a former owner leaves (R269, R295; the status
is the model's, log 60). -/
def exportStart (h first n dest cls : Nat) (s : State) : State :=
  let done (st : Nat) (s : State) : State := regionResult h st 0 (s.onResident fun x => { x with exportStatus := st })
  if !handleOk h || 7 < cls then done rgBadValue s
  else match regionAt s h with
  | none => done rgNotFound s
  | some r =>
    if r.blocks < first + n then done rgNotFound s
    else if s.resident.exportRun.isSome || r.state = .initialising then done rgBusy s
    else done rgDone (s.onResident fun x => { x with
      exportRun := if n = 0 then none else some (h, first, n, dest, cls)
      exportNext := .empty first
      exportSent := 0
      exportSuspect := 0 })

def execExportStart (role : Role) (handle : BitVec 16) (first count : Word) (dest : BitVec 16) (cls : Byte) (s : State) :
    Host.Outcome State Fault Refusal :=
  .next (guardWrite role 0x0C0006 1 (exportStart handle.toNat first.toNat count.toNat dest.toNat cls.toNat) s)

/-- The first block from `b` on, of `n`, whose copy in use a die holds. -/
def nextOn (r : Region) (die : Nat) : Nat → Nat → Option Nat
  | 0, _ => none
  | n + 1, b => if r.copyDie b (r.mainCopy b) = die && r.hasCopy b (r.mainCopy b) then some b else nextOn r die n (b + 1)

/-- The parts of a block. -/
def exportParts (h : Nat) (r : Region) (b flags seq crc : Nat) (d : Bytes) : List BlockPart :=
  let n := ceilDiv d.length 8192
  (upTo n).map fun i =>
    ⟨h, flags + (if r.mirrored then 2 else 0) + (if i + 1 = n then 4 else 0), b, 128 * i, seq, crc, slice d (8192 * i) 8192⟩

/-- R292: the Epolong datagram of one part. -/
def exportDatagram (s : State) (cls : Nat) (p : BlockPart) : Bytes :=
  let body := partBody p
  beBytes 1 0x10 ++ beBytes 1 (cls * 32) ++ beBytes 2 0 ++ beBytes 2 (cfgDevIndex s) ++ beBytes 2 body.length ++ beBytes 8 0 ++ body

/-- One word as an export reads it: of a MIRRORED block under R289, and whether an error was met before or stays in it. -/
def exportWord (h : Nat) (r : Region) (b : Nat) (badWord : Option Nat) (x : Bool × State) (w : Nat) : Bool × State :=
  let c := r.mainCopy b
  let p : WordAt := ⟨r.addr b c + 64 * w, some (h, b, 64 * w), c⟩
  match (if badWord == some w then fallback p x.2 else readWord p x.2) with
  | (some _, s) => (x.1, s)
  | (none, s) => (true, s)

/-- A block as an export reads it, and whether an uncorrectable error stays in it (R289, R292). EXPORT_ECC is counted for
SINGLE blocks; a MIRRORED block with a word that R289 cannot serve goes out with SUSPECT set (DESIGN CHOICE, log 164). -/
def exportRead (h : Nat) (r : Region) (b : Nat) (badWord : Option Nat) (s : State) : Bytes × Bool × State :=
  let c := r.mainCopy b
  if badWord.isNone && !memBad s (r.addr b c) r.blockBytes then (copyBytes s r b c, false, s)
  else
    let (ecc, s) := (upTo (r.blockBytes / 64)).foldl (exportWord h r b badWord) (false, s)
    (copyBytes s r b c, ecc, if ecc && !r.mirrored then count (r.copyDie b c) 0x7004 0 1 s else s)

/-- Whether no die has a block of the range left. -/
def exportOver (s : State) : Bool := match s.resident.exportRun with
  | none => true
  | some (h, first, n, _, _) => match regionAt s h with
    | none => true
    | some r => (diesUp s).all fun d => (nextOn r d (first + n - s.resident.exportNext.get d) (s.resident.exportNext.get d)).isNone

/-- EXPORT_BLOCK (R292): a die sends its next block, under the block's update lock. `badWord` is a word of it that cannot be
read, beside those the memory marks already. -/
def exportBlock (die : Nat) (badWord : Option Nat) (s : State) : State :=
  match s.resident.exportRun with
  | none => s
  | some (h, first, n, dest, cls) =>
    match regionAt s h with
    | none => s
    | some r =>
      let from_ := s.resident.exportNext.get die
      let s := match nextOn r die (first + n - from_) from_ with
        | none => s
        | some b =>
          if lockHeld s h b then s
          else
            let (d, ecc, s) := exportRead h r b badWord s
            let suspect := ecc || isSuspect s h b
            let seq := if r.mirrored then (getMeta s h b (r.mainCopy b)).seq else 0
            let s := (exportParts h r b (if suspect then 1 else 0) seq (blockCrc d).toNat d).foldl (fun s p =>
              (sendDatagram die cls (0xC000 + b % 2 ^ 14) [dest] (exportDatagram s cls p) s).2) s
            s.onResident fun x => { x with
              exportNext := x.exportNext.set die (b + 1)
              exportSent := x.exportSent + 1
              exportSuspect := x.exportSuspect + (if suspect then 1 else 0) }
      if exportOver s then s.onResident fun x => { x with exportRun := none } else s

def execExportBlock (die : DieIx) (badWord : Option Nat) (s : State) : Host.Outcome State Fault Refusal :=
  .next (if dieUp s die && clocksRun s then exportBlock die badWord s else s)

/-! ### Import (R294) -/

/-- IMPORT_OPEN; a region that the device is still clearing or checking answers BUSY (log 60). -/
def importOpen (h : Nat) (s : State) : State :=
  if !handleOk h then regionResult h rgBadValue 0 s
  else match regionAt s h with
  | none => regionResult h rgNotFound 0 s
  | some r =>
    if regionMoored s h || s.resident.exportRun.isSome || s.resident.importRun.isSome
        || r.state = .initialising || r.state = .takeover then regionResult h rgBusy 0 s
    else regionResult h rgDone 0 ((onRegion h (fun r => { r with state := .importing }) s).onResident fun x => { x with
      importRun := some h
      importWords := .empty []
      importHandle := h
      importBlocks := 0
      importDrop := 0
      importLeft := 0 })

def execImportOpen (role : Role) (handle : BitVec 16) (s : State) : Host.Outcome State Fault Refusal :=
  .next (guardWrite role 0x0C0007 1 (importOpen handle.toNat) s)

/-- IMPORT_CLOSE. -/
def execImportClose (role : Role) (handle : BitVec 16) (s : State) : Host.Outcome State Fault Refusal :=
  .next (guardWrite role 0x0C0007 2 (fun s =>
    if s.resident.importRun == some handle.toNat then answer stDone (importClose s) else answer stNotFound s) s)

/-! ### Die loss and headless operation (R296, R297) -/

/-- REGION_TAKEOVER (R296): what the loss of a die does to one region. One that is still being cleared (R273) finishes
that first (DESIGN CHOICE, log 162). -/
def regionLoses (d h : Nat) (s : State) : State :=
  match regionAt s h with
  | none => s
  | some r =>
    let touched := (r.dieMask.getLsbD d && r.countOn d ≠ 0) || (r.mirrored && r.dieMask.getLsbD (partner d))
    if !touched then s
    else
      let mine (k : Nat) : Bool := k / 2 ^ 32 == h &&
        (r.dieOf (k % 2 ^ 32) == d || (r.mirrored && partner (r.dieOf (k % 2 ^ 32)) == d))
      let s := onRegion h (fun r => { r with
        lost := r.lost ||| BitVec.ofNat 8 (2 ^ d)
        lastLost := d
        unchecked := r.unchecked ||| BitVec.ofNat 8 (2 ^ d)
        state := if !r.mirrored then .broken else if r.state = .initialising then .initialising else .takeover }) s
      s.onResident fun x => { x with
        unacked := x.unacked.erase mine
        mirrorIn := x.mirrorIn.erase mine }

/-- Every region at the loss of a die; what was on its way to the die, or from it to its partner, is gone. -/
def regionsLose (d : Nat) (s : State) : State :=
  let s := s.onResident fun x => { x with toMirror := (x.toMirror.set d []).set (partner d) [] }
  (s.resident.regions.cells.map (·.1)).foldl (fun s h => regionLoses d h s) s

/-- One block that a takeover checks: a mirror copy whose primary the loss has taken. -/
def takeoverBlock (h : Nat) (s : State) (b : Nat) : State :=
  match regionAt s h with
  | some r =>
    if r.hasCopy b 0 || !r.hasCopy b 1 || !r.unchecked.getLsbD (r.dieOf b) then s
    else if copyValid s h r b 1 then setMeta h b 1 { getMeta s h b 1 with suspect := false, cause := 0 } s
    else markSuspect h b 3 s
  | none => s

/-- TAKEOVER_COMPLETE (R296). -/
def takeoverComplete (h : Nat) (s : State) : State :=
  match regionAt s h with
  | some r =>
    if r.state ≠ .takeover then s
    else
      let s := (upTo r.blocks).foldl (takeoverBlock h) s
      raise 0x0C02 0 (unitOf 15 0 0) (args32 [(h : Int), (r.lastLost : Int)])
        (onRegion h (fun r => { r with state := .unprotected, unchecked := 0 }) s)
  | none => s

def execTakeoverComplete (handle : Nat) (s : State) : Host.Outcome State Fault Refusal :=
  .next (if clocksRun s then takeoverComplete handle s else s)

/-- R297: entry to headless operation. -/
def residentHeadless (s : State) : State := importClose (s.onResident fun x => { x with exportRun := none })

end Sys2Proof.Machine
end

