-- ==== Sys2Proof/Machine/Loss.lean ====
section
/-! DEFINITION. Dies that are lost, the keeper die's loss and headless operation, the halt causes, and the causes of degraded
service (01 R18, R19, R28 to R35; 15 R456, R458, R459, R463; 14 R440; 18 R539). -/

namespace Sys2Proof.Machine

/-- The device enters HALTED (15 R463). The first cause stays. -/
def halt (cause : Nat) (s : State) : State :=
  if s.start.state = .halted then s else s.onStart fun x => { x with state := .halted, haltCause := cause }

/-- The enable latches of a die clear, and the modules that no latch enables go dark (R18). A module in fault stays a cause of
DEGRADED_CAUSES until it is lit (15 R459). -/
def clearLatches (d : Nat) (s : State) : State :=
  let s := s.onStart fun x => { x with
    elsE := x.elsE &&& ~~~(BitVec.ofNat 16 (3 * 2 ^ (2 * d)))
    elsI := x.elsI &&& ~~~(BitVec.ofNat 8 (2 ^ d)) }
  [2 * d, 2 * d + 1, 16 + d / 2].foldl (fun s m =>
    if !elsEnabled s m && ((elsOf s m).state = 2 || (elsOf s m).state = 3) then onEls m (fun e => { e with state := 1, spare := 0xFF, migrating := none }) s
    else s) s

/-- What stood on a lost die, or was on its way to it, is gone: frames, contexts, learn records, timed frames. Every cell that a
shepherd had granted to the die is settled (04 R120). -/
def clearDieState (d : Nat) (s : State) : State :=
  let s := switchDieLost d (portsDark (fun p => portDie p == d) (settleLost d s))
  let s := tablesDieLost d (contextsLost d s)
  s.onRegs fun x => { x with timed := x.timed.set d [] }

/-- The mark has reached every die in service. -/
def serviceReached (s : State) : State :=
  let s := s.onStart fun x => { x with
    serviceEntered := true
    state := if x.causes = 0 then .service else .degraded }
  let s := raise 0x0002 2 unitDevice (args32 [(s.start.causes.toNat : Int)]) s
  if s.keeper.minoritySent then s
  else
    let s := s.keeper.minority.foldl (fun s (f : Nat) => raise 0x0101 1 unitKeeper (args32 [(f : Int)]) s) s
    s.onKeeper fun k => { k with minoritySent := true }

/-- R458: the device enters service once every die in service holds the mark. -/
def serviceCheck (s : State) : State :=
  if s.start.serviceAsked && !s.start.serviceEntered && isUp s && !s.start.darkHold
      && !(diesUp s).isEmpty && (diesUp s).all s.start.serviceMark.getLsbD then serviceReached s
  else s

/-- 14 R434: the firmware staging buffer goes with its die; the next die's holds nothing yet. A commit that runs ends with what it
has read (DESIGN CHOICE, log 97). -/
def stagingLost (s : State) : State :=
  s.onKeeper fun k => { k with stageLen := if k.fwResult = 0x0A then k.stageLen else 0 }

/-- DIE_LOST (R32): the die is held in reset, its ports go dark, its units leave service before the event is sent. -/
def loseDie (d cause : Nat) (s : State) : State :=
  if !dieUp s d then s else
  -- 16 R472, 14 R434: the lowest-numbered die in service holds reassembly and the staging buffer
  let s := if (diesUp s).head? = some d then stagingLost (sessionsLost s) else s
  let s := clearDie d (clearLatches d s)
  let s := s.onStart fun x => { x with heldDies := x.heldDies ||| BitVec.ofNat 8 (2 ^ d) }
  let s := regionsLose d (expressDieLost d (dieDark d (clearDieState d s)))
  let s := permanentCauses (unitLost d 0 cause s)
  if (diesUp s).isEmpty then halt 4 s else serviceCheck (meshCauses s)

/-- 18 R539: dies of the A part whose every tile is out of service. -/
def tilelessDies (s : State) : List Nat :=
  if isS s then [] else (diesUp s).filter fun d => (upTo 8).all fun t => !tileUp s d t

/-- 18 R539: such a die reports a fault and is lost with cause 2. -/
def loseTileless (s : State) : State := (tilelessDies s).foldl (fun s d => loseDie d 2 s) s

/-- R19: whether no heartbeat of a die has been heard for 1 ms. -/
def heartbeatMissing (s : State) (d : Nat) : Bool := s.start.heartbeat.get d + 1000000 ≤ wallNs s

/-- DIE_HEARTBEAT. -/
def execDieHeartbeat (die : AnyDie) (s : State) : Host.Outcome State Fault Refusal :=
  .next (if clocksRun s && (if die.val = 8 then !s.start.keeperLost else dieUp s die) then
      s.onStart fun x => { x with heartbeat := x.heartbeat.set die.val (wallNs s) }
    else s)

def execDieLost (die : DieIx) (fault : Bool) (s : State) : Host.Outcome State Fault Refusal :=
  .next (if clocksRun s && (fault || heartbeatMissing s die) then loseDie die (if fault then 2 else 1) s else s)

/-- HEADLESS_ENTRY (R28, R29). -/
def headlessEntry (s : State) : State :=
  let s := s.onStart fun x => { x with headless := true }
  residentHeadless (expressHeadless (loseTileless (modesToHardware s)))

/-- R31: the enable latches clear, the ports stay dark and the device is HALTED (15 R463). -/
def darkPorts (s : State) : State :=
  let s := portsDark (fun _ => true) ((upTo 8).foldl (fun s d => dieDark d (clearLatches d s)) s)
  let s := (upTo 32).foldl (fun s n => portDown n s) s
  let s := s.onKeeper fun k => { k with bootCause := 0x0E }
  halt 3 (s.onStart fun x => { x with darkHold := true })

/-- R35: sector dies whose heartbeats are missing too are lost first. -/
def silentDies (s : State) : State :=
  ((diesUp s).filter (heartbeatMissing s)).foldl (fun s d => loseDie d 1 s) s

/-- KEEPER_LOST (R28, R31, 15 R458): sector dies declared lost in the same 1 ms go first (R35); the dies then exchange their
records of the service mark, which on every die makes the device enter service (15 R458). The keeper die reports nothing of it. -/
def keeperLoss (s : State) : State :=
  if s.start.keeperLost then s else
  let s := { silentDies s with bop := s.bop }
  let marked := (diesUp s).any s.start.serviceMark.getLsbD
  let s := s.onStart fun x => { x with
    keeperLost := true
    keeperStatus := 2
    serviceMark := if marked then x.sectorDies else x.serviceMark }
  let s := s.onKeeper fun k => { k with coresRun := false }
  if s.start.state = .halted then s else if marked then headlessEntry (serviceCheck s) else darkPorts s

/-- Whether the device has left reset and still runs. -/
def started (s : State) : Bool := clocksRun s && s.start.state != .halted

def execKeeperLost (s : State) : Host.Outcome State Fault Refusal :=
  .next (if started s && heartbeatMissing s 8 then keeperLoss s else s)

/-- KEEPER_WATCHDOG_EXPIRE (14 R440): a core has not kicked the watchdog for 250 ms. -/
def execKeeperWatchdogExpire (_core : Fin 5) (s : State) : Host.Outcome State Fault Refusal :=
  .next (if started s && s.keeper.coresRun then keeperLoss s else s)

/-- The sessions whose request waits only for the commit mark of its settings. -/
def Session.inFlight (x : Session) : Bool := x.run.any fun r => r.left.isEmpty && !r.batch.isEmpty

/-- One session's batch at a die (R30): the mark arrives, and once it has reached every die in service the batch takes effect; or
it never will, and the batch is discarded. -/
def batchMark (d : Nat) (arrived : Bool) (x : Session) (s : State) : Session × State :=
  match x.run with
  | none => (x, s)
  | some r =>
    if !arrived then ({ x with run := some { r with batch := [], marked := [] } }, s)
    else
      let r := { r with marked := r.marked ++ [d] }
      if (diesUp s).all r.marked.contains then
        ({ x with run := some { r with batch := [], marked := [] } }, r.batch.foldl (fun s w => plainStore w.1 w.2.1 w.2.2 s) s)
      else ({ x with run := some r }, s)

/-- The commit mark of the first configuration batch on its way at a die. One configuration serves every die: a batch takes effect
when the last die in service has its mark (DESIGN CHOICE, log 170). -/
def configMark (d : Nat) (arrived : Bool) (s : State) : State :=
  let first (t : Tab (Option Session)) : Option (Nat × Session) :=
    (t.cells.find? fun c => c.2.any (·.inFlight)).bind fun c => c.2.map fun x => (c.1, x)
  if !arrived && !s.start.keeperLost then s else
  match first s.bop.sessions, first s.bop.domain with
  | some (k, x), _ =>
    let (x, s) := batchMark d arrived x s
    s.onBop fun b => { b with sessions := b.sessions.set k (some x) }
  | none, some (k, x) =>
    let (x, s) := batchMark d arrived x s
    s.onBop fun b => { b with domain := b.domain.set k (some x) }
  | none, none => s

/-- CONFIG_COMMIT_MARK (R30): a group record that the die has prepared goes first. -/
def execConfigCommitMark (die : DieIx) (arrived : Bool) (s : State) : Host.Outcome State Fault Refusal :=
  .next (if clocksRun s && dieUp s die then
      if s.coll.prepared.any fun p => !s.coll.marked.contains (p.1, die.val) then commitMark die arrived s
      else configMark die arrived s
    else s)

/-! ### Degraded causes (15 R459) -/

/-- 15 R459, bit 5: a die in service runs its tiles slowly, or the bit is set and some junction still reads 100 °C or more. -/
def hotCause (s : State) : Bool :=
  ((diesUp s).any s.power.slowTiles.getLsbD) || (s.start.causes.getLsbD 5 && anyWarm s)

/-- Whether the condition of a bit holds. -/
def causeHolds (s : State) (b : Nat) : Bool :=
  let links := (diesUp s).flatMap fun a => ((diesUp s).filter (· != a)).map fun c => channelsWork s a c
  match b with
  | 0 => s.start.sectorDies != 0xFF
  | 1 => lostPackages s
  | 2 => lostTiles s
  | 3 => links.any (· < 80)
  | 4 => (upTo 20).any fun m => (elsOf s m).state == 4 || (elsEnabled s m && (elsOf s m).state ≤ 1)
  | 5 => hotCause s
  | 6 => s.power.holdover
  | _ => links.any (· < 74)

/-- DEGRADED_CAUSE_CHANGE: a cause arises or clears; permanent causes never clear. -/
def execDegradedCauseChange (bit : Fin 8) (holds : Bool) (s : State) : Host.Outcome State Fault Refusal :=
  .next (if clocksRun s && causeHolds s bit == holds && (holds || 3 ≤ bit.val) then setCause bit holds s else s)

end Sys2Proof.Machine
end

