-- ==== Sys2Proof/Machine/Power.lean ====
section
/-! DEFINITION. Power, reset, freeze and trips, reference clocks, sensors and snapshots (13 R406 to R425; 17 R511, R512; 18
R546 to R548; 15 R448, R461). -/

namespace Sys2Proof.Machine

/-! ### Reset (R407, R410, R421, 15 R461) -/

/-- Keys of memory that a loss of power leaves: the QSPI flash. -/
def isFlash (a : Nat) : Bool := a / 2 ^ 60 == 8

/-- R461: what stays of a state across RESET: fuses, the log ring in keeper SRAM, the freeze record, LAST_RESET_CAUSE, the
pins and sensors; memory contents stay until they are cleared (08 R295). The model's own fields run on. -/
def resetTo (st : DevState) (s : State) : State :=
  { State.reset with
    power := { Power.reset with
      vinMv := s.power.vinMv
      iinMa := s.power.iinMa
      vinLowSent := s.power.vinLowSent
      rangeLeft := s.power.rangeLeft
      resetLow := s.power.resetLow
      bootSel := s.power.bootSel
      onAt := s.power.onAt
      refA := s.power.refA
      refB := s.power.refB
      selected := s.power.selected
      selB := s.power.selB
      holdover := s.power.holdover
      trip := s.power.trip
      resetCause := s.power.resetCause
      tj := s.power.tj
      base := s.power.base }
    time := { Time.reset with wall4 := s.time.wall4 }
    start := { Start.reset with state := st }
    keeper := { Keeper.reset with
      fuses := s.keeper.fuses
      log := s.keeper.log }
    ras := { Ras.reset with
      frz := s.ras.frz
      frzJtag := s.ras.frzJtag }
    mem := s.mem
    out := s.out
    free := s.free
    pending := s.pending }

/-- What a loss of power takes besides (R407, 14 R444, 18 R548). -/
def powerDown (s : State) : State :=
  let s := resetTo .off s
  { s with mem := s.mem.filter fun c => isFlash c.1 }
    |>.onKeeper (fun k => { k with log := [] })
    |>.onRas (fun _ => Ras.reset)
    |>.onPower (fun p => { p with
      trip := false
      selected := false
      selB := false
      holdover := false })

/-- The clock that power-on selects: the default of REFCLK_PREFER, A, when present (R415). -/
def selectClock (p : Power) : Power := { p with selected := p.refA || p.refB, selB := !p.refA && p.refB }

/-- POWER_ON (R406, R410): VSENSE lies between the turn-on threshold and the overvoltage restart level. -/
def powerOn (v : Nat) (a b : Bool) (s : State) : State :=
  if s.start.state ≠ .off || v < 39000 || 48500 ≤ v then s
  else
    let s := s.onStart fun x => { x with state := .reset }
    s.onPower fun p => selectClock { p with
      vinMv := v
      vinLowSent := false
      onAt := wallNs s
      refA := a
      refB := b
      resetCause := if p.rangeLeft then 5 else 1
      rangeLeft := false }

def execPowerOn (vsenseMv : Nat) (refA refB : Bool) (s : State) : Host.Outcome State Fault Refusal :=
  .next (powerOn vsenseMv refA refB s)

/-- POWER_OFF (R407): at the turn-off threshold or the overvoltage turn-off. VSENSE at 0 is a loss of power, after which
LAST_RESET_CAUSE reads power-on (log 70). -/
def execPowerOff (vsenseMv : Nat) (s : State) : Host.Outcome State Fault Refusal :=
  .next (if s.start.state ≠ .off && (vsenseMv ≤ 37500 || 50000 ≤ vsenseMv) then
      (powerDown s).onPower fun p => { p with
        vinMv := vsenseMv
        rangeLeft := vsenseMv != 0 }
    else s)

/-- VIN_LOW (R407): VSENSE has stayed below 40.0 V for 10 ms. -/
def execVinLow (vsenseMv : Nat) (s : State) : Host.Outcome State Fault Refusal :=
  .next (if clocksRun s && 37500 < vsenseMv && vsenseMv < 40000 && !s.power.vinLowSent then
      raise 0x0201 1 unitDevice (args32 [(vsenseMv : Int)]) (s.onPower fun p => { p with
        vinMv := vsenseMv
        vinLowSent := true })
    else s)

/-- R421: whether every sensor reads below the limits at which a trip may clear. -/
def sensorsCool (s : State) : Bool :=
  s.power.tj.dflt < 1050 && s.power.base.dflt < 800
    && s.power.tj.cells.all (fun c => c.2 < 1050) && s.power.base.cells.all fun c => c.2 < 800

/-- RESET_ASSERT (R410, R421): RESET_N is valid low. A latched trip ignores it until the sensors are cool; the cause of a trip,
or of the power-on that holds the device, stays. -/
def resetAssert (s : State) : State :=
  let low (s : State) : State := s.onPower fun p => { p with resetLow := true }
  if s.start.state = .off then low s
  else if s.power.trip then
    if sensorsCool s then low (s.onPower fun p => { p with trip := false }) else s
  else if s.start.state = .reset then low s
  else low ((resetTo .reset s).onPower fun p => { p with resetCause := 2 })

def execResetAssert (s : State) : Host.Outcome State Fault Refusal := .next (resetAssert s)

/-- Whether the device leaves RESET (R410, R415): RESET_N is valid high, no trip is latched, a clock is selected and present, and
10 ms have passed since VSENSE crossed the turn-on threshold. -/
def mayLeaveReset (s : State) : Bool :=
  s.start.state == .reset && !s.power.resetLow && !s.power.trip && s.power.selected && (s.power.refA || s.power.refB)
    && s.power.onAt + 10000000 ≤ wallNs s

/-- The device leaves RESET for FUSE_LOAD: the latch is armed (R411), BOOT_SEL is sampled (R413), the queue clocks start at zero
(03 R99). -/
def leaveReset (s : State) : State :=
  let s := resetTo .fuseLoad s
  let s := s.onPower fun p => { p with
    armed := true
    bootPins := p.bootSel }
  s.onStart fun x => { x with
    causes := if s.power.holdover then 0x40 else 0
    enteredAt := wallNs s
    entryTime := x.entryTime.set 2 (BitVec.ofNat 32 (tmuNs s))
    heartbeat := (upTo 9).foldl (fun t d => t.set d (wallNs s)) x.heartbeat }

/-- RESET_RELEASE (R410): RESET_N is valid high. Where the device may not leave RESET yet, it leaves on the first tick on which it
may. -/
def resetRelease (sel : Nat) (s : State) : State :=
  let s := s.onPower fun p => { p with resetLow := false, bootSel := sel }
  if mayLeaveReset s then leaveReset s else s

def execResetRelease (bootSel : Fin 4) (s : State) : Host.Outcome State Fault Refusal := .next (resetRelease bootSel s)

/-! ### The freeze latch (R411, R412; 18 R546 to R548) -/

/-- The islands of a die, as rows of the table of 01 R21. -/
def islandsOf (s : State) (d : Nat) : List Nat :=
  if d = 8 then [3, 4, 5, 6] else if isS s then [0, 2, 4, 5, 6] else [0, 1, 2, 4, 5, 6]

/-- One die's freeze record; the cycle counts are the device's own (log 71). -/
def freezeRecord (cause unit d : Nat) (s : State) : State :=
  let put (w v : Nat) (s : State) : State := s.onRas fun x => { x with frz := x.frz.set (d * 64 + w) (BitVec.ofNat 32 v) }
  let s := put 0 (if d = 8 then tmuNs s else folNs s d) (put 1 cause (put 2 (if d = 8 then unit else 0) s))
  (islandsOf s d).foldl (fun s i =>
    let (lo, s) := draw s
    let (hi, s) := draw s
    put (16 + 2 * i) lo (put (17 + 2 * i) hi s)) s

/-- FREEZE_LATCH_SET. -/
def freezeLatch (cause unit : Nat) (s : State) : State :=
  if !s.power.armed || s.power.frozen || s.start.state = .off || s.start.state = .reset then s
  else
    let s := gatesDark s
    let s := s.onStart fun x => { x with
      elsE := 0
      elsI := 0 }
    let s := s.onRas fun x => { x with frz := .empty 0 }
    let s := (diesUp s ++ [8]).foldl (fun s d => freezeRecord cause unit d s) s
    (s.onPower fun p => { p with frozen := true }).onStart fun x => { x with state := .frozen }

def execFreezeNAssert (s : State) : Host.Outcome State Fault Refusal := .next (freezeLatch 1 0 s)

/-- FREEZE_NOW (18 R545, R546). -/
def execFreezeNow (role : Role) (_value : Byte) (s : State) : Host.Outcome State Fault Refusal :=
  .next (guardWrite role 0x10F001 6 (fun s => freezeLatch 2 0 (answer stDone s)) s)

/-- FREEZE_ON_EVENT (18 R546): an event that FREEZE_ON selects, on the die that detects it. -/
def execFreezeOnEvent (bit_ : Fin 5) (die : AnyDie) (unit : Word) (s : State) : Host.Outcome State Fault Refusal :=
  .next (
    if bit (cfgFreezeOn s) bit_ && clocksRun s && (if die.val = 8 then !s.start.keeperLost else dieUp s die) then
      freezeLatch (0x10 + bit_) unit.toNat s
    else s)

/-! ### Trips (R408, R421) -/

/-- The limits of the trips: 115 degrees C of a junction, 90 of the base layer, 72 A over 1 ms; readings in 0.1 degrees C and
mA. -/
def tripLimit (kind : TripKind) (reading : Int) : Bool :=
  match kind with
  | .junction => decide (1150 ≤ reading)
  | .baseLayer => decide (900 ≤ reading)
  | .current => decide (72000 < reading)

/-- R421: the sensors that exist: 16 junction sensors on a sector die and 4 on the keeper die; 16 port slices on a sector die; one
converter input. -/
def tripSensor (kind : TripKind) (die sensor : Nat) : Bool :=
  match kind with
  | .junction => decide (die < 8) || decide (sensor < 4)
  | .baseLayer => decide (die < 8)
  | .current => true

/-- HARDWARE_TRIP: the sensor's reading passes the limit. -/
def hardwareTrip (kind : TripKind) (die sensor : Nat) (reading : Int) (s : State) : State :=
  if !tripSensor kind die sensor || !tripLimit kind reading || s.power.trip || s.start.state = .off then s
  else
    let s := resetTo .reset s
    s.onPower fun p => { p with
      trip := true
      resetCause := match kind with
        | .current => 4
        | _ => 3
      tj := match kind with
        | .junction => p.tj.set (die * 16 + sensor) reading
        | _ => p.tj
      base := match kind with
        | .baseLayer => p.base.set (die * 16 + sensor) reading
        | _ => p.base
      iinMa := match kind with
        | .current => reading.toNat
        | _ => p.iinMa }

def execHardwareTrip (kind : TripKind) (die : AnyDie) (sensor : Fin 16) (reading : Int) (s : State) :
    Host.Outcome State Fault Refusal :=
  .next (hardwareTrip kind die.val sensor reading s)

/-! ### Reference clocks (R415) -/

/-- REFCLK_SWITCH, with the clock now selected. -/
def clockMoved (s : State) : State :=
  raise 0x0206 1 unitDevice (args32 [if s.power.selB then 1 else 0]) s

/-- REFCLK_LOSS: a clock stops being present. -/
def refclkLoss (b : Bool) (s : State) : State :=
  let s := s.onPower fun p => if b then { p with refB := false } else { p with refA := false }
  if s.start.state = .off || !s.power.selected || s.power.selB ≠ b || s.power.holdover then s
  else if s.start.state = .reset then s.onPower selectClock
  else if (if b then s.power.refA else s.power.refB) then clockMoved (s.onPower fun p => { p with selB := !b })
  else setCause 6 true (raise 0x0207 0 unitDevice [] (s.onPower fun p => { p with holdover := true }))

def execRefclkLoss (clockB : Bool) (s : State) : Host.Outcome State Fault Refusal := .next (refclkLoss clockB s)

/-- REFCLK_RETURN: a clock becomes present again; the device on holdover takes it. -/
def refclkReturn (b : Bool) (s : State) : State :=
  let s := s.onPower fun p => if b then { p with refB := true } else { p with refA := true }
  if s.start.state = .off then s
  else if !s.power.selected then s.onPower selectClock
  else if s.power.holdover then
    setCause 6 false (clockMoved (s.onPower fun p => { p with
      holdover := false
      selB := b }))
  else s

def execRefclkReturn (clockB : Bool) (s : State) : Host.Outcome State Fault Refusal := .next (refclkReturn clockB s)

/-- REFCLK_PREFER: the write returns the device to the preferred clock while that clock is present. -/
def refclkPrefer (v : Nat) (s : State) : State :=
  if 1 < v then answer stBadValue s
  else
    let s := answer stDone (objSet 0x020005 2 v s)
    let present := if v = 1 then s.power.refB else s.power.refA
    if present && s.power.selB ≠ (v == 1) then s.onPower fun p => { p with selB := v == 1 } else s

def execRefclkPrefer (role : Role) (value : Nat) (s : State) : Host.Outcome State Fault Refusal :=
  .next (guardWrite role 0x020005 2 (refclkPrefer value) s)

/-! ### Sensors and snapshots (R422, R425; 17 R511, R512) -/

/-- A crossing noted in a bit per die: the event on the way up, the bit cleared below. -/
def crossing (d : Nat) (above : Bool) (seen : BitVec 8) : Bool × BitVec 8 :=
  let m : BitVec 8 := BitVec.ofNat 8 (2 ^ d)
  if above then (!seen.getLsbD d, seen ||| m) else (false, seen &&& ~~~m)

/-- THERMAL_WARN and THERMAL_CRITICAL (R422); bit 5 of DEGRADED_CAUSES clears once every junction reads below 100 °C (15 R459). -/
def junctionCheck (d : Nat) (s : State) : State :=
  let t := maxOf (tjOf s d)
  let (warn, w) := crossing d (cfgThermWarn s * 10 ≤ t) s.power.warned
  let s := s.onPower fun p => { p with warned := w }
  let s := if warn then raise 0x0202 1 (unitOf d 0 0) (args32 [t]) s else s
  if 1050 ≤ t && !s.power.slowTiles.getLsbD d then
    raise 0x0203 0 (unitOf d 0 0) (args32 [t])
      (setCause 5 true (s.onPower fun p => { p with slowTiles := p.slowTiles ||| BitVec.ofNat 8 (2 ^ d) }))
  else
    let s := if t < 1000 && s.power.slowTiles.getLsbD d then
        s.onPower fun p => { p with slowTiles := p.slowTiles &&& ~~~(BitVec.ofNat 8 (2 ^ d)) } else s
    if s.start.causes.getLsbD 5 && !hotCause s then setCause 5 false s else s

/-- BASE_HOT and BASE_COLD (R422, 15 R454): while MEM_TRAIN waits for the base layer, BASE_COLD is sent once. -/
def baseCheck (d : Nat) (s : State) : State :=
  let hi := maxOf (baseOf s d)
  let lo := minOf (baseOf s d)
  let (hot, h) := crossing d (cfgBaseWarn s * 10 ≤ hi) s.power.baseHot
  let s := s.onPower fun p => { p with baseHot := h }
  let s := if hot then raise 0x0204 1 (unitOf d 0 0) (args32 [hi]) s else s
  let waits := s.start.state == .memTrain && s.start.libraryDone && s.start.libraryAt + 60000000000 ≤ wallNs s
  let told := waits && s.power.baseCold != 0
  let (cold, c) := crossing d (lo < 250 && (isUp s || waits)) s.power.baseCold
  let s := s.onPower fun p => { p with baseCold := if told then p.baseCold else c }
  if cold && !told then raise 0x0205 1 (unitOf d 0 0) (args32 [lo]) s else s

/-- A word of a die's snapshot registers. -/
def snapPut (d w v : Nat) (s : State) : State :=
  s.onPower fun p => { p with snap := p.snap.set (d * 1024 + w) (BitVec.ofNat 32 v) }

/-- The copy of one refresh. -/
def snapCopy (d : Nat) (s : State) : State :=
  let s := snapPut d 0 ((s.power.snap.get (d * 1024)).toNat + 1) s
  let s := snapPut d 1 (if d = 8 then tmuNs s else folNs s d) s
  let s := snapPut d 2 0 s
  let s := ((tjOf s d).zipIdx).foldl (fun s x => snapPut d (0x100 + x.2) (unsigned 16 x.1) s) s
  let s := if d = 8 then snapPut d 0x121 s.power.iinMa (snapPut d 0x120 s.power.vinMv s)
    else ((baseOf s d).zipIdx).foldl (fun s x => snapPut d (0x110 + x.2) (unsigned 16 x.1) s) s
  s.onPower fun p => { p with snapAt := p.snapAt.set d (wallNs s) }

/-- SNAPSHOT_REFRESH: what a die's sensors read now; the copy, and the rules that act on temperatures, while its clocks
run. -/
def snapshotRefresh (d : Nat) (tj base : List Int) (vin iin : Nat) (s : State) : State :=
  let put (l : List Int) (n : Nat) (t : Tab Int) : Tab Int := ((l.take n).zipIdx).foldl (fun t x => t.set (d * 16 + x.2) x.1) t
  let s := s.onPower fun p => { p with
    tj := put tj (if d = 8 then 4 else 16) p.tj
    base := if d = 8 then p.base else put base 16 p.base
    vinMv := if d = 8 then vin else p.vinMv
    iinMa := if d = 8 then iin else p.iinMa
    vinLowSent := p.vinLowSent && (d != 8 || vin < 40000) }
  if !clocksRun s || (d = 8 && s.start.keeperLost) || (d ≠ 8 && !dieUp s d) then s
  else
    let s := snapCopy d s
    if d = 8 then s else baseCheck d (junctionCheck d s)

def execSnapshotRefresh (die : AnyDie) (tj base : List Int) (vinMv iinMa : Nat) (s : State) :
    Host.Outcome State Fault Refusal :=
  .next (snapshotRefresh die.val tj base vinMv iinMa s)

/-- SNAPSHOT_STALE (17 R512): no refresh for 5 ms. -/
def execSnapshotStale (die : AnyDie) (s : State) : Host.Outcome State Fault Refusal :=
  .next (if clocksRun s && s.power.snapAt.get die.val + 5000000 ≤ wallNs s then snapPut die.val 2 1 s else s)

end Sys2Proof.Machine
end

