-- ==== Sys2Proof/Machine/Startup.lean ====
section
/-! DEFINITION. The start-up states: fuses, boot ROM, the firmware image and its transfer from a host, memory training, library
images, optics, margin tests, link-up and admission to service (14 R426 to R438; 15 R447 to R460). -/

namespace Sys2Proof.Machine

/-- Entry to a start-up state (R449, R465). -/
def enterState (st : DevState) (s : State) : State :=
  s.onStart fun x => { x with
    state := st
    enteredAt := wallNs s
    entryTime := x.entryTime.set (stateCode st) (BitVec.ofNat 32 (tmuNs s)) }

/-- Whether a time has passed since entry to the present state. -/
def pastLimit (s : State) (ns : Nat) : Bool := s.start.enteredAt + ns < wallNs s

/-! ### Fuses (R426, R427) -/

/-- The vote of one field: its value and whether it is a minority field; none where all three copies differ. -/
def voteField (fuses : Tab Nat) (f : Nat) : Option (Nat × Bool) :=
  let a := fuses.get (4 * f)
  let b := fuses.get (4 * f + 1)
  let c := fuses.get (4 * f + 2)
  if a = b && b = c then some (a, false)
  else if a = b || a = c then some (a, true)
  else if b = c then some (b, true) else none

/-- Every field of R427 voted, in order. -/
def voteAll (fuses : Tab Nat) : Option (Tab Nat × List Nat) :=
  (upTo 90).foldl (fun acc f => match acc, voteField fuses f with
    | some (t, m), some (v, minor) => some (t.set f v, if minor then m ++ [f] else m)
    | _, _ => none) (some (.empty 0, []))

/-- The parts and repairs that the voted values give (00 R2, R3; 14 R427; 07 R263). -/
def fusesApply (s : State) : State :=
  let v := s.keeper.voted
  let sPart := v.get 0 == 2
  let mem : Nat := if sPart then 0x249249 else 0xFFFFFF
  let tilesOut := v.get 5
  let memOut := v.get 6
  let s := s.onStart fun x => { x with
    partCode := BitVec.ofNat 8 (v.get 0)
    stepping := BitVec.ofNat 8 (v.get 1)
    sectorDies := 0xFF
    keeperStatus := 1
    repairTiles := BitVec.ofNat 64 tilesOut
    repairMem := BitVec.ofNat 24 memOut
    aihornTiles := if sPart then 0 else ~~~(BitVec.ofNat 64 tilesOut)
    memPackages := BitVec.ofNat 32 mem &&& ~~~(BitVec.ofNat 32 (memOut % 2 ^ 24)) }
  s.onFabric fun x => { x with
    retired := (upTo 512).foldl (fun t i =>
      let pos := v.get 7 / 2 ^ (5 * i) % 32
      if pos = 31 || sPart then t else t.set i (pos + 1)) x.retired }

/-- 06 R208: every sector die's generator is seeded from its entropy source, whose numbers are free values. -/
def seedGens (s : State) : State := (upTo 8).foldl (fun s d =>
  let (v, s) := draw s
  setGen d (BitVec.ofNat 128 v) s) s

/-- FUSE_LOAD (R426, R449): `sensed` is false where a field cannot be sensed within the limit. -/
def fuseLoad (sensed : Bool) (s : State) : State :=
  if s.start.state ≠ .fuseLoad then s
  else match (if sensed && !pastLimit s 5000000 then voteAll s.keeper.fuses else none) with
  | none => halt 1 (s.onKeeper fun k => { k with bootCause := 0x0F })
  | some (t, m) =>
    loseTileless (enterState .romBoot (fusesApply (seedGens s |>.onKeeper fun k => { k with
      voted := t
      minority := m })))

def execFuseLoad (sensed : Bool) (s : State) : Host.Outcome State Fault Refusal := .next (fuseLoad sensed s)

/-! ### The boot source (R429) -/

def bootSel (s : State) : Nat := s.power.bootPins
def hostBootDisabled (s : State) : Bool := bit (bootPolicy s) 0
/-- R429: the device is to halt where the boot fails. -/
def failureHalts (s : State) : Bool := bootSel s == 0 || (bootSel s == 1 && hostBootDisabled s)

/-- A boot that ends in HALTED with a cause of R431. -/
def bootHalt (cause : Nat) (s : State) : State := halt 2 (s.onKeeper fun k => { k with bootCause := cause })

/-- The host transfer stands at its start. -/
def restartTransfer (s : State) : State := s.onKeeper fun k => { k with
  hostOwner := none
  hostOffset := 0 }

/-- ROM_BOOT (R429, R437, R444; 17 R502). -/
def romBoot (s : State) : State :=
  if s.start.state ≠ .romBoot then s
  else if pastLimit s 10000000 then bootHalt 0 s
  else
    let uses := (upTo 8).map fun n => BitVec.ofNat 8 (fuseUse s n)
    let s := measExtend 1 (sha256 ([BitVec.ofNat 8 (bootPolicy s), BitVec.ofNat 8 (jtagPolicy s)] ++ uses))
      (measExtend 0 Config.romDigest s)
    let s := if s.ras.frzJtag then (measEvent 4 s).onRas fun x => { x with frzJtag := false } else s
    let s := s.onKeeper fun k => { k with
      logPrev := k.log
      log := []
      logNext := 0 }
    if 2 ≤ bootSel s && hostBootDisabled s then bootHalt 8 s
    else
      let s := if 2 ≤ bootSel s then mpStart s else s
      let s := s.onKeeper fun k => { k with bootSource := if 2 ≤ bootSel s then 1 else 0 }
      enterState .fwVerify (restartTransfer s)

def execRomBoot (s : State) : Host.Outcome State Fault Refusal := .next (romBoot s)

/-! ### The firmware image (R430, R431) -/

/-- TOTAL_LEN of an image, and its two parts. -/
def fwTotal (b : Bytes) : Nat := leAt b 8 4
def fwBody (b : Bytes) : Bytes := b.take (fwTotal b - 7864)
def fwBlock (b : Bytes) : Bytes := slice b (fwTotal b - 7864) 7864

/-- R431, BAD_LAYOUT: lengths, ENTRY and reserved fields of an image of which `n` bytes were received. -/
def fwLayoutOk (b : Bytes) (n : Nat) : Bool :=
  let t := fwTotal b
  t % 4 == 0 && t ≤ 5242880 && 128 + 7864 ≤ t && n == t
    && beAt b 6 2 == 0 && byteAt b 15 == 0 && allZero (slice b 40 8) && allZero (slice b 80 48)
    && (upTo 5).all fun i =>
      let e := leAt b (20 + 4 * i) 4
      128 ≤ e && e < t - 7864 && e % 4 == 0

/-- R431 from NO_IMAGE onwards: the first check that fails, or OK. -/
def fwCheck (s : State) (b : Bytes) (n : Nat) : Nat :=
  if slice b 0 4 != [0x43, 0x51, 0x46, 0x57] || leAt b 4 2 != 1 then 0x01
  else if !fwLayoutOk b n then 0x02
  else if !bit (byteAt b 13) (if isS s then 1 else 0) || s.start.stepping.toNat < byteAt b 14 then 0x03
  else if sigAlgorithm (fwBlock b) != 1 || !keyUsable s (sigKey (fwBlock b)) || !bit (fuseUse s (sigKey (fwBlock b))) 0 then 0x04
  else if sha256 ((fwBody b).drop 128) != slice b 48 32 then 0x05
  else if !sigGood s (fwBody b) (fwBlock b) then 0x06
  else if byteAt b 12 < rollback s then 0x07
  else 0

/-- R431: the image at address 0 of the keeper SRAM, zeros behind it up to 5 MiB. -/
def romCopy (b : Bytes) (s : State) : State :=
  { s with mem := memClear s.mem (ksramAddr 0) (ksramAddr 5242880) }.putMem (ksramAddr 0) b

/-- R431, R436, R437: an image that passed every check starts the keeper cores. -/
def fwStart (b : Bytes) (s : State) : State :=
  let slot := sigKey (fwBlock b)
  let s := romCopy b s
  let s := measExtend 2 (sha256 [BitVec.ofNat 8 slot]) (measExtend 2 (slice b 48 32) s)
  let s := measExtend 3 (sha256 [BitVec.ofNat 8 s.keeper.bootSource, BitVec.ofNat 8 (bootSel s)]) s
  enterState .memTrain ((mpStart s).onKeeper fun k => { k with
    bootCause := 0
    fwVersion := BitVec.ofNat 32 (leAt b 16 4)
    fwSvn := byteAt b 12
    fwKeySlot := slot
    identityPub := (padTo 32 (Config.identityKey (k.voted.get 89))).take 32
    coresRun := true })

/-- The image in the flash: its header gives its length. -/
def flashImage (s : State) : Bytes :=
  let n := leNat (memBytes s.mem (flashAddr 8) 4)
  memBytes s.mem (flashAddr 0) (if 5242880 < n then 128 else max 128 n)

/-- A failure of the flash source (R429). The checks after FLASH_ERROR act on the copy of the image in the keeper SRAM (R431; what
a failed read leaves there is a DESIGN CHOICE, log 180). -/
def flashFails (cause : Nat) (s : State) : State :=
  let s := if cause = 0x09 then s else romCopy (flashImage s) s
  if failureHalts s then bootHalt cause s
  else restartTransfer ((mpStart s).onKeeper fun k => { k with
    bootCause := cause
    bootSource := 1 })

/-- FW_VERIFY of the flash source; `flashAnswers` is false where the flash does not answer or a read fails. -/
def fwVerify (flashAnswers : Bool) (s : State) : State :=
  if s.start.state ≠ .fwVerify || s.keeper.bootSource ≠ 0 then s
  else if !flashAnswers || pastLimit s 200000000 then flashFails 0x09 s
  else
    let b := flashImage s
    let c := fwCheck s b (fwTotal b)
    if c = 0 then fwStart b s else flashFails c s

def execFwVerify (flashAnswers : Bool) (s : State) : Host.Outcome State Fault Refusal := .next (fwVerify flashAnswers s)

/-! ### Transfer from a host (R432, R433) -/

/-- Whether the ROM waits for a transfer. -/
def transferOpen (s : State) : Bool := s.start.state == .fwVerify && s.keeper.bootSource == 1

/-- A message of R432. -/
def bootMessage (ty code off : Nat) (data : Bytes) : Bytes :=
  let head := [0x43, 0x51, 0x42, 0x54] ++ beBytes 1 ty ++ beBytes 1 code ++ beBytes 2 data.length ++ beBytes 4 off
  head ++ beBytes 4 (crc32cStd (head ++ data)) ++ data

/-- A valid message of a type: OFFSET and data. -/
def bootParse (ty : Nat) (m : Bytes) : Option (Nat × Bytes) :=
  let d := m.drop 16
  if 16 ≤ m.length && slice m 0 4 == [0x43, 0x51, 0x42, 0x54] && byteAt m 4 == ty && beAt m 6 2 == d.length
      && beAt m 12 4 == crc32cStd (m.take 12 ++ d) then some (beAt m 8 4, d) else none

/-- BOOT_REQUEST: every second, to ff02::1, on both ports as far as they are up. -/
def bootRequest (s : State) : State :=
  let due := match s.keeper.requestAt with
    | some t => t + 1000000000 ≤ wallNs s
    | none => true
  if !transferOpen s || !due then s
  else
    let d := beBytes 8 (serial s) ++ [s.start.partCode, s.start.stepping, BitVec.ofNat 8 (rollback s), BitVec.ofNat 8 (bootSel s)]
      ++ [0, 0, 0, 0]
    let m := bootMessage 1 0 0 d
    (upTo 2).foldl (fun s mp => if s.mgmt.mpUp.getLsbD mp then emitOut (.boot mp none m) s else s)
      (s.onKeeper fun k => { k with requestAt := some (wallNs s) })

def execBootRequest (s : State) : Host.Outcome State Fault Refusal := .next (bootRequest s)

/-- BOOT_DATA. -/
def bootData (mp host : Nat) (m : Bytes) (s : State) : State :=
  if !transferOpen s then s
  else match bootParse 2 m with
  | none => s
  | some (off, d) =>
    if d.length < 4 || 1024 < d.length || d.length % 4 ≠ 0 then s
    else
      let take (s : State) : State :=
        let k := s.keeper
        let s := s.onKeeper fun k => { k with hostLast := wallNs s }
        let s := if off = k.hostOffset then
            (s.putMem (ksramAddr off) (d.take (5242880 - off))).onKeeper fun k => { k with
              hostOffset := min 5242880 (off + d.length) }
          else s
        emitOut (.boot mp (some host) (bootMessage 3 0 s.keeper.hostOffset [])) s
      match s.keeper.hostOwner with
      | some o => if o = host then take s else emitOut (.boot mp (some host) (bootMessage 5 0x0A 0 [])) s
      | none => if off = 0 then take (s.onKeeper fun k => { k with
          hostOwner := some host
          hostOffset := 0 }) else s

def execBootData (mp : Fin 2) (host : Nat) (msg : Bytes) (s : State) : Host.Outcome State Fault Refusal :=
  .next (if transferOpen s then mpTake mp (bootData mp host msg) s else s)

/-- `n` bytes whose values the manual leaves open. -/
def freeBytes (n : Nat) (s : State) : Bytes × State :=
  ((upTo n).map fun i => BitVec.ofNat 8 (Config.freeValue (s.free + i)), { s with free := s.free + n })

/-- BOOT_FLASH_WRITE, FW_COMMIT: an image written to the flash; what a write that fails leaves there is open (log 72). -/
def flashWrite (b : Bytes) (good : Bool) (s : State) : State :=
  if good then s.putMem (flashAddr 0) b
  else
    let (x, s) := freeBytes b.length s
    s.putMem (flashAddr 0) x

/-- BOOT_END: R431 on the image received. -/
def bootEnd (mp host : Nat) (m : Bytes) (flashWriteGood : Bool) (s : State) : State :=
  if !transferOpen s || s.keeper.hostOwner ≠ some host then s
  else match bootParse 4 m with
  | none => s
  | some (total, _) =>
    let b := memBytes s.mem (ksramAddr 0) (min total s.keeper.hostOffset)
    let c := fwCheck s b (if s.keeper.hostOffset = total then total else 0)
    let s := romCopy b s
    let status (c : Nat) (s : State) : State := emitOut (.boot mp (some host) (bootMessage 5 c 0 [])) s
    if c ≠ 0 then status c (restartTransfer (s.onKeeper fun k => { k with bootCause := c }))
    else if bootSel s = 3 then
      status (if flashWriteGood then 0 else 0x09) (fwStart b (flashWrite b flashWriteGood s))
    else status 0 (fwStart b s)

def execBootEnd (mp : Fin 2) (host : Nat) (msg : Bytes) (flashWriteGood : Bool) (s : State) :
    Host.Outcome State Fault Refusal :=
  .next (if transferOpen s then mpTake mp (bootEnd mp host msg flashWriteGood) s else s)

/-- BOOT_OWNER_LAPSE: the owner has sent nothing for 10 s. -/
def execBootOwnerLapse (s : State) : Host.Outcome State Fault Refusal :=
  .next (if transferOpen s && s.keeper.hostOwner.isSome && s.keeper.hostLast + 10000000000 ≤ wallNs s then restartTransfer s else s)

/-! ### Memory training and library images (R452 to R454) -/

/-- A package leaves service (00 R5, R452). -/
def losePackage (n : Nat) (s : State) : State :=
  if !s.start.memPackages.getLsbD n then s
  else permanentCauses (unitLost (n / 3) n 3
    (s.onStart fun x => { x with memPackages := x.memPackages &&& ~~~(BitVec.ofNat 32 (2 ^ n)) }))

/-- R453, R456: a die that start-up takes out of service, with its cause in START_RECORD. -/
def removeDie (d unitCause recorded : Nat) (s : State) : State :=
  if !dieUp s d then s else loseDie d unitCause (s.onStart fun x => { x with removed := x.removed.set d recorded })

/-- MEM_TRAIN: a die has trained; `failing` are the channels that failed three times. The reservation is written zero. A die that
has taken more than 3 s leaves service (R449, R453). -/
def memTrain (d : Nat) (failing : List Nat) (s : State) : State :=
  if s.start.state ≠ .memTrain || !dieUp s d || s.start.trained.getLsbD d then s
  else if pastLimit s 3000000000 then removeDie d 3 1 s
  else
    let bad := (upTo 3).filter fun i => failing.any fun c => c / 8 == i
    let s := bad.foldl (fun s i => losePackage (3 * d + i) s) s
    if (packagesOf s d).isEmpty then removeDie d 3 1 s
    else
      let top := memTop s d
      let s := { s with mem := memClear s.mem (memAddr d (memLimit s d)) (memAddr d top) }
      s.onStart fun x => { x with trained := x.trained ||| BitVec.ofNat 8 (2 ^ d) }

def execMemTrain (die : DieIx) (failing : List (Fin 24)) (s : State) : Host.Outcome State Fault Refusal :=
  .next (memTrain die (failing.map (·.val)) s)

/-- MEM_TRAIN_TIMEOUT (R449, R453): 3 s without the end of training. -/
def execMemTrainTimeout (die : DieIx) (s : State) : Host.Outcome State Fault Refusal :=
  .next (if s.start.state = .memTrain && !s.start.trained.getLsbD die && s.start.enteredAt + 3000000000 ≤ wallNs s then
      removeDie die 3 1 s
    else s)

/-- R454: a tile in service whose cells have not all been tested since the start. -/
def untested (s : State) : Bool := s.start.aihornTiles &&& ~~~s.ras.tested != 0

/-- LIBRARY_LOAD (R454, 07 R257): after training and the self-tests of the start, the keeper makes the library images resident;
the S part has none. -/
def libraryLoad (s : State) : State :=
  if s.start.state ≠ .memTrain || s.start.libraryDone || untested s || (diesUp s).any (fun d => !s.start.trained.getLsbD d) then s
  else
    let s := if isS s then s else loadLibraries s
    s.onStart fun x => { x with
      libraryDone := true
      libraryAt := wallNs s }

def execLibraryLoad (s : State) : Host.Outcome State Fault Refusal := .next (libraryLoad s)

/-! ### Optics (R455, R456) -/

/-- OPTICS_CAL: every module that answers is enabled, once the rest is complete and the base layer is at 25 degrees C. -/
def opticsCal (answering : BitVec 20) (s : State) : State :=
  let warm := (diesUp s).all fun d => (baseOf s d).all (250 ≤ ·)
  if s.start.state ≠ .memTrain || !s.start.libraryDone || !warm || (diesUp s).any (fun d => !s.start.trained.getLsbD d) then s
  else
    let s := enterState .opticsCal s
    (upTo 20).foldl (fun s m =>
      if answering.getLsbD m then elsEnable m (onEls m (fun e => { e with state := 1 }) s)
      else raise 0x0401 0 (unitEls s m 0) (args32 [0]) (onEls m (fun e => { e with state := 0 }) s)) s

def execOpticsCal (answering : BitVec 20) (s : State) : Host.Outcome State Fault Refusal := .next (opticsCal answering s)

/-- The rings that a module feeds: the modulators of its ports, or both rings of the channels of its dies. -/
def ringsOf (s : State) (m : Nat) : List Nat :=
  if m < 16 then (upTo 16).flatMap fun i => (upTo 9).flatMap fun k => [txRingKey (16 * m + i) k]
  else [2 * (m - 16), 2 * (m - 16) + 1].flatMap fun a => ((diesUp s).filter (· != a)).flatMap fun b =>
    if dieUp s a then (upTo 88).flatMap fun c =>
      [2 * 2 ^ 20 + (a * 8 + b) * 128 + c, 3 * 2 ^ 20 + (a * 8 + b) * 128 + c] else []

/-- R455: no module is still coming up, and every ring fed by a lit module is LOCKED or in FAULT. -/
def ringsSettled (s : State) : Bool :=
  (upTo 20).all fun m => (elsOf s m).state != 2 && ((elsOf s m).state != 3 || (ringsOf s m).all fun k =>
    (ringOf s k).state == .locked || (ringOf s k).state == .fault)

/-- A mesh channel without light, or with a ring in FAULT, does not work (R464). -/
def channelDark (s : State) (a b c : Nat) : Bool :=
  let bad (k : Nat) : Bool := (ringOf s (k * 2 ^ 20 + (a * 8 + b) * 128 + c)).state == .fault
  (elsOf s (16 + a / 2)).state != 3 || bad 2 || bad 3

/-- The channels of an ordered pair at the end of OPTICS_CAL: those that do not work are out, free spares take their numbers, and
a pair of dies in service that is left with fewer than 80 is reported (03 R90). -/
def pairAtStart (a b : Nat) (s : State) : State :=
  let out := (upTo 88).filter (channelDark s a b)
  let s := out.foldl (fun s c => s.onOptics fun x => { x with
    channels := x.channels.set (channelKey a b c) (if c < 80 then 1 else 3) }) s
  meshDegraded a b ((out.filter (· < 80)).foldl (fun s c => takeSpare a b c s) s)

def darkChannels (s : State) : State :=
  (upTo 8).foldl (fun s a => ((upTo 8).filter (· != a)).foldl (fun s b => pairAtStart a b s) s) s

/-- Baselines at the end of OPTICS_CAL, where software has written none (R327, R455). -/
def takeBaselines (s : State) : State :=
  (upTo 20).foldl (fun s m => onEls m (fun e =>
    if e.state ≠ 3 then e else { e with baseline := (upTo 9).foldl (fun t k =>
      if e.written.get k then t else t.set k (some (e.power.get k))) e.baseline }) s) s

/-- R328: a line whose written baseline lies 2.0 dB or more above its reading gives its lanes to W8 before they train. -/
def assignSpare (m : Nat) (s : State) : State :=
  let e := elsOf s m
  let weak := (upTo 8).filter fun k => e.written.get k && 200 ≤ lineDrop s m k
  match weak with
  | [] => s
  | a :: r =>
    if e.state ≠ 3 || spareForbidden s m then s
    else
      let best := r.foldl (fun b x => if lineDrop s m b < lineDrop s m x then x else b) a
      let s := onEls m (fun e => { e with spare := best }) s
      (upTo 16).foldl (fun s i => onLane (16 * m + i) best (fun x => { x with txSlot := 9 }) s) s

/-- A ring that has begun to seek and has not locked. -/
def ringSeeks (r : Ring) : Bool := match r.state with
  | .seek | .acquire | .verify => true
  | _ => false

/-- R449: when the limit has passed, every ring that a lit module feeds and every ring that seeks is in FAULT unless it has
locked. -/
def faultRest (s : State) : State :=
  let fed := ((upTo 20).filter fun m => (elsOf s m).state == 3).flatMap (ringsOf s)
  let seek := (s.optics.rings.cells.filter fun c => ringSeeks c.2).map Prod.fst
  (fed ++ seek).foldl (fun s k =>
    if (ringOf s k).state = .locked || (ringOf s k).state = .fault then s else ringKeyFault k s) s

/-- OPTICS_CAL_END: every ring has settled, or 1 s has passed since the latches were set. -/
def opticsCalEnd (s : State) : State :=
  let late := s.start.enteredAt + 1000000000 ≤ wallNs s
  if s.start.state ≠ .opticsCal || !(late || ringsSettled s) then s
  else
    let s := if late then faultRest s else s
    let s := meshCauses (darkChannels (takeBaselines s))
    enterState .marginTest ((upTo 16).foldl (fun s m => assignSpare m s) s)

def execOpticsCalEnd (s : State) : Host.Outcome State Fault Refusal := .next (opticsCalEnd s)

/-- R456: a dead link of two dies in service. -/
def deadLink (s : State) (a b : Nat) : Bool := a != b && (channelsWork s a b == 0 || channelsWork s b a == 0)

/-- How many dead links a die in service has. -/
def deadLinks (s : State) (d : Nat) : Nat := ((diesUp s).filter (deadLink s d)).length

/-- Of two dies, the one with more dead links; of equals the later one. A die without a dead link is none. -/
def worseDie (s : State) (b : Option Nat) (d : Nat) : Option Nat :=
  if deadLinks s d = 0 then b
  else match b with
    | none => some d
    | some e => if deadLinks s e ≤ deadLinks s d then some d else b

/-- MESH_DEAD_LINK_CHECK: one die after another leaves until no dead link remains. -/
def meshDeadLinks : Nat → State → State
  | 0, s => s
  | n + 1, s =>
    match (diesUp s).foldl (worseDie s) none with
    | none => s
    | some d => meshDeadLinks n (removeDie d 4 2 s)

def execMeshDeadLinkCheck (s : State) : Host.Outcome State Fault Refusal :=
  .next (if s.start.state = .marginTest then meshDeadLinks 8 s else s)

/-- A port has light where a drop ring of its lanes is out of OFF (R310). -/
def lightAtPort (s : State) (p : Nat) : Bool :=
  (upTo 8).any fun l => (ringOf s (rxRingKey p (rxSlotOf s p l))).state != .off

/-- R456: every lane of a port with light has ended its test, or is in FAULT, in MARGIN_LOW or in a loop. -/
def portTested (s : State) (p : Nat) : Bool :=
  !lightAtPort s p || (upTo 8).all fun l => match (laneAt s p l).state with
    | .dark | .locking | .signal | .train | .margin | .retune => false
    | _ => true

/-- R456: the dead links are found before the device leaves MARGIN_TEST. -/
def linksChecked (s : State) : State := if (diesUp s).all fun d => deadLinks s d == 0 then s else meshDeadLinks 8 s

/-- MARGIN_TEST_END (R456, R460): LINK_UP, or DEGRADED where a cause holds; lanes in READY enter SERVICE. -/
def marginTestEnd (s : State) : State :=
  if s.start.state ≠ .marginTest
      || !(s.start.enteredAt + 2000000000 ≤ wallNs s || (upTo 256).all (portTested s)) then s
  else
    let s := linksChecked s
    if s.start.state = .halted then s else
    let s := raise 0x0001 2 unitDevice (args32 [(s.keeper.fwVersion.toNat : Int), (s.start.causes.toNat : Int)])
      (enterState .linkUp s)
    let s := settleCauses s
    (s.optics.lanes.cells.filter fun c => c.2.state == .ready).foldl (fun s c => trainAdvance (c.1 / 8) (c.1 % 8) s) s

def execMarginTestEnd (s : State) : Host.Outcome State Fault Refusal := .next (marginTestEnd s)

/-! ### Admission to service (R457, R458) -/

/-- SERVICE_ENTER. -/
def serviceEnter (s : State) : State :=
  if s.start.serviceAsked then answer stDone s
  else match s.start.state with
    | .linkUp | .degraded => answer stDone (s.onStart fun x => { x with serviceAsked := true })
    | _ => answer stNotReady s

def execServiceEnter (role : Role) (s : State) : Host.Outcome State Fault Refusal :=
  .next (guardWrite role 0x000002 4 serviceEnter s)

/-- SERVICE_MARK_RECEIVE: a die records the mark. -/
def serviceMark (d : Nat) (s : State) : State :=
  if !s.start.serviceAsked || !dieUp s d || !isUp s || s.start.darkHold then s
  else
    serviceCheck (s.onStart fun x => { x with serviceMark := x.serviceMark ||| BitVec.ofNat 8 (2 ^ d) })

def execServiceMarkReceive (die : DieIx) (s : State) : Host.Outcome State Fault Refusal := .next (serviceMark die s)

end Sys2Proof.Machine
end

