-- ==== Sys2Proof/Machine/KeeperFw.lean ====
section
/-! DEFINITION. Keeper and security commands while the firmware runs: fuse programming, the firmware commit, the
anti-rollback counter, attestation, measurements and the log ring (14 R428, R434, R435, R437, R438, R443, R444, R446). -/

namespace Sys2Proof.Machine

/-! ### Fuse programming (R427, R428) -/

/-- The bits of a field of R427; none where no field has the number. -/
def fuseBits (f : Nat) : Option Nat :=
  if f < 2 then some 8 else if f = 2 then some 64 else if f = 3 then some 32 else if f = 4 then some 48
  else if f = 5 then some 64 else if f = 6 then some 24 else if f = 7 then some 2560 else if f < 16 then some 256
  else if f < 24 then some 3 else if f = 24 then some 4 else if f < 89 then some 1 else if f = 89 then some 384 else none

/-- The value that a copy holds. -/
def fuseCopy (s : State) (f c : Nat) : Nat := s.keeper.fuses.get (4 * f + c)

/-- R428, PROTECTED: the field, or the use bits of slots 0 and 1. -/
def fuseProtected (s : State) (f v : Nat) : Bool :=
  f == 0 || f == 1 || f == 2 || f == 5 || f == 6 || f == 7 || f == 8 || f == 9 || f == 89
    || ((f == 16 || f == 17) && v % 4 != fuseCopy s f 0 % 4)

/-- R428 up to VIN_RANGE: the status that stops a program before it begins, or DONE. -/
def fuseRefusal (s : State) (f v : Nat) : Nat :=
  match fuseBits f with
  | none => 1
  | some w =>
    if 2 ^ w ≤ v || (upTo 3).any fun c => fuseCopy s f c ||| v != v then 1
    else if fuseProtected s f v then 2
    else if 8 ≤ f && f < 16 && (upTo 3).any fun c => fuseCopy s f c != 0 then 3
    else if fuseCopy s f 0 != fuseCopy s f 1 || fuseCopy s f 1 != fuseCopy s f 2 then 4
    else if s.power.vinMv < 40000 || 48000 < s.power.vinMv then 5
    else 0

def setFuse (f c v : Nat) (s : State) : State := s.onKeeper fun k => { k with fuses := k.fuses.set (4 * f + c) v }

/-- The copies programmed in order; the copy that reads back wrongly holds what the manual does not state, with the bits it
had still blown, and those that follow keep their value. -/
def programCopies (f v : Nat) (bad : Option Nat) (s : State) : State :=
  (upTo 3).foldl (fun s c =>
    match bad with
    | none => setFuse f c v s
    | some b =>
      if c < b then setFuse f c v s
      else if c = b then
        let (x, s) := draw s
        setFuse f c (fuseCopy s f c ||| x % 2 ^ (fuseBits f).getD 1) s
      else s) s

def setFuseResult (r : Nat) (s : State) : State := s.onKeeper fun k => { k with fuseResult := r }

/-- One field programmed (R428): the result is in FUSE_RESULT. -/
def fuseField (f v : Nat) (bad : Option Nat) (s : State) : State :=
  let r := fuseRefusal s f v
  if r ≠ 0 then setFuseResult r s
  else setFuseResult (if bad.isSome then 6 else 0) (programCopies f v bad s)

/-- FUSE_PROGRAM. -/
def fuseProgram (f v : Nat) (bad : Option Nat) (s : State) : State :=
  let s := answer stDone (fuseField f v bad s)
  if s.keeper.fuseResult = 0 then measEvent 2 s else s

def execFuseProgram (role : Role) (field value : Nat) (badCopy : Option (Fin 3)) (s : State) :
    Host.Outcome State Fault Refusal :=
  .next (guardWrite role 0x010003 2 (fuseProgram field value (badCopy.map (·.val))) s)

/-! ### Firmware update (R434) -/

def fwBusy (s : State) : Bool := s.keeper.fwResult == 0x0A
def fwBufferBytes : Nat := 5242880

/-- The lowest-numbered sector die in service. -/
def stagingDie (s : State) : Nat := ((diesUp s).head?).getD 0

/-- Address of a byte of the staging buffer, which is taken as the last 5 MiB of the die's reservation (R434; its place there is a
DESIGN CHOICE, log 97). -/
def fwStageAddr (s : State) (die off : Nat) : Nat := memAddr die (memTop s die - fwBufferBytes + off)

/-- FW_STAGE_OFFSET. -/
def fwStageOffsetWrite (v : Nat) (s : State) : State :=
  if fwBusy s then answer stBusy s
  else if fwBufferBytes ≤ v then answer stBadValue s
  else answer stDone (s.onKeeper fun k => { k with stageOffset := v })

/-- FW_STAGE_DATA: what a short write does not fill is zero (16 R480). -/
def fwStageData (data : Bytes) (s : State) : State :=
  if 1024 < data.length then answer stBadLength s
  else if fwBusy s then answer stBusy s
  else
    let o := s.keeper.stageOffset
    if fwBufferBytes < o + data.length then answer stBadValue s
    else answer stDone ((s.putMem (fwStageAddr s (stagingDie s) o) ((padTo 1024 data).take (fwBufferBytes - o))).onKeeper fun k => { k with
      stageOffset := o + data.length
      stageLen := max k.stageLen (o + data.length) })

def execFwStageData (role : Role) (data : Bytes) (s : State) : Host.Outcome State Fault Refusal :=
  .next (guardWrite role 0x010002 2 (fwStageData data) s)

/-- The image staged on a die: as many bytes as its header names. -/
def stagedFw (s : State) (die : Nat) : Bytes :=
  let n := leNat (memBytes s.mem (fwStageAddr s die 8) 4)
  memBytes s.mem (fwStageAddr s die 0) (if s.keeper.stageLen < n || fwBufferBytes < n then 128 else max 128 n)

/-- FW_COMMIT: R431 on the staged image; then the flash range is erased and the write begins. -/
def fwCommit (s : State) : State :=
  if fwBusy s then answer stBusy s else
  let b := stagedFw s (stagingDie s)
  let c := fwCheck s b (if fwTotal b ≤ s.keeper.stageLen then fwTotal b else 0)
  let s := answer stDone s
  if c ≠ 0 then s.onKeeper fun k => { k with fwResult := c }
  else (s.putMem (flashAddr 0) (List.replicate (fwTotal b) 0xFF)).onKeeper fun k => { k with
    fwResult := 0x0A
    stageDie := stagingDie s }

def execFwCommit (role : Role) (_value : Byte) (s : State) : Host.Outcome State Fault Refusal :=
  .next (guardWrite role 0x010002 3 fwCommit s)

/-- FW_FLASH_WRITE_DONE: the image is written and read back. -/
def fwFlashWriteDone (good : Bool) (s : State) : State :=
  if !fwBusy s || !keeperUp s then s
  else (flashWrite (stagedFw s s.keeper.stageDie) good s).onKeeper fun k => { k with fwResult := if good then 0 else 0x0B }

def execFwFlashWriteDone (readbackGood : Bool) (s : State) : Host.Outcome State Fault Refusal :=
  .next (fwFlashWriteDone readbackGood s)

/-! ### ROLLBACK (R435) -/

/-- The steps that an advance to `v` blows, ascending. -/
def rollbackSteps (s : State) (v : Nat) : List Nat := (upTo v).filter fun k => rollback s ≤ k

/-- Steps blown one after another, until one is not DONE. The counter follows each step. -/
def blowSteps : List Nat → State → State
  | [], s => s
  | k :: r, s =>
    let s := fuseField (25 + k) 1 none s
    if s.keeper.fuseResult ≠ 0 then s
    else blowSteps r (s.onKeeper fun x => { x with voted := x.voted.set (25 + k) 1 })

/-- The step at which a copy reads back wrongly: the advance stops there with VERIFY_FAIL (R428, R435). -/
def badStep (steps : List Nat) (n : StepsBlown) (s : State) : State :=
  match n.badCopy, steps[n.completed]? with
  | some c, some k => if n.completed = 0 || s.keeper.fuseResult = 0 then fuseField (25 + k) 1 (some c.val) s else s
  | _, _ => s

/-- ROLLBACK_ADVANCE. -/
def rollbackAdvance (v : Nat) (n : StepsBlown) (s : State) : State :=
  if 64 < v || s.keeper.fwSvn < v then answer stBadValue s
  else if v ≤ rollback s then answer stDone s
  else
    let steps := rollbackSteps s v
    let s := answer stDone (badStep steps n (blowSteps (steps.take n.completed) s))
    if v ≤ rollback s then measEvent 3 s else s

def execRollbackAdvance (role : Role) (value : Byte) (steps : StepsBlown) (s : State) : Host.Outcome State Fault Refusal :=
  .next (guardWrite role 0x010001 5 (rollbackAdvance value.toNat steps) s)

/-! ### Attestation and measurements (R437, R438) -/

/-- ATTEST_REQUEST. -/
def attestRequest (nonce : Bytes) (s : State) : State :=
  if 32 < nonce.length then answer stBadLength s
  else if s.keeper.attestNonce.isSome then answer stBusy s
  else answer stDone (s.onKeeper fun k => { k with
    attestNonce := some (padTo 32 nonce) })

def execAttestRequest (role : Role) (nonce : Bytes) (s : State) : Host.Outcome State Fault Refusal :=
  .next (guardWrite role 0x010004 4 (attestRequest nonce) s)

/-- Bytes 0 to 351 of a report. -/
def reportBody (s : State) (nonce : Bytes) : Bytes :=
  [0x43, 0x51, 0x41, 0x54, 0x00, 0x01, s.start.partCode, s.start.stepping] ++ beBytes 8 (serial s) ++ padTo 32 nonce
    ++ beBytes 4 s.keeper.fwVersion.toNat
    ++ [BitVec.ofNat 8 s.keeper.fwSvn, BitVec.ofNat 8 (rollback s), BitVec.ofNat 8 s.keeper.bootSource,
        BitVec.ofNat 8 s.keeper.fwKeySlot]
    ++ beBytes 4 (tmuNs s) ++ List.replicate 4 0
    ++ ((upTo 8).flatMap fun i => padTo 32 (s.keeper.meas.get i)) ++ padTo 32 s.keeper.identityPub

/-- ATTEST_REPORT_DONE: the report is signed and placed. -/
def attestReportDone (s : State) : State :=
  match s.keeper.attestNonce with
  | none => s
  | some nonce =>
    if !keeperUp s then s else
    let b := reportBody s nonce
    { s with free := s.free + 1 }.onKeeper fun k => { k with
      attestNonce := none
      attestReport := b ++ padTo 17088 (Config.slhSign (k.voted.get 89) b s.free) }

def execAttestReportDone (s : State) : Host.Outcome State Fault Refusal := .next (attestReportDone s)

/-- MEAS_EXTEND. -/
def measExtendWrite (index : Nat) (digest : Bytes) (s : State) : State :=
  if digest.length ≠ 32 then answer stBadLength s
  else if index ≠ 6 && index ≠ 7 then answer stBadValue s
  else answer stDone (measExtend index digest s)

def execMeasExtend (role : Role) (index : Byte) (digest : Bytes) (s : State) : Host.Outcome State Fault Refusal :=
  .next (guardWrite role 0x010004 7 (measExtendWrite index.toNat digest) s)

/-! ### The log ring (R443, R444) -/

/-- TRACE_ENABLE: points 0 to 31 read 1 whatever software writes; bit t of the 32 bytes is point t. -/
def traceEnable (s : State) : Nat := objGet s 0x010005 1 0 ||| (2 ^ 32 - 1)

/-- Room that a record takes: header, and payload padded to 16. -/
def logBytes (r : LogRec) : Nat := 16 + 16 * ceilDiv r.payload.length 16

/-- The ring of 1 MiB without the oldest records that do not fit. -/
def logTrim : Nat → List LogRec → List LogRec
  | 0, l => l
  | fuel + 1, l => if 1048576 < (l.map logBytes).foldl (· + ·) 0 then logTrim fuel (l.drop 1) else l

/-- One record that the firmware writes at an enabled trace point; which point, and what it says, are the firmware's own. -/
def logOne (s : State) : State :=
  let (t, s) := draw s
  let (x, s) := draw s
  let t := t % 256
  if !bit (traceEnable s) t then s else
  let (p, s) := freeBytes (x % 241) s
  let r : LogRec := ⟨s.keeper.logNext, BitVec.ofNat 32 (tmuNs s), x / 256 % 5, x / 2048 % 4, t, p⟩
  let l := s.keeper.log ++ [r]
  s.onKeeper fun k => { k with
    log := logTrim l.length l
    logNext := (k.logNext + 1) % 2 ^ 32 }

/-- The records that the firmware has written since the ring was last read: their number is its own (log 73). -/
def logSome : Nat → State → State
  | 0, s => s
  | n + 1, s => logSome n (logOne s)

/-- A record as it stands in the ring, padded to a multiple of 16. -/
def logItem (r : LogRec) : Bytes :=
  padTo (logBytes r) (beBytes 4 r.time.toNat ++ beBytes 4 r.seq
    ++ [BitVec.ofNat 8 r.core, BitVec.ofNat 8 r.severity, BitVec.ofNat 8 r.trace, BitVec.ofNat 8 r.payload.length]
    ++ List.replicate 4 0 ++ r.payload)

/-- An item of a record list: its length in 2 bytes, then its bytes (16 R478). -/
def listItem (b : Bytes) : Bytes := beBytes 2 b.length ++ b

/-- The records that a read of LOG_READ from a cursor returns, the cursor after it and the records lost. -/
def logFrom (s : State) (cursor limit : Nat) : List LogRec × Nat × Nat :=
  match s.keeper.log with
  | [] => ([], cursor, 0)
  | old :: _ =>
    let lost := if later 32 old.seq cursor then (old.seq + 2 ^ 32 - cursor) % 2 ^ 32 else 0
    let start := if lost = 0 then cursor else old.seq
    let l := (s.keeper.log.filter fun r => r.seq == start || later 32 r.seq start).take limit
    (l, (start + l.length) % 2 ^ 32, lost)

/-- LOG_READ of a session: up to 64 records. -/
def logRead (i : Nat) (s : State) : State :=
  match s.bop.sessions.get i with
  | none => s
  | some ss =>
    if !keeperUp s then s else
    let (n, s) := draw s
    let s := logSome (n % 65) s
    let (l, next, lost) := logFrom s ss.logCursor 64
    let s := s.onKeeper fun k => { k with logLost := min (2 ^ 32 - 1) (k.logLost + lost) }
    s.onBop fun b => { b with
      sessions := b.sessions.set i (some { ss with logCursor := next })
      answer := stDone
      answerValue := l.flatMap fun r => listItem (logItem r) }

def execLogRead (session : Fin 8) (s : State) : Host.Outcome State Fault Refusal := .next (logRead session s)

end Sys2Proof.Machine
end

