-- ==== Sys2Proof/Machine/Registers.lean ====
section
/-! DEFINITION. Register reads and writes, mailboxes, bit aliases, broadcast writes and the configuration CRC (17 R494 to R512;
02 R51, R64, R71; 12 R379, R380; 18 R544, R548). -/

namespace Sys2Proof.Machine

/-! ### The configuration CRC registers (R504 to R506) -/

/-- CFG_REF written. -/
def cfgRefSet (die : Nat) (v : Word) (s : State) : State :=
  cfgCompare die (s.onRegs fun x => { x with cfgRef := x.cfgRef.set die v })

/-- CFG_COMMIT. -/
def cfgCommitGo (die : Nat) (s : State) : State := cfgRefSet die (cfgRun s die) s

def execCfgCommit (master : Fin 16) (die : AnyDie) (s : State) : Host.Outcome State Fault Refusal :=
  .next (guardReg master die 0x02 2 (cfgCommitGo die) s)

def execCfgRefWrite (master : Fin 16) (die : AnyDie) (value : Word) (s : State) : Host.Outcome State Fault Refusal :=
  .next (guardReg master die 0x02 1 (cfgRefSet die value) s)

/-- CFG_RECOMPUTE (R505): the value that the registers themselves give. -/
def cfgRecompute (die : Nat) (v : Word) (s : State) : State :=
  if !dieAnswers s die || v = cfgRun s die then s
  else
    let old := cfgRun s die
    let s := s.onRegs fun x => { x with
      cfgUpset := x.cfgUpset.set die true
      cfgRun := x.cfgRun.set die (v ^^^ Config.cfgRunReset die) }
    cfgCompare die (raise 0x1F02 0 (unitOf die 0 0) (args32 [(v.toNat : Int), (old.toNat : Int)]) s)

def execCfgRecompute (die : AnyDie) (recomputed : Word) (s : State) : Host.Outcome State Fault Refusal :=
  .next (cfgRecompute die recomputed s)

/-- CFG_STATUS as it reads. -/
def cfgStatus (s : State) (die : Nat) : Nat :=
  (if s.regs.cfgMatch.get die then 2 ^ 31 else 0) + (if s.regs.cfgSeen.get die then 2 else 0)
    + (if s.regs.cfgUpset.get die then 1 else 0)

/-! ### Words of the other blocks -/

/-- Key of a word of a block whose field map belongs to the firmware. -/
def plainKey (die block word : Nat) : Nat := (die * 256 + block) * 2 ^ 18 + word

/-- A word of a command set (02 R64); `busy` is BUSY of TBL_STATUS. -/
def setWord (busy : Bool) (c : CmdSet) (w : Nat) : Nat :=
  if w = 0 then c.cmd.toNat
  else if w = 1 then (if busy then 2 ^ 31 else 0) + (if c.overrun then 2 ^ 30 else 0) + c.refusers.toNat * 65536 + c.result * 256 + c.location * 64 + c.relocations
  else if 4 ≤ w && w ≤ 8 then (c.key.get (w - 4)).toNat
  else if 0x10 ≤ w && w ≤ 0x18 then (c.data.get (w - 0x10)).toNat
  else if w = 0x1C then c.ts.toNat + c.owner * 65536 + (if c.static then 2 ^ 19 else 0) + (if c.learned then 2 ^ 20 else 0)
  else 0

/-- A word of block 0x20 (02 R51, R64, R71). -/
def tblReg (s : State) (die w : Nat) : Nat :=
  if w < 0x100 then setWord (setBusy s die (w / 0x40)) (s.tables.sets.get (setKey die (w / 0x40))) (w % 0x40)
  else match w with
    | 0x100 => (s.tables.drnIndex.get die).toNat
    | 0x101 =>
      let i := (s.tables.drnIndex.get die).toNat
      s.tables.drain.get (tblKey die i) % 2 ^ 24 + (if drainEmptyFor s die i then 2 ^ 31 else 0)
    | 0x102 => (s.tables.seed0.get die).toNat
    | 0x103 => (s.tables.seed1.get die).toNat
    | 0x104 => s.tables.seedStatus.get die
    | _ => 0

/-- A word of block 0x0D (12 R379, R380). TMU_INC reads the value accepted last (00 R13). -/
def timeReg (s : State) (die w : Nat) : Nat :=
  if w = 0 then (if die = 8 then tmuNs s else folNs s die)
  else if w = 1 then s.time.fracLatch.get die
  else if die ≠ 8 then 0
  else match w with
    | 2 => (s.time.pendingInc.getD s.time.inc).toNat
    | 3 => s.time.stepNs.toNat
    | 4 => (if s.time.stepForce then 2 ^ 30 else 0) + s.time.stepFrac.toNat
    | 5 => (tmuStatus s).toNat
    | 6 => s.time.ppsNs.toNat
    | 7 => s.time.ppsSeq.toNat * 65536 + s.time.ppsFrac.toNat
    | _ => 0

/-- Event and instance that a master has selected on a die (18 R544). -/
def cntEvent (s : State) (die m : Nat) : Nat := (s.regs.cntSel.get (die * 16 + m)).toNat / 65536
def cntInst (s : State) (die m : Nat) : Nat := (s.regs.cntSel.get (die * 16 + m)).toNat % 65536

/-- A word of block 0x10 for a master (18 R544). -/
def cntReg (s : State) (m die w : Nat) : Nat :=
  if w / 4 ≠ m then 0
  else
    let ev := cntEvent s die m
    let i := cntInst s die m
    let held := counterHeld s die ev i
    let v := if held then s.regs.counters.get (cntKey die ev i) else 0
    match w % 4 with
    | 0 => (s.regs.cntSel.get (die * 16 + m)).toNat
    | 1 => v % 2 ^ 32
    | 2 => v / 2 ^ 32 + (if held then 0 else 2 ^ 31)
    | _ => if held then s.regs.flags.get (cntKey die ev i) else 0

/-- A word of a mailbox for its master (R507). -/
def mbReg (s : State) (m die w : Nat) : Nat :=
  if w / 0x20 ≠ m then 0
  else
    let b := s.regs.mailboxes.get (die * 16 + m)
    match w % 0x20 with
    | 0 => b.addr.toNat
    | 1 => (if b.error then 2 ^ 29 else 0) + (if b.write then 2 ^ 28 else 0) + b.countM1
    | n => if 0x10 ≤ n then (b.data.get (n - 0x10)).toNat else 0

/-- A word's value for a master; nothing changes by it. -/
def regPeek (s : State) (m die block word : Nat) : Nat :=
  match block with
  | 0x02 => match word with
    | 0 => (cfgRun s die).toNat
    | 1 => (s.regs.cfgRef.get die).toNat
    | 3 => cfgStatus s die
    | _ => 0
  | 0x0D => timeReg s die word
  | 0x0E => dmaReg s die word
  | 0x10 => cntReg s m die word
  | 0x20 => tblReg s die word
  | 0xF0 => accessWord s die word
  | 0xF8 => mbReg s m die word
  | 0xFC => (s.power.snap.get (die * 1024 + word)).toNat
  | 0xFD => (s.ras.frz.get (die * 64 + word)).toNat
  | 0x01 => (Config.securityWord word (s.keeper.voted.get 89) s.keeper.identityPub ((upTo 8).map s.keeper.meas.get)
      (s.regs.plain.get (plainKey die block word))).toNat
  | _ => (s.regs.plain.get (plainKey die block word)).toNat

/-- A word of a block read by a master: R380 latches FRAC with NOW_NS. -/
def regRead (m die block word : Nat) (s : State) : Word × State :=
  (BitVec.ofNat 32 (regPeek s m die block word), if block = 0x0D && word = 0 then nowRead die s else s)

/-- A TBL_CMD word written to one die (02 R64). -/
def tblCmdWrite (die set : Nat) (v : Word) (s : State) : State :=
  tblCommand die set (bits v.toNat 31 28) (bits v.toNat 27 24) (v.getLsbD 23) (v.getLsbD 22) (bits v.toNat 15 0) s

/-- A word of block 0x20 written. -/
def tblRegWrite (die w : Nat) (v : Word) (s : State) : State :=
  if w < 0x100 then
    let set := w / 0x40
    let n := w % 0x40
    if n = 0 then tblCmdWrite die set v s
    else if n = 1 then onSet die set (fun c => { c with overrun := w1cBit c.overrun (v.getLsbD 30) }) s
    else if 4 ≤ n && n ≤ 8 then onSet die set (fun c => { c with key := c.key.set (n - 4) v }) s
    else if 0x10 ≤ n && n ≤ 0x18 then onSet die set (fun c => { c with data := c.data.set (n - 0x10) v }) s
    else s
  else match w with
    | 0x100 => s.onTables fun x => { x with drnIndex := x.drnIndex.set die (v.setWidth 16) }
    | 0x102 => emtSeedSet die 0 v s
    | 0x103 => emtSeedSet die 1 v s
    | _ => s

/-- A word of the time unit written (12 R379). -/
def timeRegWrite (w : Nat) (v : Word) (s : State) : State :=
  match w with
  | 2 => incWrite v s
  | 3 => s.onTime fun t => { t with stepNs := v }
  | 4 => stepCtlWrite v s
  | 5 => tmuStatusWrite v s
  | _ => s

/-- A word of block 0x10 written by a master (18 R544). -/
def cntRegWrite (m die w : Nat) (v : Word) (s : State) : State :=
  if w / 4 ≠ m then s
  else match w % 4 with
    | 0 => s.onRegs fun x => { x with cntSel := x.cntSel.set (die * 16 + m) v }
    | 3 =>
      let ev := cntEvent s die m
      let i := cntInst s die m
      if counterHeld s die ev i then clearFlags die ev i v.toNat s else s
    | _ => s

/-- A word of block 0x02 written (R506). -/
def cfgRegWrite (die w : Nat) (v : Word) (s : State) : State :=
  match w with
  | 1 => cfgRefSet die v s
  | 2 => if v.getLsbD 0 then cfgCommitGo die s else s
  | 3 => s.onRegs fun x => { x with
      cfgSeen := x.cfgSeen.set die (w1cBit (x.cfgSeen.get die) (v.getLsbD 1))
      cfgUpset := x.cfgUpset.set die (w1cBit (x.cfgUpset.get die) (v.getLsbD 0)) }
  | _ => s

/-- A word of a block other than the mailboxes and aliases written by a master. -/
def regStore (m die block word : Nat) (v : Word) (s : State) : State :=
  match block with
  | 0x02 => cfgRegWrite die word v s
  | 0x0D => if die = 8 then timeRegWrite word v s else s
  | 0x0E => dmaRegWrite die word v s
  | 0x10 => cntRegWrite m die word v s
  | 0x20 => tblRegWrite die word v s
  | 0xF0 => writeAccessWord die word v s
  | 0xFC => s
  | 0xFD => s
  | _ => s.onRegs fun x => { x with plain := x.plain.set (plainKey die block word) v }

/-! ### Mailboxes (R507, R508) -/

def onMailbox (m die : Nat) (f : Mailbox → Mailbox) (s : State) : State :=
  s.onRegs fun x => { x with mailboxes := x.mailboxes.modify (die * 16 + m) f }

/-- R508: the check of one word of a transfer; mailboxes and aliases are reached by none (log 75). -/
def mbWordCheck (s : State) (m die block word : Nat) (write : Bool) : Acc :=
  if 2 ^ 18 ≤ word || block = 0xF8 || block = 0xFE then .busError else accessCheck s m die block word write

/-- The words of a read transfer, in order. -/
def mbReads (m die block : Nat) : Nat → Nat → Nat → State → State
  | 0, _, _, s => s
  | n + 1, w, i, s =>
    let (v, s) := regRead m die block w s
    mbReads m die block n (w + 1) (i + 1) (onMailbox m die (fun b => { b with data := b.data.set i v }) s)

/-- The words of a write transfer, in order. -/
def mbWrites (m die block : Nat) (data : Tab Word) : Nat → Nat → Nat → State → State
  | 0, _, _, s => s
  | n + 1, w, i, s => mbWrites m die block data n (w + 1) (i + 1) (regStore m die block w (data.get i) s)

/-- MB_GO: the transfer that MB_ADDR and MB_CTL name, whole or not at all. In a block of an absent unit every word reads as
zero and is counted, nothing is written and no error is set (00 R8). -/
def mbTransfer (m die : Nat) (s : State) : State :=
  let b := s.regs.mailboxes.get (die * 16 + m)
  let block := addrBlock b.addr
  let w := addrWord b.addr
  let n := b.countM1 + 1
  let fails (e : Bool) (s : State) : State := onMailbox m die (fun b => { b with error := e }) s
  if !addrAligned b.addr then fails true (countBusError s die)
  else
    let checks := (upTo n).map fun i => mbWordCheck s m die block (w + i) b.write
    match checks.find? (· ≠ .granted) with
    | some .denied => fails true (count die 0xD001 0 1 s)
    | some .absent =>
      let b' (b : Mailbox) : Mailbox := if b.write then b else { b with data := (upTo n).foldl (fun t i => t.set i 0) b.data }
      fails false (onMailbox m die b' (count die 0x0001 0 n s))
    | some _ => fails true (countBusError s die)
    | none => fails false (if b.write then mbWrites m die block b.data n w 0 s else mbReads m die block n w 0 s)

/-- MB_CTL written by its master. -/
def mbCtlWrite (m die : Nat) (v : Word) (s : State) : State :=
  let s := onMailbox m die (fun b => { b with write := v.getLsbD 28, countM1 := bits v.toNat 3 0 }) s
  if v.getLsbD 31 then mbTransfer m die s else s

def execMbGo (master : Fin 16) (die : AnyDie) (value : Word) (s : State) : Host.Outcome State Fault Refusal :=
  .next (guardReg master die 0xF8 (0x20 * master.val + 1) (mbCtlWrite master die (value ||| 0x80000000)) s)

/-- A word of block 0xF8 written. -/
def mbRegWrite (m die w : Nat) (v : Word) (s : State) : State :=
  if w / 0x20 ≠ m then s
  else match w % 0x20 with
    | 0 => onMailbox m die (fun b => { b with addr := v }) s
    | 1 => mbCtlWrite m die v s
    | n => if 0x10 ≤ n then onMailbox m die (fun b => { b with data := b.data.set (n - 0x10) v }) s else s

/-! ### Bit aliases (R503, R510) -/

def aliasBlock (w : Nat) : Nat := w / 2 ^ 12 % 64
def aliasWord (w : Nat) : Nat := w / 32 % 128
def aliasBit (w : Nat) : Nat := w % 32

/-- The RW bits of a word, and its W1C and WO bits, by the register tables. -/
def rwMask (die block word : Nat) : Nat :=
  match block with
  | 0x02 => if word = 1 then 0xFFFFFFFF else 0
  | 0x0D => if die ≠ 8 then 0 else if word = 2 || word = 3 then 0xFFFFFFFF else if word = 4 then 0x4000FFFF else 0
  | 0x0E => if word = 5 then 0xFFFFFFFF else if word = 6 || word = 7 then 0x007FFFC0 else 0
  | 0x10 => if word < 64 && word % 4 = 0 then 0xFFFFFFFF else 0
  | 0x20 =>
    let n := word % 0x40
    if n = 0 then 0xFFC0FFFF else if (4 ≤ n && n ≤ 8) || (0x10 ≤ n && n ≤ 0x18) then 0xFFFFFFFF else 0
  | _ => 0xFFFFFFFF
def actMask (die block word : Nat) : Nat :=
  match block with
  | 0x02 => if word = 2 then 1 else if word = 3 then 3 else 0
  | 0x0D => if die ≠ 8 then 0 else if word = 4 then 0x80000000 else if word = 5 then 0xF else 0
  | 0x0E => if word = 3 then 1 else if word = 4 then 0xFFFFFFFF else 0
  | 0x10 => if word < 64 && word % 4 = 3 then 3 else 0
  | 0x20 => if word % 0x40 = 1 then 0x40000000 else 0
  | _ => 0

/-- A write of one bit of a word: an RW bit is stored beside the others, a W1C or WO bit acts, any other does nothing. A bit of
TBL_CMD is stored and launches nothing (log 76). -/
def bitWrite (m die block word b : Nat) (value : Bool) (s : State) : State :=
  let kept := regPeek s m die block word &&& rwMask die block word
  if bit (rwMask die block word) b then
    let v := BitVec.ofNat 32 (setBit kept b value)
    if block = 0x20 && word % 0x40 = 0 then onSet die (word / 0x40) (fun c => { c with cmd := v }) s
    else regStore m die block word v s
  else if bit (actMask die block word) b then
    regStore m die block word (BitVec.ofNat 32 (if value then setBit kept b true else kept)) s
  else s

/-- One die's share of a write to an alias word: the target's block decides (R503). -/
def aliasWrite (m die w : Nat) (value : Bool) (s : State) : State :=
  match accessCheck s m die 0xFE w true with
  | .granted => guardReg m die (aliasBlock w) (aliasWord w) (bitWrite m die (aliasBlock w) (aliasWord w) (aliasBit w) value) s
  | .denied => count die 0xD001 0 1 s
  | _ => countBusError s die

def execBitAliasWrite (master : Fin 16) (die : AnyDie) (word : BitVec 18) (value : Bool) (s : State) :
    Host.Outcome State Fault Refusal :=
  .next (aliasWrite master die word.toNat value s)

/-! ### Accesses (R494 to R498) -/

/-- A read of one word of one die: what the check answered, and the word. -/
def readOn (m die block word : Nat) (s : State) : Acc × Word × State :=
  let miss (a : Acc) (s : State) : Acc × Word × State := match a with
    | .denied => (a, 0, count die 0xD001 0 1 s)
    | .absent => (a, 0, count die 0x0001 0 1 s)
    | _ => (.busError, 0, countBusError s die)
  match accessCheck s m die block word false with
  | .granted =>
    if block = 0xFE then
      match accessCheck s m die (aliasBlock word) (aliasWord word) false with
      | .granted =>
        let (v, s) := regRead m die (aliasBlock word) (aliasWord word) s
        (.granted, if v.getLsbD (aliasBit word) then 1 else 0, s)
      | a => miss a s
    else
      let (v, s) := regRead m die block word s
      (.granted, v, s)
  | a => miss a s

/-- A write of one word of one die. -/
def writeOn (m die block word : Nat) (v : Word) (s : State) : State :=
  if block = 0xFE then aliasWrite m die word (v.getLsbD 0) s
  else guardReg m die block word (if block = 0xF8 then mbRegWrite m die word v else regStore m die block word v) s

/-- 02 R67: a broadcast write of TBL_CMD runs in two phases on the dies that grant it. -/
def tblBroadcast (m set : Nat) (cmd : Word) (keeperAlive dieLeft : Bool) (s : State) : State :=
  let grants (d : Nat) : Bool := decide (accessCheck s m d 0x20 (0x40 * set) true = .granted)
  tblBroadcastOn ((diesUp s).filter grants) set cmd keeperAlive dieLeft
    (((diesUp s).filter (!grants ·)).foldl (fun s d => guardReg m d 0x20 (0x40 * set) id s) s)

/-- R498: a write with DIE 15 goes to every sector die in service. -/
def broadcastWrite (m block word : Nat) (v : Word) (s : State) : State :=
  if (diesUp s).isEmpty || !clocksRun s then countBusError s 15
  else if block = 0x20 && word < 0x100 && word % 0x40 = 0 then tblBroadcast m (word / 0x40) v true false s
  else (diesUp s).foldl (fun s d => writeOn m d block word v s) s

/-- TBL_BROADCAST_COMMIT (02 R67): the write with DIE 15, with what happens between its two phases. -/
def execTblBroadcastCommit (set : Fin 4) (cmd : Word) (master : Fin 16) (keeperAlive dieLeft : Bool) (s : State) :
    Host.Outcome State Fault Refusal :=
  .next (if (diesUp s).isEmpty || !clocksRun s then countBusError s 15 else tblBroadcast master set cmd keeperAlive dieLeft s)

/-- A register write by address. -/
def regWrite (m : Nat) (a v : Word) (s : State) : State :=
  if !addrAligned a then countBusError s (addrDie a)
  else if addrDie a = 15 then broadcastWrite m (addrBlock a) (addrWord a) v s
  else writeOn m (addrDie a) (addrBlock a) (addrWord a) v s

/-- Whether a write by address ends in a bus error. -/
def writeErrs (s : State) (m : Nat) (a : Word) : Bool :=
  !addrAligned a ||
    (if addrDie a = 15 then (diesUp s).isEmpty || !clocksRun s
        || (diesUp s).any fun d => decide (accessCheck s m d (addrBlock a) (addrWord a) true = .busError)
     else decide (accessCheck s m (addrDie a) (addrBlock a) (addrWord a) true = .busError)
       || (addrBlock a == 0xFE && decide (accessCheck s m (addrDie a) (aliasBlock (addrWord a)) (aliasWord (addrWord a)) true
            = .busError)))

/-- A register read by address: the word, none on a bus error. -/
def regReadAt (m : Nat) (a : Word) (s : State) : Option Word × State :=
  if !addrAligned a || addrDie a = 15 then (none, countBusError s (addrDie a))
  else
    let (r, v, s) := readOn m (addrDie a) (addrBlock a) (addrWord a) s
    (if r = .busError then none else some v, s)

/-- REGISTER_WRITE. -/
def execRegisterWrite (master : Fin 16) (address value : Word) (s : State) : Host.Outcome State Fault Refusal :=
  .next (regWrite master address value s)

/-- ABSENT_UNIT_ACCESS (00 R8): an access to a block of an absent unit. -/
def execAbsentUnitAccess (master : Fin 16) (address : Word) (write : Option Word) (s : State) :
    Host.Outcome State Fault Refusal :=
  .next (if addrDie address < 8 && blockAbsent s (addrDie address) (addrBlock address) then
    match write with
    | some v => regWrite master address v s
    | none => (regReadAt master address s).2
  else s)

/-! ### The register window (16 R485) -/

/-- Master ID of a role (R499). -/
def roleMaster : Role → Option Nat
  | .admin => some 5
  | .operator => some 6
  | .fabric => some 7
  | .observer => none

/-- Words read in ascending order until a bus error. -/
def burstRead (m : Nat) (a : Word) : Nat → State → List Word × Bool × State
  | 0, s => ([], false, s)
  | n + 1, s =>
    match regReadAt m a s with
    | (none, s) => ([], true, s)
    | (some v, s) =>
      let (l, e, s) := burstRead m (a + 4) n s
      (v :: l, e, s)

/-- Words written in ascending order until a bus error; how many were written. -/
def burstWrite (m : Nat) (a : Word) : List Word → State → Nat × Bool × State
  | [], s => (0, false, s)
  | v :: r, s =>
    let e := writeErrs s m a
    let s := regWrite m a v s
    if e then (0, true, s)
    else
      let (n, e, s) := burstWrite m (a + 4) r s
      (n + 1, e, s)

/-- Answer of an operation: status, value, and the count of words completed as ARG. -/
structure OpAnswer where
  status : Nat
  value : Bytes
  arg : Nat
  deriving DecidableEq, Repr

/-- R485: accesses of a role at an address, read or written. -/
def windowAccess (role : Role) (a : Word) (count : Nat) (write : Option (List Word)) (s : State) : OpAnswer × State :=
  match roleMaster role with
  | none => (⟨stDenied, [], 0⟩, s)
  | some m =>
    match write with
    | none =>
      let (l, e, s) := burstRead m a (min 256 count) s
      (⟨if e then stBusError else stDone, l.flatMap fun v => beBytes 4 v.toNat, if e then l.length else 0⟩, s)
    | some l =>
      if role ≠ .admin then (⟨stDenied, [], 0⟩, s)
      else
        let (n, e, s) := burstWrite m a (l.take 256) s
        (⟨if e then stBusError else stDone, [], if e then n else 0⟩, s)

/-- The register address of a session, 0 where it is closed (R484). -/
def sessionAddr (s : State) (i : Nat) : Word := match s.bop.sessions.get i with
  | some x => x.regAddr
  | none => 0

/-- An access through the window of a session, answered outside a request. -/
def windowCommand (role : Role) (i sub count : Nat) (write : Option (List Word)) (s : State) : State :=
  if !keeperUp s then s
  else if !rangeReady s 0x1F0001 then answer stNotReady s
  else
    let (a, s) := windowAccess role (sessionAddr s i) count write s
    { s with bop := { s.bop with
        answer := a.status
        answerValue := if sub = 3 && a.status = stBusError then a.value ++ beBytes 4 a.arg else a.value } }

def execRegData (role : Role) (session : Fin 8) (write : Option Word) (s : State) : Host.Outcome State Fault Refusal :=
  .next (windowCommand role session 2 1 (write.map fun v => [v]) s)

def execRegBurst (role : Role) (session : Fin 8) (count : Nat) (write : Option (List Word)) (s : State) :
    Host.Outcome State Fault Refusal :=
  .next (windowCommand role session 3 count write s)

/-! ### JTAG (R502, 18 R549, R550) -/

/-- R502: the mark that a JTAG access leaves. -/
def jtagMark (write : Bool) (s : State) : State :=
  if !jtagAdmits s write then s
  else if s.start.state = .frozen then s.onRas fun x => { x with frzJtag := true }
  else if clocksRun s then measEvent 1 s else s

def jtagGives (error : Bool) (v : Word) (s : State) : State := s.onRegs fun x => { x with
  jtagValid := true
  jtagError := error
  jtagData := v }

/-- REG_ACCESS: master 10; a bus error is reported in JTAG's status bit (R496). -/
def execRegAccess (address : Word) (write : Option Word) (s : State) : Host.Outcome State Fault Refusal :=
  let s := jtagMark write.isSome s
  .next <| match write with
    | some v => jtagGives (writeErrs s 10 address) 0 (regWrite 10 address v s)
    | none =>
      let (r, s) := regReadAt 10 address s
      jtagGives r.isNone (r.getD 0) s

/-- FRZ_READ of a register: the word as it stands; none where nothing decodes. -/
def frozenReg (s : State) (die : Nat) (a : Word) : Option Word :=
  let block := addrBlock a
  let w := addrWord a
  let t := if block = 0xFE then aliasBlock w else block
  let u := if block = 0xFE then aliasWord w else w
  if !addrAligned a || !blockListed die t || !wordImplemented die t u || (die < 8 && !dieUp s die) then none
  else if blockAbsent s die t || !rightsAdmit s 10 die t false then some 0
  else
    let v := BitVec.ofNat 32 (regPeek s 10 die t u)
    some (if block = 0xFE then (if v.getLsbD (aliasBit w) then 1 else 0) else v)

/-- BOOT_STATUS (14 R446): [15:8] boot source and BOOT_SEL, whose places the manual does not give: [10] host, [9:8] BOOT_SEL
(DESIGN CHOICE, log 80). -/
def bootStatus (s : State) : Nat := (s.keeper.bootSource % 2 * 4 + s.power.bootPins % 4) * 256 + s.keeper.bootCause % 256

/-- FRZ_READ. -/
def frzRead (die space array : Nat) (a : Word) (s : State) : State :=
  if s.start.state ≠ .frozen || 2 ≤ jtagPolicy s then s.onRegs fun x => { x with jtagValid := false }
  else
    let s := s.onRas fun x => { x with frzJtag := true }
    match space with
    | 0 =>
      let r := frozenReg s die a
      jtagGives r.isNone (r.getD 0) s
    | 3 =>
      let off := 4 * (array * 2 ^ 32 + a.toNat)
      if die = 8 || !dieUp s die then jtagGives true 0 s
      else
        let s := s.onRas fun x => { x with island := x.island.set die (some (wallNs s)) }
        if memTop s die < off + 4 || memBad s (memAddr die off) 4 then jtagGives true 0 s
        else jtagGives false (BitVec.ofNat 32 (leNat (memSeen s (memAddr die off) 4))) s
    | _ => jtagGives (die < 8 && !dieUp s die) (Config.arrayWord die space array a.toNat) s

/-- What a short instruction of the test access port shifts out (18 R549): BOOT_STATUS, the identification word or the
bypass bit; the last two are those of IEEE 1149.1, for which R549 gives no value (log 199). -/
def jtagShort (scan : JtagScan) (s : State) : Word :=
  match scan with
  | .bootStatus => BitVec.ofNat 32 (bootStatus s)
  | .idcode => Config.idcode
  | .bypass | .space _ => 0

/-- A scan of JTAG's test access port (18 R549): FRZ_READ, or one of the short instructions, which no JTAG policy bounds
(13 R420, 14 R426, 15 R463). -/
def jtagScan (die : Nat) (scan : JtagScan) (array : Nat) (a : Word) (s : State) : State :=
  match scan with
  | .space n => frzRead die n array a s
  | short =>
    if s.start.state = .off then s.onRegs fun x => { x with jtagValid := false }
    else jtagGives false (jtagShort short s) s

def execFrzRead (die : AnyDie) (scan : JtagScan) (array : Byte) (address : Word) (s : State) : Host.Outcome State Fault Refusal :=
  .next (jtagScan die scan array.toNat address s)

/-- MEMORY_ISLAND_IDLE (R550): 100 us without an access. -/
def execMemoryIslandIdle (die : DieIx) (s : State) : Host.Outcome State Fault Refusal :=
  .next <| match s.ras.island.get die with
    | some t => if t + 100000 ≤ wallNs s then s.onRas fun x => { x with island := x.island.set die none } else s
    | none => s

end Sys2Proof.Machine
end

