-- ==== Sys2Proof/Machine/Ras.lean ====
section
/-! DEFINITION. Silent errors: self-tests of operator cells, the retest after a failed comparison, scrubbing and memory errors,
and the sticky counter flags (18 R530 to R540, R545). -/

namespace Sys2Proof.Machine

/-! ### Memory errors (R531 to R534) -/

def ceKey (die ch : Nat) : Nat := die * 24 + ch
/-- One hour in ns. -/
def hourNs : Nat := 3600000000000

/-- R534: one more correctable error of a channel in the present hour of the queue clock. -/
def noteCe (die ch : Nat) (s : State) : State :=
  let k := ceKey die ch
  let h := nowNs s / hourNs
  let same := s.ras.ceHourStart.get k = h
  (count die 0xE002 ch 1 s).onRas fun x => { x with
    ceHour := x.ceHour.set k ((if same then x.ceHour.get k else 0) + 1)
    ceHourStart := x.ceHourStart.set k h
    ceSent := if same then x.ceSent else x.ceSent.set k false }

/-- MEM_CE_HIGH (R534): once for the hour. -/
def memCeHigh (die ch : Nat) (s : State) : State :=
  let k := ceKey die ch
  let n := s.ras.ceHour.get k
  if !dieUp s die || !clocksRun s || !channelUp s die ch || s.ras.ceHourStart.get k ≠ nowNs s / hourNs || s.ras.ceSent.get k || n ≤ cfgMemCeLimit s then s
  else raise 0x1004 1 (unitOf die ch 0) (args32 [(n : Int)]) (s.onRas fun x => { x with ceSent := x.ceSent.set k true })

def execMemCeHigh (die : DieIx) (channel : Fin 24) (s : State) : Host.Outcome State Fault Refusal :=
  .next (memCeHigh die channel s)

def execMemUncorrectable (die : DieIx) (channel : Fin 24) (granule : Nat) (s : State) : Host.Outcome State Fault Refusal :=
  .next (memUncorrectable die channel granule s)

/-- R531: a read that finds `bad` erroneous bytes in a granule: corrected up to 3, detected up to 5; whether a greater number
is detected is open. -/
def granuleRead (die ch granule bad : Nat) (s : State) : State :=
  if bad = 0 then s
  else if bad ≤ 3 then noteCe die ch s
  else if bad ≤ 5 then memUncorrectable die ch granule s
  else
    let (x, s) := draw s
    if x % 2 = 0 then memUncorrectable die ch granule s else s

/-- R533: the scrub pass of a die moves on; after the last granule the next pass begins. -/
def scrubOn (die granule : Nat) (s : State) : State :=
  if s.ras.scrubNext.get die ≠ granule then s
  else if memTop s die ≤ (granule + 1) * 256 then s.onRas fun x => { x with
    scrubNext := x.scrubNext.set die 0
    scrubStart := x.scrubStart.set die (nowNs s)
    scrubSent := x.scrubSent.set die false }
  else s.onRas fun x => { x with scrubNext := x.scrubNext.set die (granule + 1) }

/-- SCRUB_READ. -/
def execScrubRead (die : DieIx) (channel : Fin 24) (granule badBytes : Nat) (s : State) : Host.Outcome State Fault Refusal :=
  .next (if dieUp s die && clocksRun s && granuleChannel s die granule == channel && granule * 256 < memTop s die then
    scrubOn die granule (granuleRead die channel granule badBytes s) else s)

/-- SCRUB_BEHIND (R533): the pass has not finished within twice SCRUB_PERIOD. -/
def scrubBehind (die : Nat) (s : State) : State :=
  let t := s.ras.scrubStart.get die
  if !dieUp s die || !clocksRun s || s.ras.scrubSent.get die || nowNs s < t + 2 * cfgScrubPeriod s * hourNs then s
  else raise 0x1006 1 (unitOf die 0 0) (args32 [((nowNs s - t) / hourNs : Nat)])
    (s.onRas fun x => { x with scrubSent := x.scrubSent.set die true })

def execScrubBehind (die : DieIx) (s : State) : Host.Outcome State Fault Refusal := .next (scrubBehind die s)

/-- SRAM_SCRUB (R530, R533): what the second's reading of every table and context word found. -/
def sramScrub (die ce ue array word : Nat) (s : State) : State :=
  if !dieUp s die || !clocksRun s then s
  else
    let s := s.onRas fun x => { x with sramAt := x.sramAt.set die (nowNs s) }
    let s := count die 0xE001 0 ue (count die 0xE000 0 ce s)
    if ue = 0 then s else raise 0x1005 0 (unitOf die 0 0) (args32 [(array : Int), (word : Int)]) s

def execSramScrub (die : DieIx) (correctable uncorrectable array word : Nat) (s : State) :
    Host.Outcome State Fault Refusal :=
  .next (sramScrub die correctable uncorrectable array word s)

/-! ### Spare cells (07 R264, R265; R539) -/

/-- CELL_RETIRE (R264): a cell has failed (`fails`), or a retirement for which deliveries are held goes on. -/
def execCellRetire (die : DieIx) (tile : TileIx) (row : Fin 8) (position : Fin 17) (fails : Bool) (s : State) :
    Host.Outcome State Fault Refusal :=
  .next (if !dieUp s die || !clocksRun s || !tileUp s die tile then s
    else loseTileless <| match retiringAt s die tile row position with
      | some t => retireHeld die tile row position t s
      | none => if fails then retireCell die tile row position s else s)

def execSpareSwitch (role : Role) (die tile row position : Byte) (s : State) : Host.Outcome State Fault Refusal :=
  .next (guardWrite role 0x0B0005 2 (fun s => loseTileless (spareSwitch die.toNat tile.toNat row.toNat position.toNat s)) s)

def execSpareMode (role : Role) (value : Byte) (s : State) : Host.Outcome State Fault Refusal :=
  .next (guardWrite role 0x0B0001 5 (fun s => loseTileless (spareModeWrite value.toNat s)) s)

/-! ### Self-tests (R535, R536) -/

/-- Whether a row's spare is free: neither in use nor unusable. -/
def spareFree (s : State) (die tile row : Nat) : Bool :=
  s.fabric.retired.get (rowKey die tile row) == 0 && !s.fabric.spareBad.get (rowKey die tile row)

/-- R536: the partner of a test, as (row, position): the row's free spare, or the cell that passed most recently. -/
def testPartner (s : State) (die tile row pos : Nat) : Option (Nat × Nat) :=
  if pos ≠ 16 && spareFree s die tile row then some (row, 16)
  else match s.ras.lastGood.get (tileKey die tile) with
    | 0 => none
    | n => some ((n - 1) / 32, (n - 1) % 32)

/-- R536: a cell that fails its test: counted, reported and retired. -/
def cellFails (die tile row pos opcode : Nat) (s : State) : State :=
  let s := raise 0x1001 1 (unitOf die tile 0) (args32 [(row : Int), (pos : Int), (opcode : Int)]) (count die 0x6000 tile 1 s)
  retireCell die tile row pos s

/-- R535: a position takes part in the self-tests where it is in service, or a spare not in use and not unusable. -/
def testable (s : State) (die tile row pos : Nat) : Bool :=
  s.fabric.retired.get (rowKey die tile row) != pos + 1 && !(pos == 16 && s.fabric.spareBad.get (rowKey die tile row))

/-- What a cell's test found: the cells that differ from the reference fail; where all three differ, the reference unit is judged
by its second instruction set (R536). -/
def testOutcome (die tile row pos opcode : Nat) (cell partner store reference : Bool) (s : State) : State :=
  let p := (testPartner s die tile row pos).filter fun q => testable s die tile q.1 q.2
  if cell && partner && reference then tileLost die tile 5 s
  else
    let s := match p with
      | some (r, q) => if partner then cellFails die tile r q opcode s else s
      | none => s
    if cell || store then cellFails die tile row pos opcode s
    else s.onRas fun x => { x with lastGood := x.lastGood.set (tileKey die tile) (row * 32 + pos + 1) }

/-- Whether every position that takes part has been tested in the present pass over a tile (R535; 15 R454). -/
def allTested (s : State) (die tile : Nat) : Bool :=
  (upTo 8).all fun r => (upTo 17).all fun p => !testable s die tile r p || bit (s.ras.testedCells.get (tileKey die tile)) (17 * r + p)

/-- The last test of a pass over a tile. -/
def passEnds (die tile : Nat) (s : State) : State := s.onRas fun x => { x with
  passAt := x.passAt.set (tileKey die tile) (tmuNs s)
  testedCells := x.testedCells.set (tileKey die tile) 0
  tested := x.tested ||| BitVec.ofNat 64 (2 ^ (8 * die + tile)) }

/-- CELL_SELFTEST: one cell's test of a period, with its partner and the check of its program store. -/
def cellSelftest (die tile row pos opcode : Nat) (cell partner store reference : Bool) (s : State) : State :=
  if !dieUp s die || !clocksRun s || !tileUp s die tile then s
  else
    let s := if testable s die tile row pos then testOutcome die tile row pos opcode cell partner store reference s else s
    let s := s.onRas fun x => { x with testedCells := x.testedCells.modify (tileKey die tile) (Nat.lor · (2 ^ (17 * row + pos))) }
    let s := if tileUp s die tile && allTested s die tile then passEnds die tile s else s
    loseTileless s

def execCellSelftest (die : DieIx) (tile : TileIx) (row : Fin 8) (position : Fin 17) (opcode : Nat)
    (cellDiffers partnerDiffers storeDiffers referenceFails : Bool) (s : State) : Host.Outcome State Fault Refusal :=
  .next (cellSelftest die tile row position opcode cellDiffers partnerDiffers storeDiffers referenceFails s)

/-- CROSSCHECK_RETEST (R538): a unit that fails, or a second transient within one hour, takes the tile out of service. -/
def crosscheckRetest (die tile : Nat) (fails : Bool) (s : State) : State :=
  let k := tileKey die tile
  if !dieUp s die || !clocksRun s || !tileUp s die tile then s
  else if fails then loseTileless (tileLost die tile 5 s)
  else
    let again : Bool := match s.ras.transientAt.get k with
      | some t => decide (nowNs s < t + hourNs)
      | none => false
    let s := s.onRas fun x => { x with transientAt := x.transientAt.set k (some (nowNs s)) }
    if again then loseTileless (tileLost die tile 5 s) else s

def execCrosscheckRetest (die : DieIx) (tile : TileIx) (unitFails : Bool) (s : State) : Host.Outcome State Fault Refusal :=
  .next (crosscheckRetest die tile unitFails s)

/-! ### Counter flags (R540, R545, R552) -/

/-- COUNTER_FLAGS_CLEAR. -/
def counterFlagsClear (ev die inst flags : Nat) (s : State) : State :=
  if counterHeld s die ev inst then answer stDone (clearFlags die ev inst flags s) else answer stNotFound s

def execCounterFlagsClear (role : Role) (event : BitVec 16) (die : Byte) (instance_ : BitVec 16) (flags : Byte) (s : State) :
    Host.Outcome State Fault Refusal :=
  .next (guardWrite role 0x10F002 1 (counterFlagsClear event.toNat die.toNat instance_.toNat flags.toNat) s)

end Sys2Proof.Machine
end

