-- ==== Sys2Proof/Machine/Dictionary.lean ====
section
/-! DEFINITION. The object dictionary: which objects exist, their access codes, sizes, plain values and ranges (16 R478 to R484,
R491 and the object tables of every chapter: 00 R4, 02 R72, 03 R116, 04 R140, 05 R190, 07 R266, 08 R298, 09 R335, 10 R360, 11 R377,
12 R398, 13 R425, 14 R446, 15 R465, 17 R526, 18 R552). -/

namespace Sys2Proof.Machine

/-- Access codes of 00 R13 as objects use them. -/
inductive Access where
  | ro | rw | wo | rc | w1c
  deriving DecidableEq, Repr

/-- The length that a WRITE may have (R480): one size, up to a size (bytes[n]), or any (lists, records of variable size). -/
inductive Size where
  | exactly (n : Nat)
  | upToN (n : Nat)
  | any
  deriving DecidableEq, Repr

/-- An object: access, size, and for an object that holds a plain value its default and range. -/
structure Obj where
  access : Access
  size : Size
  plain : Option (Nat × Int × Int × Bool)
  deriving DecidableEq, Repr

/-- A plain unsigned value of `n` bytes. -/
def plainU (n dflt lo hi : Nat) : Option Obj := some ⟨.rw, .exactly n, some (dflt, (lo : Int), (hi : Int), false)⟩
/-- A plain signed value of `n` bytes. -/
def plainI (n dflt : Nat) (lo hi : Int) : Option Obj := some ⟨.rw, .exactly n, some (dflt, lo, hi, true)⟩
def ro (n : Nat) : Option Obj := some ⟨.ro, .exactly n, none⟩
def roAny : Option Obj := some ⟨.ro, .any, none⟩
def rwOwn (n : Nat) : Option Obj := some ⟨.rw, .exactly n, none⟩
def wo (n : Nat) : Option Obj := some ⟨.wo, .exactly n, none⟩
def woBytes (n : Nat) : Option Obj := some ⟨.wo, .upToN n, none⟩
def woAny : Option Obj := some ⟨.wo, .any, none⟩

/-- Picks an object by subindex from a list that starts at subindex 1. -/
def bySub (l : List (Option Obj)) (sub : Nat) : Option Obj := if sub = 0 then none else (l.getD (sub - 1) none)
/-- The same object at subindices 1 to `n`. -/
def subs (n sub : Nat) (o : Option Obj) : Option Obj := if 1 ≤ sub && sub ≤ n then o else none

def obj00 (low sub : Nat) : Option Obj :=
  match low with
  | 0x0001 => bySub [ro 1, ro 1] sub
  | 0x0002 => bySub [ro 1, ro 1, ro 1, wo 1, ro 1, roAny, ro 2, roAny] sub
  | 0x0010 => bySub [ro 1, ro 1, ro 8, ro 1, ro 4, ro 1] sub
  | _ => none

def obj01 (low sub : Nat) : Option Obj :=
  match low with
  | 0x0001 => bySub [ro 4, ro 1, ro 2, ro 1, wo 1] sub
  | 0x0002 => bySub [rwOwn 4, woBytes 1024, wo 1, ro 1] sub
  | 0x0003 => bySub [roAny, woAny, ro 1] sub
  | 0x0004 => bySub [ro 8, ro 6, ro 32, woBytes 32, ro 17440, ro 256, wo 33] sub
  | 0x0005 => bySub [some ⟨.rw, .upToN 32, none⟩, rwOwn 4, roAny, some ⟨.rc, .exactly 4, none⟩, roAny] sub
  | 0x0010 => bySub [woBytes 32, woBytes 32, woBytes 32, woBytes 32, plainU 2 0xFFFF 0 0xFFFF, plainU 2 60 5 3600, roAny, wo 1] sub
  | 0x0020 => bySub [woBytes 32, plainU 2 1000 100 10000, plainU 2 200 50 2000, plainU 2 30 5 600, plainU 2 1000 0 60000,
      plainU 1 2 0 2, roAny] sub
  | _ => if 0x0030 ≤ low && low < 0x0034 then bySub [some ⟨.rw, .upToN 16, none⟩, plainU 2 47302 1024 65535, ro 1, ro 4] sub else none

def obj02 (low sub : Nat) : Option Obj :=
  match low with
  | 0x0001 => bySub [ro 2, ro 4, ro 2] sub
  | 0x0002 => subs 9 sub (ro 2)
  | 0x0003 => subs 8 sub (ro 2)
  | 0x0004 => bySub [plainU 1 100 80 105, plainU 1 75 50 80] sub
  | 0x0005 => bySub [ro 1, rwOwn 1] sub
  | 0x0006 => bySub [ro 1, ro 1] sub
  | _ => none

def obj04 (low sub : Nat) : Option Obj :=
  let fp (base : Nat) : Bool := base ≤ low && low < base + 256
  if low = 0x0001 then bySub [rwOwn 1, rwOwn 1, rwOwn 1, plainU 2 60 60 160, plainU 2 35 32 50, plainU 2 500 100 2000,
    some ⟨.rw, .exactly 4, none⟩, roAny] sub
  else if 0x0010 ≤ low && low < 0x0020 then bySub [ro 1, ro 1] sub
  else if 0x0020 ≤ low && low < 0x0030 then subs 9 sub (ro 2)
  else if 0x0030 ≤ low && low < 0x0040 then subs 9 sub (rwOwn 2)
  else if 0x0040 ≤ low && low < 0x0050 then bySub [wo 1, wo 1] sub
  else if 0x0050 ≤ low && low < 0x0054 then subs 9 sub (ro 2)
  else if 0x0060 ≤ low && low < 0x0064 then subs 9 sub (rwOwn 2)
  else if 0x0080 ≤ low && low < 0x00C0 then (if (low - 0x80) / 8 = (low - 0x80) % 8 then none else subs 1 sub roAny)
  else if fp 0x0100 then bySub [some ⟨.rw, .any, none⟩, roAny, roAny, rwOwn 1, plainU 1 0 0 255, wo 1, wo 1] sub
  else if fp 0x0200 then subs 8 sub roAny
  else if fp 0x0300 || fp 0x0400 then subs 9 sub roAny
  else if fp 0x0500 then subs 1 sub (wo 4)
  else none

def obj05 (low sub : Nat) : Option Obj :=
  if low = 0x0001 then bySub [plainI 2 64636 (-1000) 0, plainI 2 100 (-300) 400] sub
  else if low = 0x0002 then bySub [wo 10, wo 7, ro 4] sub
  else if low = 0x0003 then subs 8 sub (ro 1)
  else if 0x0100 ≤ low && low < 0x0200 then subs 1 sub (ro 2)
  else if 0x1000 ≤ low && low < 0x1200 then bySub [ro 1, roAny, roAny] sub
  else none

def obj06 (low sub : Nat) : Option Obj :=
  let ep (base : Nat) : Bool := base ≤ low && low < base + 32
  if low = 0x0001 then bySub [plainU 1 0 0 1, some ⟨.rw, .upToN 16, none⟩, some ⟨.rw, .upToN 16, none⟩, plainU 1 0 0 3, ro 1] sub
  else if ep 0x0100 then bySub [rwOwn 1, rwOwn 1, rwOwn 1, some ⟨.rw, .upToN 6, none⟩, some ⟨.rw, .any, none⟩, ro 1, rwOwn 1, rwOwn 1] sub
  else if ep 0x0200 then subs 4 sub roAny
  else if ep 0x0300 then subs 4 sub (some ⟨.rc, .exactly 8, none⟩)
  else if ep 0x0400 then bySub [ro 1, roAny] sub
  else none

def obj08 (low sub : Nat) : Option Obj :=
  if low = 0x0001 then bySub [rwOwn 1, plainU 2 17881 0 32767] sub
  else if low = 0x0002 then subs 1 sub (plainU 4 1000000 0 1000000)
  else if low = 0x0003 then subs 8 sub roAny
  else if low = 0x0004 then subs 8 sub (rwOwn 8)
  else if 0x0100 ≤ low && low < 0x0120 then (if sub = 0 then plainU 1 0 0 1 else subs 4 sub (rwOwn 20))
  else if 0x0200 ≤ low && low < 0x0207 then subs 8 sub (rwOwn 8)
  else if 0x0300 ≤ low && low < 0x0307 then subs 8 sub (ro 8)
  else none

def obj09 (low sub : Nat) : Option Obj :=
  let p (base n : Nat) : Bool := base ≤ low && low < base + n
  if low = 0x0001 then subs 8 sub (rwOwn 1)
  else if low = 0x0002 then bySub [plainU 1 75 10 95, plainU 1 60 5 255, plainU 4 65536 4352 1048576, plainU 1 90 50 98] sub
  else if low = 0x0003 then bySub [plainI 1 0 (-4) 3, plainU 4 131072 9216 4194304, plainU 4 262144 9216 8388608] sub
  else if low = 0x0004 then subs 1 sub (plainU 4 0xFFFFFFFF 0 0xFFFFFFFF)
  else if low = 0x0005 then subs 1 sub (plainU 1 1 1 36)
  else if p 0x0010 8 then bySub [rwOwn 1, plainU 4 0 0 1000000000] sub
  else if p 0x0020 8 then subs 1 sub (plainU 2 64 1 1024)
  else if low = 0x0030 then subs 1 sub (plainU 4 100 1 60000)
  else if p 0x0100 288 then bySub [plainU 1 0xFF 0 0xFF, rwOwn 1, ro 1, ro 1] sub
  else if p 0x0400 288 then subs 8 sub (plainU 4 0 0 1600000)
  else if p 0x0600 288 then subs 8 sub (plainU 4 18432 9216 16777216)
  else if p 0x0800 288 then subs 8 sub (plainU 4 0 0 1600000)
  else if p 0x0A00 288 then subs 8 sub (plainU 4 18432 9216 16777216)
  else if p 0x0C00 288 then
    bySub [plainU 2 0xFFFF 1 0xFFFF, plainU 4 65536 18432 4194304, plainU 4 100 1 10000, plainU 4 200 1 10000, ro 1,
      some ⟨.w1c, .exactly 1, none⟩] sub
  else none

def obj0A (low sub : Nat) : Option Obj :=
  match low with
  | 0x0001 => bySub [plainU 2 0xFFFF 0 0xFFFF, plainU 2 47300 1024 65535, some ⟨.rw, .upToN 14, none⟩, plainU 2 25 1 10000,
      plainU 4 1000000 0 10000000, plainU 2 1024 0 2048, rwOwn 1] sub
  | 0x0002 => bySub [woAny, woAny, ro 4] sub
  | 0x0003 => subs 8 sub (ro 2)
  | 0x0004 => subs 8 sub (ro 4)
  | 0x0100 => bySub [plainU 2 0 0 0xFFFF, roAny, roAny, wo 1] sub
  | _ => if 0x0400 ≤ low && low < 0x0400 + 288 then subs 1 sub (some ⟨.rw, .upToN 6, none⟩) else none

def obj0B (low sub : Nat) : Option Obj :=
  match low with
  | 0x0001 => bySub [rwOwn 4, woBytes 1024, wo 1, ro 2, rwOwn 1] sub
  | 0x0002 => subs 1 sub (wo 1)
  | 0x0003 => bySub [wo 3, wo 2, ro 2] sub
  | 0x0004 => subs 1 sub roAny
  | 0x0005 => bySub [wo 1, wo 4] sub
  | 0x0006 => subs 8 sub (ro 8)
  | _ => if 0x0101 ≤ low && low ≤ 0x0140 then bySub [roAny, roAny] sub else none

def obj0C (low sub : Nat) : Option Obj :=
  match low with
  | 0x0001 => bySub [wo 24, wo 2, ro 4] sub
  | 0x0002 => subs 8 sub (ro 8)
  | 0x0003 => subs 8 sub (ro 8)
  | 0x0004 => subs 1 sub (plainU 2 2000 0 64000)
  | 0x0005 => subs 1 sub (wo 7)
  | 0x0006 => bySub [wo 13, roAny] sub
  | 0x0007 => bySub [wo 2, wo 2, roAny] sub
  | _ => if 0x1001 ≤ low && low ≤ 0x2000 then bySub [roAny, ro 1, rwOwn 1, some ⟨.rw, .upToN 64, none⟩, roAny] sub else none

def obj0D (low sub : Nat) : Option Obj :=
  if low = 0x0001 then bySub [rwOwn 1, plainU 4 1000 0 100000000, plainU 4 1000 0 1000000, plainU 1 0 0 1, rwOwn 4, ro 1, ro 4, roAny,
    wo 7] sub
  else if low = 0x0002 then subs 8 sub (ro 2)
  else if 0x0100 ≤ low && low < 0x0100 + 288 then subs 1 sub (plainU 1 1 0 1)
  else none

def obj0E (low sub : Nat) : Option Obj :=
  match low with
  | 0x0001 => subs 9 sub roAny
  | 0x0002 => subs 9 sub (wo 1)
  | 0x0003 => subs 9 sub (ro 32)
  | _ => none

def obj10 (low sub : Nat) : Option Obj :=
  if low = 0xF001 then bySub [plainU 2 10 1 10, plainU 2 256 0 256, plainU 2 24 1 168, plainU 4 1000 1 10000000, plainU 1 0 0 31, wo 1,
    roAny] sub
  else if low = 0xF002 then subs 1 sub (wo 6)
  else if low < 0xF000 && (upTo 9).any (fun d => counterNamed 24 d low 0) then subs 9 sub roAny
  else none

def obj1F (low sub : Nat) : Option Obj :=
  match low with
  | 0x0001 => bySub [rwOwn 4, rwOwn 4, some ⟨.rw, .upToN 1024, none⟩] sub
  | 0x0002 => subs 9 sub roAny
  | _ => none

/-- The object of an index and subindex. -/
def objOf (idx sub : Nat) : Option Obj :=
  let low := idx % 65536
  match idx / 65536 with
  | 0x00 => obj00 low sub
  | 0x01 => obj01 low sub
  | 0x02 => obj02 low sub
  | 0x04 => obj04 low sub
  | 0x05 => obj05 low sub
  | 0x06 => obj06 low sub
  | 0x08 => obj08 low sub
  | 0x09 => obj09 low sub
  | 0x0A => obj0A low sub
  | 0x0B => obj0B low sub
  | 0x0C => obj0C low sub
  | 0x0D => obj0D low sub
  | 0x0E => obj0E low sub
  | 0x10 => obj10 low sub
  | 0x1F => obj1F low sub
  | _ => none

/-- R480: whether a WRITE may have a length. -/
def sizeOk : Size → Nat → Bool
  | .exactly n, k => k == n
  | .upToN n, k => k ≤ n
  | .any, _ => true

/-- R13: whether an access code lets an object be written, or read. -/
def Access.writes : Access → Bool
  | .rw | .wo | .w1c => true
  | .ro | .rc => false
def Access.reads : Access → Bool
  | .wo => false
  | _ => true

/-- R483: whether a role reads objects of a range. -/
def roleReads (r : Role) (idx : Nat) : Bool := r != .observer || idx / 65536 != 0x1F

/-- R483, R485: OPERATOR and FABRIC also write REG_ADDR. -/
def alsoWrites (r : Role) (idx sub : Nat) : Bool := idx == 0x1F0001 && sub == 1 && (r == .operator || r == .fabric)

/-- R482 up to BAD_LENGTH for a WRITE. -/
def writeStatus (r : Role) (idx sub len : Nat) (s : State) : Nat :=
  match objOf idx sub with
  | none => stNoObject
  | some o =>
    let c := writeCheck r idx sub s
    if c = stUnitAbsent || c = stNotReady then c
    else if !o.access.writes then stDenied
    else if c ≠ stDone && !alsoWrites r idx sub then c
    else if !sizeOk o.size len then stBadLength
    else stDone

/-- R482 for a READ. -/
def readStatus (r : Role) (idx sub : Nat) (s : State) : Nat :=
  match objOf idx sub with
  | none => stNoObject
  | some o =>
    if isS s && (idx / 65536 == 0xB || idx / 65536 == 0xC) then stUnitAbsent
    else if !objReady s idx sub then stNotReady
    else if !o.access.reads || !roleReads r idx then stDenied
    else stDone

end Sys2Proof.Machine
end

