-- ==== Sys2Proof/Machine/ObjRead.lean ====
section
/-! DEFINITION. What each object reads as (16 R478 to R480, R555 and the object tables of every chapter). A value is its bytes,
or the items of a record list. -/

namespace Sys2Proof.Machine

/-- The value of an object. -/
inductive Val where
  /-- the named item does not exist -/
  | missing
  | bytes (b : Bytes)
  | items (l : List Bytes)
  deriving DecidableEq, Repr

def be (n v : Nat) : Val := .bytes (beBytes n v)
def beI (n : Nat) (v : Int) : Bytes := beBytes n (unsigned (8 * n) v)
def bool8 (b : Bool) : Nat := if b then 1 else 0

/-- R3: AIHORN_STATUS and RESIDENT_STATUS. The rule does not say when the fabric or the service as a whole is OUT_OF_SERVICE: the
model has it so when the last tile, or the last memory package, has left service (DESIGN CHOICE, log 174). -/
def aihornStatus (s : State) : Nat := if isS s then 0 else if s.start.aihornTiles = 0 then 2 else 1
def residentStatus (s : State) : Nat := if isS s then 0 else if s.start.memPackages = 0 then 2 else 1

/-- START_RECORD (15 R465, 16 R555). -/
def startRecord (s : State) : Bytes :=
  ([2, 3, 4, 5, 6, 7, 8].flatMap fun c => beBytes 4 (s.start.entryTime.get c).toNat)
    ++ beBytes 1 ((upTo 8).foldl (fun a d => if s.start.removed.get d = 0 then a else a + 2 ^ d) 0)
    ++ (upTo 8).flatMap fun d => beBytes 1 (s.start.removed.get d)

/-- FREEZE_RECORD (15 R465, 18 R548). -/
def freezeBytes (s : State) : Bytes :=
  let w (d k : Nat) : Nat := (s.ras.frz.get (d * 64 + k)).toNat
  beBytes 4 (w 8 0) ++ beBytes 1 (w 8 1) ++ beBytes 4 (w 8 2)
    ++ (upTo 9).flatMap fun d => (upTo 7).flatMap fun i => beBytes 4 (w d (17 + 2 * i)) ++ beBytes 4 (w d (16 + 2 * i))

def read00 (low sub : Nat) (s : State) : Val :=
  match low, sub with
  | 0x0001, 1 => be 1 s.start.partCode.toNat
  | 0x0001, 2 => be 1 s.start.stepping.toNat
  | 0x0002, 1 => be 1 (stateCode s.start.state)
  | 0x0002, 2 => be 1 s.start.haltCause
  | 0x0002, 3 => be 1 s.start.causes.toNat
  | 0x0002, 5 => be 1 (bool8 s.start.serviceEntered)
  | 0x0002, 6 => .bytes (startRecord s)
  | 0x0002, 7 => be 2 2000
  | 0x0002, 8 => .bytes (freezeBytes s)
  | 0x0010, 1 => be 1 s.start.sectorDies.toNat
  | 0x0010, 2 => be 1 (aihornStatus s)
  | 0x0010, 3 => be 8 s.start.aihornTiles.toNat
  | 0x0010, 4 => be 1 (residentStatus s)
  | 0x0010, 5 => be 4 s.start.memPackages.toNat
  | 0x0010, 6 => be 1 s.start.keeperStatus.toNat
  | _, _ => .missing

/-- An item of FUSE_FIELDS: voted value and minority flag; IDENTITY_SEED is reported by no object (14 R427). -/
def fuseItem (s : State) (f : Nat) : Bytes :=
  beBytes (ceilDiv ((fuseBits f).getD 8) 8) (s.keeper.voted.get f) ++ beBytes 1 (bool8 (s.keeper.minority.contains f))

/-- Whole seconds since a session's last valid message. -/
def idleSeconds (s : State) (x : Session) : Nat := (wallNs s - x.lastAt) / 1000000000

/-- Items of SESSIONS (16 R555): the 16-byte source address is the low part of the source as the commands name it. -/
def sessionItem (s : State) (i : Nat) (x : Session) : Bytes :=
  beBytes 1 i ++ beBytes 1 (roleCode x.role) ++ beBytes 16 x.source ++ beBytes 2 x.accepted.length ++ beBytes 4 (idleSeconds s x)

def oldestSeq (s : State) : Nat := match s.bop.ring with
  | [] => s.bop.nextSeq
  | e :: _ => e.seq
def highestSeq (s : State) : Nat := (s.bop.nextSeq + 0xFFFFFFFF) % 2 ^ 32

def read01 (low sub cursor : Nat) (s : State) : Val :=
  match low, sub with
  | 0x0001, 1 => be 4 s.keeper.fwVersion.toNat
  | 0x0001, 2 => be 1 s.keeper.fwSvn
  | 0x0001, 3 => be 2 (bootStatus s)
  | 0x0001, 4 => be 1 (rollback s)
  | 0x0002, 1 => be 4 s.keeper.stageOffset
  | 0x0002, 4 => be 1 s.keeper.fwResult
  | 0x0003, 1 => .items ((upTo 89).map (fuseItem s))
  | 0x0003, 3 => be 1 s.keeper.fuseResult
  | 0x0004, 1 => be 8 (serial s)
  | 0x0004, 2 => be 6 (macBase s)
  | 0x0004, 3 => .bytes s.keeper.identityPub
  | 0x0004, 5 => .bytes s.keeper.attestReport
  | 0x0004, 6 => .bytes ((upTo 8).flatMap fun i => s.keeper.meas.get i)
  | 0x0005, 1 => be 32 (traceEnable s)
  | 0x0005, 2 => be 4 cursor
  | 0x0005, 3 => .items ((logFrom s cursor 64).1.map logItem)
  | 0x0005, 4 => be 4 s.keeper.logLost
  | 0x0005, 5 => .items (s.keeper.logPrev.map logItem)
  | 0x0010, 7 => .items ((upTo 8).filterMap fun i => (s.bop.sessions.get i).map (sessionItem s i))
  | 0x0020, 7 => .bytes (beBytes 4 (oldestSeq s) ++ beBytes 4 (highestSeq s) ++ beBytes 2 s.bop.ring.length)
  | _, _ =>
    if 0x0030 ≤ low && low < 0x0034 then
      let c := s.bop.collectors.get (low - 0x30)
      match sub with
      | 1 => .bytes c.address
      | 3 => be 1 c.state
      | 4 => be 4 c.acked
      | _ => .missing
    else .missing

def read02 (low sub : Nat) (s : State) : Val :=
  match low, sub with
  | 0x0001, 1 => be 2 s.power.vinMv
  | 0x0001, 2 => be 4 s.power.iinMa
  | 0x0001, 3 => be 2 (s.power.vinMv * s.power.iinMa / 1000000)
  | 0x0002, j => .bytes (beI 2 (maxOf (tjOf s (j - 1))))
  | 0x0003, j => .bytes (beI 2 (maxOf (baseOf s (j - 1))))
  | 0x0005, 1 => be 1 (refclkState s)
  | 0x0005, 2 => be 1 (cfgRefPrefer s)
  | 0x0006, 1 => be 1 s.power.bootPins
  | 0x0006, 2 => be 1 s.power.resetCause
  | _, _ => .missing

def ringStateCode : RingState → Nat
  | .off => 0 | .seek => 1 | .acquire => 2 | .verify => 3 | .locked => 4 | .fault => 5

/-- The heater power of a ring; 20 mW while the device waits in MEM_TRAIN for a base layer of 25 degrees C
(13 R422; DEDUCED, log 179). -/
def heaterNow (s : State) (r : Ring) : Nat :=
  if s.start.state == .memTrain && (diesUp s).any (fun d => (baseOf s d).any (· < 250)) then 2000 else r.heater

def ringRecord (s : State) (r : Ring) : Bytes :=
  beBytes 1 (ringStateCode r.state) ++ beBytes 2 (heaterNow s r) ++ beBytes 2 r.sp ++ beI 2 r.spTemp ++ beI 2 r.tcoef

/-- LANE_STATUS (09 R335); a margin or an estimate not taken reads 0 (DESIGN CHOICE, log 81). -/
def laneStatus (s : State) (p l : Nat) : Bytes :=
  let x := laneAt s p l
  let o (v : Option Int) : Bytes := beI 2 (v.getD 0)
  beBytes 1 (laneCode x.state) ++ beBytes 1 (txSlotOf s p l) ++ beBytes 1 (rxSlotOf s p l) ++ o x.txMargin ++ o x.rxMargin
    ++ o x.peerEstimate ++ o x.estimate ++ beI 2 x.s3 ++ beI 2 x.s6 ++ beBytes 4 x.loopErrors

/-- MESH_CHANNELS: working count, spares in use, channel states. -/
def meshChannels (s : State) (a b : Nat) : Bytes :=
  let st (c : Nat) : Nat := s.optics.channels.get (channelKey a b c)
  beBytes 4 (channelsWork s a b) ++ beBytes 4 (((upTo 88).filter fun c => 80 ≤ c && st c == 2).length)
    ++ beBytes 2 88 ++ (upTo 88).flatMap fun c => beBytes 1 (st c)

/-- An item of RING_NOTICES: port or mesh channel, ring, state, heater. A ring is numbered as in UNIT of RING_FAULT: a port's slot
with 0, 16, 32 or 48 more for the transmit, receive, express drop and express add ring; 64 and 65 are the rings of mesh channel
1,024 s + 128 t + n at its two ends (DESIGN CHOICE, log 187). -/
def noticeItem (x : Nat × Nat × Nat) : Bytes :=
  let kind := x.1 / 2 ^ 20
  let k := x.1 % 2 ^ 20
  let mesh := kind == 2 || kind == 3
  let ring := if mesh then 62 + kind else k % 16 + (if kind < 2 then 16 * kind else 16 * (kind - 2))
  beBytes 2 (if mesh then k else k / 16) ++ beBytes 1 ring ++ beBytes 1 x.2.1 ++ beBytes 2 x.2.2

def optNode (v : Option (Nat × Nat)) : Bytes := match v with
  | some (n, p) => beBytes 4 n ++ beBytes 2 p
  | none => []

def read04 (low sub : Nat) (s : State) : Val :=
  let line (m : Nat) : Val := .bytes (beI 2 ((elsOf s m).power.get (sub - 1)))
  let baseline (m : Nat) : Val := .bytes (beI 2 (((elsOf s m).baseline.get (sub - 1)).getD 0))
  if low = 0x0001 then
    match sub with
    | 1 => be 1 (cfgRingLockMode s)
    | 2 => be 1 (cfgMigrationMode s)
    | 3 => be 1 (cfgMarginMode s)
    | 7 => be 4 (cfgNodeId s)
    | 8 => .items (s.optics.notices.map noticeItem)
    | _ => .missing
  else if low < 0x0020 then be 1 (if sub = 1 then (elsOf s (low - 0x10)).state else (elsOf s (low - 0x10)).spare)
  else if low < 0x0030 then line (low - 0x20)
  else if low < 0x0040 then baseline (low - 0x30)
  else if low < 0x0050 then .missing
  else if low < 0x0060 then line (16 + (low - 0x50))
  else if low < 0x0070 then baseline (16 + (low - 0x60))
  else if low < 0x0100 then .bytes (meshChannels s ((low - 0x80) / 8) ((low - 0x80) % 8))
  else if low < 0x0200 then
    let p := low - 0x100
    let fp := s.optics.ports.get p
    match sub with
    | 1 => .bytes (optNode (peerExpect s p))
    | 2 => .bytes (optNode fp.peerSeen)
    | 3 => .bytes (((upTo 9).flatMap fun k => beI 2 (fp.s2.get k)) ++ beI 2 fp.s4 ++ beI 2 fp.s5)
    | 4 => be 1 fp.loopMode
    | 5 => be 1 (objGet s (0x040100 + p) 5 0)
    | _ => .missing
  else if low < 0x0300 then .bytes (laneStatus s (low - 0x200) (sub - 1))
  else if low < 0x0400 then .bytes (ringRecord s (ringOf s (txRingKey (low - 0x300) (sub - 1))))
  else if low < 0x0500 then .bytes (ringRecord s (ringOf s (rxRingKey (low - 0x400) (sub - 1))))
  else .missing

def pathStateCode : PathState → Nat
  | .idle => 0 | .scheduled => 1 | .armed => 2 | .active => 3 | .clearing => 4

/-- EXPRESS_LANES of a port: bits 7 to 0 lanes held as source, bits 15 to 8 as sink. -/
def expressLanes (s : State) (p : Nat) : Nat :=
  (upTo 8).foldl (fun a k =>
    let held (f : Path → Nat) : Bool :=
      (s.express.paths.cells.any fun c => c.2.state != .idle && c.1 / 64 == k && f c.2 == p) ||
        s.express.queued.cells.any fun c => c.1 / 64 == k && c.2.any fun x => f x == p
    a + (if held Path.a then 2 ^ k else 0) + (if held Path.b then 2 ^ (8 + k) else 0)) 0

def busesFree (s : State) (k : Nat) : Nat :=
  64 - (s.express.paths.cells.filter fun c => c.2.state != .idle && c.1 / 64 == k).length

/-- The objects of 10 R360. Where an accepted path waits behind one in CLEARING, PATH_STATE and PATH_RECORD are the new path's
(R344), PATH_POWER the bus's (DESIGN CHOICE, log 188). -/
def read05 (low sub : Nat) (s : State) : Val :=
  if low = 0x0002 then be 4 s.express.result
  else if low = 0x0003 then be 1 (busesFree s (sub - 1))
  else if low < 0x0200 then be 2 (expressLanes s (low - 0x100))
  else
    let q := low - 0x1000
    let bus := pathOf s q
    let p := (s.express.queued.get q).getD bus
    match sub with
    | 1 => be 1 (pathStateCode p.state)
    | 2 => .bytes (beBytes 2 p.a ++ beBytes 2 p.b ++ beBytes 4 p.actTime.toNat ++ beBytes 4 p.clearTime.toNat ++ beBytes 1 p.code
        ++ beBytes 4 p.changedAt.toNat)
    | 3 => .bytes (beI 2 bus.e1 ++ beI 2 bus.e2 ++ beI 2 bus.gain
        ++ beBytes 1 (ringStateCode (ringOf s (expDropKey bus.a (pathSlot q))).state)
        ++ beBytes 1 (ringStateCode (ringOf s (expAddKey bus.b (pathSlot q))).state))
    | _ => .missing

/-- LANE_EQ of a lane (11 R377): CTLE setting 1, taps 2 each, signal-to-noise ratio 2, BER 4 (widths DESIGN CHOICE, log 82). -/
def laneEq (s : State) (n l : Nat) : Bytes :=
  let e := epOf s n
  beI 1 (e.eq.get (l * 64)) ++ ((upTo 36).flatMap fun k => beI 2 (e.eq.get (l * 64 + 1 + k)))
    ++ ((upTo 5).flatMap fun k => beI 2 (e.taps.get (l * 8 + k))) ++ beI 2 (e.eq.get (l * 64 + 37)) ++ beI 4 (e.eq.get (l * 64 + 38))

/-- MP_STATE (11 R377): bit 2 as R376 chooses the port now. -/
def mpState (s : State) : Nat := s.mgmt.mpUp.toNat + (if foghornPort s = 1 then 4 else 0)

/-- The bytes of MODULE_ID that come from the module: identifier, vendor name, part number, serial number; then the selected
application. -/
def moduleId (s : State) (n : Nat) : Bytes := padTo 49 (epOf s n).identity ++ beBytes 1 (epOf s n).application

def read06 (low sub : Nat) (s : State) : Val :=
  if low = 0x0001 then
    match sub with
    | 2 => .bytes (cfgMpAddr s 0)
    | 3 => .bytes (cfgMpAddr s 1)
    | 5 => be 1 (mpState s)
    | _ => .missing
  else if low < 0x0200 then
    let n := low - 0x100
    match sub with
    | 1 => be 1 (objGet s (0x060100 + n) 1 1)
    | 2 => be 1 (objGet s (0x060100 + n) 2 0)
    | 3 => be 1 (objGet s (0x060100 + n) 3 0)
    | 4 => be 6 (cfgRouterMac s n)
    | 5 => .items (recordItems 4 (varBytes (objGet s (0x060100 + n) 5 0)))
    | 6 => be 1 (epOf s n).membersUp.toNat
    | 7 => be 1 (objGet s (0x060100 + n) 7 0)
    | 8 => be 1 (epOf s n).eqFreeze.toNat
    | _ => .missing
  else if low < 0x0300 then .bytes (laneEq s (low - 0x200) (sub - 1))
  else if low < 0x0400 then be 8 ((epOf s (low - 0x300)).loopErrors.get (sub - 1))
  else if sub = 1 then be 1 (epOf s (low - 0x400)).moduleState
  else .bytes (moduleId s (low - 0x400))

/-- EXPIRY_NOTICES of a die (02 R62). The rule does not say when a notice leaves the queue: the model keeps it until AGING_MODE
passes to hardware (DESIGN CHOICE, log 173). -/
def expiryNotices (s : State) (d : Nat) : List Bytes := (s.tables.notices.get d).map fun x => padTo 20 x.1 ++ beBytes 2 x.2.toNat

def read08 (low sub : Nat) (s : State) : Val :=
  let d := sub - 1
  if low = 0x0001 then be 1 (cfgAgingMode s)
  else if low = 0x0003 then .items (expiryNotices s d)
  else if low = 0x0004 then .bytes (beBytes 4 (s.tables.seed0.get d).toNat ++ beBytes 4 (s.tables.seed1.get d).toNat)
  else if low < 0x0120 then be 20 (objGet s (0x080000 + low) sub 0)
  else if low < 0x0207 then be 8 ((s.tables.reference.get (digKey d (low - 0x200))).getD 0).toNat
  else be 8 (tableDigest s d (low - 0x300)).toNat

def read09 (low sub : Nat) (s : State) : Val :=
  if low = 0x0001 then be 1 (cfgCarveout s (sub - 1))
  else if low < 0x0020 then be 1 (cfgClassFlags s (low - 0x10))
  else if low < 0x0300 then
    let p := low - 0x100
    match sub with
    | 2 => be 1 (cfgDrain s p)
    | 3 => be 1 (s.switch.drainState.get p)
    | 4 => be 1 ((sprayLanes s p).foldl (fun a k => a + 2 ^ k) 0)
    | _ => .missing
  else
    let p := low - 0xC00
    if sub = 5 then be 1 (flowHeld s p) else be 1 (s.flow.tripped.get p).toNat

/-- GROUP_SELECT. -/
def groupSelect (s : State) : Nat := objGet s 0x0A0100 1 0

/-- GROUP_RECORD (16 R555). Every home die keeps slots of the group: the states are those of the lowest-numbered one, or of the
first die of L where the group has no home (DESIGN CHOICE, log 172). -/
def groupRecord (s : State) (g : Group) : Bytes :=
  let d := (homeDies s g).headD (g.dies.headD 0)
  let k := gK g.record
  g.record ++ beBytes 4 g.sig.toNat ++ beBytes 1 g.dies.length
    ++ (((g.dies.map (BitVec.ofNat 8)) ++ List.replicate 8 0xFF).take 8) ++ beBytes 1 k
    ++ (upTo k).flatMap fun i =>
        let x := s.coll.slots.get (slotOf d (gId g.record) i)
        beBytes 2 x.inst.toNat ++ beBytes 1 (bool8 x.isOpen)

/-- An item of LAG_RECORDS. -/
def lagItem (s : State) (id c : Nat) : Bytes :=
  let l := s.coll.lags.get (lagKey id c)
  beBytes 1 c ++ beBytes 8 l.samples ++ beBytes 8 l.sum ++ beBytes 4 l.largest ++ beBytes 8 l.lastCount

def read0A (low sub : Nat) (s : State) : Val :=
  let sel := groupSelect s
  match low, sub with
  | 0x0001, 3 => be 14 (objGet s 0x0A0001 3 0)
  | 0x0001, 7 => be 1 (cfgCollRecovery s)
  | 0x0002, 3 => be 4 (mooredGroups s).length
  | 0x0003, j => be 2 (s.coll.ctxFree.get (j - 1))
  | 0x0004, j => be 4 (s.coll.slotsFree.get (j - 1))
  | 0x0100, 2 => match groupOf s 8 sel with
    | some g => .bytes (groupRecord s g)
    | none => .missing
  | 0x0100, 3 => match groupOf s 8 sel with
    | some g => .items ((upTo (gMembers g.record)).map (lagItem s sel))
    | none => .missing
  | _, _ => if 0x0400 ≤ low then be 6 (cfgPeerMac s (low - 0x400)) else .missing

/-- TILE_MAP of a die: the handle placed on each tile. -/
def tileMap (s : State) (d : Nat) : Bytes :=
  (upTo 8).map fun t => BitVec.ofNat 8 (((upTo 65).find? fun h =>
    match imageAt s h with
    | some i =>
      let a := s.fabric.placed.get (imgKey d h)
      h != 0 && a != 0 && a - 1 ≤ t && t < a - 1 + i.tiles
    | none => false).getD 0)

/-- An item of FAULT_RECORD (07 R261, R266): handle, die, tile, row, column, cause, program address. -/
def faultItem (h : Nat) (f : ImageFaultRec) : Bytes :=
  beBytes 1 h ++ beBytes 1 f.die ++ beBytes 1 f.tile ++ beBytes 1 f.row ++ beBytes 1 f.col ++ beBytes 1 (causeNumber f.cause) ++ beBytes 1 f.addr

/-- IMAGE_INFO: header, DIGEST, state per die: 0 not placed, 1 placed, 2 FAILED. -/
def imageInfo (s : State) (h : Nat) (i : Image) : Bytes :=
  i.header ++ i.digest ++ (upTo 8).flatMap fun d =>
    beBytes 1 (if s.fabric.failed.get (imgKey d h) then 2 else bool8 (s.fabric.placed.get (imgKey d h) != 0))

def read0B (low sub : Nat) (s : State) : Val :=
  match low, sub with
  | 0x0001, 1 => be 4 s.fabric.stageOffset
  | 0x0001, 4 => be 2 s.fabric.commitResult
  | 0x0001, 5 => be 1 (cfgSpareMode s)
  | 0x0003, 3 => be 2 s.fabric.placeResult
  | 0x0004, 1 => .bytes ((upTo 16).flatMap fun k => beBytes 1 (s.fabric.library.get k))
  | 0x0006, j => .bytes (tileMap s (j - 1))
  | _, _ =>
    let h := low - 0x100
    match imageAt s h with
    | none => .missing
    | some i =>
      if sub = 1 then .bytes (imageInfo s h i) else .items ((s.fabric.faultRec.get h).map (faultItem h))

def regionStateCode : RegionState → Nat
  | .initialising => 1 | .ready => 2 | .importing => 3 | .takeover => 4 | .unprotected => 5 | .broken => 6

/-- The record of R268 as the region was created with it. -/
def regionRecord (h : Nat) (r : Region) : Bytes :=
  beBytes 2 h ++ beBytes 1 r.kind ++ beBytes 1 (bool8 r.mirrored) ++ beBytes 1 r.dieMask.toNat ++ [0, 0, 0]
    ++ beBytes 4 r.blockBytes ++ beBytes 4 r.blocks ++ beBytes 4 r.rowBytes ++ [0, 0, 0, 0]

/-- The lowest and highest SEQ of a region's blocks; both 0 for a SINGLE region. -/
def seqRange (s : State) (h : Nat) (r : Region) : Nat → Option (Nat × Nat) → Option (Nat × Nat)
  | 0, acc => acc
  | n + 1, acc =>
    let q := (getMeta s h n (r.mainCopy n)).seq
    seqRange s h r n (match acc with
      | none => some (q, q)
      | some (a, b) => some (min a q, max b q))

/-- REGION_INFO (16 R555). -/
def regionInfo (s : State) (h : Nat) (r : Region) : Bytes :=
  let at_ (k : Nat) : Bytes := beBytes 8 (r.parts.get k - 1) ++ beBytes 8 (if r.parts.get k = 0 then 0 else r.sizes.get k)
  let q := if r.mirrored then (seqRange s h r r.blocks none).getD (0, 0) else (0, 0)
  regionRecord h r ++ ((upTo 8).flatMap fun d => at_ (partKey d 0) ++ at_ (partKey d 1)) ++ beBytes 8 q.1 ++ beBytes 8 q.2

/-- An item of SUSPECT_LIST. -/
def suspectItem (s : State) (h : Nat) (r : Region) (b : Nat) : Bytes :=
  let q (copy : Nat) : Nat := if r.hasCopy b copy then (getMeta s h b copy).seq else 2 ^ 64 - 1
  beBytes 4 b ++ beBytes 1 (getMeta s h b (r.mainCopy b)).cause ++ beBytes 8 (q 0) ++ beBytes 8 (q 1)

/-- The SUSPECT blocks of a region in order. -/
def suspects (s : State) (h : Nat) : Nat → List Nat → List Nat
  | 0, l => l
  | n + 1, l => suspects s h n (if isSuspect s h n then n :: l else l)

def read0C (low sub : Nat) (s : State) : Val :=
  match low, sub with
  | 0x0001, 3 => be 4 s.resident.regionResult
  | 0x0002, j => be 8 (regionFree s (j - 1))
  | 0x0003, j => be 8 (regionLargest s (j - 1))
  | 0x0006, 2 => .bytes (beBytes 1 s.resident.exportStatus ++ beBytes 4 s.resident.exportSent ++ beBytes 4 s.resident.exportSuspect)
  | 0x0007, 3 => .bytes (beBytes 2 s.resident.importHandle ++ beBytes 4 s.resident.importBlocks ++ beBytes 4 s.resident.importDrop
      ++ beBytes 4 s.resident.importLeft)
  | _, _ =>
    let h := low - 0x1000
    match regionAt s h with
    | none => .missing
    | some r =>
      match sub with
      | 1 => .bytes (regionInfo s h r)
      | 2 => be 1 (regionStateCode r.state)
      | 3 => be 1 (objGet s (0x0C0000 + low) 3 0)
      | 4 =>
        let w := objGet s (0x0C0000 + low) 3 0
        match (upTo 16).find? fun k => r.parts.get k != 0 && dieUp s (k % 8) with
        | some k => .bytes (memBytes s.mem (memAddr (k % 8) (r.parts.get k - 1 + 64 * w)) 64)
        | none => .bytes (List.replicate 64 0)
      | 5 => .items (((suspects s h r.blocks []).take 256).map (suspectItem s h r))
      | _ => .missing

def ppsState (s : State) : Nat := if s.time.ppsLost then 2 else if s.time.ppsEver then 1 else 0

/-- SERVO_RECORD (16 R555): e in ns, f and adj in whole ppb. -/
def servoRecord (s : State) : Bytes :=
  beBytes 4 s.time.ppsNs.toNat ++ beBytes 2 s.time.ppsFrac.toNat ++ beI 4 s.time.servoE ++ beI 4 (s.time.servoF / 16)
    ++ beI 4 (s.time.servoAdj / 16) ++ beBytes 4 s.time.inc.toNat

def read0D (low sub : Nat) (s : State) : Val :=
  match low, sub with
  | 0x0001, 1 => be 1 (cfgServoMode s)
  | 0x0001, 5 => be 4 s.time.target.toNat
  | 0x0001, 6 => be 1 (ppsState s)
  | 0x0001, 7 => .bytes (beI 4 s.time.clk10Ppb)
  | 0x0001, 8 => .bytes (servoRecord s)
  | 0x0002, j => be 2 (s.regs.timed.get (j - 1)).length
  | _, _ => .missing

def read0E (low sub : Nat) (s : State) : Val :=
  let e := sub - 1
  match low with
  | 0x0001 => .bytes (beBytes 4 (engStatus (engineAt s e)) ++ beBytes 8 (engineAt s e).errAddr ++ beBytes 4 (engineAt s e).irqStatus.toNat)
  | 0x0003 => .bytes ((upTo 32).flatMap fun c => beBytes 1 (chOwner s e c))
  | _ => .missing

/-- The instances of an event counter that a die holds (18 R540): the largest instance number is below 2,304. -/
def counterItems (s : State) (die ev : Nat) : List Bytes :=
  ((upTo 2304).filter (counterHeld s die ev)).map fun i =>
    beBytes 2 i ++ beBytes 8 (s.regs.counters.get (cntKey die ev i)) ++ beBytes 1 (s.regs.flags.get (cntKey die ev i))

/-- An item of SELFTEST_RECORD: time of the last completed pass, cells retired, spares usable. -/
def selftestItem (s : State) (d t : Nat) : Bytes :=
  let rows (p : Nat → Bool) : Nat := ((upTo 8).filter p).length
  beBytes 4 (s.ras.passAt.get (tileKey d t)) ++ beBytes 4 (rows fun r => s.fabric.retired.get (rowKey d t r) != 0)
    ++ beBytes 4 (rows fun r => spareFree s d t r)

def read10 (low sub : Nat) (s : State) : Val :=
  if low = 0xF001 then .items ((upTo (if isS s then 0 else 64)).map fun i => selftestItem s (i / 8) (i % 8))
  else .items (counterItems s (sub - 1) low)

/-- CFG_STATE of a die. -/
def read1F (sub : Nat) (s : State) : Val :=
  let d := sub - 1
  .bytes (beBytes 4 (cfgRun s d).toNat ++ beBytes 4 (s.regs.cfgRef.get d).toNat ++ beBytes 4 (cfgStatus s d))

/-- The value of an object. `cursor` is the log cursor of the reading session. -/
def objValue (idx sub cursor : Nat) (s : State) : Val :=
  match objOf idx sub with
  | none => .missing
  | some ⟨_, .exactly n, some (dflt, _, _, _)⟩ => be n (objGet s idx sub dflt)
  | some _ =>
    let low := idx % 65536
    match idx / 65536 with
    | 0x00 => read00 low sub s
    | 0x01 => read01 low sub cursor s
    | 0x02 => read02 low sub s
    | 0x04 => read04 low sub s
    | 0x05 => read05 low sub s
    | 0x06 => read06 low sub s
    | 0x08 => read08 low sub s
    | 0x09 => read09 low sub s
    | 0x0A => read0A low sub s
    | 0x0B => read0B low sub s
    | 0x0C => read0C low sub s
    | 0x0D => read0D low sub s
    | 0x0E => read0E low sub s
    | 0x10 => read10 low sub s
    | 0x1F => if low = 2 then read1F sub s else .missing
    | _ => .missing

/-- What a read of an RC object clears (R13). -/
def readClears (idx sub : Nat) (s : State) : State :=
  if idx = 0x010005 && sub = 4 then s.onKeeper fun k => { k with logLost := 0 }
  else if 0x060300 ≤ idx && idx < 0x060320 then onEp (idx - 0x060300) (fun e => { e with loopErrors := e.loopErrors.set (sub - 1) 0 }) s
  else s

/-- What is brought up to date before a read: records of the log (log 73), what an electrical lane's equaliser settled on, unless
its taps are held, and the errors that the checker of a looped lane has counted since (09 R334). -/
def readFresh (idx sub : Nat) (s : State) : State :=
  if idx = 0x010005 && sub = 3 then
    let (n, s) := draw s
    logSome (n % 65) s
  else if 0x060200 ≤ idx && idx < 0x060220 then eqSettle (idx - 0x060200) (sub - 1) s
  else if 0x060300 ≤ idx && idx < 0x060320 && (epOf s (idx - 0x060300)).loop ≠ 0 then loopCounts (idx - 0x060300) s
  else if 0x040200 ≤ idx && idx < 0x040300 && (laneAt s (idx - 0x040200) (sub - 1)).state = .loop then
    let (v, s) := draw s
    onLane (idx - 0x040200) (sub - 1) (fun x => { x with loopErrors := x.loopErrors + v }) s
  else s

end Sys2Proof.Machine
end

