-- ==== Sys2Proof/Machine/ObjWrite.lean ====
section
/-! DEFINITION. What a write of each object does, after the checks of 16 R482 (R479, R480, R485, R486, R491, R492 and the object
rules of every chapter). A session is named by its number 0 to 7, a role's domain session by 8 plus the role code,
a closed session whose requests still run by 8 more than its place. -/

namespace Sys2Proof.Machine

/-! ### Sessions and keys -/

def sessGet (s : State) (k : Nat) : Option Session :=
  if k < 8 then s.bop.sessions.get k else if k < 16 then s.bop.domain.get (k - 8) else s.bop.sessions.get (k - 8)

def sessPut (k : Nat) (v : Option Session) (s : State) : State :=
  if k < 8 then s.onBop fun b => { b with sessions := b.sessions.set k v }
  else if k < 16 then s.onBop fun b => { b with domain := b.domain.set (k - 8) v }
  else s.onBop fun b => { b with sessions := b.sessions.set (k - 8) v }

/-- A change of a session. -/
def onSess (k : Nat) (f : Session → Session) (s : State) : State := match sessGet s k with
  | some x => sessPut k (some (f x)) s
  | none => s

/-- SESSION_CLOSE. -/
def sessionCloseWrite (n : Nat) (s : State) : State :=
  if 7 < n then answer stBadValue s
  else if (sessGet s n).isNone then answer stNotFound s
  else answer stDone (sessionClosed n s)

def execSessionClose (role : Role) (session : Byte) (s : State) : Host.Outcome State Fault Refusal :=
  .next (guardWrite role 0x010010 8 (sessionCloseWrite session.toNat) s)

/-- R491, R492: a role key by role code; all zero unsets, except for ADMIN. -/
def roleKeyWrite (code : Nat) (key : Bytes) (s : State) : State :=
  let k := padTo 32 key
  if 32 < key.length then answer stBadLength s
  else if code = 1 && allZero k then answer stBadValue s
  else answer stDone (s.onBop fun b => { b with keys := b.keys.set code k })

/-- R492: FOGHORN_KEY. -/
def foghornKeyWrite (key : Bytes) (s : State) : State :=
  if 32 < key.length then answer stBadLength s
  else answer stDone (s.onBop fun b => { b with foghornKey := padTo 32 key })

/-- KEY_WRITE: sub 1 to 4 the role keys, 5 the Foghorn key. -/
def execKeyWrite (role : Role) (sub : Nat) (key : Bytes) (s : State) : Host.Outcome State Fault Refusal :=
  .next <|
    if sub = 5 then guardWrite role 0x010020 1 (foghornKeyWrite key) s
    else guardWrite role 0x010010 sub (if 1 ≤ sub && sub ≤ 4 then roleKeyWrite sub key else answer stNoObject) s

/-- The group address of a domain: ff15::4253:DOMAIN_ID (R486). -/
def domainAddr (v : Nat) : Bytes := [0xFF, 0x15] ++ List.replicate 10 0 ++ [0x42, 0x53] ++ beBytes 2 v

/-- An MLDv2 report of one group record, from a management port (R486; layout PRESUMED, RFC 3810, log 83): join 4, leave 3. -/
def mldReport (s : State) (mp kind : Nat) (group : Bytes) : Bytes :=
  let src := mpLinkLocal s mp
  let dst : Bytes := [0xFF, 0x02] ++ List.replicate 13 0 ++ [0x16]
  let msg : Bytes := [143, 0, 0, 0, 0, 0, 0, 1, BitVec.ofNat 8 kind, 0, 0, 0] ++ group
  let msg := splice msg 2 (beBytes 2 (icmp6Checksum src dst msg))
  let hop : Bytes := [58, 0, 5, 2, 0, 0, 1, 0]
  withFcs ([0x33, 0x33, 0, 0, 0, 0x16] ++ beBytes 6 (mpMac s mp) ++ [0x86, 0xDD, 0x60, 0, 0, 0]
    ++ beBytes 2 (hop.length + msg.length) ++ [0, 1] ++ src ++ dst ++ hop ++ msg)

/-- Both management ports that are up report a change of membership. -/
def mldReports (kind : Nat) (group : Bytes) (s : State) : State :=
  [0, 1].foldl (fun s mp => if s.mgmt.mpUp.getLsbD mp then emitOut (.management mp (mldReport s mp kind group)) s else s) s

/-- DOMAIN_ID (R486). -/
def domainIdWrite (v : Nat) (s : State) : State :=
  let old := cfgDomainId s
  let t := answer stDone (objSet 0x010010 5 v s)
  if old = v then t else
  let t := if old = 0xFFFF then t else mldReports 3 (domainAddr old) t
  if v = 0xFFFF then t else mldReports 4 (domainAddr v) t

def execDomainId (role : Role) (value : BitVec 16) (s : State) : Host.Outcome State Fault Refusal :=
  .next (guardWrite role 0x010010 5 (domainIdWrite value.toNat) s)

/-- R490: a collector written anew starts at OLDEST_SEQ; an address of zero leaves none. -/
def collectorWrite (c : Nat) (address : Bytes) (s : State) : State :=
  let a := padTo 16 address
  if 16 < address.length then answer stBadLength s else
  answer stDone (s.onBop fun b => { b with collectors := b.collectors.set c (if allZero a then Collector.reset else { Collector.reset with
    address := a
    state := 1
    ackedAt := wallNs s
    heartbeatAt := wallNs s
    from_ := oldestSeq s }) })

def execCollectorAddr (role : Role) (collector : Fin 4) (address : Bytes) (s : State) : Host.Outcome State Fault Refusal :=
  .next (guardWrite role (0x010030 + collector.val) 1 (collectorWrite collector address) s)

/-! ### Values -/

/-- 04 R139: a burst for which b * 8 / r exceeds 1,000,000,000 ns; r in Mb/s. -/
def burstTooLong (rate burst : Nat) : Bool := rate != 0 && 1000000000 * rate < burst * 8000

/-- Rules that a plain value keeps beside its range (03 R84, R116, 04 R135, R139). R116 does not say what a write of SPILL_ON does
that leaves SPILL_OFF above SPILL_ON - 5: the model accepts it and keeps SPILL_OFF. R139 names a burst write: the model refuses a
rate write too that would make the stored burst too long (DESIGN CHOICE, log 171). -/
def plainRule (idx sub v : Nat) (s : State) : Bool :=
  let low := idx % 65536
  if idx = 0x090002 && sub = 2 then v + 5 ≤ cfgSpillOn s
  else if idx = 0x090003 && sub = 2 then reserveBytes (objSet idx sub v s) ≤ 44 * 2 ^ 20
  else if 0x090010 ≤ idx && idx < 0x090018 && sub = 2 then v = 0 || 1000 ≤ v
  else if 0x090400 ≤ idx && idx < 0x090C00 then
    let rate := low / 0x200 % 2 == 0
    if rate then !burstTooLong v (objGet s (idx + 0x200) sub 18432) else !burstTooLong (objGet s (idx - 0x200) sub 0) v
  else if 0x090C00 ≤ idx && idx < 0x090D00 then false
  else if 0x090D00 ≤ idx && idx < 0x090D20 && sub = 2 then v ≤ cfgReserve s
  else true

/-- A plain value written: its range and rules, then stored (16 R480, R481). -/
def plainWrite (idx sub n : Nat) (lo hi : Int) (isSigned : Bool) (v : Nat) (s : State) : State :=
  let x : Int := if isSigned then signed (8 * n) v else v
  if x < lo || hi < x || !plainRule idx sub v s then answer stBadValue s
  else if idx = 0x0A0001 && sub = 6 && !(mooredGroups s).isEmpty then answer stBusy s
  else answer stDone (plainStore idx sub v s)

/-- R478, 00 R12: a prefix with its two reserved bytes ignored. -/
def prefixOf (b : Bytes) : Bytes := b.take 2 ++ [0, 0] ++ slice b 4 16

/-- R478: a prefix as 08 R55 takes it: IPv6 up to /64, IPv4 up to /32, or all zero for none. -/
def prefixOk (b : Bytes) : Bool :=
  allZero b || (byteAt b 0 == 6 && byteAt b 1 ≤ 64)
    || (byteAt b 0 == 4 && byteAt b 1 ≤ 32 && allZero (slice b 4 12))

/-- LINE_BASELINE of a line (09 R335). -/
def baselineWrite (m k : Nat) (v : Int) (s : State) : State :=
  if v < -3000 || 3000 < v then answer stBadValue s
  else answer stDone (onEls m (fun e => { e with
    baseline := e.baseline.set k (some v)
    written := e.written.set k true }) s)

/-- EMT_SEEDS of a die (02 R72): refused while the EMT or stash holds an entry. -/
def emtSeedsWrite (d : Nat) (v : Bytes) (s : State) : State :=
  if !dieUp s d then answer stNotFound s
  else if !emtEmpty s d then answer stBusy s
  else answer stDone (emtSeedSet d 1 (BitVec.ofNat 32 (beAt v 4 4)) (emtSeedSet d 0 (BitVec.ofNat 32 (beAt v 0 4)) s))

/-- PEER_EXPECT: NODE_ID and PORT, or no bytes for none. -/
def peerExpectWrite (p : Nat) (v : Bytes) (s : State) : State :=
  if v.length ≠ 0 && v.length ≠ 6 then answer stBadLength s
  else answer stDone (objSet (0x040100 + p) 1 (if v.isEmpty then 0 else varNat v) s)

/-- LOOP_LANES: while a loop is selected, the lanes it loops follow (R334). -/
def loopLanesWrite (p v : Nat) (s : State) : State :=
  let mode := (s.optics.ports.get p).loopMode
  if mode ≠ 0 && (laneBits v).any fun l => laneTaken s p l then answer stBusy s
  else
    let s := answer stDone (objSet (0x040100 + p) 5 v s)
    if mode = 0 then s else loopModeWrite p mode s

/-- LOCAL_ADDR: up to 4 items of 16 or 4 bytes (11 R377). -/
def localAddrWrite (n : Nat) (v : Bytes) (s : State) : State :=
  let l := recordItems 5 v
  if 4 < l.length || (l.flatMap listItem) != v || l.any (fun a => a.length != 16 && a.length != 4) then answer stBadValue s
  else answer stDone (objSet (0x060100 + n) 5 (if v.isEmpty then 0 else varNat v) s)

/-- The items of a record list; none where its lengths do not divide it. -/
def listOf (v : Bytes) : Option (List Bytes) :=
  let l := recordItems v.length v
  if l.flatMap listItem == v then some l else none

/-- R479: GROUP_CREATE, one result item of 8 bytes for each record. -/
def groupCreateList (l : List Bytes) (s : State) : Bytes × State :=
  l.foldl (fun (acc : Bytes × State) r =>
    let (st, v, s) := groupMoor r acc.2
    let v := padTo 5 v
    (acc.1 ++ listItem (beBytes 1 st ++ v.take 1 ++ [0, 0] ++ v.drop 1), s)) ([], s)

/-- R479: GROUP_DELETE, one result item of 4 bytes for each ID. -/
def groupDeleteList (l : List Nat) (s : State) : Bytes × State :=
  l.foldl (fun (acc : Bytes × State) g =>
    let (st, s) := groupDelete g acc.2
    (acc.1 ++ listItem (beBytes 1 st ++ [0, 0, 0]), s)) ([], s)

def answered (r : Bytes × State) : State := r.2.onBop fun b => { b with answer := stDone, answerValue := r.1 }

def write00 (idx sub : Nat) (s : State) : State := if idx = 0x000002 && sub = 4 then serviceEnter s else answer stDenied s

def write01 (sk idx sub : Nat) (v : Bytes) (s : State) : State :=
  let n := beNat v
  match idx, sub with
  | 0x010001, 5 => rollbackAdvance n ⟨64, none⟩ s
  | 0x010002, 1 => fwStageOffsetWrite n s
  | 0x010002, 2 => fwStageData v s
  | 0x010002, 3 => fwCommit s
  | 0x010003, 2 => if v.isEmpty then answer stBadLength s else fuseProgram (beAt v 0 1) (beNat (v.drop 1)) none s
  | 0x010004, 4 => attestRequest (padTo 32 v) s
  | 0x010004, 7 => measExtendWrite (beAt v 0 1) (v.drop 1) s
  | 0x010005, 1 => answer stDone (objSet idx sub (beNat (padTo 32 v)) s)
  | 0x010005, 2 => match sessGet s sk with
    | some _ => answer stDone (onSess sk (fun x => { x with logCursor := n }) s)
    | none => answer stNotFound s
  | 0x010010, 5 => domainIdWrite n s
  | 0x010010, 8 => sessionCloseWrite n s
  | 0x010020, 1 => foghornKeyWrite v s
  | _, _ =>
    if idx = 0x010010 && 1 ≤ sub && sub ≤ 4 then roleKeyWrite sub v s
    else if 0x010030 ≤ idx && idx < 0x010034 && sub = 1 then collectorWrite (idx - 0x010030) v s
    else answer stDenied s

def write04 (idx sub : Nat) (v : Bytes) (s : State) : State :=
  let n := beNat v
  let low := idx % 65536
  if low = 0x0001 then
    match sub with
    | 1 => modeWrite 1 n releaseRings s
    | 2 => modeWrite 2 n releaseMigrations s
    | 3 => modeWrite 3 n releaseLanes s
    | 7 => answer stDone (objSet idx 7 n s)
    | _ => answer stDenied s
  else if 0x0030 ≤ low && low < 0x0040 then baselineWrite (low - 0x30) (sub - 1) (signed 16 n) s
  else if 0x0040 ≤ low && low < 0x0050 then if sub = 1 then laneMigrateWrite (low - 0x40) n s else laneRestoreWrite (low - 0x40) n s
  else if 0x0060 ≤ low && low < 0x0070 then baselineWrite (16 + (low - 0x60)) (sub - 1) (signed 16 n) s
  else if 0x0100 ≤ low && low < 0x0200 then
    match sub with
    | 1 => peerExpectWrite (low - 0x100) v s
    | 4 => loopModeWrite (low - 0x100) n s
    | 5 => loopLanesWrite (low - 0x100) n s
    | 6 => marginRunWrite (low - 0x100) n s
    | 7 => laneAdmitWrite (low - 0x100) n s
    | _ => answer stDenied s
  else if 0x0500 ≤ low then
    if h : byteAt v 1 < 9 then
      if byteAt v 0 ≤ 1 then ringSeekWrite (low - 0x500) (byteAt v 0 == 1) ⟨byteAt v 1, h⟩ (beAt v 2 2) s
      else answer stBadValue s
    else answer stBadValue s
  else answer stDenied s

/-- The objects of 11 R377. MP0_ADDR and MP1_ADDR take zero or a global unicast address, 2000::/3 (PRESUMED, log 191). -/
def write06 (idx sub : Nat) (v : Bytes) (s : State) : State :=
  let n := beNat v
  let low := idx % 65536
  if low = 0x0001 then
    let b := padTo 16 v
    if allZero b || (byteAt b 0 / 32 == 1) then answer stDone (objSet idx sub (beNat b) s) else answer stBadValue s
  else
    let p := low - 0x100
    match sub with
    | 1 => epModeWrite p false n s
    | 2 => epModeWrite p true n s
    | 3 => epEnableWrite p n s
    | 4 => if byteAt (padTo 6 v) 0 % 2 = 1 then answer stBadValue s else answer stDone (objSet idx 4 (beNat (padTo 6 v)) s)
    | 5 => localAddrWrite p v s
    | 7 => epLoopWrite p n s
    | 8 => eqFreezeWrite p n s
    | _ => answer stDenied s

def write08 (idx sub : Nat) (v : Bytes) (s : State) : State :=
  let n := beNat v
  let low := idx % 65536
  if low = 0x0001 then agingModeWrite n s
  else if low = 0x0004 then emtSeedsWrite (sub - 1) v s
  else if low < 0x0120 then 
    let b := prefixOf v
    if prefixOk b then answer stDone (objSet idx sub (beNat b) s) else answer stBadValue s
  else digestRefWrite (low - 0x200) (sub - 1) (BitVec.ofNat 64 n) s

def write09 (idx sub : Nat) (v : Bytes) (s : State) : State :=
  let n := beNat v
  let low := idx % 65536
  if low = 0x0001 then carveoutWrite (sub - 1) n s
  else if low < 0x0020 then classFlagsWrite (low - 0x10) n s
  else if low < 0x0300 then
    match n with
    | 0 => portDrainNone (low - 0x100) s
    | 1 => portDrainDrain (low - 0x100) s
    | 2 => portDrainFlush (low - 0x100) s
    | _ => answer stBadValue s
  else
    answer stDone (s.onFlow fun x => { x with tripped := x.tripped.modify (low - 0xC00) fun t => w1c t (BitVec.ofNat 8 n) })

def write0A (idx sub : Nat) (v : Bytes) (s : State) : State :=
  match idx, sub with
  | 0x0A0001, 3 => answer stDone (objSet idx 3 (beNat (padTo 14 v)) s)
  | 0x0A0001, 7 => collRecoveryWrite (beNat v) s
  | 0x0A0002, 1 => match listOf v with
    | some l => answered (groupCreateList l s)
    | none => answer stBadValue s
  | 0x0A0002, 2 =>
    if v.length % 2 = 1 then answer stBadValue s
    else answered (groupDeleteList ((upTo (v.length / 2)).map fun i => beAt v (2 * i) 2) s)
  | 0x0A0100, 4 => lagClearWrite s
  | _, _ => answer stDone (objSet idx sub (beNat (padTo 6 v)) s)

def write0B (idx sub : Nat) (v : Bytes) (s : State) : State :=
  let n := beNat v
  match idx, sub with
  | 0x0B0001, 1 =>
    if 2097151 < n then answer stBadValue s else answer stDone (s.onFabric fun x => { x with stageOffset := n })
  | 0x0B0001, 2 => imageStage v s
  | 0x0B0001, 3 => imageCommit s
  | 0x0B0001, 5 => loseTileless (spareModeWrite n s)
  | 0x0B0002, 1 => imageUnload n s
  | 0x0B0003, 1 => imagePlace (byteAt v 0) (byteAt v 1) (byteAt v 2) s
  | 0x0B0003, 2 => imageUnplace (byteAt v 0) (byteAt v 1) s
  | 0x0B0005, 1 => imageRestart n s
  | 0x0B0005, 2 => loseTileless (spareSwitch (byteAt v 0) (byteAt v 1) (byteAt v 2) (byteAt v 3) s)
  | _, _ => answer stDenied s

def write0C (idx sub : Nat) (v : Bytes) (s : State) : State :=
  let n := beNat v
  match idx, sub with
  | 0x0C0001, 1 => regionCreate v s
  | 0x0C0001, 2 => regionDelete n s
  | 0x0C0005, 1 => mirrorResolve (beAt v 0 2) (beAt v 2 4) (byteAt v 6) s
  | 0x0C0006, 1 => exportStart (beAt v 0 2) (beAt v 2 4) (beAt v 6 4) (beAt v 10 2) (byteAt v 12) s
  | 0x0C0007, 1 => importOpen n s
  | 0x0C0007, 2 => if s.resident.importRun == some n then answer stDone (importClose s) else answer stNotFound s
  | _, _ =>
    let h := idx - 0x0C1000
    if (regionAt s h).isNone then answer stNotFound s
    else match sub with
    | 3 => if 63 < n then answer stBadValue s else answer stDone (objSet idx 3 n s)
    | 4 => regionControlData h v s
    | _ => answer stDenied s

def write0D (idx sub : Nat) (v : Bytes) (s : State) : State :=
  match idx, sub with
  | 0x0D0001, 1 => servoModeWrite (beNat v) s
  | 0x0D0001, 5 => answer stDone (s.onTime fun t => { t with target := BitVec.ofNat 32 (beNat v), servoF := 0 })
  | 0x0D0001, 9 =>
    if 1 < byteAt v 6 then answer stBadValue s
    else timeStepWrite (BitVec.ofNat 32 (beAt v 0 4)) (BitVec.ofNat 16 (beAt v 4 2)) (byteAt v 6 == 1) s
  | _, _ => answer stDenied s

def write10 (idx sub : Nat) (v : Bytes) (s : State) : State :=
  if idx = 0x10F001 && sub = 6 then freezeLatch 2 0 (answer stDone s)
  else if idx = 0x10F002 then counterFlagsClear (beAt v 0 2) (byteAt v 2) (beAt v 3 2) (byteAt v 5) s
  else answer stDenied s

/-- R485: the register window of a session. -/
def write1F (r : Role) (sk sub : Nat) (v : Bytes) (s : State) : State :=
  match sessGet s sk with
  | none => answer stNotFound s
  | some x =>
    if sub = 1 then answer stDone (onSess sk (fun x => { x with regAddr := BitVec.ofNat 32 (beNat v) }) s)
    else if v.length % 4 ≠ 0 then answer stBadLength s
    else
      let l := (upTo (v.length / 4)).map fun i => BitVec.ofNat 32 (beAt v (4 * i) 4)
      let (a, s) := windowAccess r x.regAddr l.length (some l) s
      s.onBop fun b => { b with answer := a.status, answerValue := if a.status = stBusError then beBytes 4 a.arg else [] }

/-- The object's own effect of a write that passed R482. -/
def objEffect (r : Role) (sk idx sub : Nat) (v : Bytes) (s : State) : State :=
  match objOf idx sub with
  | none => answer stNoObject s
  | some ⟨_, .exactly n, some (_, lo, hi, sg)⟩ => plainWrite idx sub n lo hi sg (beNat v) s
  | some _ =>
    match idx / 65536 with
    | 0x00 => write00 idx sub s
    | 0x01 => write01 sk idx sub v s
    | 0x02 => refclkPrefer (beNat v) s
    | 0x04 => write04 idx sub v s
    | 0x05 => if sub = 1 then expressSet (beAt v 0 2) (beAt v 2 2) (beAt v 4 2) (BitVec.ofNat 32 (beAt v 6 4)) s
      else expressClear (beAt v 0 2) (beAt v 2 4) (byteAt v 6) s
    | 0x06 => write06 idx sub v s
    | 0x08 => write08 idx sub v s
    | 0x09 => write09 idx sub v s
    | 0x0A => write0A idx sub v s
    | 0x0B => write0B idx sub v s
    | 0x0C => write0C idx sub v s
    | 0x0D => write0D idx sub v s
    | 0x0E => answer stDone (dmaResume (sub - 1) s)
    | 0x10 => write10 idx sub v s
    | 0x1F => write1F r sk sub v s
    | _ => answer stDenied s

/-- A write of an object by a role through a session (R482). -/
def objWrite (r : Role) (sk idx sub : Nat) (v : Bytes) (s : State) : State :=
  let st := writeStatus r idx sub v.length s
  if st = stDone then objEffect r sk idx sub v s else answer st s

/-- The first open session of a role, where a write names none. -/
def roleSession (s : State) (r : Role) : Nat :=
  ((upTo 8).find? fun i => match sessGet s i with
    | some x => x.role == r
    | none => false).getD 99

/-- OBJECT_WRITE. -/
def execObjectWrite (role : Role) (index sub : Nat) (value : Bytes) (s : State) : Host.Outcome State Fault Refusal :=
  .next (if keeperUp s then objWrite role (roleSession s role) index sub value s else s)

end Sys2Proof.Machine
end

