-- ==== Sys2Proof/Machine/Bop.lean ====
section
/-! DEFINITION. The Belsyn Object Protocol: keys, sessions, messages, requests and their execution, domain requests
(16 R466 to R477, R479, R486, R487). -/

namespace Sys2Proof.Machine

/-! ### Messages (R470, R471) -/

/-- R450, R463: the device answers BOP from the start of the keeper cores, and in HALTED for want of a sector die. -/
def bopServes (s : State) : Bool :=
  keeperUp s && ((5 ≤ stateCode s.start.state && stateCode s.start.state ≤ 10)
    || (s.start.state == .halted && s.start.haltCause == 4))

/-- R470: the first 16 bytes of HMAC-SHA-256 over bytes 0 to 23 and the body. -/
def bopTag (key d : Bytes) : Bytes := (hmac key (d.take 24 ++ d.drop 40)).take 16

def tagGood (key d : Bytes) : Bool := !allZero key && slice d 24 16 == bopTag key d

/-- A datagram of R471: version and body length. -/
def bopShape (d : Bytes) : Bool :=
  40 ≤ d.length && byteAt d 0 == 1 && beAt d 20 2 == d.length - 40 && d.length ≤ 40 + 8192

def bopType (d : Bytes) : Nat := byteAt d 1
def bopSession (d : Bytes) : Nat := byteAt d 2
def bopFlags (d : Bytes) : Nat := byteAt d 3
def bopSeq (d : Bytes) : Nat := beAt d 4 4
def bopSerial (d : Bytes) : Nat := beAt d 8 8
def bopFrag (d : Bytes) : Nat := beAt d 16 2
def bopFrags (d : Bytes) : Nat := beAt d 18 2
def bopDomain (d : Bytes) : Nat := beAt d 22 2
def bopBody (d : Bytes) : Bytes := d.drop 40

/-- A message of the device: TYPE, SESSION, FLAGS, SEQ, FRAG, FRAGS_M1, body, tag key (none: an all-zero tag). -/
def bopMessage (s : State) (ty session flags seq frag frags : Nat) (key body : Bytes) : Bytes :=
  let h := beBytes 1 1 ++ beBytes 1 ty ++ beBytes 1 session ++ beBytes 1 flags ++ beBytes 4 seq ++ beBytes 8 (serial s)
    ++ beBytes 2 frag ++ beBytes 2 frags ++ beBytes 2 body.length ++ [0, 0]
  h ++ (if allZero key then List.replicate 16 0 else (hmac key (h ++ body)).take 16) ++ body

/-- R470: a message is discarded without reply. -/
def bopDrop (s : State) : State := count 8 0xC000 0 1 s

/-! ### Keys (R466, R467) -/

/-- The key of a role; none while it is unset. -/
def roleKey (s : State) (code : Nat) : Option Bytes :=
  if allZero (s.bop.keys.get code) then none else some (s.bop.keys.get code)

def keyReply (mp source seq status : Nat) (key : Bytes) (s : State) : State :=
  sendBop mp source (bopMessage s 8 0xFF 0 seq 0 0 key (beBytes 1 status ++ [0, 0, 0])) s

/-- KEY_INSTALL (R467). A body of another length or SERIAL, or a tag that is not all zero, is discarded. -/
def keyInstall (mp source : Nat) (d : Bytes) (s : State) : State :=
  if !bopServes s then s
  else if !bopShape d || bopType d ≠ 7 || !allZero (slice d 24 16) then bopDrop s
  else match roleKey s 1 with
  | some k => keyReply mp source (bopSeq d) stDenied k s
  | none =>
    let b := bopBody d
    if b.length ≠ 136 || beAt b 0 8 ≠ serial s then bopDrop s
    else if allZero (slice b 8 32) then keyReply mp source (bopSeq d) stBadValue [] s
    else
      let s := s.onBop fun x => { x with
        keys := [1, 2, 3, 4].foldl (fun t r => t.set r (slice b (8 + 32 * (r - 1)) 32)) x.keys }
      raise 0x0102 2 unitKeeper (beBytes 16 (source % 2 ^ 128)) (keyReply mp source (bopSeq d) stDone (slice b 8 32) s)

def execKeyInstall (mp : Fin 2) (source : Nat) (datagram : Bytes) (s : State) : Host.Outcome State Fault Refusal :=
  .next (if bopServes s then mpTake mp (keyInstall mp source datagram) s else s)

/-! ### Sessions (R468, R469) -/

/-- R469. -/
def sessionKey (s : State) (roleK client device : Bytes) (session role : Nat) : Bytes :=
  hmac roleK ([0x42, 0x4F, 0x50, 0x53] ++ beBytes 8 (serial s) ++ client ++ device ++ beBytes 1 session ++ beBytes 1 role)

def newSession (role : Role) (key : Bytes) (maxFrag source mp now : Nat) : Session where
  role := role
  key := key
  maxFrag := maxFrag
  source := source
  mp := mp
  lastAt := now
  highest := 0
  used := false
  seen := []
  partials := []
  accepted := []
  run := none
  replies := []
  closing := false
  logCursor := 0
  regAddr := 0

/-- R468: the non-ADMIN session that has been idle longest. -/
def idlest (s : State) : Option Nat :=
  let l := (upTo 8).filterMap fun k => match s.bop.sessions.get k with
    | some x => if x.role == .admin then none else some (x.lastAt, k)
    | none => none
  (l.foldl (fun (m : Option (Nat × Nat)) x => match m with
    | none => some x
    | some y => if x.1 < y.1 then some x else some y) none).map (·.2)

/-- The number a new session takes, and the state with it free. -/
def takeNumber (role : Role) (s : State) : Option (Nat × State) :=
  match (upTo 8).find? fun k => (s.bop.sessions.get k).isNone with
  | some k => some (k, s)
  | none => if role ≠ .admin then none else (idlest s).map fun k => (k, sessionClosed k s)

/-- OPEN_REPLY, tagged with the role key (DEDUCED, log 84). -/
def openReply (mp source seq status session : Nat) (nonce key : Bytes) (s : State) : State :=
  sendBop mp source (bopMessage s 2 session 0 seq 0 0 key (beBytes 1 status ++ beBytes 1 session ++ [0, 0] ++ nonce
    ++ [s.start.partCode, s.start.stepping] ++ beBytes 1 (stateCode s.start.state))) s

/-- OPEN (R468); a MAX_FRAG outside the range is answered BAD_VALUE (DESIGN CHOICE, log 139). -/
def openMessage (mp source : Nat) (d : Bytes) (s : State) : State :=
  let b := bopBody d
  if !bopServes s then s
  else if !bopShape d || bopType d ≠ 1 || b.length ≠ 20 || bopSerial d ≠ serial s then bopDrop s
  else match roleOfCode (byteAt b 0), roleKey s (byteAt b 0) with
  | some role, some key =>
    let refuse (st : Nat) : State := openReply mp source (bopSeq d) st 0xFF (List.replicate 16 0) key s
    let maxFrag := beAt b 2 2
    if !tagGood key d then bopDrop s
    else if maxFrag < 1024 || 8192 < maxFrag then refuse stBadValue
    else match takeNumber role s with
    | none => refuse stBusy
    | some (k, s) =>
      let (nonce, s) := freeBytes 16 s
      let sk := sessionKey s key (slice b 4 16) nonce k (roleCode role)
      let s := s.onBop fun x => { x with
        sessions := x.sessions.set k (some (newSession role sk maxFrag source mp (wallNs s))) }
      openReply mp source (bopSeq d) stDone k nonce key s
  | _, _ => bopDrop s

def execOpenMsg (mp : Fin 2) (source : Nat) (datagram : Bytes) (s : State) : Host.Outcome State Fault Refusal :=
  .next (if bopServes s then mpTake mp (openMessage mp source datagram) s else s)

/-- The session of a message, where its shape, SERIAL, number and tag are good (R470). -/
def sessionOf (s : State) (d : Bytes) : Option Session :=
  if bopShape d && bopSerial d == serial s && bopSession d < 8 then
    (s.bop.sessions.get (bopSession d)).filter fun x => tagGood x.key d
  else none

/-- CLOSE (R468). -/
def closeMessage (d : Bytes) (s : State) : State :=
  if !bopServes s then s
  else if bopType d ≠ 5 || (sessionOf s d).isNone then bopDrop s
  else sessionClosed (bopSession d) s

def execCloseSession (mp : Fin 2) (_source : Nat) (datagram : Bytes) (s : State) : Host.Outcome State Fault Refusal :=
  .next (if bopServes s then mpTake mp (closeMessage datagram) s else s)

/-- SESSION_IDLE_EXPIRE (R468): no valid message for SESSION_IDLE. -/
def execSessionIdleExpire (session : Fin 8) (s : State) : Host.Outcome State Fault Refusal :=
  .next <| match s.bop.sessions.get session with
    | some x => if keeperUp s && x.lastAt + cfgSessionIdle s * 1000000000 ≤ wallNs s then sessionClosed session s else s
    | none => s

/-! ### Operations (R473, R476, R479) -/

/-- The operations of a request body; none where it is malformed or does not hold 1 to 1,024. -/
def parseOps : Nat → Bytes → Option (List BopOp)
  | 0, _ => none
  | fuel + 1, b =>
    if b.isEmpty then some []
    else if b.length < 16 then none
    else
      let len := beAt b 8 4
      let n := if byteAt b 0 = 2 then len else 0
      let next := 16 + (n + 3) / 4 * 4
      if b.length < next then none
      else (parseOps fuel (b.drop next)).map fun l =>
        { opcode := byteAt b 0, index := beAt b 1 3, sub := byteAt b 4, len := len, arg := beAt b 12 4, value := slice b 16 n } :: l

def requestOps (b : Bytes) : Option (List BopOp) :=
  (parseOps (b.length / 16 + 2) b).filter fun l => 1 ≤ l.length && l.length ≤ 1024

/-- What one operation answers: status, value, ARG. -/
structure OpResult where
  status : Nat
  value : Bytes
  arg : Nat
  deriving DecidableEq, Repr

/-- A result as it is sent, padded to a multiple of 4 (R473). -/
def resultBytes (o : BopOp) (r : OpResult) : Bytes :=
  beBytes 1 r.status ++ beBytes 3 o.index ++ beBytes 1 o.sub ++ [0, 0, 0] ++ beBytes 4 r.value.length ++ beBytes 4 r.arg
    ++ padTo ((r.value.length + 3) / 4 * 4) r.value

/-- The items of a list that fit, their number. -/
def fitItems (room : Nat) : List Bytes → Bytes × Nat
  | [] => ([], 0)
  | x :: l =>
    if room < x.length then ([], 0)
    else
      let (b, n) := fitItems (room - x.length) l
      (x ++ b, n + 1)

/-- R479: items of a list from a cursor. -/
def listRead (items : List Bytes) (start limit room : Nat) (isList : Bool) : OpResult :=
  let (b, n) := fitItems room ((items.drop start).take limit)
  ⟨stDone, b, if !isList then 0 else if items.length ≤ start + n then 0xFFFFFFFF else start + n⟩

/-- The items of a U8 or U16 list object, by width. -/
def listWidth (idx sub : Nat) : Nat := if idx = 0x0B0004 && sub = 1 then 1 else 0

/-- A READ or READ_LIST that passed R482. -/
def opRead (r : Role) (sk : Nat) (o : BopOp) (isList : Bool) (room : Nat) (s : State) : OpResult × State :=
  match sessGet s sk with
  | none => (⟨stNotFound, [], 0⟩, s)
  | some x =>
    let start := if isList then o.arg else 0
    let limit := if isList then o.len else 65536
    if o.index = 0x1F0001 then
      if o.sub = 1 then (⟨stDone, beBytes 4 x.regAddr.toNat, 0⟩, s)
      else
        let (a, s) := windowAccess r x.regAddr (if o.sub = 2 then 1 else 256) none s
        (⟨a.status, a.value, a.arg⟩, s)
    else
      let s := readFresh o.index o.sub s
      if o.index = 0x010005 && o.sub = 3 then
        let (l, _, lost) := logFrom s x.logCursor (min 64 limit)
        let (b, n) := fitItems room (l.map fun x => listItem (logItem x))
        let next := (logFrom s x.logCursor n).2.1
        let s := s.onKeeper fun k => { k with logLost := min (2 ^ 32 - 1) (k.logLost + lost) }
        (⟨stDone, b, if isList then 0xFFFFFFFF else 0⟩, onSess sk (fun x => { x with logCursor := next }) s)
      else
        match objValue o.index o.sub x.logCursor s with
        | .missing => (⟨stNotFound, [], 0⟩, s)
        | .items l => (listRead (l.map listItem) start limit room isList, s)
        | .bytes b =>
          if listWidth o.index o.sub = 1 then (listRead (b.map fun x => [x]) start limit room isList, s)
          else (⟨stDone, b, if isList then 0xFFFFFFFF else 0⟩, readClears o.index o.sub s)

/-- The items of a list WRITE that were accepted: the first byte of each 2-byte-prefixed item result is DONE. -/
def accepted (o : BopOp) (v : Bytes) : Nat :=
  if o.index = 0x0A0002 then ((recordItems v.length v).filter fun x => byteAt x 0 = 0).length
  else if o.index = 0x1F0001 then beNat v else 0

/-- One operation (R473, R482); `room` bytes of the reply are left for its value. -/
def opRun (r : Role) (sk : Nat) (o : BopOp) (room : Nat) (s : State) : OpResult × State :=
  let (a, s) : OpResult × State := match o.opcode with
    | 1 =>
      let st := readStatus r o.index o.sub s
      if st = stDone then opRead r sk o false room s else (⟨st, [], 0⟩, s)
    | 2 =>
      let s := objWrite r sk o.index o.sub o.value s
      let v := s.bop.answerValue
      (⟨s.bop.answer, if o.index = 0x1F0001 then [] else v, accepted o v⟩, s)
    | 3 =>
      let st := readStatus r o.index o.sub s
      if st = stDone then opRead r sk o true room s else (⟨st, [], 0⟩, s)
    | 4 => (⟨stDone, [], 0⟩, s)
    | _ => (⟨stBadValue, [], 0⟩, s)
  if room < a.value.length then (⟨stBadLength, [], 0⟩, s) else (a, s)

/-- Whether an object is a setting, whose writes form the batch of the request (R477, 01 R30): one that takes its value as it
stands, CARVEOUT_GB or CLASS_FLAGS. -/
def settingOf (idx sub : Nat) : Bool :=
  idx == 0x090001 || (decide (0x090010 ≤ idx) && decide (idx < 0x090018) && sub == 1) || match objOf idx sub with
    | some ⟨_, .exactly _, some _⟩ => true
    | _ => false

/-- What a request sees: its own writes of settings are in force (R476). -/
def withBatch (l : List (Nat × Nat × Nat)) (s : State) : State := l.foldl (fun s w => plainStore w.1 w.2.1 w.2.2 s) s

/-- The create or delete records of an operation (05 R186, R479); none where its list is malformed. -/
def recordsOf (o : BopOp) : Option (List Bytes) :=
  if o.sub = 1 then listOf o.value
  else if o.value.length % 2 = 1 then none else some ((upTo (o.value.length / 2)).map fun i => slice o.value (2 * i) 2)

/-- Whether an operation writes GROUP_CREATE or GROUP_DELETE. -/
def isRecords (o : BopOp) : Bool := o.opcode == 2 && o.index == 0x0A0002 && (o.sub == 1 || o.sub == 2)

/-- Up to 64 records taken in order: their item results (05 R187). -/
def takeRecords (o : BopOp) (l : List Bytes) (s : State) : Bytes × State :=
  if o.sub = 1 then groupCreateList l s else groupDeleteList (l.map beNat) s

/-- An operation ends with its result; STOP_ON_ERROR skips the rest (R476). -/
def opEnds (stop : Bool) (o : BopOp) (a : OpResult) (r : Run) : Run :=
  let skip := stop && a.status != stDone
  { r with
    results := r.results ++ resultBytes o a ++ (if skip then r.left.tail.flatMap fun o => resultBytes o ⟨stSkipped, [], 0⟩ else [])
    left := if skip then [] else r.left.tail
    taken := 0
    items := [] }

/-- A turn of a record list: a request holds at most 4,096 records, and a list whose results would find no room in the reply is
refused before any is taken. -/
def recordTurn (role : Role) (stop : Bool) (room : Nat) (o : BopOp) (r : Run) (s : State) : Run × State :=
  let st := writeStatus role o.index o.sub o.value.length s
  if r.taken = 0 && st ≠ stDone then (opEnds stop o ⟨st, [], 0⟩ r, s)
  else match recordsOf o with
  | none => (opEnds stop o ⟨stBadValue, [], 0⟩ r, s)
  | some l =>
    let n := l.length
    if r.taken = 0 && (4096 < r.records + n || room < (if o.sub = 1 then 10 else 6) * n) then
      (opEnds stop o ⟨stBadLength, [], 0⟩ r, s)
    else
      let (b, s) := takeRecords o ((l.drop r.taken).take 64) s
      let r := { r with taken := r.taken + 64, items := r.items ++ b, records := if r.taken = 0 then r.records + n else r.records }
      if n ≤ r.taken then (opEnds stop o ⟨stDone, r.items, accepted o r.items⟩ r, s) else (r, s)

/-- A turn of a request (R477): one operation, or up to 64 records. A write of a setting joins the batch; other operations act at
once. -/
def runTurn (role : Role) (sk : Nat) (stop : Bool) (o : BopOp) (r : Run) (s : State) : Run × State :=
  let room := 65532 - r.results.length - 16 * r.left.length
  if isRecords o then recordTurn role stop room o r s
  else if settingOf o.index o.sub then
    let (a, t) := opRun role sk o room (withBatch r.batch s)
    let v := match o.opcode, a.status with
      | 2, 0 => [(o.index, o.sub, beNat o.value)]
      | _, _ => []
    (opEnds stop o a { r with batch := r.batch ++ v }, { s with bop := { s.bop with answer := t.bop.answer, answerValue := t.bop.answerValue } })
  else
    let (a, s) := opRun role sk o room s
    (opEnds stop o a r, s)

/-! ### Requests (R472, R474 to R477) -/

/-- A body cut into fragments of at most `n` bytes; an empty body is one empty fragment. -/
def fragments (n : Nat) : Nat → Bytes → List Bytes
  | 0, b => [b]
  | fuel + 1, b => if b.length ≤ n then [b] else b.take n :: fragments n fuel (b.drop n)

/-- A reply in fragments of the session's MAX_FRAG (R472). -/
def sendReply (mp source sk seq : Nat) (x : Session) (key body : Bytes) (s : State) : State :=
  let l := fragments (max 1 x.maxFrag) body.length body
  ((upTo l.length).foldl (fun s i =>
    sendBop mp source (bopMessage s 4 (if sk < 8 then sk else 0xFF) (if sk < 8 then 0 else 4) seq i (l.length - 1) key
      (l.getD i [])) s) s)

/-- A reply without results (R473). -/
def bareReply (status : Nat) : Bytes := beBytes 1 status ++ [0, 0, 0]

/-- R474: a SEQ that a session accepts as new. -/
def seqNew (x : Session) (q : Nat) : Bool :=
  !x.used || later 32 q x.highest
    || (1 ≤ (x.highest + 2 ^ 32 - q) % 2 ^ 32 && (x.highest + 2 ^ 32 - q) % 2 ^ 32 ≤ 256 && !x.seen.contains q)

/-- A SEQ is used: the highest, and the used ones within 256 below it. -/
def seqUse (q : Nat) (x : Session) : Session :=
  let hi := if !x.used || later 32 q x.highest then q else x.highest
  { x with
    used := true
    highest := hi
    seen := (q :: x.seen).filter fun v => (hi + 2 ^ 32 - v) % 2 ^ 32 ≤ 256 }

/-- The fragment joined to its request; the request whole, where it is. A repeated fragment is ignored. -/
def joinFragment (q : Request) (frag : Nat) (b : Bytes) (now : Nat) : Request :=
  { q with
    got := if q.got.any (fun g => g.1 = frag) then q.got else q.got ++ [(frag, b)]
    lastAt := now }

def requestBody (q : Request) : Bytes := (upTo (q.frags + 1)).flatMap fun i => ((q.got.find? fun g => g.1 = i).map (·.2)).getD []

/-- R472, R474, R475: a REQUEST datagram whose tag is good, for a session or a domain session; `key` tags the reply. -/
def requestIn (mp source sk : Nat) (key d : Bytes) (s : State) : State :=
  match sessGet s sk with
  | none => bopDrop s
  | some x =>
    let q := bopSeq d
    let now := wallNs s
    let x := { x with partials := x.partials.filter fun p => now < p.lastAt + 1000000000 }
    match x.replies.find? fun r => r.1 = q with
    | some (_, body) =>
      if !bit (bopFlags d) 3 then bopDrop s
      else if bopFrag d = 0 then sendReply mp source sk q x key body s else s
    | none =>
      if x.accepted.any fun p => p.seq = q then (if bit (bopFlags d) 3 then s else bopDrop s)
      else if !seqNew x q || 511 < bopFrags d || bopFrags d < bopFrag d then bopDrop s
      else if s.start.state = .halted && bopFrags d ≠ 0 then
        if bopFrag d = 0 then sendReply mp source sk q x key (bareReply stBusy) s else s
      else
        let old := x.partials.find? fun p => p.seq = q
        if old.isNone && bopFrags d ≠ 0 && 4 ≤ x.partials.length then sessPut sk (some x) s
        else
          let fresh : Request := { seq := q, flags := bopFlags d, frags := bopFrags d, got := [], lastAt := now, mp := mp, source := source }
          let p := joinFragment (old.getD fresh) (bopFrag d) (bopBody d) now
          if p.frags ≠ bopFrags d then bopDrop s
          else
            let others := x.partials.filter fun p => p.seq != q
            if p.got.length ≤ p.frags then sessPut sk (some { x with partials := others ++ [p] }) s
            else if 256 ≤ x.accepted.length then
              sendReply mp source sk q x key (bareReply stBusy) (sessPut sk (some { x with partials := others }) s)
            else sessPut sk (some { seqUse q x with partials := others, accepted := x.accepted ++ [p] }) s

/-- R474: a message of a session passes the sequence rule: its SEQ is new, or the message resends a request. -/
def seqPasses (x : Session) (d : Bytes) : Bool :=
  let q := bopSeq d
  if x.replies.any (fun r => r.1 = q) || x.accepted.any (fun p => p.seq = q) then bit (bopFlags d) 3 else seqNew x q

/-- REQUEST_FRAGMENT. A message that passes every check of R470 keeps its session open (R468). -/
def requestFragment (mp source : Nat) (d : Bytes) (s : State) : State :=
  if !bopServes s then s
  else match sessionOf s d with
  | none => bopDrop s
  | some x =>
    if bopType d ≠ 3 || bit (bopFlags d) 2 || !seqPasses x d then bopDrop s
    else requestIn mp source (bopSession d) x.key d (onSess (bopSession d) (fun x => { x with lastAt := wallNs s }) s)

def execRequestFragment (mp : Fin 2) (source : Nat) (datagram : Bytes) (s : State) : Host.Outcome State Fault Refusal :=
  .next (if bopServes s then mpTake mp (requestFragment mp source datagram) s else s)

/-- Requests of closed sessions of a number, which run before those of the session that took it. -/
def closedOf (s : State) (k : Nat) : Option Nat :=
  ((List.range 257).find? fun j => (s.bop.sessions.get (8 * (j + 1) + k)).isSome).map fun j => 8 * (j + 1) + k + 8

/-- The session that a number of the round stands for: 0 to 7, then the domain sessions. -/
def servedAs (s : State) (n : Nat) : Nat := if n < 8 then (closedOf s n).getD n else n + 1

/-- The oldest accepted request of a session. -/
def firstRequest (s : State) (sk : Nat) : Option Request := (sessGet s sk).bind fun x => x.accepted.head?

/-- R477: the session whose turn it is: the first after the one served last that has a request. -/
def nextTurnOf (s : State) : Option Nat :=
  ((upTo 12).map fun i => (s.bop.turn + 1 + i) % 12).find? fun n => (firstRequest s (servedAs s n)).isSome

/-- A request at its start (R473). -/
def newRun (q : Request) : Run where
  seq := q.seq
  left := (requestOps (requestBody q)).getD []
  total := ((requestOps (requestBody q)).getD []).length
  results := []
  batch := []
  marked := []
  taken := 0
  items := []
  records := 0

/-- The reply body of a request: REQ_STATUS, OPS, results (R473). -/
def replyBody (r : Run) : Bytes := if r.total = 0 then bareReply stBadValue else [0, 0] ++ beBytes 2 r.total ++ r.results

/-- The key of a session's replies: a domain session's is its role's (R487). -/
def replyKey (s : State) (sk : Nat) (x : Session) : Bytes :=
  if 8 ≤ sk && sk < 16 then (roleKey s (sk - 8)).getD x.key else x.key

/-- A request ends (R476): its settings take effect at one commit mark (R477), and its reply goes out and is stored. The replies
of a closed session are discarded (R468). -/
def completeRequest (sk : Nat) (q : Request) (r : Run) (s : State) : State :=
  let s := withBatch r.batch s
  match sessGet s sk with
  | none => s
  | some x =>
    let body := replyBody r
    let x := { x with
      run := none
      accepted := x.accepted.filter fun p => p.seq != q.seq
      replies := ((q.seq, body) :: x.replies).take 256 }
    if x.closing then sessPut sk (if x.accepted.isEmpty then none else some { x with replies := [] }) s
    else sendReply q.mp q.source sk q.seq x (replyKey s sk x) body (sessPut sk (some x) s)

/-- A session's turn. The request is marked as far as it has got before the operation acts, which may close the session. A request
with settings ends at its next turn, when their commit mark goes out. -/
def sessionTurn (sk : Nat) (s : State) : State :=
  match sessGet s sk with
  | none => s
  | some x =>
    match x.accepted with
    | [] => s
    | q :: _ =>
      let r := x.run.getD (newRun q)
      match r.left with
      | [] => completeRequest sk q r s
      | o :: _ =>
        let (r, s) := runTurn x.role sk (bit q.flags 1) o r (sessPut sk (some { x with run := some { r with left := r.left.tail } }) s)
        if !bopServes s then s
        else if r.left.isEmpty && r.batch.isEmpty then completeRequest sk q r s
        else onSess sk (fun x => { x with run := some r }) s

/-- One turn of the round (05 R187). -/
def roundTurn (s : State) : State :=
  match nextTurnOf s with
  | some n => sessionTurn (servedAs s n) (s.onBop fun b => { b with turn := n })
  | none => s

/-- The round goes on, at most `fuel` turns, until a request of a session has ended. -/
def serveUntil (sk seq : Nat) : Nat → State → State
  | 0, s => s
  | fuel + 1, s =>
    if bopServes s && (firstRequest s sk).any (·.seq == seq) then serveUntil sk seq fuel (roundTurn s) else s

/-- More turns than a request can take while eleven other sessions take theirs. -/
def turnBound (q : Request) : Nat := 12 * ((requestBody q).length + 2)

/-- The oldest request of a session runs to its end, in the round with those of the others. -/
def serveRequest (sk : Nat) (s : State) : State :=
  match firstRequest s sk with
  | some q => serveUntil sk q.seq (turnBound q) s
  | none => s

/-- REQUEST_EXECUTE (R476, R477; 05 R187). -/
def requestExecute (k : Nat) (s : State) : State := if bopServes s then serveRequest (servedAs s k) s else s

def execRequestExecute (session : Fin 8) (s : State) : Host.Outcome State Fault Refusal := .next (requestExecute session s)

/-- FRAGMENT_TIMEOUT (R472): requests partly received whose last fragment arrived 1 s ago. -/
def execFragmentTimeout (session : Fin 8) (s : State) : Host.Outcome State Fault Refusal :=
  .next (if keeperUp s then onSess session (fun x => { x with
    partials := x.partials.filter fun p => wallNs s < p.lastAt + 1000000000 }) s else s)

/-! ### Domain requests (R486, R487) -/

/-- DOMAIN_REQUEST: received, executed in the role's domain session and answered; the answer's delay of 0 to 1 ms is time that
the model leaves out. -/
def domainRequest (mp source : Nat) (d : Bytes) (s : State) : State :=
  if !bopServes s then s
  else if !bopShape d || bopType d ≠ 3 || !bit (bopFlags d) 2 || bopSession d ≠ 0xFF || bopSerial d ≠ 0 then bopDrop s
  else if cfgDomainId s = 0xFFFF || bopDomain d ≠ cfgDomainId s then s
  else
    let code := bits (bopFlags d) 5 4 + 1
    match roleOfCode code, roleKey s code with
    | some role, some key =>
      if !tagGood key d then bopDrop s
      else
        let sk := 8 + code
        let s := if (sessGet s sk).isNone then sessPut sk (some (newSession role key 8192 source mp (wallNs s))) s else s
        serveRequest sk (requestIn mp source sk key d s)
    | _, _ => bopDrop s

def execDomainRequest (mp : Fin 2) (source : Nat) (datagram : Bytes) (s : State) : Host.Outcome State Fault Refusal :=
  .next (if bopServes s then mpTake mp (domainRequest mp source datagram) s else s)

end Sys2Proof.Machine
end

