-- ==== Sys2Proof/Machine/Foghorn.lean ====
section
/-! DEFINITION. Foghorn events: raising, sending, acknowledgement, heartbeats and stale collectors (16 R488 to R490). -/

namespace Sys2Proof.Machine

/-- FOGHORN_RAISE (R488). -/
def execFoghornRaise (event : EventArgs) (s : State) : Host.Outcome State Fault Refusal :=
  .next (raise event.code event.severity event.unit event.args s)

/-- An event as it is sent: 48 bytes. -/
def eventBytes (e : Event) : Bytes :=
  beBytes 4 e.seq ++ beBytes 4 e.time.toNat ++ beBytes 2 e.code ++ beBytes 1 e.severity ++ beBytes 1 e.rep ++ beBytes 4 e.unit
    ++ padTo 32 e.args

/-- A Foghorn datagram of the device (R489). -/
def foghornDatagram (s : State) (ty collector : Nat) (l : List Event) : Bytes :=
  let h := beBytes 1 1 ++ beBytes 1 ty ++ beBytes 1 collector ++ beBytes 1 l.length ++ beBytes 8 (serial s)
    ++ beBytes 4 (cfgNodeId s) ++ beBytes 4 (highestSeq s) ++ beBytes 4 (oldestSeq s)
  let b := l.flatMap eventBytes
  h ++ (hmac s.bop.foghornKey (h ++ b)).take 16 ++ b

def onCollector (c : Nat) (f : Collector → Collector) (s : State) : State :=
  s.onBop fun b => { b with collectors := b.collectors.modify c f }

/-- Events in datagrams of at most 16. -/
def sendEvents (c : Nat) : Nat → List Event → State → State
  | 0, _, s => s
  | fuel + 1, l, s =>
    if l.isEmpty then s
    else sendEvents c fuel (l.drop 16) (emitOut (.foghorn c (foghornPort s) (foghornDatagram s 1 c (l.take 16))) s)

/-- A SEQ is at or after another (R397). -/
def seqFrom (a q : Nat) : Bool := q == a || later 32 q a

/-- Events that a collector still needs and that the ring holds, from a SEQ on. -/
def eventsFrom (s : State) (a : Nat) : List Event := s.bop.ring.filter fun e => seqFrom a e.seq

/-- The record of an event that a collector was sent. -/
def Collector.sentEvent (x : Collector) (e : Event) : Option SentEvent := x.sent.find? fun t => t.seq == e.seq

/-- Whether an event is to go out: never sent, or its wait has passed. -/
def Collector.due (x : Collector) (now : Nat) (e : Event) : Bool :=
  (x.sentEvent e).all fun t => t.sentAt + t.waitMs * 1000000 ≤ now

/-- The record of an event after a send: the wait begins at FOGHORN_RETRY and doubles at each resend, up to 3.2 s. -/
def Collector.afterSend (x : Collector) (now retry : Nat) (e : Event) : SentEvent :=
  match x.sentEvent e with
  | none => ⟨e.seq, now, retry⟩
  | some t => if x.due now e then ⟨e.seq, now, min 3200 (2 * t.waitMs)⟩ else t

/-- FOGHORN_SEND (R490): every event not acknowledged goes out at first, and again each time its wait has passed. -/
def foghornSend (c : Nat) (s : State) : State :=
  let x := s.bop.collectors.get c
  let l := eventsFrom s x.from_
  let due := l.filter (x.due (wallNs s))
  if !keeperUp s || x.state ≠ 1 || !s.mgmt.mpUp.getLsbD (foghornPort s) || due.isEmpty then s
  else
    onCollector c (fun x => { x with sent := l.map (x.afterSend (wallNs s) (cfgFogRetry s)) })
      (sendEvents c due.length due s)

def execFoghornSend (collector : Fin 4) (s : State) : Host.Outcome State Fault Refusal := .next (foghornSend collector s)

/-- A valid ACK of a collector (R489, R490). -/
def ackGood (s : State) (c : Nat) (d : Bytes) : Bool :=
  40 ≤ d.length && byteAt d 0 == 1 && byteAt d 1 == 3 && byteAt d 2 == c && beAt d 4 8 == serial s
    && slice d 24 16 == (hmac s.bop.foghornKey (d.take 24 ++ d.drop 40)).take 16

/-- FOGHORN_ACK (R490): cumulative; a SEQ that the device has not raised acknowledges nothing. -/
def foghornAck (c : Nat) (d : Bytes) (s : State) : State :=
  if !keeperUp s || (s.bop.collectors.get c).state = 0 || !ackGood s c d then s else
  let q := beAt d 16 4
  let x := s.bop.collectors.get c
  let covers : Bool := seqFrom x.from_ q && (seqFrom q (highestSeq s)) && q ≠ s.bop.nextSeq
  onCollector c (fun x => { x with
    state := 1
    ackedAt := wallNs s
    acked := if covers then q else x.acked
    from_ := if covers then (q + 1) % 2 ^ 32 else x.from_
    sent := if covers then x.sent.filter fun t => later 32 t.seq q else x.sent }) s

def execFoghornAck (collector : Fin 4) (datagram : Bytes) (s : State) : Host.Outcome State Fault Refusal :=
  .next (foghornAck collector datagram s)

/-- FOGHORN_HEARTBEAT (R490): each FOGHORN_HEARTBEAT, to every collector, STALE ones included. -/
def execFoghornHeartbeat (collector : Fin 4) (s : State) : Host.Outcome State Fault Refusal :=
  .next <|
    let x := s.bop.collectors.get collector
    if keeperUp s && x.state ≠ 0 && s.mgmt.mpUp.getLsbD (foghornPort s) && x.heartbeatAt + cfgFogHeartbeat s * 1000000 ≤ wallNs s then
      emitOut (.foghorn collector (foghornPort s) (foghornDatagram s 2 collector []))
        (onCollector collector (fun x => { x with heartbeatAt := wallNs s }) s)
    else s

/-- COLLECTOR_STALE (R490): nothing acknowledged for FOGHORN_STALE. -/
def execCollectorStale (collector : Fin 4) (s : State) : Host.Outcome State Fault Refusal :=
  .next <|
    let x := s.bop.collectors.get collector
    if keeperUp s && x.state = 1 && x.ackedAt + cfgFogStale s * 1000000000 ≤ wallNs s then
      onCollector collector (fun x => { x with state := 2 }) s
    else s

end Sys2Proof.Machine
end

