-- ==== Sys2Proof/Machine/Dispatch.lean ====
section
/-! DEFINITION. What each command does: one arm per constructor of Instr, each one call of its meaning. -/

namespace Sys2Proof.Machine

/-- The effect of a command on everything but the queue. -/
def exec (i : Instr) (s : State) : Host.Outcome State Fault Refusal :=
  match i with
  | .powerOn vsenseMv refA refB => Sys2Proof.Machine.execPowerOn vsenseMv refA refB s
  | .powerOff vsenseMv => Sys2Proof.Machine.execPowerOff vsenseMv s
  | .vinLow vsenseMv => Sys2Proof.Machine.execVinLow vsenseMv s
  | .resetAssert => Sys2Proof.Machine.execResetAssert s
  | .resetRelease bootSel => Sys2Proof.Machine.execResetRelease bootSel s
  | .freezeNAssert => Sys2Proof.Machine.execFreezeNAssert s
  | .hardwareTrip kind die sensor reading => Sys2Proof.Machine.execHardwareTrip kind die sensor reading s
  | .refclkLoss clockB => Sys2Proof.Machine.execRefclkLoss clockB s
  | .refclkReturn clockB => Sys2Proof.Machine.execRefclkReturn clockB s
  | .refclkPrefer role value => Sys2Proof.Machine.execRefclkPrefer role value s
  | .snapshotRefresh die tj base vinMv iinMa => Sys2Proof.Machine.execSnapshotRefresh die tj base vinMv iinMa s
  | .fuseLoad sensed => Sys2Proof.Machine.execFuseLoad sensed s
  | .romBoot => Sys2Proof.Machine.execRomBoot s
  | .fwVerify flashAnswers => Sys2Proof.Machine.execFwVerify flashAnswers s
  | .bootRequest => Sys2Proof.Machine.execBootRequest s
  | .bootData mp host msg => Sys2Proof.Machine.execBootData mp host msg s
  | .bootEnd mp host msg flashWriteGood => Sys2Proof.Machine.execBootEnd mp host msg flashWriteGood s
  | .bootOwnerLapse => Sys2Proof.Machine.execBootOwnerLapse s
  | .memTrain die failing => Sys2Proof.Machine.execMemTrain die failing s
  | .memTrainTimeout die => Sys2Proof.Machine.execMemTrainTimeout die s
  | .libraryLoad => Sys2Proof.Machine.execLibraryLoad s
  | .opticsCal answering => Sys2Proof.Machine.execOpticsCal answering s
  | .opticsCalEnd => Sys2Proof.Machine.execOpticsCalEnd s
  | .meshDeadLinkCheck => Sys2Proof.Machine.execMeshDeadLinkCheck s
  | .marginTestEnd => Sys2Proof.Machine.execMarginTestEnd s
  | .serviceEnter role => Sys2Proof.Machine.execServiceEnter role s
  | .serviceMarkReceive die => Sys2Proof.Machine.execServiceMarkReceive die s
  | .degradedCauseChange bit holds => Sys2Proof.Machine.execDegradedCauseChange bit holds s
  | .dieHeartbeat die => Sys2Proof.Machine.execDieHeartbeat die s
  | .dieLost die fault => Sys2Proof.Machine.execDieLost die fault s
  | .keeperLost => Sys2Proof.Machine.execKeeperLost s
  | .keeperWatchdogExpire core => Sys2Proof.Machine.execKeeperWatchdogExpire core s
  | .configCommitMark die arrived => Sys2Proof.Machine.execConfigCommitMark die arrived s
  | .alignmentMark => Sys2Proof.Machine.execAlignmentMark s
  | .tmuIncWrite master value => Sys2Proof.Machine.execTmuIncWrite master value s
  | .tmuStepGo master value => Sys2Proof.Machine.execTmuStepGo master value s
  | .timeStep role ns frac force => Sys2Proof.Machine.execTimeStep role ns frac force s
  | .tmuNowRead die master => Sys2Proof.Machine.execTmuNowRead die master s
  | .htPpsEdge => Sys2Proof.Machine.execHtPpsEdge s
  | .ppsLost => Sys2Proof.Machine.execPpsLost s
  | .clk10Measure ticks => Sys2Proof.Machine.execClk10Measure ticks s
  | .clk10Loss => Sys2Proof.Machine.execClk10Loss s
  | .ppsTarget role value => Sys2Proof.Machine.execPpsTarget role value s
  | .ageClockAdvance die => Sys2Proof.Machine.execAgeClockAdvance die s
  | .sweeperVisit die position => Sys2Proof.Machine.execSweeperVisit die position s
  | .frameIngress port lane frame => Sys2Proof.Machine.execFrameIngress port lane frame s
  | .cellRelease die frameId => Sys2Proof.Machine.execCellRelease die frameId s
  | .learnRecordApply die => Sys2Proof.Machine.execLearnRecordApply die s
  | .tblRead die set table index => Sys2Proof.Machine.execTblRead die set table index s
  | .tblWrite die set table force index => Sys2Proof.Machine.execTblWrite die set table force index s
  | .tblInsert die set table static index => Sys2Proof.Machine.execTblInsert die set table static index s
  | .tblDelete die set table index => Sys2Proof.Machine.execTblDelete die set table index s
  | .tblLookup die set table index => Sys2Proof.Machine.execTblLookup die set table index s
  | .tblReadNext die set table index => Sys2Proof.Machine.execTblReadNext die set table index s
  | .tblBroadcastCommit set cmd master keeperAlive dieLeft => Sys2Proof.Machine.execTblBroadcastCommit set cmd master keeperAlive dieLeft s
  | .emtSeedWrite die which value => Sys2Proof.Machine.execEmtSeedWrite die which value s
  | .digestRef role table die value => Sys2Proof.Machine.execDigestRef role table die value s
  | .digestCompare die => Sys2Proof.Machine.execDigestCompare die s
  | .laneStatePublish die => Sys2Proof.Machine.execLaneStatePublish die s
  | .shepherdGrant port cls => Sys2Proof.Machine.execShepherdGrant port cls s
  | .grantReceive die port cls => Sys2Proof.Machine.execGrantReceive die port cls s
  | .creditReturn die port cls => Sys2Proof.Machine.execCreditReturn die port cls s
  | .schedulerDecision die engine => Sys2Proof.Machine.execSchedulerDecision die engine s
  | .spreaderSendCell queue => Sys2Proof.Machine.execSpreaderSendCell queue s
  | .transitForward die egress => Sys2Proof.Machine.execTransitForward die egress s
  | .meshCellReceive src dst crcGood => Sys2Proof.Machine.execMeshCellReceive src dst crcGood s
  | .reasmTimeout die ingress frameId => Sys2Proof.Machine.execReasmTimeout die ingress frameId s
  | .reseqPass port ingress cls => Sys2Proof.Machine.execReseqPass port ingress cls s
  | .reseqSkip port ingress cls => Sys2Proof.Machine.execReseqSkip port ingress cls s
  | .laneFrameStart port lane => Sys2Proof.Machine.execLaneFrameStart port lane s
  | .egressUnderrun port lane => Sys2Proof.Machine.execEgressUnderrun port lane s
  | .ageHeadExamine queue => Sys2Proof.Machine.execAgeHeadExamine queue s
  | .spillReadback die port cls sub bad => Sys2Proof.Machine.execSpillReadback die port cls sub bad s
  | .contextSpill die => Sys2Proof.Machine.execContextSpill die s
  | .contextReadback die group inst chunk => Sys2Proof.Machine.execContextReadback die group inst chunk s
  | .portDrainDrain role port => Sys2Proof.Machine.execPortDrainDrain role port s
  | .portDrainFlush role port => Sys2Proof.Machine.execPortDrainFlush role port s
  | .portDrainNone role port => Sys2Proof.Machine.execPortDrainNone role port s
  | .drainEmpty port => Sys2Proof.Machine.execDrainEmpty port s
  | .classFlags role cls value => Sys2Proof.Machine.execClassFlags role cls value s
  | .carveoutGb role die value => Sys2Proof.Machine.execCarveoutGb role die value s
  | .wheelSlotRelease die => Sys2Proof.Machine.execWheelSlotRelease die s
  | .creditWordSend port cls => Sys2Proof.Machine.execCreditWordSend port cls s
  | .syncWordSend port lane cls => Sys2Proof.Machine.execSyncWordSend port lane cls s
  | .lcbReceive port lane block => Sys2Proof.Machine.execLcbReceive port lane block s
  | .closeApply port lane cls => Sys2Proof.Machine.execCloseApply port lane cls s
  | .creditWatchExpire port cls => Sys2Proof.Machine.execCreditWatchExpire port cls s
  | .pfcRepeat port cls => Sys2Proof.Machine.execPfcRepeat port cls s
  | .pfcFrameReceive port cls quanta => Sys2Proof.Machine.execPfcFrameReceive port cls quanta s
  | .pauseExpire port cls => Sys2Proof.Machine.execPauseExpire port cls s
  | .pauseWatchTrip port cls => Sys2Proof.Machine.execPauseWatchTrip port cls s
  | .pauseRecoverEnd port cls => Sys2Proof.Machine.execPauseRecoverEnd port cls s
  | .groupCreate role record => Sys2Proof.Machine.execGroupCreate role record s
  | .groupCommit commit => Sys2Proof.Machine.execGroupCommit commit s
  | .groupDelete role group => Sys2Proof.Machine.execGroupDelete role group s
  | .quarantineEnd group => Sys2Proof.Machine.execQuarantineEnd group s
  | .contributionIngress die => Sys2Proof.Machine.execContributionIngress die s
  | .contributionHome die => Sys2Proof.Machine.execContributionHome die s
  | .poisonNoticeReceive die => Sys2Proof.Machine.execPoisonNoticeReceive die s
  | .instanceTimeout die group inst => Sys2Proof.Machine.execInstanceTimeout die group inst s
  | .resultSendComplete die context => Sys2Proof.Machine.execResultSendComplete die context s
  | .retentionExpire die => Sys2Proof.Machine.execRetentionExpire die s
  | .lagClear role value => Sys2Proof.Machine.execLagClear role value s
  | .residualLockGrant die group chunk => Sys2Proof.Machine.execResidualLockGrant die group chunk s
  | .cellFire die tile row col => Sys2Proof.Machine.execCellFire die tile row col s
  | .streamIngressDeliver die tile port => Sys2Proof.Machine.execStreamIngressDeliver die tile port s
  | .decodeToken die tile port => Sys2Proof.Machine.execDecodeToken die tile port s
  | .encodeCmd die tile port => Sys2Proof.Machine.execEncodeCmd die tile port s
  | .cpRead die tile port => Sys2Proof.Machine.execCpRead die tile port s
  | .cpWrite die tile port => Sys2Proof.Machine.execCpWrite die tile port s
  | .cpAcc die tile port => Sys2Proof.Machine.execCpAcc die tile port s
  | .cpReadf die tile port => Sys2Proof.Machine.execCpReadf die tile port s
  | .streamEgressLast die tile port => Sys2Proof.Machine.execStreamEgressLast die tile port s
  | .walkRequest die tile port => Sys2Proof.Machine.execWalkRequest die tile port s
  | .imageFault die tile row col cause addr => Sys2Proof.Machine.execImageFault die tile row col cause addr s
  | .stallWatch die handle => Sys2Proof.Machine.execStallWatch die handle s
  | .imageResume die handle => Sys2Proof.Machine.execImageResume die handle s
  | .cellRetire die tile row position fails => Sys2Proof.Machine.execCellRetire die tile row position fails s
  | .imageStageData role data => Sys2Proof.Machine.execImageStageData role data s
  | .imageCommit role value => Sys2Proof.Machine.execImageCommit role value s
  | .imageUnload role handle => Sys2Proof.Machine.execImageUnload role handle s
  | .imagePlace role handle dies tile => Sys2Proof.Machine.execImagePlace role handle dies tile s
  | .imageUnplace role handle dies => Sys2Proof.Machine.execImageUnplace role handle dies s
  | .imageRestart role handle => Sys2Proof.Machine.execImageRestart role handle s
  | .spareSwitch role die tile row position => Sys2Proof.Machine.execSpareSwitch role die tile row position s
  | .regionCreate role record => Sys2Proof.Machine.execRegionCreate role record s
  | .regionReady handle => Sys2Proof.Machine.execRegionReady handle s
  | .regionDelete role handle => Sys2Proof.Machine.execRegionDelete role handle s
  | .regionControlData role handle data => Sys2Proof.Machine.execRegionControlData role handle data s
  | .updateLockGrant handle block => Sys2Proof.Machine.execUpdateLockGrant handle block s
  | .blockCommit die context => Sys2Proof.Machine.execBlockCommit die context s
  | .mirrorWordReceive die => Sys2Proof.Machine.execMirrorWordReceive die s
  | .mirrorCommitReceive die => Sys2Proof.Machine.execMirrorCommitReceive die s
  | .mirrorAck die => Sys2Proof.Machine.execMirrorAck die s
  | .mirrorAuditBlock handle block primaryReads mirrorReads => Sys2Proof.Machine.execMirrorAuditBlock handle block primaryReads mirrorReads s
  | .mirrorResolve role handle block source => Sys2Proof.Machine.execMirrorResolve role handle block source s
  | .exportStart role handle first count dest cls => Sys2Proof.Machine.execExportStart role handle first count dest cls s
  | .exportBlock die badWord => Sys2Proof.Machine.execExportBlock die badWord s
  | .importOpen role handle => Sys2Proof.Machine.execImportOpen role handle s
  | .importFrame body => Sys2Proof.Machine.execImportFrame body s
  | .importClose role handle => Sys2Proof.Machine.execImportClose role handle s
  | .takeoverComplete handle => Sys2Proof.Machine.execTakeoverComplete handle s
  | .lcbSend port lane => Sys2Proof.Machine.execLcbSend port lane s
  | .elsPowerTimeout module => Sys2Proof.Machine.execElsPowerTimeout module s
  | .elsPoll module powers faultFlags => Sys2Proof.Machine.execElsPoll module powers faultFlags s
  | .monitorRefresh port s1 s2 s3 s4 s5 received => Sys2Proof.Machine.execMonitorRefresh port s1 s2 s3 s4 s5 received s
  | .ringLoopTick ring sight => Sys2Proof.Machine.execRingLoopTick ring sight s
  | .ringAcquireDone ring sight => Sys2Proof.Machine.execRingAcquireDone ring sight s
  | .beaconCheckStart ring => Sys2Proof.Machine.execBeaconCheckStart ring s
  | .beaconCheckComplete ring tones sight => Sys2Proof.Machine.execBeaconCheckComplete ring tones sight s
  | .setpointStore ring temp => Sys2Proof.Machine.execSetpointStore ring temp s
  | .ringSeek role port receive slot start => Sys2Proof.Machine.execRingSeek role port receive slot start s
  | .laneSignalOk port lane goodForNs => Sys2Proof.Machine.execLaneSignalOk port lane goodForNs s
  | .trainLcbSend port lane => Sys2Proof.Machine.execTrainLcbSend port lane s
  | .markerSend port lane => Sys2Proof.Machine.execMarkerSend port lane s
  | .laneTrainTimeout port lane => Sys2Proof.Machine.execLaneTrainTimeout port lane s
  | .laneFaultRetry port lane => Sys2Proof.Machine.execLaneFaultRetry port lane s
  | .lcmResend port => Sys2Proof.Machine.execLcmResend port s
  | .marginDwell port lane berReached => Sys2Proof.Machine.execMarginDwell port lane berReached s
  | .marginEstimate port lane correctedBits uncorrectable => Sys2Proof.Machine.execMarginEstimate port lane correctedBits uncorrectable s
  | .marginReportSend port lane => Sys2Proof.Machine.execMarginReportSend port lane s
  | .lineMigration module slot => Sys2Proof.Machine.execLineMigration module slot s
  | .migrateRepeat port lane => Sys2Proof.Machine.execMigrateRepeat port lane s
  | .laneMigrate role module slot => Sys2Proof.Machine.execLaneMigrate role module slot s
  | .laneRestore role module slot => Sys2Proof.Machine.execLaneRestore role module slot s
  | .marginRun role port lanes => Sys2Proof.Machine.execMarginRun role port lanes s
  | .laneAdmit role port lanes => Sys2Proof.Machine.execLaneAdmit role port lanes s
  | .loopMode role port mode => Sys2Proof.Machine.execLoopMode role port mode s
  | .meshSpareSubstitute src dst channel abrupt => Sys2Proof.Machine.execMeshSpareSubstitute src dst channel abrupt s
  | .expressSet role q a b actTime => Sys2Proof.Machine.execExpressSet role q a b actTime s
  | .expressDrainCheck q quietNs => Sys2Proof.Machine.execExpressDrainCheck q quietNs s
  | .expressGuardCheck q e1 => Sys2Proof.Machine.execExpressGuardCheck q e1 s
  | .expressGateOpen q => Sys2Proof.Machine.execExpressGateOpen q s
  | .expressPowerCheck q e2 => Sys2Proof.Machine.execExpressPowerCheck q e2 s
  | .expressClear role q t flags => Sys2Proof.Machine.execExpressClear role q t flags s
  | .expressTeardown q => Sys2Proof.Machine.execExpressTeardown q s
  | .expressInputLow q e1 lowNs => Sys2Proof.Machine.execExpressInputLow q e1 lowNs s
  | .epEnable role port value => Sys2Proof.Machine.execEpEnable role port value s
  | .epMode role port media value => Sys2Proof.Machine.execEpMode role port media value s
  | .linkTrainingRequest port lane tap change peerReady snrGainTenths => Sys2Proof.Machine.execLinkTrainingRequest port lane tap change peerReady snrGainTenths s
  | .memberUp port member cleanNs => Sys2Proof.Machine.execMemberUp port member cleanNs s
  | .memberDown port member => Sys2Proof.Machine.execMemberDown port member s
  | .epTrainTimeout port member => Sys2Proof.Machine.execEpTrainTimeout port member s
  | .epLoop role port value => Sys2Proof.Machine.execEpLoop role port value s
  | .eqFreeze role port value => Sys2Proof.Machine.execEqFreeze role port value s
  | .modulePresenceChange port present steadyNs => Sys2Proof.Machine.execModulePresenceChange port present steadyNs s
  | .moduleActivate port application lanesActive => Sys2Proof.Machine.execModuleActivate port application lanesActive s
  | .moduleActivateTimeout port => Sys2Proof.Machine.execModuleActivateTimeout port s
  | .modulePoll port acknowledged faultState => Sys2Proof.Machine.execModulePoll port acknowledged faultState s
  | .mpFrameReceive mp bytes => Sys2Proof.Machine.execMpFrameReceive mp bytes s
  | .mpFailover mp up => Sys2Proof.Machine.execMpFailover mp up s
  | .timedFrameEligible die => Sys2Proof.Machine.execTimedFrameEligible die s
  | .fuseProgram role field value badCopy => Sys2Proof.Machine.execFuseProgram role field value badCopy s
  | .fwStageData role data => Sys2Proof.Machine.execFwStageData role data s
  | .fwCommit role value => Sys2Proof.Machine.execFwCommit role value s
  | .fwFlashWriteDone readbackGood => Sys2Proof.Machine.execFwFlashWriteDone readbackGood s
  | .rollbackAdvance role value steps => Sys2Proof.Machine.execRollbackAdvance role value steps s
  | .attestRequest role nonce => Sys2Proof.Machine.execAttestRequest role nonce s
  | .attestReportDone => Sys2Proof.Machine.execAttestReportDone s
  | .measExtend role index digest => Sys2Proof.Machine.execMeasExtend role index digest s
  | .logRead session => Sys2Proof.Machine.execLogRead session s
  | .agingMode role value => Sys2Proof.Machine.execAgingMode role value s
  | .ringLockMode role value => Sys2Proof.Machine.execRingLockMode role value s
  | .migrationMode role value => Sys2Proof.Machine.execMigrationMode role value s
  | .marginMode role value => Sys2Proof.Machine.execMarginMode role value s
  | .spareMode role value => Sys2Proof.Machine.execSpareMode role value s
  | .collRecoveryMode role value => Sys2Proof.Machine.execCollRecoveryMode role value s
  | .timeServoMode role value => Sys2Proof.Machine.execTimeServoMode role value s
  | .keyInstall mp source datagram => Sys2Proof.Machine.execKeyInstall mp source datagram s
  | .openMsg mp source datagram => Sys2Proof.Machine.execOpenMsg mp source datagram s
  | .closeSession mp source datagram => Sys2Proof.Machine.execCloseSession mp source datagram s
  | .sessionIdleExpire session => Sys2Proof.Machine.execSessionIdleExpire session s
  | .sessionClose role session => Sys2Proof.Machine.execSessionClose role session s
  | .requestFragment mp source datagram => Sys2Proof.Machine.execRequestFragment mp source datagram s
  | .requestExecute session => Sys2Proof.Machine.execRequestExecute session s
  | .fragmentTimeout session => Sys2Proof.Machine.execFragmentTimeout session s
  | .domainRequest mp source datagram => Sys2Proof.Machine.execDomainRequest mp source datagram s
  | .objectWrite role index sub value => Sys2Proof.Machine.execObjectWrite role index sub value s
  | .keyWrite role sub key => Sys2Proof.Machine.execKeyWrite role sub key s
  | .domainId role value => Sys2Proof.Machine.execDomainId role value s
  | .foghornRaise event => Sys2Proof.Machine.execFoghornRaise event s
  | .foghornSend collector => Sys2Proof.Machine.execFoghornSend collector s
  | .foghornAck collector datagram => Sys2Proof.Machine.execFoghornAck collector datagram s
  | .foghornHeartbeat collector => Sys2Proof.Machine.execFoghornHeartbeat collector s
  | .collectorStale collector => Sys2Proof.Machine.execCollectorStale collector s
  | .collectorAddr role collector address => Sys2Proof.Machine.execCollectorAddr role collector address s
  | .regData role session write => Sys2Proof.Machine.execRegData role session write s
  | .regBurst role session count write => Sys2Proof.Machine.execRegBurst role session count write s
  | .registerWrite master address value => Sys2Proof.Machine.execRegisterWrite master address value s
  | .absentUnitAccess master address write => Sys2Proof.Machine.execAbsentUnitAccess master address write s
  | .mbGo master die value => Sys2Proof.Machine.execMbGo master die value s
  | .bitAliasWrite master die word value => Sys2Proof.Machine.execBitAliasWrite master die word value s
  | .cfgCommit master die => Sys2Proof.Machine.execCfgCommit master die s
  | .cfgRefWrite master die value => Sys2Proof.Machine.execCfgRefWrite master die value s
  | .cfgRecompute die recomputed => Sys2Proof.Machine.execCfgRecompute die recomputed s
  | .chHeadWrite master engine channel value => Sys2Proof.Machine.execChHeadWrite master engine channel value s
  | .dmaDescriptorFetch engine channel => Sys2Proof.Machine.execDmaDescriptorFetch engine channel s
  | .dmaDescriptorComplete engine channel => Sys2Proof.Machine.execDmaDescriptorComplete engine channel s
  | .chEnable master engine channel value => Sys2Proof.Machine.execChEnable master engine channel value s
  | .chAbort master engine channel => Sys2Proof.Machine.execChAbort master engine channel s
  | .dmaHalted engine => Sys2Proof.Machine.execDmaHalted engine s
  | .resume viaObject master engine => Sys2Proof.Machine.execResume viaObject master engine s
  | .cellSelftest die tile row position opcode cellDiffers partnerDiffers storeDiffers referenceFails => Sys2Proof.Machine.execCellSelftest die tile row position opcode cellDiffers partnerDiffers storeDiffers referenceFails s
  | .crosscheckRetest die tile unitFails => Sys2Proof.Machine.execCrosscheckRetest die tile unitFails s
  | .scrubRead die channel granule badBytes => Sys2Proof.Machine.execScrubRead die channel granule badBytes s
  | .sramScrub die correctable uncorrectable array word => Sys2Proof.Machine.execSramScrub die correctable uncorrectable array word s
  | .scrubBehind die => Sys2Proof.Machine.execScrubBehind die s
  | .memCeHigh die channel => Sys2Proof.Machine.execMemCeHigh die channel s
  | .memUncorrectable die channel granule => Sys2Proof.Machine.execMemUncorrectable die channel granule s
  | .freezeNow role value => Sys2Proof.Machine.execFreezeNow role value s
  | .freezeOnEvent bit die unit => Sys2Proof.Machine.execFreezeOnEvent bit die unit s
  | .counterFlagsClear role event die instance_ flags => Sys2Proof.Machine.execCounterFlagsClear role event die instance_ flags s
  | .frzRead die scan array address => Sys2Proof.Machine.execFrzRead die scan array address s
  | .regAccess address write => Sys2Proof.Machine.execRegAccess address write s
  | .memoryIslandIdle die => Sys2Proof.Machine.execMemoryIslandIdle die s
  | .laneFailsAbruptly port lane => Sys2Proof.Machine.execLaneFailsAbruptly port lane s
  | .linkTrainingTimeout port lane => Sys2Proof.Machine.execLinkTrainingTimeout port lane s
  | .snapshotStale die => Sys2Proof.Machine.execSnapshotStale die s
  | .tokenLinkCrossing die tile row col output => Sys2Proof.Machine.execTokenLinkCrossing die tile row col output s
  | .retrieverAccessComplete die tile port thread => Sys2Proof.Machine.execRetrieverAccessComplete die tile port thread s
  | .frameAddressedToKeeper die => Sys2Proof.Machine.execFrameAddressedToKeeper die s
  | .frameLeavesPort port lane => Sys2Proof.Machine.execFrameLeavesPort port lane s

end Sys2Proof.Machine
end

