-- ==== Sys2Proof/Machine/Tick.lean ====
section
/-! DEFINITION. One tick of 1.25 ns: the 800 MHz time island (12 R378) and the queue clocks (03 R99). -/

namespace Sys2Proof.Machine

/-- R378, R20: the counter and every follower advance by the increment. The keeper die's counter stands while the die is
lost or held; the followers run on. -/
def tickTime (t : Time) (keeperRuns : Bool) : Time :=
  let inc := t.inc.setWidth 60
  let f := (upTo 8).foldl (fun g d => g.set d (g.get d + inc)) t.followers
  { t with
    queue4 := (t.queue4 + 5) % (4 * 2 ^ 64)
    tmu := if keeperRuns then t.tmu + inc else t.tmu
    followers := f
    ppsTicks := t.ppsTicks + 1 }

/-- One tick: the wall clock always advances, the device's clocks while they run; a device in RESET leaves it when it may
(13 R410). -/
def tick (s : State) : State :=
  let s := { s with time := { s.time with wall4 := s.time.wall4 + 5 } }
  if clocksRun s then
    { s with time := tickTime s.time (!s.start.keeperLost) }
  else if mayLeaveReset s then leaveReset s else s

end Sys2Proof.Machine
end

