-- ==== Sys2Proof/Safety.lean ====
section
/-! DEFINITION. The terms the statements use: a step that answers a next state, a command that answers a next state with a
property, a role that may write an object, and a state whose memory is in its canonical form. -/

namespace Sys2Proof

/-- The step from a state answers a next state. -/
def Safe (s : Machine.State) : Prop := ∃ t, Machine.step s = .next t

/-- A command answers a next state, and the next state has a property. -/
def Answers (c : Instr) (s : Machine.State) (P : Machine.State → Prop) : Prop :=
  ∃ t, Machine.exec c s = .next t ∧ P t

/-- The keeper serves objects and a role may write an object now (16 R482, R483). -/
abbrev Permitted (r : Role) (idx sub : Nat) (s : Machine.State) : Prop :=
  Machine.keeperUp s = true ∧ Machine.writeCheck r idx sub s = Machine.stDone

/-- A register access passes the checks of its path (17 R496, R500). -/
abbrev Granted (s : Machine.State) (master die block word : Nat) (write : Bool) : Prop :=
  Machine.accessCheck s master die block word write = .granted

/-- A sector die answers phase one of a broadcast table command with a code that refuses it (02 R67). -/
def refuses (s : Machine.State) (set : Nat) (cmd : Word) (die : Nat) : Bool :=
  let c := { s.tables.sets.get (Machine.setKey die set) with cmd := cmd &&& 0xFFC0FFFF, location := 3 }
  let r := Machine.tblCheck s die c (cmd.toNat / 2 ^ 28) (cmd.toNat / 2 ^ 24 % 16) (Machine.bit cmd.toNat 23) (cmd.toNat % 65536)
  r != Machine.rDone && r != Machine.rReplaced

/-- What the freeze latch leaves (18 R546, R547): the device frozen, no module enabled, every gate closed, the cause in word 1
of the record of the keeper die and of each sector die in service, and the rest as it was. -/
def Frozen (cause : Nat) (s t : Machine.State) : Prop :=
  t.start = { s.start with state := .frozen, elsE := 0, elsI := 0 } ∧ t.power = { s.power with frozen := true } ∧
  (∀ c ∈ t.express.paths.cells, c.2.gateOpen = false) ∧
  (∀ d ∈ 8 :: Machine.diesUp s, t.ras.frz.get (d * 64 + 1) = BitVec.ofNat 32 cause) ∧
  t.time = s.time ∧ t.regs = s.regs ∧ t.switch = s.switch ∧ t.optics = s.optics ∧ t.mem = s.mem ∧ t.obj = s.obj ∧ t.bop = s.bop

/-! ### Frames: the parts of the state a command may change -/

/-- A part of the state: one field of `State`; the generators `gens` of the draws go with the counter `free`. -/
inductive Part where
  | power
  | time
  | start
  | keeper
  | tables
  | switch
  | flow
  | coll
  | fabric
  | resident
  | optics
  | express
  | mgmt
  | bop
  | regs
  | ras
  | mem
  | obj
  | out
  | free
  | pending
  deriving DecidableEq, Repr

/-- Two states agree on a part. -/
def Part.same (s t : Machine.State) : Part → Prop
  | .power => t.power = s.power
  | .time => t.time = s.time
  | .start => t.start = s.start
  | .keeper => t.keeper = s.keeper
  | .tables => t.tables = s.tables
  | .switch => t.switch = s.switch
  | .flow => t.flow = s.flow
  | .coll => t.coll = s.coll
  | .fabric => t.fabric = s.fabric
  | .resident => t.resident = s.resident
  | .optics => t.optics = s.optics
  | .express => t.express = s.express
  | .mgmt => t.mgmt = s.mgmt
  | .bop => t.bop = s.bop
  | .regs => t.regs = s.regs
  | .ras => t.ras = s.ras
  | .mem => t.mem = s.mem
  | .obj => t.obj = s.obj
  | .out => t.out = s.out
  | .free => t.free = s.free ∧ t.gens = s.gens
  | .pending => t.pending = s.pending

/-- From the first state to the second nothing changed but the parts listed. -/
def OnlyChanges (l : List Part) (s t : Machine.State) : Prop := ∀ p : Part, p ∉ l → p.same s t

/-- The families of commands, by the chapters of the manual. -/
inductive Family where
  /-- power, reset, clocks, sensors, freezing (13) -/
  | power
  /-- start-up and losses of a die (14, 15, 01) -/
  | startUp
  /-- the time unit and hall time (12) -/
  | time
  /-- tables, learning, ageing (02) -/
  | tables
  /-- switch core, scheduling, credits, pause (03, 04) -/
  | switching
  /-- groups, contributions, results (05, 06) -/
  | collectives
  /-- the Aihorn fabric and images (07) -/
  | fabric
  /-- the resident parameter service (08) -/
  | resident
  /-- photonic lanes and the lane protocol (09) -/
  | lanes
  /-- express lightpaths (10) -/
  | express
  /-- electrical and management ports (11) -/
  | ports
  /-- keeper firmware, fuses, evidence (14) -/
  | keeper
  /-- the object protocol and Foghorn (16) -/
  | protocol
  /-- registers, configuration CRC, DMA engines (17) -/
  | registers
  /-- error detection, scrubbing, the freeze record (18) -/
  | reliability
  deriving DecidableEq, Repr

/-- The family of a command. -/
def family : Instr → Family
  | .powerOn .. | .powerOff .. | .vinLow .. | .resetAssert .. | .resetRelease .. | .freezeNAssert ..
  | .hardwareTrip .. | .refclkLoss .. | .refclkReturn .. | .refclkPrefer .. | .snapshotRefresh .. | .snapshotStale ..
      => .power
  | .fuseLoad .. | .romBoot .. | .fwVerify .. | .bootRequest .. | .bootData .. | .bootEnd .. | .bootOwnerLapse ..
  | .memTrain .. | .memTrainTimeout .. | .libraryLoad .. | .opticsCal .. | .opticsCalEnd .. | .meshDeadLinkCheck ..
  | .marginTestEnd .. | .serviceEnter .. | .serviceMarkReceive .. | .degradedCauseChange .. | .dieHeartbeat ..
  | .dieLost .. | .keeperLost .. | .keeperWatchdogExpire .. | .configCommitMark .. => .startUp
  | .alignmentMark .. | .tmuIncWrite .. | .tmuStepGo .. | .timeStep .. | .tmuNowRead .. | .htPpsEdge .. | .ppsLost ..
  | .clk10Measure .. | .clk10Loss .. | .ppsTarget .. => .time
  | .ageClockAdvance .. | .sweeperVisit .. | .frameIngress .. | .cellRelease .. | .learnRecordApply .. | .tblRead ..
  | .tblWrite .. | .tblInsert .. | .tblDelete .. | .tblLookup .. | .tblReadNext .. | .tblBroadcastCommit ..
  | .emtSeedWrite .. | .digestRef .. | .digestCompare .. => .tables
  | .laneStatePublish .. | .shepherdGrant .. | .grantReceive .. | .creditReturn .. | .schedulerDecision ..
  | .spreaderSendCell .. | .transitForward .. | .meshCellReceive .. | .reasmTimeout .. | .reseqPass ..
  | .reseqSkip .. | .laneFrameStart .. | .egressUnderrun .. | .ageHeadExamine .. | .spillReadback ..
  | .contextSpill .. | .contextReadback .. | .portDrainDrain .. | .portDrainFlush .. | .portDrainNone ..
  | .drainEmpty .. | .classFlags .. | .carveoutGb .. | .wheelSlotRelease .. | .creditWordSend .. | .syncWordSend ..
  | .lcbReceive .. | .closeApply .. | .creditWatchExpire .. | .pfcRepeat .. | .pfcFrameReceive .. | .pauseExpire ..
  | .pauseWatchTrip .. | .pauseRecoverEnd .. | .frameLeavesPort .. => .switching
  | .groupCreate .. | .groupCommit .. | .groupDelete .. | .quarantineEnd .. | .contributionIngress ..
  | .contributionHome .. | .poisonNoticeReceive .. | .instanceTimeout .. | .resultSendComplete ..
  | .retentionExpire .. | .lagClear .. | .residualLockGrant .. => .collectives
  | .cellFire .. | .streamIngressDeliver .. | .decodeToken .. | .encodeCmd .. | .cpRead .. | .cpWrite .. | .cpAcc ..
  | .cpReadf .. | .streamEgressLast .. | .walkRequest .. | .imageFault .. | .stallWatch .. | .imageResume ..
  | .cellRetire .. | .imageStageData .. | .imageCommit .. | .imageUnload .. | .imagePlace .. | .imageUnplace ..
  | .imageRestart .. | .spareSwitch .. | .tokenLinkCrossing .. => .fabric
  | .regionCreate .. | .regionReady .. | .regionDelete .. | .regionControlData .. | .updateLockGrant ..
  | .blockCommit .. | .mirrorWordReceive .. | .mirrorCommitReceive .. | .mirrorAck .. | .mirrorAuditBlock ..
  | .mirrorResolve .. | .exportStart .. | .exportBlock .. | .importOpen .. | .importFrame .. | .importClose ..
  | .takeoverComplete .. | .retrieverAccessComplete .. => .resident
  | .lcbSend .. | .elsPowerTimeout .. | .elsPoll .. | .monitorRefresh .. | .ringLoopTick .. | .ringAcquireDone ..
  | .beaconCheckStart .. | .beaconCheckComplete .. | .setpointStore .. | .ringSeek .. | .laneSignalOk ..
  | .trainLcbSend .. | .markerSend .. | .laneTrainTimeout .. | .laneFaultRetry .. | .lcmResend .. | .marginDwell ..
  | .marginEstimate .. | .marginReportSend .. | .lineMigration .. | .migrateRepeat .. | .laneMigrate ..
  | .laneRestore .. | .marginRun .. | .laneAdmit .. | .loopMode .. | .meshSpareSubstitute .. | .laneFailsAbruptly ..
      => .lanes
  | .expressSet .. | .expressDrainCheck .. | .expressGuardCheck .. | .expressGateOpen .. | .expressPowerCheck ..
  | .expressClear .. | .expressTeardown .. | .expressInputLow .. => .express
  | .epEnable .. | .epMode .. | .linkTrainingRequest .. | .memberUp .. | .memberDown .. | .epTrainTimeout ..
  | .epLoop .. | .eqFreeze .. | .modulePresenceChange .. | .moduleActivate .. | .moduleActivateTimeout ..
  | .modulePoll .. | .mpFrameReceive .. | .mpFailover .. | .timedFrameEligible .. | .linkTrainingTimeout .. => .ports
  | .fuseProgram .. | .fwStageData .. | .fwCommit .. | .fwFlashWriteDone .. | .rollbackAdvance .. | .attestRequest ..
  | .attestReportDone .. | .measExtend .. | .logRead .. | .agingMode .. | .ringLockMode .. | .migrationMode ..
  | .marginMode .. | .spareMode .. | .collRecoveryMode .. | .timeServoMode .. | .frameAddressedToKeeper .. => .keeper
  | .keyInstall .. | .openMsg .. | .closeSession .. | .sessionIdleExpire .. | .sessionClose .. | .requestFragment ..
  | .requestExecute .. | .fragmentTimeout .. | .domainRequest .. | .objectWrite .. | .keyWrite .. | .domainId ..
  | .foghornRaise .. | .foghornSend .. | .foghornAck .. | .foghornHeartbeat .. | .collectorStale ..
  | .collectorAddr .. | .regData .. | .regBurst .. => .protocol
  | .registerWrite .. | .absentUnitAccess .. | .mbGo .. | .bitAliasWrite .. | .cfgCommit .. | .cfgRefWrite ..
  | .cfgRecompute .. | .chHeadWrite .. | .dmaDescriptorFetch .. | .dmaDescriptorComplete .. | .chEnable ..
  | .chAbort .. | .dmaHalted .. | .resume .. => .registers
  | .cellSelftest .. | .crosscheckRetest .. | .scrubRead .. | .sramScrub .. | .scrubBehind .. | .memCeHigh ..
  | .memUncorrectable .. | .freezeNow .. | .freezeOnEvent .. | .counterFlagsClear .. | .frzRead .. | .regAccess ..
  | .memoryIslandIdle .. => .reliability

/-- The parts of the state that a command may change: its own effect, the counters (`regs`) and events (`bop`) it raises, the
outputs it drives, and the free values it draws. A reset, and a request that writes or commands any object, may change every part
but the queue. No command changes the queue. -/
def touches : Instr → List Part
  | .powerOn .. => [.power, .start]
  | .powerOff ..
      => [.power, .time, .start, .keeper, .tables, .switch, .flow, .coll, .fabric, .resident, .optics, .express, .mgmt, .bop, .regs, .ras, .mem, .obj, .free]
  | .vinLow .. => [.power, .bop, .regs]
  | .resetAssert .. | .hardwareTrip ..
      => [.power, .time, .start, .keeper, .tables, .switch, .flow, .coll, .fabric, .resident, .optics, .express, .mgmt, .bop, .regs, .ras, .obj, .free]
  | .resetRelease .. | .requestExecute .. | .domainRequest .. | .objectWrite ..
      => [.power, .time, .start, .keeper, .tables, .switch, .flow, .coll, .fabric, .resident, .optics, .express, .mgmt, .bop, .regs, .ras, .mem, .obj, .out, .free]
  | .freezeNAssert .. | .freezeOnEvent .. => [.power, .start, .express, .ras, .free]
  | .refclkLoss .. | .refclkReturn .. => [.power, .start, .bop, .regs]
  | .refclkPrefer .. => [.power, .bop, .obj]
  | .snapshotRefresh ..
      => [.power, .start, .keeper, .tables, .switch, .flow, .coll, .resident, .optics, .express, .bop, .regs, .mem, .out]
  | .fuseLoad ..
      => [.start, .keeper, .tables, .switch, .flow, .coll, .fabric, .resident, .optics, .express, .mgmt, .bop, .regs, .ras, .mem, .out, .free]
  | .romBoot ..
      => [.start, .keeper, .tables, .switch, .flow, .coll, .resident, .optics, .express, .mgmt, .bop, .regs, .ras, .mem, .out]
  | .fwVerify ..
      => [.start, .keeper, .tables, .switch, .flow, .coll, .resident, .optics, .express, .mgmt, .bop, .regs, .mem, .out]
  | .memTrain .. | .memTrainTimeout .. | .opticsCal .. | .opticsCalEnd ..
      => [.start, .keeper, .tables, .switch, .flow, .coll, .resident, .optics, .express, .bop, .regs, .mem, .out]
  | .bootRequest .. => [.keeper, .out]
  | .bootData .. => [.keeper, .mgmt, .regs, .mem, .out]
  | .bootEnd ..
      => [.start, .keeper, .tables, .switch, .flow, .coll, .resident, .optics, .express, .mgmt, .bop, .regs, .mem, .out, .free]
  | .bootOwnerLapse .. => [.keeper]
  | .libraryLoad ..
      => [.power, .start, .keeper, .tables, .switch, .flow, .coll, .fabric, .resident, .optics, .express, .bop, .regs, .mem, .out]
  | .meshDeadLinkCheck .. | .dieLost .. | .marginTestEnd ..
      => [.start, .keeper, .tables, .switch, .flow, .coll, .resident, .optics, .express, .bop, .regs, .out]
  | .elsPoll .. => [.start, .switch, .flow, .optics, .bop, .regs]
  | .serviceEnter .. => [.start, .bop]
  | .serviceMarkReceive .. => [.start, .keeper, .bop, .regs]
  | .degradedCauseChange .. => [.start, .bop, .regs]
  | .dieHeartbeat .. => [.start]
  | .keeperLost .. | .keeperWatchdogExpire ..
      => [.start, .keeper, .tables, .switch, .flow, .coll, .fabric, .resident, .optics, .express, .mgmt, .bop, .regs, .ras, .mem, .obj, .out, .free]
  | .configCommitMark .. => [.switch, .flow, .coll, .bop, .obj]
  | .alignmentMark .. => [.time, .tables, .switch, .flow, .optics, .express, .bop, .regs, .free]
  | .tmuIncWrite .. | .tmuNowRead .. => [.time, .regs]
  | .tmuStepGo .. | .timeStep .. | .htPpsEdge .. | .ppsLost .. | .clk10Measure .. | .clk10Loss .. => [.time, .bop, .regs]
  | .ppsTarget .. => [.time, .bop]
  | .ageClockAdvance .. | .emtSeedWrite .. => [.tables]
  | .sweeperVisit .. => [.tables, .free]
  | .frameIngress .. => [.tables, .switch, .flow, .coll, .bop, .regs, .ras, .out, .free]
  | .cellRelease .. => [.switch, .flow, .regs, .ras, .out]
  | .frameLeavesPort .. => [.switch, .flow, .regs, .out]
  | .learnRecordApply .. => [.tables, .bop, .regs, .free]
  | .tblRead .. | .tblWrite .. | .tblInsert .. | .tblDelete .. | .tblLookup .. | .tblReadNext ..
  | .tblBroadcastCommit .. => [.tables, .regs, .free]
  | .digestRef .. | .digestCompare .. => [.tables, .bop, .regs]
  | .laneStatePublish .. | .drainEmpty .. => [.switch]
  | .shepherdGrant .. | .grantReceive .. | .creditReturn .. | .closeApply .. | .pfcFrameReceive .. | .pauseExpire ..
  | .pauseRecoverEnd .. => [.flow]
  | .schedulerDecision .. => [.switch, .flow, .coll]
  | .spreaderSendCell .. | .reasmTimeout .. => [.tables, .switch, .flow, .coll, .regs, .out]
  | .transitForward .. | .meshCellReceive .. | .reseqPass .. | .laneFrameStart .. | .ageHeadExamine ..
      => [.tables, .switch, .flow, .coll, .regs, .out, .free]
  | .contributionIngress .. => [.tables, .switch, .flow, .coll, .regs, .ras, .out, .free]
  | .reseqSkip .. | .egressUnderrun .. => [.switch, .regs]
  | .spillReadback .. => [.tables, .switch, .flow, .coll, .bop, .regs, .ras, .out]
  | .contextSpill .. | .contextReadback .. => [.switch, .coll]
  | .portDrainDrain .. | .portDrainNone .. => [.switch, .bop, .obj]
  | .portDrainFlush .. => [.tables, .switch, .flow, .coll, .bop, .regs, .obj, .out]
  | .classFlags .. | .carveoutGb .. | .timeServoMode .. => [.bop, .obj]
  | .wheelSlotRelease .. => [.flow, .regs]
  | .creditWordSend .. | .syncWordSend .. => [.flow, .optics]
  | .lcbReceive .. => [.tables, .switch, .flow, .coll, .optics, .express, .bop, .regs, .out, .free]
  | .beaconCheckComplete ..
      => [.start, .tables, .switch, .flow, .coll, .resident, .optics, .express, .bop, .regs, .out, .free]
  | .creditWatchExpire .. | .pauseWatchTrip .. => [.flow, .bop, .regs]
  | .pfcRepeat .. => [.flow, .out]
  | .groupCreate .. | .groupCommit .. | .lagClear .. => [.coll, .bop]
  | .groupDelete .. | .encodeCmd .. | .streamEgressLast .. | .walkRequest .. | .retrieverAccessComplete ..
      => [.switch, .coll, .fabric, .resident, .bop, .regs, .ras, .mem, .free]
  | .quarantineEnd .. | .retentionExpire .. | .residualLockGrant .. => [.coll]
  | .contributionHome .. | .instanceTimeout .. | .cellFire .. | .streamIngressDeliver .. | .decodeToken .. | .cpRead ..
  | .cpWrite .. | .cpAcc .. | .cpReadf .. | .imageFault .. | .stallWatch ..
      => [.switch, .coll, .fabric, .resident, .bop, .regs, .ras, .free]
  | .poisonNoticeReceive .. => [.switch, .coll, .resident, .bop, .regs, .ras, .free]
  | .resultSendComplete .. => [.switch, .coll, .resident, .bop, .regs, .ras, .mem]
  | .imageResume .. => [.coll, .fabric]
  | .cellRetire .. | .spareSwitch .. | .cellSelftest .. | .crosscheckRetest ..
      => [.start, .keeper, .tables, .switch, .flow, .coll, .fabric, .resident, .optics, .express, .bop, .regs, .ras, .out, .free]
  | .imageStageData .. => [.power, .start, .keeper, .fabric, .bop, .regs, .mem]
  | .imageCommit .. => [.keeper, .fabric, .bop]
  | .imageUnload .. | .imagePlace .. => [.fabric, .bop]
  | .imageUnplace .. => [.power, .start, .keeper, .fabric, .bop, .regs]
  | .imageRestart .. => [.coll, .fabric, .bop]
  | .regionCreate .. | .regionDelete .. | .exportStart .. | .importOpen .. => [.resident, .bop]
  | .regionReady .. | .mirrorAuditBlock .. | .importFrame .. | .importClose .. | .takeoverComplete ..
      => [.resident, .bop, .regs, .ras, .mem]
  | .regionControlData .. => [.bop, .ras, .mem]
  | .updateLockGrant .. => [.resident]
  | .blockCommit .. => [.coll, .resident, .bop, .regs, .ras, .mem]
  | .mirrorWordReceive .. | .mirrorCommitReceive .. => [.resident, .ras, .mem]
  | .mirrorAck .. => [.resident, .regs, .ras, .mem]
  | .mirrorResolve .. => [.resident, .bop, .ras, .mem]
  | .exportBlock .. => [.switch, .resident, .regs, .ras, .mem, .free]
  | .lcbSend .. => [.optics, .out]
  | .elsPowerTimeout .. => [.start, .optics, .bop, .regs]
  | .monitorRefresh .. => [.start, .switch, .flow, .resident, .optics, .express, .bop, .regs, .out, .free]
  | .ringLoopTick .. => [.start, .tables, .switch, .flow, .coll, .resident, .optics, .bop, .regs, .out, .free]
  | .ringSeek .. | .marginDwell .. => [.tables, .switch, .flow, .coll, .optics, .bop, .regs, .out, .free]
  | .ringAcquireDone .. | .beaconCheckStart .. | .setpointStore .. | .laneSignalOk .. | .trainLcbSend ..
  | .laneFaultRetry .. | .migrateRepeat .. => [.optics]
  | .markerSend .. => [.optics, .out, .free]
  | .laneTrainTimeout .. | .laneFailsAbruptly .. => [.tables, .switch, .flow, .coll, .optics, .regs, .out, .free]
  | .lcmResend .. | .expressGuardCheck .. | .expressPowerCheck .. | .expressClear .. => [.optics, .express, .bop, .regs]
  | .marginEstimate .. => [.switch, .flow, .optics, .bop, .regs, .free]
  | .marginReportSend .. | .lineMigration .. | .laneMigrate .. | .laneRestore .. | .laneAdmit ..
      => [.switch, .flow, .optics, .bop, .regs]
  | .marginRun .. => [.optics, .bop]
  | .loopMode .. => [.tables, .switch, .flow, .coll, .optics, .bop, .regs, .obj, .out, .free]
  | .meshSpareSubstitute .. => [.start, .switch, .resident, .optics, .bop, .regs, .free]
  | .expressSet .. => [.switch, .flow, .optics, .express, .bop]
  | .expressDrainCheck .. | .expressTeardown .. => [.optics, .express]
  | .expressGateOpen .. => [.express]
  | .expressInputLow .. => [.express, .bop, .regs]
  | .epEnable .. | .epMode .. | .epLoop .. => [.tables, .switch, .flow, .coll, .mgmt, .bop, .regs, .obj, .out, .free]
  | .linkTrainingRequest .. => [.mgmt, .out, .free]
  | .memberUp .. | .mpFailover .. | .linkTrainingTimeout .. => [.mgmt]
  | .memberDown .. | .modulePresenceChange .. => [.tables, .switch, .flow, .coll, .mgmt, .regs, .out, .free]
  | .epTrainTimeout .. => [.mgmt, .regs]
  | .eqFreeze .. => [.mgmt, .bop, .free]
  | .moduleActivate .. | .moduleActivateTimeout .. | .modulePoll ..
      => [.tables, .switch, .flow, .coll, .mgmt, .bop, .regs, .out, .free]
  | .mpFrameReceive .. => [.mgmt, .regs, .out]
  | .timedFrameEligible .. => [.switch, .flow, .regs, .free]
  | .fuseProgram .. | .rollbackAdvance .. | .logRead .. => [.keeper, .bop, .free]
  | .fwStageData .. | .fwCommit .. => [.keeper, .bop, .mem]
  | .fwFlashWriteDone .. => [.keeper, .mem, .free]
  | .attestRequest .. | .measExtend .. => [.keeper, .bop]
  | .attestReportDone .. => [.keeper, .free]
  | .agingMode .. => [.tables, .bop, .obj]
  | .ringLockMode .. | .marginMode .. => [.optics, .bop, .obj]
  | .migrationMode .. => [.switch, .flow, .optics, .bop, .regs, .obj]
  | .spareMode ..
      => [.start, .keeper, .tables, .switch, .flow, .coll, .fabric, .resident, .optics, .express, .bop, .regs, .ras, .obj, .out, .free]
  | .collRecoveryMode .. => [.coll, .fabric, .bop, .obj]
  | .keyInstall .. | .requestFragment .. => [.mgmt, .bop, .regs, .out]
  | .openMsg .. => [.mgmt, .bop, .regs, .out, .free]
  | .closeSession .. => [.mgmt, .bop, .regs]
  | .foghornRaise .. | .cfgCommit .. | .cfgRefWrite .. | .cfgRecompute .. | .dmaHalted .. | .resume ..
  | .counterFlagsClear .. => [.bop, .regs]
  | .sessionIdleExpire .. | .sessionClose .. | .fragmentTimeout .. | .keyWrite .. | .foghornAck .. | .collectorStale ..
  | .collectorAddr .. => [.bop]
  | .domainId .. => [.bop, .obj, .out]
  | .foghornSend .. | .foghornHeartbeat .. => [.bop, .out]
  | .regData .. | .regBurst .. | .registerWrite .. | .absentUnitAccess .. | .mbGo .. | .bitAliasWrite ..
      => [.time, .tables, .bop, .regs, .free]
  | .chHeadWrite .. | .chEnable .. | .chAbort .. => [.regs]
  | .dmaDescriptorFetch .. => [.tables, .switch, .flow, .coll, .bop, .regs, .ras, .mem, .out, .free]
  | .dmaDescriptorComplete .. => [.regs, .mem]
  | .scrubRead .. => [.bop, .regs, .ras, .free]
  | .sramScrub .. | .scrubBehind .. | .memCeHigh .. | .memUncorrectable .. => [.bop, .regs, .ras]
  | .freezeNow .. => [.power, .start, .express, .bop, .ras, .free]
  | .frzRead .. => [.regs, .ras]
  | .regAccess .. => [.time, .keeper, .tables, .bop, .regs, .ras, .free]
  | .memoryIslandIdle .. => [.ras]
  | .snapshotStale .. => [.power]
  | .tokenLinkCrossing .. => [.fabric]
  | .frameAddressedToKeeper .. => [.switch, .resident, .bop, .regs, .ras, .mem, .out]

/-- The commands that act while the device is frozen or off: power and RESET_N, the independent trips, the reference clocks, the
pins of 13 R412, and the read of the freeze record over JTAG (17 R511, R512; 18 R546, R547). -/
def alwaysOn : Instr → Bool
  | .powerOn .. | .powerOff .. | .resetAssert .. | .resetRelease .. | .hardwareTrip .. | .refclkLoss .. | .refclkReturn ..
  | .snapshotRefresh .. | .frzRead .. | .regAccess .. | .memoryIslandIdle .. => true
  | _ => false

/-- The role and the object (index and sub-index) of a command that is a write of one object. -/
def objectOf : Instr → Option (Role × Nat × Nat)
  | .refclkPrefer role _ => some (role, 0x020005, 2)
  | .serviceEnter role => some (role, 0x000002, 4)
  | .timeStep role _ _ _ => some (role, 0x0D0001, 9)
  | .ppsTarget role _ => some (role, 0x0D0001, 5)
  | .digestRef role table die _ => some (role, 0x080200 + table.val, die.val + 1)
  | .portDrainDrain role port => some (role, 0x090100 + port.val, 2)
  | .portDrainFlush role port => some (role, 0x090100 + port.val, 2)
  | .portDrainNone role port => some (role, 0x090100 + port.val, 2)
  | .classFlags role cls _ => some (role, 0x090010 + cls.val, 1)
  | .carveoutGb role die _ => some (role, 0x090001, die.val + 1)
  | .groupCreate role _ => some (role, 0x0A0002, 1)
  | .groupDelete role _ => some (role, 0x0A0002, 2)
  | .lagClear role _ => some (role, 0x0A0100, 4)
  | .imageStageData role _ => some (role, 0x0B0001, 2)
  | .imageCommit role _ => some (role, 0x0B0001, 3)
  | .imageUnload role _ => some (role, 0x0B0002, 1)
  | .imagePlace role _ _ _ => some (role, 0x0B0003, 1)
  | .imageUnplace role _ _ => some (role, 0x0B0003, 2)
  | .imageRestart role _ => some (role, 0x0B0005, 1)
  | .spareSwitch role _ _ _ _ => some (role, 0x0B0005, 2)
  | .regionCreate role _ => some (role, 0x0C0001, 1)
  | .regionDelete role _ => some (role, 0x0C0001, 2)
  | .regionControlData role handle _ => some (role, 0x0C1000 + handle, 4)
  | .mirrorResolve role _ _ _ => some (role, 0x0C0005, 1)
  | .exportStart role _ _ _ _ _ => some (role, 0x0C0006, 1)
  | .importOpen role _ => some (role, 0x0C0007, 1)
  | .importClose role _ => some (role, 0x0C0007, 2)
  | .ringSeek role port _ _ _ => some (role, 0x040500 + port.val, 1)
  | .laneMigrate role module _ => some (role, 0x040040 + module.val, 1)
  | .laneRestore role module _ => some (role, 0x040040 + module.val, 2)
  | .marginRun role port _ => some (role, 0x040100 + port.val, 6)
  | .laneAdmit role port _ => some (role, 0x040100 + port.val, 7)
  | .loopMode role port _ => some (role, 0x040100 + port.val, 4)
  | .expressSet role _ _ _ _ => some (role, 0x050002, 1)
  | .expressClear role _ _ _ => some (role, 0x050002, 2)
  | .epEnable role port _ => some (role, 0x060100 + port.val, 3)
  | .epMode role port media _ => some (role, 0x060100 + port.val, if media then 2 else 1)
  | .epLoop role port _ => some (role, 0x060100 + port.val, 7)
  | .eqFreeze role port _ => some (role, 0x060100 + port.val, 8)
  | .fuseProgram role _ _ _ => some (role, 0x010003, 2)
  | .fwStageData role _ => some (role, 0x010002, 2)
  | .fwCommit role _ => some (role, 0x010002, 3)
  | .rollbackAdvance role _ _ => some (role, 0x010001, 5)
  | .attestRequest role _ => some (role, 0x010004, 4)
  | .measExtend role _ _ => some (role, 0x010004, 7)
  | .agingMode role _ => some (role, 0x080001, 1)
  | .ringLockMode role _ => some (role, 0x040001, 1)
  | .migrationMode role _ => some (role, 0x040001, 2)
  | .marginMode role _ => some (role, 0x040001, 3)
  | .spareMode role _ => some (role, 0x0B0001, 5)
  | .collRecoveryMode role _ => some (role, 0x0A0001, 7)
  | .timeServoMode role _ => some (role, 0x0D0001, 1)
  | .sessionClose role _ => some (role, 0x010010, 8)
  | .domainId role _ => some (role, 0x010010, 5)
  | .collectorAddr role collector _ => some (role, 0x010030 + collector.val, 1)
  | .freezeNow role _ => some (role, 0x10F001, 6)
  | .counterFlagsClear role _ _ _ _ => some (role, 0x10F002, 1)
  | .keyWrite role sub _ => some (if sub = 5 then (role, 0x010020, 1) else (role, 0x010010, sub))
  | .resume viaObject _ engine => viaObject.map fun role => (role, 0x0E0002, engine.val + 1)
  | _ => none

end Sys2Proof
end

