-- ==== Sys2Proof/Certificates/Slice0/Obligations.lean ====
section
/-! DEFINITION. The statements about the model, for the provers. A clause of the form `exec c s = .next t` or `Answers c s P` says
that the command completes on every state and operands that meet its hypotheses, and what the next state holds. -/

section

open Sys2Proof Sys2Proof.Machine

/-- The commands run one after another (log 4, the model's own queue): a step with a command in front answers what the command
answers on the state with the queue's rest, and every step answers a next state. -/
def Obligations.StepRunsFront : Prop :=
  (∀ (s : State) (c : Instr) (rest : List Instr), s.pending = c :: rest → step s = exec c { s with pending := rest }) ∧
  (∀ s : State, Safe s)

/-- On an empty queue one tick of 1.25 ns passes (log 4, the model's choice): the model's own wall clock advances; while the
device's clocks run, the queue clock, the counter of the time unit and the follower of every sector die advance (12 R378, 01 R20),
the counter by TMU_INC unless the keeper die is lost; nothing else changes. -/
def Obligations.EmptyQueueTicks : Prop :=
  (∀ s : State, s.pending = [] → clocksRun s = true → s.time.followers.wf = true →
    ∃ t, step s = .next t ∧
      t.time.tmu = (if s.start.keeperLost then s.time.tmu else s.time.tmu + s.time.inc.setWidth 60) ∧
      (∀ d < 8, t.time.followers.get d = s.time.followers.get d + s.time.inc.setWidth 60) ∧
      t.time.queue4 = (s.time.queue4 + 5) % (4 * 2 ^ 64) ∧ t.time.wall4 = s.time.wall4 + 5 ∧
      t.time.inc = s.time.inc ∧ t.time.pendingInc = s.time.pendingInc ∧ t.time.pendingStep = s.time.pendingStep ∧
      OnlyChanges [.time] s t) ∧
  (∀ s : State, s.pending = [] → clocksRun s = false →
    step s = .next { s with time := { s.time with wall4 := s.time.wall4 + 5 } })

/-- What reset leaves (15 R447, R451, R461; 05 R185; 08 R295; 12 R379; 16 R466, R480): the device in RESET, every object at its
default, every table empty, no group and no generation history, no region, no image placed, no session and no key, the
increment 0x1400_0000 with no step or increment pending, every electrical port off, no module enabled. No command waits and no
output is driven (the model's own fields); and the three invariants of the model hold. -/
def Obligations.ResetState : Prop :=
  State.reset.start.state = .reset ∧ State.reset.obj = [] ∧
  (State.reset.tables.dit.get = fun _ => 0) ∧ State.reset.tables.emt.cells = [] ∧ State.reset.tables.lpm.cells = [] ∧
  State.reset.tables.bundle.cells = [] ∧ State.reset.tables.mcast.cells = [] ∧ State.reset.tables.nextHop.cells = [] ∧
  State.reset.coll.groups.cells = [] ∧ State.reset.coll.lastGen.cells = [] ∧ State.reset.coll.quarantine.cells = [] ∧
  State.reset.resident.regions.cells = [] ∧ State.reset.fabric.placed.cells = [] ∧
  (∀ k, State.reset.bop.sessions.get k = none) ∧ (∀ k, State.reset.bop.keys.get k = List.replicate 32 0) ∧
  State.reset.time.inc = 0x14000000 ∧ State.reset.time.pendingInc = none ∧ State.reset.time.pendingStep = none ∧
  (∀ p, (State.reset.mgmt.eports.get p).enable = false) ∧ State.reset.start.elsE = 0 ∧ State.reset.start.elsI = 0 ∧
  State.reset.pending = [] ∧ State.reset.out = [] ∧
  Memory.wf State.reset.mem = true ∧ State.reset.keeper.fuses.wf = true ∧ incOk State.reset.time.inc = true

/-- The canonical form of memory is an invariant of every step: addresses strictly rising, and no byte listed that equals what an
unlisted address reads as. -/
def Obligations.MemoryKeepsItsForm : Prop :=
  ∀ s t : State, Memory.wf s.mem = true → step s = .next t → Memory.wf t.mem = true

/-- The increment of the time unit and the one that waits for the next mark stay within the range that 12 R382 accepts, whatever
command runs: a write outside the range is refused, and the servo's own increments (R389) lie within it. -/
def Obligations.TimeIncrementsStayInRange : Prop :=
  ∀ s t : State, incOk s.time.inc = true → (∀ v, s.time.pendingInc = some v → incOk v = true) → step s = .next t →
    incOk t.time.inc = true ∧ ∀ v, t.time.pendingInc = some v → incOk v = true

/-- A blown fuse stays blown: no step clears a bit of any copy of any field of the fuse array, through reset, loss of power and
fuse programming alike (14 R427, R428, R435; 15 R461). -/
def Obligations.BlownFusesStayBlown : Prop :=
  ∀ s t : State, s.keeper.fuses.wf = true → step s = .next t →
    t.keeper.fuses.wf = true ∧
    ∀ k b : Nat, (s.keeper.fuses.get k).testBit b = true → (t.keeper.fuses.get k).testBit b = true

/-- Nothing but power, RESET_N, the independent trips, the reference clocks and the read of the freeze record acts while the device
is frozen or off (13 R412, 18 R546, R547, 13 R407): every other command leaves the whole state as it is. -/
def Obligations.FrozenAndOffHold : Prop :=
  (∀ (c : Instr) (s : State), s.start.state = .frozen → s.power.frozen = true → alwaysOn c = false → exec c s = .next s) ∧
  (∀ (c : Instr) (s : State), s.start.state = .off → alwaysOn c = false → exec c s = .next s)

/-- A write of an object that the checks of 16 R482 refuse has no effect but its answer: for OBJECT_WRITE on any object, and for
every command that is a write of one object, by any role. -/
def Obligations.RefusedWritesChangeNothing : Prop :=
  (∀ (r : Role) (i b : Nat) (v : Bytes) (s : State), keeperUp s = true → writeStatus r i b v.length s ≠ stDone →
    exec (.objectWrite r i b v) s = .next (answer (writeStatus r i b v.length s) s)) ∧
  (∀ (c : Instr) (r : Role) (i b : Nat) (s : State), objectOf c = some (r, i, b) → keeperUp s = true →
    writeCheck r i b s ≠ stDone → exec c s = .next (answer (writeCheck r i b s) s))

/-- 15 R457 whole: SERVICE_ENTER is accepted from ADMIN and OPERATOR in LINK_UP or DEGRADED, once; any other write before LINK_UP
gets NOT_READY; after the first acceptance a write is answered DONE and changes nothing else. The third clause names who may write
it (16 R483). -/
def Obligations.ServiceIsAcceptedOnce : Prop :=
  (∀ (s : State) (r : Role), keeperUp s = true → (r = .admin ∨ r = .operator) →
    (s.start.state = .linkUp ∨ s.start.state = .degraded) → s.start.serviceAsked = false →
    exec (.serviceEnter r) s = .next (answer stDone { s with start := { s.start with serviceAsked := true } })) ∧
  (∀ (s : State) (r : Role), keeperUp s = true → stateCode s.start.state < stateCode .linkUp →
    exec (.serviceEnter r) s = .next (answer stNotReady s)) ∧
  (∀ (s : State) (r : Role), keeperUp s = true → isUp s = true → (r = .fabric ∨ r = .observer) →
    exec (.serviceEnter r) s = .next (answer stDenied s)) ∧
  (∀ (s : State) (r : Role), keeperUp s = true → isUp s = true → (r = .admin ∨ r = .operator) → s.start.serviceAsked = true →
    exec (.serviceEnter r) s = .next (answer stDone s))

/-- 08 R270 whole: the dies of DIE_MASK in ascending order, the primary die and the number of a block there, and the die of its
mirror copy. -/
def Obligations.BlockPlacement : Prop :=
  ∀ r : Region, (∀ d, d ∈ r.dies ↔ d < 8 ∧ r.dieMask.getLsbD d = true) ∧ r.dies.Pairwise (· < ·) ∧
    ∀ b : Nat, r.dies ≠ [] → r.dies[b % r.dies.length]? = some (r.copyDie b 0) ∧ r.indexOf b = b / r.dies.length ∧
      (r.mirrored = true → r.copyDie b 1 = (r.copyDie b 0 + 4) % 8)

/-- 06 R194 and R195 whole, as FP32 under a scale of one: the magnitudes and the signs of MXFP4 E2M1 (format 0x14), the values of
TERN2 (0x18, 2 bits) and of SIGN1 (0x19, 1 bit). -/
def Obligations.NarrowElementValues : Prop :=
  (∀ v : Fin 8, decodeElem 0x14 127 v.val =
    ([0, 0x3F000000, 0x3F800000, 0x3FC00000, 0x40000000, 0x40400000, 0x40800000, 0x40C00000] : List Word).getD v.val 0) ∧
  (∀ v : Fin 8, decodeElem 0x14 127 (v.val + 8) = decodeElem 0x14 127 v.val + 0x80000000) ∧
  elemBits 0x18 = 2 ∧ decodeElem 0x18 127 0 = 0 ∧ decodeElem 0x18 127 1 = 0x3F800000 ∧ decodeElem 0x18 127 3 = 0xBF800000 ∧
  (∀ x, (dec32 (decodeElem 0x18 x 2)).isNan = true) ∧
  elemBits 0x19 = 1 ∧ decodeElem 0x19 127 0 = 0x3F800000 ∧ decodeElem 0x19 127 1 = 0xBF800000

/-- The frame of these commands: whatever state one starts in, when it answers a next state nothing has changed but the parts of
the state that `touches` lists for it. No command changes the queue. -/
def Obligations.FramesOfPowerAndStart : Prop :=
  ∀ (c : Instr) (s t : State), (family c = .power ∨ family c = .startUp) → exec c s = .next t → OnlyChanges (touches c) s t

/-- The frame of these commands: whatever state one starts in, when it answers a next state nothing has changed but the parts of
the state that `touches` lists for it. No command changes the queue. -/
def Obligations.FramesOfTimeAndTables : Prop :=
  ∀ (c : Instr) (s t : State), (family c = .time ∨ family c = .tables) → exec c s = .next t → OnlyChanges (touches c) s t

/-- The frame of these commands: whatever state one starts in, when it answers a next state nothing has changed but the parts of
the state that `touches` lists for it. No command changes the queue. -/
def Obligations.FramesOfSwitching : Prop :=
  ∀ (c : Instr) (s t : State), family c = .switching → exec c s = .next t → OnlyChanges (touches c) s t

/-- The frame of these commands: whatever state one starts in, when it answers a next state nothing has changed but the parts of
the state that `touches` lists for it. No command changes the queue. -/
def Obligations.FramesOfCollectives : Prop :=
  ∀ (c : Instr) (s t : State), (family c = .collectives ∨ family c = .fabric) → exec c s = .next t → OnlyChanges (touches c) s t

/-- The frame of these commands: whatever state one starts in, when it answers a next state nothing has changed but the parts of
the state that `touches` lists for it. No command changes the queue. -/
def Obligations.FramesOfResidents : Prop :=
  ∀ (c : Instr) (s t : State), family c = .resident → exec c s = .next t → OnlyChanges (touches c) s t

/-- The frame of these commands: whatever state one starts in, when it answers a next state nothing has changed but the parts of
the state that `touches` lists for it. No command changes the queue. -/
def Obligations.FramesOfLanesAndPaths : Prop :=
  ∀ (c : Instr) (s t : State), (family c = .lanes ∨ family c = .express) → exec c s = .next t → OnlyChanges (touches c) s t

/-- The frame of these commands: whatever state one starts in, when it answers a next state nothing has changed but the parts of
the state that `touches` lists for it. No command changes the queue. -/
def Obligations.FramesOfManagement : Prop :=
  ∀ (c : Instr) (s t : State), (family c = .ports ∨ family c = .keeper ∨ family c = .protocol) → exec c s = .next t → OnlyChanges (touches c) s t

/-- The frame of these commands: whatever state one starts in, when it answers a next state nothing has changed but the parts of
the state that `touches` lists for it. No command changes the queue. -/
def Obligations.FramesOfRegisters : Prop :=
  ∀ (c : Instr) (s t : State), (family c = .registers ∨ family c = .reliability) → exec c s = .next t → OnlyChanges (touches c) s t

/-- Power-on, loss of VSENSE, reset, its release and the hardware trips (13 R406, R407, R410, R413, R421, R461). Clause by
clause: the hypotheses name a case of `powerOn`, `powerOff`, `resetAssert`, `resetRelease`, `hardwareTrip`, the
conclusion says that the command answers a next state and what that state holds. Corners the manual leaves open are
the model's choice: log 70, 88. -/
def Obligations.PowerAndReset : Prop :=
  (∀ (s : State) (v : Nat) (a b : Bool), s.start.state = .off → 39000 ≤ v → v < 48500 →
    Answers (.powerOn v a b) s fun t => t.start = { s.start with state := .reset } ∧ t.power.vinMv = v ∧ t.power.refA = a ∧
      t.power.refB = b ∧ t.power.selected = (a || b) ∧ t.power.selB = (!a && b) ∧ t.power.onAt = wallNs s ∧
      t.power.resetCause = (if s.power.rangeLeft then 5 else 1)) ∧
  (∀ (s : State) (v : Nat), s.start.state ≠ .off → (v ≤ 37500 ∨ 50000 ≤ v) →
    Answers (.powerOff v) s fun t => t.start.state = .off ∧ t.power.vinMv = v ∧ t.power.rangeLeft = (v != 0) ∧
      t.power.trip = false ∧ t.keeper.log = [] ∧ t.keeper.fuses = s.keeper.fuses ∧ t.tables = Tables.reset ∧
      t.mem = s.mem.filter fun c => isFlash c.1) ∧
  (∀ (s : State), s.start.state ≠ .off → s.start.state ≠ .reset → s.power.trip = false →
    Answers .resetAssert s fun t => t.start.state = .reset ∧ t.power.resetCause = 2 ∧ t.power.resetLow = true ∧
      t.tables = Tables.reset ∧ t.switch = Switch.reset ∧ t.optics = Optics.reset ∧ t.obj = [] ∧ t.mem = s.mem ∧
      t.keeper.fuses = s.keeper.fuses ∧ t.keeper.log = s.keeper.log ∧ t.ras.frz = s.ras.frz) ∧
  (∀ (s : State) (sel : Fin 4), s.start.state = .reset → s.power.trip = false → s.power.selected = true → (s.power.refA || s.power.refB) = true → s.power.onAt + 10000000 ≤ wallNs s →
    Answers (.resetRelease sel) s fun t => t.start.state = .fuseLoad ∧ t.power.resetLow = false ∧ t.power.bootPins = sel.val ∧
      t.power.armed = true ∧ t.start.causes = (if s.power.holdover then 0x40 else 0) ∧ t.start.enteredAt = wallNs s ∧
      t.time.tmu = 0 ∧ t.time.queue4 = 0 ∧ t.keeper.fuses = s.keeper.fuses ∧ t.mem = s.mem) ∧
  (∀ (s : State) (kind : TripKind) (die : AnyDie) (sensor : Fin 16) (reading : Int), s.start.state ≠ .off → s.power.trip = false → tripSensor kind die.val sensor.val = true → tripLimit kind reading = true →
    Answers (.hardwareTrip kind die sensor reading) s fun t => t.start.state = .reset ∧ t.power.trip = true ∧
      t.power.resetCause = (match kind with | .current => 4 | _ => 3) ∧ t.keeper.fuses = s.keeper.fuses ∧ t.mem = s.mem) ∧
  (∀ (s : State) (kind : TripKind) (die : AnyDie) (sensor : Fin 16) (reading : Int), tripLimit kind reading = false →
    exec (.hardwareTrip kind die sensor reading) s = .next s)

/-- VSENSE low, the reference clocks, and the sensor snapshots (13 R407, R415, R422, R425, 17 R512). Clause by clause: the
hypotheses name a case of `vinLow`, `refclkLoss`, `refclkReturn`, `refclkPrefer`, `snapshotRefresh`, `snapshotStale`,
the conclusion says that the command answers a next state and what that state holds. Corners the manual leaves open
are the model's choice: log 89, 91. -/
def Obligations.ClocksAndSensors : Prop :=
  (∀ (s : State) (v : Nat), clocksRun s = true → 37500 < v → v < 40000 → s.power.vinLowSent = false →
    exec (.vinLow v) s = .next (raise 0x0201 1 unitDevice (args32 [(v : Int)])
      { s with power := { s.power with vinMv := v, vinLowSent := true } })) ∧
  (∀ (s : State), s.start.state ≠ .off → s.start.state ≠ .reset → s.power.selected = true → s.power.selB = false → s.power.holdover = false → s.power.refB = true →
    Answers (.refclkLoss false) s fun t => t.power = { s.power with refA := false, selB := true } ∧ t.time = s.time ∧
      t.start = s.start ∧ t.mem = s.mem) ∧
  (∀ (s : State), s.start.state ≠ .off → s.start.state ≠ .reset → s.power.selected = true → s.power.selB = true → s.power.holdover = false → s.power.refA = false →
    Answers (.refclkLoss true) s fun t => t.power = { s.power with refB := false, holdover := true } ∧ t.time = s.time ∧
      t.start.causes = s.start.causes ||| 0x40 ∧ t.mem = s.mem) ∧
  (∀ (s : State) (b : Bool), s.start.state ≠ .off → s.power.selected = true → s.power.holdover = true →
    Answers (.refclkReturn b) s fun t => t.power = { s.power with
        refA := (if b then s.power.refA else true), refB := (if b then true else s.power.refB), holdover := false, selB := b } ∧
      t.time = s.time ∧ t.start.causes = s.start.causes &&& ~~~0x40 ∧ t.mem = s.mem) ∧
  (∀ (s : State) (r : Role) (v : Nat), Permitted r 0x020005 2 s → v ≤ 1 → (if v = 1 then s.power.refB else s.power.refA) = true →
    Answers (.refclkPrefer r v) s fun t => t.power = { s.power with selB := (v == 1) } ∧
      t.obj = cellPut (objKey 0x020005 2) v s.obj ∧ t.bop.answer = stDone ∧ t.time = s.time ∧ t.mem = s.mem) ∧
  (∀ (s : State) (tj base : List Int) (v i : Nat), clocksRun s = true → s.start.keeperLost = false →
    Answers (.snapshotRefresh 8 tj base v i) s fun t => t.power.vinMv = v ∧ t.power.iinMa = i ∧
      t.power.snapAt = s.power.snapAt.set 8 (wallNs s) ∧ t.power.base = s.power.base ∧ t.start = s.start ∧ t.time = s.time ∧
      t.bop = s.bop ∧ t.mem = s.mem) ∧
  (∀ (s : State) (die : AnyDie), clocksRun s = true → s.power.snapAt.get die.val + 5000000 ≤ wallNs s →
    exec (.snapshotStale die) s =
      .next { s with power := { s.power with snap := s.power.snap.set (die.val * 1024 + 2) 1 } })

/-- Each of the three sources of the freeze latch freezes the device; the counters stand, no module is enabled, every gate
closes, and every die in service records the cause (13 R411, R412, 18 R546, R547). Clause by clause: the hypotheses
name a case of `freezeNAssert`, `freezeNow`, `freezeOnEvent`, the conclusion says that the command answers a next
state and what that state holds. Corners the manual leaves open are the model's choice: log 71, 90. -/
def Obligations.FreezeLatch : Prop :=
  (∀ (s : State), s.power.armed = true → s.power.frozen = false → s.start.state ≠ .off → s.start.state ≠ .reset →
    Answers .freezeNAssert s fun t => Frozen 1 s t) ∧
  (∀ (s : State) (r : Role) (v : Byte), s.power.armed = true → s.power.frozen = false → s.start.state ≠ .off → s.start.state ≠ .reset → Permitted r 0x10F001 6 s →
    Answers (.freezeNow r v) s fun t => Frozen 2 (answer stDone s) t) ∧
  (∀ (s : State) (b : Fin 5) (die : AnyDie) (u : Word), s.power.armed = true → s.power.frozen = false → bit (cfgFreezeOn s) b.val = true → (if die.val = 8 then !s.start.keeperLost else dieUp s die.val) = true → clocksRun s = true →
    Answers (.freezeOnEvent b die u) s fun t => Frozen (0x10 + b.val) s t)

/-- The fuses are voted, the boot ROM measures and chooses the source, and a good image of the flash starts the keeper
cores (14 R426, R427, R429, R431, R437, 15 R449). Clause by clause: the hypotheses name a case of `fuseLoad`,
`romBoot`, `fwVerify`, the conclusion says that the command answers a next state and what that state holds. Corners
the manual leaves open are the model's choice: log 50, 93, 94. -/
def Obligations.BootStages : Prop :=
  (∀ (s : State) (v : Tab Nat) (m : List Nat), s.start.state = .fuseLoad → pastLimit s 5000000 = false → voteAll s.keeper.fuses = some (v, m) → v.get 0 < 256 → (v.get 0 = 2 ∨ ∀ d : Fin 8, v.get 5 / 2 ^ (8 * d.val) % 256 ≠ 255) →
    Answers (.fuseLoad true) s fun t => t.start.state = DevState.romBoot ∧ t.keeper.voted = v ∧ t.keeper.minority = m ∧
      t.start.partCode = BitVec.ofNat 8 (v.get 0) ∧ t.start.stepping = BitVec.ofNat 8 (v.get 1) ∧ t.start.sectorDies = 0xFF ∧
      t.start.enteredAt = wallNs s ∧ t.keeper.fuses = s.keeper.fuses ∧ t.time = s.time ∧ t.mem = s.mem) ∧
  (∀ (s : State), s.start.state = .fuseLoad → voteAll s.keeper.fuses = none →
    Answers (.fuseLoad true) s fun t => t.start = { s.start with state := .halted, haltCause := 1 } ∧
      t.keeper = { s.keeper with bootCause := 0x0F } ∧ t.mem = s.mem) ∧
  (∀ (s : State), s.start.state = .romBoot → pastLimit s 10000000 = false → (2 ≤ bootSel s → hostBootDisabled s = false) →
    Answers .romBoot s fun t => t.start.state = .fwVerify ∧ t.keeper.bootSource = (if 2 ≤ bootSel s then 1 else 0) ∧
      t.keeper.hostOwner = none ∧ t.keeper.hostOffset = 0 ∧ t.keeper.logPrev = s.keeper.log ∧ t.keeper.log = [] ∧
      t.ras.frzJtag = false ∧ t.start.enteredAt = wallNs s ∧ t.time = s.time ∧ t.mem = s.mem) ∧
  (∀ (s : State), s.start.state = .fwVerify → s.keeper.bootSource = 0 → pastLimit s 200000000 = false →
    Answers (.fwVerify true) s fun t =>
      if fwCheck s (flashImage s) (fwTotal (flashImage s)) = 0 then
        t.start.state = .memTrain ∧ t.keeper.coresRun = true ∧ t.keeper.bootCause = 0 ∧
        t.keeper.fwVersion = BitVec.ofNat 32 (leAt (flashImage s) 16 4) ∧ t.keeper.fwSvn = byteAt (flashImage s) 12 ∧
        t.keeper.fwKeySlot = sigKey (fwBlock (flashImage s)) ∧ t.start.enteredAt = wallNs s ∧ t.time = s.time
      else t = flashFails (fwCheck s (flashImage s) (fwTotal (flashImage s))) s) ∧
  (∀ (s : State), s.start.state = .fwVerify → s.keeper.bootSource = 0 → failureHalts s = true →
    Answers (.fwVerify false) s fun t => t.start = { s.start with state := .halted, haltCause := 2 } ∧ t.keeper.bootCause = 0x09 ∧
      t.mem = s.mem)

/-- The transfer of a firmware image from a host: the request, the data of its owner in order, the end and the lapse of
the owner (14 R432, R433). Clause by clause: the hypotheses name a case of `bootRequest`, `bootData`, `bootEnd`,
`bootOwnerLapse`, the conclusion says that the command answers a next state and what that state holds. Corners the
manual leaves open are the model's choice: log 92. -/
def Obligations.BootTransfer : Prop :=
  (∀ (s : State), transferOpen s = true → s.keeper.requestAt = none → s.mgmt.mpUp = 3 →
    Answers .bootRequest s fun t => t.keeper = { s.keeper with requestAt := some (wallNs s) } ∧
      (∃ m, t.out = .boot 1 none m :: .boot 0 none m :: s.out ∧ (bootParse 1 m).isSome ∧ beAt m 16 8 = serial s % 2 ^ 64) ∧ t.mem = s.mem) ∧
  (∀ (s0 s : State) (mp : Fin 2) (host off : Nat) (m d : Bytes), transferOpen s0 = true → mpBudget mp.val s0 = (true, s) → bootParse 2 m = some (off, d) → 4 ≤ d.length → d.length ≤ 1024 → d.length % 4 = 0 → s.keeper.hostOwner = some host → off = s.keeper.hostOffset →
    Answers (.bootData mp host m) s0 fun t => t.mem = memPut s.mem (ksramAddr off) (d.take (5242880 - off)) ∧
      t.keeper = { s.keeper with hostLast := wallNs s, hostOffset := min 5242880 (off + d.length) } ∧
      t.out = .boot mp (some host) (bootMessage 3 0 (min 5242880 (off + d.length)) []) :: s.out ∧ t.mgmt = s.mgmt ∧ t.time = s.time) ∧
  (∀ (s0 s : State) (mp : Fin 2) (host total : Nat) (m d b : Bytes), transferOpen s0 = true → mpBudget mp.val s0 = (true, s) → bootParse 4 m = some (total, d) → s.keeper.hostOwner = some host → bootSel s ≠ 3 → s.keeper.hostOffset = total → 128 ≤ total → total ≤ 5242880 → b = memBytes s.mem (ksramAddr 0) total →
    exec (.bootEnd mp host m true) s0 = .next (
      if fwCheck s b total = 0 then emitOut (.boot mp (some host) (bootMessage 5 0 0 [])) (fwStart b (romCopy b s))
      else emitOut (.boot mp (some host) (bootMessage 5 (fwCheck s b total) 0 []))
        { romCopy b s with keeper := { s.keeper with bootCause := fwCheck s b total, hostOwner := none, hostOffset := 0 } })) ∧
  (∀ (s : State), transferOpen s = true → s.keeper.hostOwner.isSome = true → s.keeper.hostLast + 10000000000 ≤ wallNs s →
    exec .bootOwnerLapse s = .next { s with keeper := { s.keeper with hostOwner := none, hostOffset := 0 } })

/-- Memory training, the library images, optics calibration and the end of the margin tests (15 R453 to R456, R449).
Clause by clause: the hypotheses name a case of `memTrain`, `memTrainTimeout`, `libraryLoad`, `opticsCal`,
`opticsCalEnd`, `meshDeadLinkCheck`, `marginTestEnd`, the conclusion says that the command answers a next state and
what that state holds. Corners the manual leaves open are the model's choice: log 98. -/
def Obligations.MemoryAndOptics : Prop :=
  (∀ (s : State) (d : DieIx), s.start.state = .memTrain → dieUp s d.val = true → s.start.trained.getLsbD d.val = false → (packagesOf s d.val).isEmpty = false → pastLimit s 3000000000 = false →
    exec (.memTrain d []) s = .next { s with
        mem := memClear s.mem (memAddr d.val (memLimit s d.val)) (memAddr d.val (memTop s d.val))
        start := { s.start with trained := s.start.trained ||| BitVec.ofNat 8 (2 ^ d.val) } }) ∧
  (∀ (s : State) (d : DieIx), s.start.state = .memTrain → dieUp s d.val = true → s.start.trained.getLsbD d.val = false → s.start.enteredAt + 3000000000 ≤ wallNs s →
    exec (.memTrainTimeout d) s = .next (loseDie d.val 3 { s with start := { s.start with removed := s.start.removed.set d.val 1 } })) ∧
  (∀ (s : State), s.start.state = .memTrain → s.start.libraryDone = false → untested s = false → ((diesUp s).all (fun d => s.start.trained.getLsbD d) = true) →
    Answers .libraryLoad s fun t => t.start = { (if isS s then s else loadLibraries s).start with libraryDone := true, libraryAt := wallNs s } ∧
      (if isS s then t.fabric = s.fabric ∧ t.mem = s.mem else t.fabric = (loadLibraries s).fabric ∧ t.mem = (loadLibraries s).mem) ∧
      t.time = s.time) ∧
  (∀ (s : State), untested s = true →
    exec .libraryLoad s = .next s) ∧
  (∀ (s : State) (a : BitVec 20), s.start.state = .memTrain → s.start.libraryDone = true → ((diesUp s).all (fun d => s.start.trained.getLsbD d) = true) → ((diesUp s).all (fun d => (baseOf s d).all (250 ≤ ·)) = true) →
    exec (.opticsCal a) s = .next ((upTo 20).foldl (fun s m =>
      if a.getLsbD m then elsEnable m (onEls m (fun e => { e with state := 1 }) s)
      else raise 0x0401 0 (unitEls s m 0) (args32 [0]) (onEls m (fun e => { e with state := 0 }) s)) (enterState .opticsCal s))) ∧
  (∀ (s : State), s.start.state = .opticsCal → s.start.enteredAt + 1000000000 ≤ wallNs s →
    Answers .opticsCalEnd s fun t => t.start.state = .marginTest ∧ t.start.enteredAt = wallNs s ∧ t.time = s.time ∧ t.mem = s.mem) ∧
  (∀ (s : State), s.start.state = .marginTest → (∀ d ∈ diesUp s, deadLinks s d = 0) →
    exec .meshDeadLinkCheck s = .next s) ∧
  (∀ (s : State) (d : Nat), s.start.state = .marginTest → d ∈ diesUp s → deadLinks s d ≠ 0 → (∀ e ∈ diesUp s, deadLinks s e < deadLinks s d ∨ deadLinks s e = deadLinks s d ∧ e ≤ d) →
    exec .meshDeadLinkCheck s = .next (meshDeadLinks 7 (loseDie d 4 { s with start := { s.start with removed := s.start.removed.set d 2 } }))) ∧
  (∀ (s : State), s.start.state = .marginTest → s.start.enteredAt + 2000000000 ≤ wallNs s → ((diesUp s).all (fun d => deadLinks s d == 0) = true) →
    Answers .marginTestEnd s fun t => t.start.state = (if s.start.causes = 0 then .linkUp else .degraded) ∧
      t.start.causes = s.start.causes ∧ t.start.enteredAt = wallNs s ∧ t.time = s.time ∧ t.mem = s.mem)

/-- Admission to service, the causes of degraded service, and the loss of a die or of the keeper die (15 R457 to R460,
R463, 01 R19, R28 to R32, 14 R440). Clause by clause: the hypotheses name a case of `serviceEnter`,
`serviceMarkReceive`, `degradedCauseChange`, `dieHeartbeat`, `dieLost`, `keeperLost`, `keeperWatchdogExpire`,
`configCommitMark`, the conclusion says that the command answers a next state and what that state holds. Corners the
manual leaves open are the model's choice: log 99, 145, 146, 170. -/
def Obligations.ServiceAndLoss : Prop :=
  (∀ (s : State) (r : Role), Permitted r 2 4 s → (s.start.state = .linkUp ∨ s.start.state = .degraded) → s.start.serviceAsked = false →
    exec (.serviceEnter r) s = .next (answer stDone { s with start := { s.start with serviceAsked := true } })) ∧
  (∀ (s : State) (d : DieIx), s.start.serviceAsked = true → dieUp s d.val = true → isUp s = true → s.start.darkHold = false → s.start.serviceEntered = false → (∀ e ∈ diesUp s, e ≠ d.val → s.start.serviceMark.getLsbD e = true) → s.keeper.minority = [] →
    Answers (.serviceMarkReceive d) s fun t => t.start = { s.start with
        serviceMark := s.start.serviceMark ||| BitVec.ofNat 8 (2 ^ d.val)
        serviceEntered := true
        state := if s.start.causes = 0 then .service else .degraded } ∧ t.time = s.time ∧ t.mem = s.mem) ∧
  (∀ (s : State), clocksRun s = true → isUp s = true → s.power.holdover = true →
    Answers (.degradedCauseChange 6 true) s fun t => t.start.causes = s.start.causes ||| 0x40 ∧ t.start.state = .degraded ∧
      t.time = s.time ∧ t.mem = s.mem) ∧
  (∀ (s : State) (d : AnyDie), clocksRun s = true → (if d.val = 8 then !s.start.keeperLost else dieUp s d.val) = true →
    exec (.dieHeartbeat d) s = .next { s with start := { s.start with heartbeat := s.start.heartbeat.set d.val (wallNs s) } }) ∧
  (∀ (s : State) (d : DieIx), clocksRun s = true → dieUp s d.val = true →
    Answers (.dieLost d true) s fun t => dieUp t d.val = false ∧ (∀ e, e ≠ d.val → dieUp t e = dieUp s e) ∧
      t.start.heldDies.getLsbD d.val = true ∧ (t.start.causes.getLsbD 0) = true ∧ t.start.elsI.getLsbD d.val = false ∧
      t.time = s.time ∧ t.tables.dit = s.tables.dit ∧ t.tables.emt = s.tables.emt ∧ t.mem = s.mem) ∧
  (∀ (s : State) (d : DieIx), started s = true → heartbeatMissing s 8 = true → s.start.keeperLost = false → dieUp s d.val = true → heartbeatMissing s d.val = true →
    Answers .keeperLost s fun t => t.start.keeperLost = true ∧ dieUp t d.val = false ∧ t.keeper.coresRun = false ∧ t.time = s.time) ∧
  (∀ (s : State), started s = true → heartbeatMissing s 8 = true → s.start.keeperLost = false → s.start.state ≠ .halted → (diesUp s).any (heartbeatMissing s) = false → (diesUp s).any s.start.serviceMark.getLsbD = true →
    Answers .keeperLost s fun t => t.start.keeperLost = true ∧ t.start.headless = true ∧ t.start.keeperStatus = 2 ∧
      t.start.serviceMark = s.start.sectorDies ∧ t.keeper.coresRun = false ∧ t.time = s.time) ∧
  (∀ (s : State) (c : Fin 5), started s = true → s.keeper.coresRun = true → s.start.keeperLost = false → s.start.state ≠ .halted → (diesUp s).any (heartbeatMissing s) = false → (diesUp s).any s.start.serviceMark.getLsbD = false →
    Answers (.keeperWatchdogExpire c) s fun t => t.start.keeperLost = true ∧ t.start.state = .halted ∧ t.start.haltCause = 3 ∧
      t.start.darkHold = true ∧ t.keeper.bootCause = 0x0E ∧ t.keeper.coresRun = false ∧ t.time = s.time) ∧
  (∀ (s : State) (d : DieIx) (b : Bool), clocksRun s = true → dieUp s d.val = true → ((s.coll.prepared.any fun p => !s.coll.marked.contains (p.1, d.val)) = true) →
    exec (.configCommitMark d b) s = .next (commitMark d.val b s)) ∧
  (∀ (s : State) (d : DieIx) (k : Nat) (x : Session) (r : Run), clocksRun s = true → dieUp s d.val = true → s.coll.prepared = [] → ((s.bop.sessions.cells.find? fun c => c.2.any (·.inFlight)) = some (k, some x)) → x.run = some r → (diesUp s).all (r.marked ++ [d.val]).contains = true →
    let z := r.batch.foldl (fun s w => plainStore w.1 w.2.1 w.2.2 s) s
    exec (.configCommitMark d true) s = .next { z with bop := { z.bop with
      sessions := z.bop.sessions.set k (some { x with run := some { r with batch := [], marked := [] } }) } }) ∧
  (∀ (s : State) (d : DieIx), clocksRun s = true → dieUp s d.val = true → s.start.keeperLost = false → s.coll.prepared = [] →
    exec (.configCommitMark d false) s = .next s)

/-- The alignment mark, increments and steps of the time unit (12 R382, R384, R385, 01 R20). Clause by clause: the
hypotheses name a case of `alignmentMark`, `tmuIncWrite`, `tmuStepGo`, `timeStep`, `tmuNowRead`, the conclusion says
that the command answers a next state and what that state holds. Corners the manual leaves open are the model's
choice: log 100. -/
def Obligations.TimeUnit : Prop :=
  (∀ (s : State), tmuRuns s = true → s.time.pendingStep = none →
    exec .alignmentMark s = .next { s with time := { s.time with
        followers := (upTo 8).foldl (fun g d => g.set d s.time.tmu) s.time.followers
        inc := s.time.pendingInc.getD s.time.inc
        pendingInc := none } }) ∧
  (∀ (s : State) (step : Int), tmuRuns s = true → s.time.pendingStep = some step →
    Answers .alignmentMark s fun t => t.time.tmu = addStep s.time.tmu step ∧ t.time.pendingStep = none ∧
      t.time.stepSum = s.time.stepSum + step ∧
      t.time.stepForced = (s.time.stepForced || decide (stepLimit s < (step.natAbs : Int))) ∧
      t.time.inc = s.time.pendingInc.getD s.time.inc ∧ t.time.pendingInc = none ∧ t.time.wall4 = s.time.wall4 ∧
      t.time.queue4 = s.time.queue4 ∧ t.mem = s.mem ∧ t.keeper = s.keeper) ∧
  (∀ (s : State) (m : Fin 16) (v : Word), Granted s m.val 8 0x0D 2 true → cfgServoMode s = 1 → 335208776 ≤ v.toNat → v.toNat ≤ 335879864 →
    exec (.tmuIncWrite m v) s = .next { s with time := { s.time with pendingInc := some v } }) ∧
  (∀ (s : State) (m : Fin 16) (v : Word), Granted s m.val 8 0x0D 2 true → (cfgServoMode s = 0 ∨ v.toNat < 335208776 ∨ 335879864 < v.toNat) →
    exec (.tmuIncWrite m v) s = .next { s with time := { s.time with incRefused := true } }) ∧
  (∀ (s : State) (m : Fin 16) (v : Word), Granted s m.val 8 0x0D 4 true → v.getLsbD 31 = true → s.time.pendingStep = none → ((s.time.stepNs.toInt * 65536 + ((v.setWidth 16).toNat : Int)).natAbs : Int) ≤ stepLimit s →
    exec (.tmuStepGo m v) s = .next { s with time := { s.time with
        stepForce := v.getLsbD 30
        stepFrac := v.setWidth 16
        pendingStep := some (s.time.stepNs.toInt * 65536 + ((v.setWidth 16).toNat : Int)) } }) ∧
  (∀ (s : State) (m : Fin 16) (v : Word), Granted s m.val 8 0x0D 4 true → v.getLsbD 31 = true → s.time.pendingStep.isSome = true →
    exec (.tmuStepGo m v) s = .next { s with time := { s.time with stepOverrun := true } }) ∧
  (∀ (s : State) (r : Role) (ns : Word) (frac : BitVec 16) (force : Bool), Permitted r 0x0D0001 9 s → tmuRuns s = true → s.time.pendingStep = none → (((ns.toInt * 65536 + (frac.toNat : Int)).natAbs : Int) ≤ stepLimit s ∨ force = true) →
    exec (.timeStep r ns frac force) s = .next (answer stDone
        { s with time := { s.time with pendingStep := some (ns.toInt * 65536 + (frac.toNat : Int)) } })) ∧
  (∀ (s : State) (r : Role) (ns : Word) (frac : BitVec 16), Permitted r 0x0D0001 9 s → tmuRuns s = true → s.time.pendingStep = none → stepLimit s < ((ns.toInt * 65536 + (frac.toNat : Int)).natAbs : Int) →
    Answers (.timeStep r ns frac false) s fun t => t.time = { s.time with stepRefused := true } ∧ t.bop.answer = stDone ∧ t.mem = s.mem) ∧
  (∀ (s : State) (m : Fin 16) (d : AnyDie), Granted s m.val d.val 0x0D 0 false →
    exec (.tmuNowRead d m) s = .next { s with time := { s.time with
        fracLatch := s.time.fracLatch.set d.val
          ((if d.val = 8 then s.time.tmu else s.time.followers.get d.val).toNat / 2 ^ 12 % 2 ^ 16) } })

/-- The hall-time inputs, the servo and timed launch; that a timed frame's age runs from its launch is log 161, the
model's choice (12 R386 to R389, R393, R394, R398). Clause by clause: the hypotheses name a case of `htPpsEdge`,
`ppsLost`, `clk10Measure`, `clk10Loss`, `ppsTarget`, `timeServoMode`, `timedFrameEligible`, the conclusion says that
the command answers a next state and what that state holds. Corners the manual leaves open are the model's choice: log
40, 101, 102, 161. -/
def Obligations.HallTime : Prop :=
  (∀ (s : State), tmuRuns s = true → s.time.ppsSeen = true → s.time.ppsTicks < 400000000 →
    exec .htPpsEdge s = .next (count 8 0xB000 0 1 s)) ∧
  (∀ (s : State), tmuRuns s = true → (s.time.ppsSeen = false ∨ 400000000 ≤ s.time.ppsTicks) →
    Answers .htPpsEdge s fun t => t.time.ppsNs = BitVec.ofNat 32 (tmuNs s) ∧ t.time.ppsFrac = BitVec.ofNat 16 (tmuFrac s) ∧
      t.time.ppsSeq = s.time.ppsSeq + 1 ∧ t.time.ppsLost = false ∧ t.time.ppsEver = true ∧ t.time.ppsTicks = 0 ∧
      t.time.tmu = s.time.tmu ∧ t.time.inc = s.time.inc ∧
      t.time.target = (if cfgServoMode s = 0 ∧ s.start.headless = false then s.time.target + 1000000000 else s.time.target) ∧
      t.mem = s.mem ∧ t.keeper = s.keeper) ∧
  (∀ (s : State), tmuRuns s = true → s.time.ppsLost = false → 1600000000 ≤ s.time.ppsTicks →
    exec .ppsLost s = .next (raise 0x0D03 0 unitKeeper [] { s with time := { s.time with ppsLost := true, ppsSeen := false } })) ∧
  (∀ (s : State) (n : Nat) (ppb : Int), tmuRuns s = true → ppb.natAbs ≤ 100000 → ppb = clk10Error n →
    exec (.clk10Measure n) s = .next { s with time := { s.time with clk10Ppb := ppb, clk10Lost := false } }) ∧
  (∀ (s : State) (n : Nat) (ppb : Int), tmuRuns s = true → 100000 < ppb.natAbs → ppb = clk10Error n →
    exec (.clk10Measure n) s = .next (raise 0x0D05 1 unitKeeper (args32 [ppb])
        { s with time := { s.time with clk10Ppb := ppb, clk10Lost := true } })) ∧
  (∀ (s : State), tmuRuns s = true →
    exec .clk10Loss s = .next (raise 0x0D05 1 unitKeeper (args32 [s.time.clk10Ppb])
        { s with time := { s.time with clk10Lost := true } })) ∧
  (∀ (s : State) (r : Role) (v : Word), Permitted r 0x0D0001 5 s →
    exec (.ppsTarget r v) s = .next (answer stDone { s with time := { s.time with target := v, servoF := 0 } })) ∧
  (∀ (s : State) (r : Role) (v : Byte), Permitted r 0x0D0001 1 s → v.toNat ≤ 1 →
    exec (.timeServoMode r v) s = .next (answer stDone (objSet 0x0D0001 1 v.toNat s))) ∧
  (∀ (s : State) (d : DieIx) (x : Timed) (l : List Timed), dieUp s d.val = true → clocksRun s = true → s.regs.timed.get d.val = x :: l → atOrAfter (folNs s d.val) x.launch.toNat = true → isFibre x.port = false → (membersUp s x.port).isEmpty = false →
    exec (.timedFrameEligible d) s = .next (headLane x.port 0 x.cls { x.frame with
        launch := some x.launch, skip := 0, head := { x.frame.head with ingressTime := nowNs s % 2 ^ 32 } }
        { s with regs := { s.regs with timed := s.regs.timed.set d.val l } }))

/-- The table commands on one die (02 R38, R44, R45, R52, R53, R63 to R67, R553). Clause by clause: the hypotheses name a
case of `tblRead`, `tblWrite`, `tblInsert`, `tblDelete`, `tblLookup`, `tblReadNext`, the conclusion says that the
command answers a next state and what that state holds. Corners the manual leaves open are the model's choice: log 22,
103, 153. -/
def Obligations.TableCommands : Prop :=
  (∀ (s : State) (d : DieIx) (g : Fin 4) (i : BitVec 16), dieUp s d.val = true → clocksRun s = true → setBusy s d.val g.val = false → s.tables.sets.wf = true → (s.tables.sets.get (setKey d.val g.val)).data.wf = true →
    Answers (.tblRead d g 0 i) s fun t => (t.tables.sets.get (setKey d.val g.val)).result = rDone ∧
      (t.tables.sets.get (setKey d.val g.val)).data.get 0 = s.tables.dit.get (tblKey d.val i.toNat) ∧
      t.tables.dit = s.tables.dit ∧ t.tables.emt = s.tables.emt ∧ t.tables.lpm = s.tables.lpm ∧ t.mem = s.mem) ∧
  (∀ (s : State) (d : DieIx) (g : Fin 4) (i : BitVec 16) (w : Word) (force : Bool), dieUp s d.val = true → clocksRun s = true → setBusy s d.val g.val = false → s.tables.sets.wf = true → w = resultWord ((s.tables.sets.get (setKey d.val g.val)).data.get 0) → resultOk w = true → (force = true ∨ resAction (s.tables.dit.get (tblKey d.val i.toNat)) = 0 ∨ s.tables.dit.get (tblKey d.val i.toNat) = w ∨ drainEmptyFor s d.val i.toNat = true) →
    Answers (.tblWrite d g 0 force i) s fun t => (t.tables.sets.get (setKey d.val g.val)).result = rDone ∧
      t.tables.dit = s.tables.dit.set (tblKey d.val i.toNat) w ∧
      t.tables.digest = s.tables.digest.modify (digKey d.val 0) (fun x =>
        x - digestOf (ditContent i.toNat (s.tables.dit.get (tblKey d.val i.toNat))) + digestOf (ditContent i.toNat w)) ∧
      t.tables.emt = s.tables.emt ∧ t.tables.lpm = s.tables.lpm ∧ t.tables.bundle = s.tables.bundle) ∧
  (∀ (s : State) (d : DieIx) (g : Fin 4) (i : BitVec 16), dieUp s d.val = true → clocksRun s = true → setBusy s d.val g.val = false → s.tables.sets.wf = true → resultOk (resultWord ((s.tables.sets.get (setKey d.val g.val)).data.get 0)) = true → resAction (s.tables.dit.get (tblKey d.val i.toNat)) ≠ 0 → s.tables.dit.get (tblKey d.val i.toNat) ≠ resultWord ((s.tables.sets.get (setKey d.val g.val)).data.get 0) → drainEmptyFor s d.val i.toNat = false →
    Answers (.tblWrite d g 0 false i) s fun t => (t.tables.sets.get (setKey d.val g.val)).result = rDrainBusy ∧
      t.tables.dit = s.tables.dit ∧ t.tables.digest = s.tables.digest) ∧
  (∀ (s : State) (d : DieIx) (g : Fin 4) (i : BitVec 16) (len a : Nat), dieUp s d.val = true → clocksRun s = true → setBusy s d.val g.val = false → s.tables.sets.wf = true → stagedPrefix (s.tables.sets.get (setKey d.val g.val)) 4 i.toNat = some (0, len, a) → s.tables.lpm.get (lpmKey d.val 0 len a) = none → s.tables.lpmUnits.get d.val + 2 ≤ 524288 →
    Answers (.tblInsert d g 4 false i) s fun t => (t.tables.sets.get (setKey d.val g.val)).result = rDone ∧
      t.tables.lpm = s.tables.lpm.set (lpmKey d.val 0 len a)
        (some (((s.tables.sets.get (setKey d.val g.val)).data.get 0).toNat % 2 ^ 15)) ∧
      t.tables.lpmUnits = s.tables.lpmUnits.set d.val (s.tables.lpmUnits.get d.val + 2) ∧ t.tables.emt = s.tables.emt ∧
      t.tables.dit = s.tables.dit) ∧
  (∀ (s : State) (d : DieIx) (g : Fin 4) (i : BitVec 16) (c : CmdSet) (x : Bytes) (p : Nat) (static : Bool), dieUp s d.val = true → clocksRun s = true → setBusy s d.val g.val = false → s.tables.sets.wf = true → c = s.tables.sets.get (setKey d.val g.val) → emtKeyOk (stagedKey c) = true → emtData (stagedKey c) (stagedData c 4) = some x → emtFind s d.val (stagedKey c) = none → (emtPlace s d.val (stagedKey c)).1 = some [p] →
    Answers (.tblInsert d g 6 static i) s fun t => (t.tables.sets.get (setKey d.val g.val)).result = rDone ∧
      t.tables.emt = s.tables.emt.set (emtKey d.val p) (some ⟨stagedKey c, x, s.tables.ageNow.get d.val, static, false, d.val,
        s.tables.emtSerial⟩) ∧ t.tables.dit = s.tables.dit ∧ t.tables.lpm = s.tables.lpm) ∧
  (∀ (s : State) (d : DieIx) (g : Fin 4) (i : BitVec 16) (len a n : Nat), dieUp s d.val = true → clocksRun s = true → setBusy s d.val g.val = false → s.tables.sets.wf = true → stagedPrefix (s.tables.sets.get (setKey d.val g.val)) 4 i.toNat = some (0, len, a) → s.tables.lpm.get (lpmKey d.val 0 len a) = some n →
    Answers (.tblDelete d g 4 i) s fun t => (t.tables.sets.get (setKey d.val g.val)).result = rDone ∧
      t.tables.lpm = s.tables.lpm.set (lpmKey d.val 0 len a) none ∧
      t.tables.lpmUnits = s.tables.lpmUnits.set d.val (s.tables.lpmUnits.get d.val - 2) ∧ t.tables.emt = s.tables.emt ∧
      t.tables.dit = s.tables.dit) ∧
  (∀ (s : State) (d : DieIx) (g : Fin 4) (i : BitVec 16) (c : CmdSet) (p : Nat) (e : EmtEntry), dieUp s d.val = true → clocksRun s = true → setBusy s d.val g.val = false → s.tables.sets.wf = true → c = s.tables.sets.get (setKey d.val g.val) → emtKeyOk (stagedKey c) = true → emtFind s d.val (stagedKey c) = some p → emtAt s d.val p = some e →
    Answers (.tblLookup d g 6 i) s fun t => (t.tables.sets.get (setKey d.val g.val)).result = rDone ∧
      (t.tables.sets.get (setKey d.val g.val)).data = setWords c.data (toWords e.data) ∧
      (t.tables.sets.get (setKey d.val g.val)).location = locationOf p ∧ t.tables.emt = s.tables.emt) ∧
  (∀ (s : State) (d : DieIx) (g : Fin 4) (i : BitVec 16) (c : CmdSet) (p : Nat) (e : EmtEntry), dieUp s d.val = true → clocksRun s = true → setBusy s d.val g.val = false → s.tables.sets.wf = true → c = s.tables.sets.get (setKey d.val g.val) → posOk c i.toNat = true → (s.tables.emt.cells.any (fun x => x.1 / 2 ^ 22 == d.val && stagedPos c i.toNat ≤ x.1 % 2 ^ 22) = true) → nextValid s d.val (stagedPos c i.toNat) = some p → emtAt s d.val p = some e →
    Answers (.tblReadNext d g 6 i) s fun t => (t.tables.sets.get (setKey d.val g.val)).result = rDone ∧
      (t.tables.sets.get (setKey d.val g.val)).data = setWords c.data (toWords (e.key ++ e.data)) ∧
      (t.tables.sets.get (setKey d.val g.val)).key = c.key.set 0 (BitVec.ofNat 32 ((p + 1) / 65536)) ∧
      (t.tables.sets.get (setKey d.val g.val)).cmd.toNat % 65536 = (p + 1) % 65536 ∧ t.tables.emt = s.tables.emt) ∧
  (∀ (s : State) (d : DieIx) (g : Fin 4) (table : Fin 16) (force static : Bool) (i : BitVec 16), dieUp s d.val = true → clocksRun s = true → setBusy s d.val g.val = true →
    [exec (.tblRead d g table i) s, exec (.tblWrite d g table force i) s, exec (.tblInsert d g table static i) s,
        exec (.tblDelete d g table i) s, exec (.tblLookup d g table i) s, exec (.tblReadNext d g table i) s] =
      List.replicate 6 (.next { s with tables := { s.tables with
        sets := s.tables.sets.modify (setKey d.val g.val) (fun c => { c with overrun := true }) } }))

/-- A broadcast of a table command, learn records, aging, seeds and digests (02 R50, R51, R57, R59, R60, R62, R67 to R69).
Clause by clause: the hypotheses name a case of `tblBroadcastCommit`, `learnRecordApply`, `ageClockAdvance`,
`sweeperVisit`, `emtSeedWrite`, `digestRef`, `digestCompare`, `agingMode`, the conclusion says that the command
answers a next state and what that state holds. Corners the manual leaves open are the model's choice: log 8, 104,
153, 154. -/
def Obligations.TablesOfEveryDie : Prop :=
  (∀ (s : State) (g : Fin 4) (cmd : Word) (m : Fin 16), clocksRun s = true → s.start.keeperLost = false → (diesUp s).any (refuses s g.val cmd) = true → (∀ d ∈ diesUp s, Granted s m.val d 0x20 (0x40 * g.val) true) →
    Answers (.tblBroadcastCommit g cmd m true false) s fun t => t.tables.dit = s.tables.dit ∧ t.tables.bundle = s.tables.bundle ∧
      t.tables.mcast = s.tables.mcast ∧ t.tables.nextHop = s.tables.nextHop ∧ t.tables.lpm = s.tables.lpm ∧
      t.tables.emt = s.tables.emt ∧ t.tables.digest = s.tables.digest ∧ t.regs = s.regs ∧ t.mem = s.mem) ∧
  (∀ (s : State) (g : Fin 4) (cmd : Word) (m : Fin 16) (keeperAlive dieLeft : Bool), clocksRun s = true → (keeperAlive = false ∨ dieLeft = true ∨ s.start.keeperLost = true) →
    Answers (.tblBroadcastCommit g cmd m keeperAlive dieLeft) s fun t => t.tables.dit = s.tables.dit ∧
      t.tables.bundle = s.tables.bundle ∧ t.tables.mcast = s.tables.mcast ∧ t.tables.nextHop = s.tables.nextHop ∧
      t.tables.lpm = s.tables.lpm ∧ t.tables.emt = s.tables.emt ∧ t.tables.digest = s.tables.digest) ∧
  (∀ (s : State) (g : Fin 4) (i : BitVec 16) (m : Fin 16), clocksRun s = true → (∀ d ∈ diesUp s, Granted s m.val d 0x20 (0x40 * g.val) true) → s.start.keeperLost = false → s.tables.sets.wf = true → s.tables.dit.wf = true → (∀ d ∈ diesUp s, setBusy s d g.val = false) → (∀ d ∈ diesUp s, resultOk (resultWord ((s.tables.sets.get (setKey d g.val)).data.get 0)) = true) →
    Answers (.tblBroadcastCommit g (tblCmdWord 2 0 true false i.toNat) m true false) s fun t =>
      (∀ d ∈ diesUp s, t.tables.dit.get (tblKey d i.toNat) = resultWord ((s.tables.sets.get (setKey d g.val)).data.get 0)) ∧
      t.tables.emt = s.tables.emt ∧ t.tables.lpm = s.tables.lpm ∧ t.tables.bundle = s.tables.bundle) ∧
  (∀ (s : State) (d : DieIx) (r : LearnRec) (l : List LearnRec) (p : Nat) (e : EmtEntry), clocksRun s = true → dieUp s d.val = true → s.tables.learnRecs.get d.val = r :: l → emtFind s d.val r.key = some p → emtAt s d.val p = some e → e.static = false → r.delete = false →
    Answers (.learnRecordApply d) s fun t => t.tables.learnRecs = s.tables.learnRecs.set d.val l ∧
      t.tables.emt = s.tables.emt.set (emtKey d.val p) (some { e with
        data := r.data, learned := true, owner := r.owner, ts := s.tables.ageNow.get d.val }) ∧ t.tables.dit = s.tables.dit) ∧
  (∀ (s : State) (d : DieIx), dieUp s d.val = true → clocksRun s = true →
    exec (.ageClockAdvance d) s = .next { s with tables := { s.tables with
        ageNow := s.tables.ageNow.modify d.val
          (· + BitVec.ofNat 16 ((folNs s d.val / 2 ^ 24 % 256 + 256 - s.tables.ageMark.get d.val) % 256))
        ageMark := s.tables.ageMark.set d.val (folNs s d.val / 2 ^ 24 % 256) } }) ∧
  (∀ (s : State) (d : DieIx) (j : Nat) (e : EmtEntry), dieUp s d.val = true → clocksRun s = true → j < 64 → emtAt s d.val (2 ^ 21 + j) = some e → (e.learned = true → e.owner = d.val) → emtExpired s d.val e = true → (cfgAgingMode s ≠ 1 ∨ s.start.headless = true) →
    exec (.sweeperVisit d (2 ^ 19 + j)) s = .next (emtDelete d.val (2 ^ 21 + j) s)) ∧
  (∀ (s : State) (d : DieIx) (w : Fin 2) (v : Word), dieUp s d.val = true → clocksRun s = true → emtEmpty s d.val = true →
    exec (.emtSeedWrite d w v) s = .next { s with tables := { s.tables with
        seed0 := if w.val = 0 then s.tables.seed0.set d.val v else s.tables.seed0
        seed1 := if w.val = 0 then s.tables.seed1 else s.tables.seed1.set d.val v
        seedStatus := s.tables.seedStatus.set d.val 0 } }) ∧
  (∀ (s : State) (d : DieIx) (w : Fin 2) (v : Word), dieUp s d.val = true → clocksRun s = true → emtEmpty s d.val = false →
    exec (.emtSeedWrite d w v) s = .next { s with tables := { s.tables with seedStatus := s.tables.seedStatus.set d.val 6 } }) ∧
  (∀ (s : State) (r : Role) (n : Fin 7) (d : DieIx) (v : BitVec 64), Permitted r (0x080200 + n.val) (d.val + 1) s → s.tables.reference.wf = true →
    Answers (.digestRef r n d v) s fun t => t.tables.reference = s.tables.reference.set (digKey d.val n.val) (some v) ∧
      t.tables.mismatch = s.tables.mismatch.set (digKey d.val n.val) (tableDigest s d.val n.val != v) ∧
      t.bop.answer = stDone ∧ t.tables.dit = s.tables.dit ∧ t.mem = s.mem) ∧
  (∀ (s : State) (d : DieIx), dieUp s d.val = true → clocksRun s = true → (∀ k, k < 7 → s.tables.reference.get (digKey d.val k) = none) →
    exec (.digestCompare d) s = .next { s with tables := { s.tables with digestAt := s.tables.digestAt.set d.val (nowNs s) } }) ∧
  (∀ (s : State) (d : DieIx) (v : BitVec 64), dieUp s d.val = true → clocksRun s = true → s.tables.reference.get (digKey d.val 6) = some v → (∀ k, k < 6 → s.tables.reference.get (digKey d.val k) = none) →
    Answers (.digestCompare d) s fun t =>
      t.tables.mismatch = s.tables.mismatch.set (digKey d.val 6) (tableDigest s d.val 6 != v) ∧
      t.tables.digestAt = s.tables.digestAt.set d.val (nowNs s) ∧ t.tables.digest = s.tables.digest) ∧
  (∀ (s : State) (r : Role) (v : Byte), Permitted r 0x080001 1 s → v.toNat = 1 →
    exec (.agingMode r v) s = .next (answer stDone (objSet 0x080001 1 1 s))) ∧
  (∀ (s : State) (r : Role), Permitted r 0x080001 1 s →
    exec (.agingMode r 0) s = .next (answer stDone (objSet 0x080001 1 0
        { s with tables := { s.tables with notices := .empty [], posted := .empty false } })))

/-- Cells released into their queue, spread over the mesh in two stages, received, reassembled or lost, and frames passed
on and skipped in order (03 R86 to R93, R95, R101, R102, R104). Clause by clause: the hypotheses name a case of
`cellRelease`, `spreaderSendCell`, `transitForward`, `meshCellReceive`, `reasmTimeout`, `reseqPass`, `reseqSkip`, the
conclusion says that the command answers a next state and what that state holds. Corners the manual leaves open are
the model's choice: log 24, 155. -/
def Obligations.CellsOverTheMesh : Prop :=
  (∀ (s : State) (d : DieIx) (id : BitVec 24) (f : IFrame) (c : Cell) (r : List Cell), dieUp s d.val = true → clocksRun s = true → s.switch.ingress.get (frameKey d.val id.toNat) = some f → f.cells = c :: r → c.pool ≠ 3 →
    Answers (.cellRelease d id) s fun t =>
      t.switch.ingress = s.switch.ingress.set (frameKey d.val id.toNat) (if r.isEmpty then none else some { f with cells := r }) ∧
      t.switch.voq = (if f.queue % 4 = 0 then s.switch.voq.set (f.queue / 4) (s.switch.voq.get (f.queue / 4) ++ [c]) else s.switch.voq) ∧
      t.switch.mcq = (if f.queue % 4 = 1 then s.switch.mcq.set (f.queue / 4) (s.switch.mcq.get (f.queue / 4) ++ [c]) else s.switch.mcq) ∧
      t.switch.red = (if 2 ≤ f.queue % 4 then s.switch.red.set (f.queue / 4) (s.switch.red.get (f.queue / 4) ++ [c]) else s.switch.red) ∧
      t.switch.spill = s.switch.spill ∧ t.time = s.time ∧ t.mem = s.mem) ∧
  (∀ (s : State) (d : DieIx) (id : BitVec 24) (f : IFrame) (c : Cell) (r : List Cell), dieUp s d.val = true → clocksRun s = true → s.switch.ingress.get (frameKey d.val id.toNat) = some f → f.cells = c :: r → c.pool = 3 →
    Answers (.cellRelease d id) s fun t =>
      t.switch.ingress = s.switch.ingress.set (frameKey d.val id.toNat) (if r.isEmpty then none else some { f with cells := r }) ∧
      t.switch.spill = (spillAppend (f.queue / 4) c s).switch.spill ∧ t.ras = (spillAppend (f.queue / 4) c s).ras ∧
      t.switch.voq = s.switch.voq ∧ t.switch.mcq = s.switch.mcq ∧ t.switch.red = s.switch.red ∧ t.time = s.time ∧ t.mem = s.mem) ∧
  (∀ (s : State) (d : DieIx) (id : BitVec 24) (f : IFrame), dieUp s d.val = true → clocksRun s = true → s.switch.ingress.get (frameKey d.val id.toNat) = some f → f.cells = [] →
    exec (.cellRelease d id) s = .next { s with switch := { s.switch with ingress := s.switch.ingress.set (frameKey d.val id.toNat) none } }) ∧
  (∀ (s : State) (i : QueueId) (q mid : Nat) (c : Cell), queueCode i = some q → dieUp s (qDie q) = true → clocksRun s = true → spreadNext s q = some c → nextIntermediate s q = some mid → (c.index ≠ 0 ∨ tooOld s c = false) → transitRoom s mid c = true → mid ≠ qDie q →
    Answers (.spreaderSendCell i) s fun t =>
      let left := setQ q ((qCells s q).filter fun e => !(e.frameId == c.frameId && e.index == c.index)) s
      t.switch.mesh = s.switch.mesh.modify (meshKey (qDie q) mid) (· ++ [{ c with
        orderSeq := if c.destType = 0 then (assignOrder c s).1 else 0, pool := 0, stage2 := false }]) ∧
      t.switch.voq = left.switch.voq ∧ t.switch.mcq = left.switch.mcq ∧ t.switch.red = left.switch.red ∧
      t.switch.transit = s.switch.transit ∧ t.switch.rotation = s.switch.rotation.modify q (· + 1) ∧
      t.switch.released = (if c.last then s.switch.released.modify q (·.drop 1) else s.switch.released) ∧
      t.time = s.time ∧ t.mem = s.mem) ∧
  (∀ (s : State) (i : QueueId) (q : Nat) (c : Cell), queueCode i = some q → dieUp s (qDie q) = true → clocksRun s = true → spreadNext s q = some c → nextIntermediate s q = some (qDie q) → (c.index ≠ 0 ∨ tooOld s c = false) → transitRoom s (qDie q) c = true →
    Answers (.spreaderSendCell i) s fun t =>
      let left := setQ q ((qCells s q).filter fun e => !(e.frameId == c.frameId && e.index == c.index)) s
      t.switch.transit = (toTransit (qDie q) { c with
        orderSeq := if c.destType = 0 then (assignOrder c s).1 else 0, pool := 0, stage2 := false } s).switch.transit ∧
      t.switch.voq = left.switch.voq ∧ t.switch.mcq = left.switch.mcq ∧ t.switch.red = left.switch.red ∧
      t.switch.mesh = s.switch.mesh ∧ t.switch.rotation = s.switch.rotation.modify q (· + 1) ∧ t.time = s.time ∧ t.mem = s.mem) ∧
  (∀ (s : State) (i : QueueId) (q mid : Nat) (c : Cell), queueCode i = some q → dieUp s (qDie q) = true → clocksRun s = true → spreadNext s q = some c → nextIntermediate s q = some mid → c.index = 0 → tooOld s c = true →
    exec (.spreaderSendCell i) s = .next (ageDiscard (qDie q) c true s)) ∧
  (∀ (s : State) (d e : DieIx) (k : ClassIx) (c : Cell) (r : List Cell), dieUp s d.val = true → dieUp s e.val = true → clocksRun s = true → d ≠ e → s.switch.transit.get (transitKey d.val e.val k.val) = c :: r → (∀ j : ClassIx, k < j → s.switch.transit.get (transitKey d.val e.val j.val) = []) → (c.index ≠ 0 ∨ tooOld s c = false) → egressRoom s e.val = true →
    exec (.transitForward d e) s = .next { s with switch := { s.switch with
        transit := s.switch.transit.set (transitKey d.val e.val k.val) r
        mesh := s.switch.mesh.modify (meshKey d.val e.val) (· ++ [{ c with stage2 := true }]) } }) ∧
  (∀ (s : State) (d : DieIx) (k : ClassIx) (c : Cell) (r : List Cell), dieUp s d.val = true → clocksRun s = true → s.switch.transit.get (transitKey d.val d.val k.val) = c :: r → (∀ j : ClassIx, k < j → s.switch.transit.get (transitKey d.val d.val j.val) = []) → (c.index ≠ 0 ∨ tooOld s c = false) → egressRoom s d.val = true →
    exec (.transitForward d d) s = .next (egressCell d.val c { s with switch := { s.switch with
        transit := s.switch.transit.set (transitKey d.val d.val k.val) r } })) ∧
  (∀ (s : State) (d e : DieIx) (k : ClassIx) (c : Cell) (r : List Cell), dieUp s d.val = true → clocksRun s = true → s.switch.transit.get (transitKey d.val e.val k.val) = c :: r → (∀ j : ClassIx, k < j → s.switch.transit.get (transitKey d.val e.val j.val) = []) → c.index = 0 → tooOld s c = true →
    exec (.transitForward d e) s = .next (ageDiscard d.val c true s)) ∧
  (∀ (s : State) (a b : DieIx) (c : Cell) (r : List Cell), clocksRun s = true → dieUp s b.val = true → s.switch.mesh.get (meshKey a.val b.val) = c :: r → c.stage2 = false →
    exec (.meshCellReceive a b true) s = .next (toTransit b.val c { s with switch := { s.switch with mesh := s.switch.mesh.set (meshKey a.val b.val) r } }) ∧
      (c.destType = 0 → exec (.meshCellReceive a b true) s = .next { s with switch := { s.switch with
        mesh := s.switch.mesh.set (meshKey a.val b.val) r
        transit := s.switch.transit.modify (transitKey b.val (portDie c.dest) c.cls) (· ++ [{ c with stage2 := false }]) } })) ∧
  (∀ (s : State) (a b : DieIx) (c : Cell) (r : List Cell), clocksRun s = true → dieUp s b.val = true → s.switch.mesh.get (meshKey a.val b.val) = c :: r → c.stage2 = true →
    exec (.meshCellReceive a b true) s = .next (egressCell b.val c { s with switch := { s.switch with mesh := s.switch.mesh.set (meshKey a.val b.val) r } })) ∧
  (∀ (s : State) (a b : DieIx) (c : Cell) (r : List Cell), clocksRun s = true → dieUp s b.val = true → s.switch.mesh.get (meshKey a.val b.val) = c :: r → c.stage2 = true → c.destType = 2 → s.switch.reasm.get (reasmKey b.val c.ingressDie c.frameId) = none → c.index = 0 → c.cells = 1 →
    Answers (.meshCellReceive a b true) s fun t =>
      t.coll.atHome = s.coll.atHome.modify b.val (· ++ [⟨frameBytes ⟨c, [c], nowNs s, false, !c.dests.isEmpty, none, 0⟩, c.ingressTime, c.ingressDie, c.port⟩]) ∧
      t.switch.mesh = s.switch.mesh.set (meshKey a.val b.val) r ∧ t.time = s.time ∧ t.mem = s.mem) ∧
  (∀ (s : State) (a b : DieIx) (c : Cell) (r : List Cell), clocksRun s = true → dieUp s b.val = true → s.switch.mesh.get (meshKey a.val b.val) = c :: r →
    let g := count b.val 0x2001 a.val 1 { s with switch := { s.switch with mesh := s.switch.mesh.set (meshKey a.val b.val) r } }
    exec (.meshCellReceive a b false) s = .next (if frameAlive g c then g else frameEnds c true g)) ∧
  (∀ (s : State) (d i : DieIx) (id : BitVec 24) (f : EFrame), clocksRun s = true → s.switch.reasm.get (reasmKey d.val i.val id.toNat) = some f → f.openedAt + 50000 ≤ nowNs s → complete f = false →
    Answers (.reasmTimeout d i id) s fun t => t = discardFrame f.head true (count d.val 0x2004 0 1 s) ∧
      t.switch.voq = purge f.head.ingressDie f.head.frameId s.switch.voq ∧ t.switch.mcq = purge f.head.ingressDie f.head.frameId s.switch.mcq ∧
      t.switch.red = purge f.head.ingressDie f.head.frameId s.switch.red ∧ t.switch.transit = purge f.head.ingressDie f.head.frameId s.switch.transit ∧
      t.switch.mesh = purge f.head.ingressDie f.head.frameId s.switch.mesh ∧
      t.switch.ingress = s.switch.ingress.set (frameKey f.head.ingressDie f.head.frameId) none ∧ t.time = s.time ∧ t.mem = s.mem) ∧
  (∀ (s : State) (p : PortIx) (i : DieIx) (k : ClassIx) (x : Reseq) (f : EFrame), clocksRun s = true → x = s.switch.reseq.get (reseqKey p.val i.val k.val) → (x.held.find? (fun g => g.head.orderSeq == x.expect) = some f) →
    exec (.reseqPass p i k) s = .next (toLane p.val f { s with switch := { s.switch with
        reasm := s.switch.reasm.set (reasmKey (portDie p.val) i.val f.head.frameId) none
        reseq := s.switch.reseq.set (reseqKey p.val i.val k.val) (reseqTimer s { x with
          expect := (x.expect + 1) % 65536
          held := x.held.filter fun g => !sameFrame g.head f.head
          timer := none }) } })) ∧
  (∀ (s : State) (p : PortIx) (i : DieIx) (k : ClassIx) (x : Reseq) (at_ n : Nat) (f : EFrame), clocksRun s = true → x = s.switch.reseq.get (reseqKey p.val i.val k.val) → x.timer = some at_ → at_ + 20000 ≤ nowNs s → f ∈ x.held → n = (f.head.orderSeq + 65536 - x.expect) % 65536 → (∀ g ∈ x.held, n ≤ (g.head.orderSeq + 65536 - x.expect) % 65536) →
    exec (.reseqSkip p i k) s = .next { count (portDie p.val) 0x2006 0 n s with switch := { s.switch with
        reseq := s.switch.reseq.set (reseqKey p.val i.val k.val) { x with expect := (x.expect + n) % 65536, timer := none } } })

/-- Queue heads, publication, spilling and reading back, drains, class flags and carve-outs (03 R74, R101, R107 to R109,
R114, R115, R117, 05 R152, R153). Clause by clause: the hypotheses name a case of `ageHeadExamine`,
`laneStatePublish`, `spillReadback`, `contextSpill`, `contextReadback`, `portDrainDrain`, `portDrainNone`,
`portDrainFlush`, `drainEmpty`, `classFlags`, `carveoutGb`, the conclusion says that the command answers a next state
and what that state holds. Corners the manual leaves open are the model's choice: log 25, 26, 108. -/
def Obligations.QueuesAndDrains : Prop :=
  (∀ (s : State) (p : PortIx) (l : LaneIx) (k : ClassIx) (f : EFrame), clocksRun s = true → s.switch.heldResults.get (pcKey p.val k.val) = [] → s.switch.laneq.get (laneqKey p.val l.val k.val) = [f] → tooOld s f.head = true →
    exec (.ageHeadExamine (.lane p l k)) s = .next (noteWaiting p.val k.val (dropAtEgress p.val f (count (portDie p.val) 0x200B k.val 1
        { s with switch := { s.switch with laneq := s.switch.laneq.modify (laneqKey p.val l.val k.val) (·.drop 1) } })))) ∧
  (∀ (s : State) (d e : DieIx) (k : ClassIx) (c : Cell), clocksRun s = true → s.switch.transit.get (transitKey d.val e.val k.val) = [c] → c.index = 0 → tooOld s c = true →
    exec (.ageHeadExamine (.transit d e k)) s = .next (discardFrame c true (count d.val 0x200B c.cls 1 s))) ∧
  (∀ (s : State) (d : DieIx), dieUp s d.val = true → clocksRun s = true →
    Answers (.laneStatePublish d) s fun t => t.switch.voq = s.switch.voq ∧ t.switch.laneq = s.switch.laneq ∧
      t.switch.occ = (((upTo 288).filter fun p => portDie p == d.val).flatMap fun p =>
        (if isFibre p then upTo 8 else [0]).map fun l => (p, l)).foldl
          (fun o x => o.set (laneKey x.1 x.2) (min 4095 (ownOccupancy s x.1 x.2))) s.switch.occ ∧
      t.switch.sprayPub = ((upTo 288).filter fun p => portDie p == d.val).foldl
          (fun o p => o.set p ((sprayLanes s p).foldl (fun a l => a + 2 ^ l) 0)) s.switch.sprayPub ∧
      t.switch.assigned = s.switch.assigned.erase (fun k => portDie (k % 4096 / 8) == d.val) ∧ t.flow = s.flow ∧ t.mem = s.mem) ∧
  (∀ (s : State) (d : DieIx) (p : PortIx) (k : ClassIx) (b : Fin 16) (x : SpillBlock) (r : List SpillBlock), dieUp s d.val = true → clocksRun s = true → s.switch.spill.get (voqKey d.val p.val k.val b.val) = x :: r → queueBytes (s.switch.voq.get (voqKey d.val p.val k.val b.val)) < cfgVoqSpillMin s / 2 → memBad s (memAddr d.val (blockOffset s d.val x.place)) spillBlockBytes = false → (((blockCells [x]).all fun c => !(c.index == 0 && tooOld s c)) = true) →
    Answers (.spillReadback d p k b none) s fun t =>
      t.switch.spill = (setSpill (voqKey d.val p.val k.val b.val) r s).switch.spill ∧
      t.switch.voq = s.switch.voq.set (voqKey d.val p.val k.val b.val) (s.switch.voq.get (voqKey d.val p.val k.val b.val) ++
        (blockCells [x]).map (fun (c : Cell) => { c with pool := 1 })) ∧ t.mem = s.mem) ∧
  (∀ (s : State) (d : DieIx) (p : PortIx) (k : ClassIx) (b : Fin 16) (x : SpillBlock) (r : List SpillBlock), dieUp s d.val = true → clocksRun s = true → s.switch.spill.get (voqKey d.val p.val k.val b.val) = x :: r → queueBytes (s.switch.voq.get (voqKey d.val p.val k.val b.val)) < cfgVoqSpillMin s / 2 → memBad s (memAddr d.val (blockOffset s d.val x.place)) spillBlockBytes = true →
    exec (.spillReadback d p k b none) s = .next ((headsOf (blockCells [x])).foldl (fun s h =>
        discardFrame h ((s.switch.released.get (qVoq d.val p.val k.val b.val)).contains h.frameId) s) (count d.val 0x200C 0 1 s))) ∧
  (∀ (s : State) (d : DieIx) (k : Nat) (g g' : Machine.Group), dieUp s d.val = true → clocksRun s = true → neededCtx s d.val = some g' → (cfgCtxSpillOn s * (48 * 2 ^ 20) ≤ ctxUse s d.val (fun j => !ctxOut s j) * 100) → spillVictim s d.val = some k → groupOfCtx s k = some g → ctxUse s d.val (ctxOut s) + ctxBytes g ≤ 64 * 2 ^ 20 →
    exec (.contextSpill d) s = .next { s with
        switch := { s.switch with
          ctxSpilled := s.switch.ctxSpilled.set k true
          ctxArea := s.switch.ctxArea.set k ((s.coll.ctx.get k).hi, (s.coll.ctx.get k).lo) }
        coll := { s.coll with ctx := s.coll.ctx.modify k fun c => { c with hi := .empty 0, lo := .empty 0 } } }) ∧
  (∀ (s : State) (d : DieIx) (g : Fin 65536) (i : BitVec 16) (c k : Nat) (x : Machine.Group), dieUp s d.val = true → clocksRun s = true → ctxOf s d.val g.val i.toNat c = some k → groupOfCtx s k = some x → ctxOut s k = true → sramFull s d.val x = false →
    exec (.contextReadback d g i c) s = .next { s with
        switch := { s.switch with
          ctxSpilled := s.switch.ctxSpilled.set k false
          ctxArea := s.switch.ctxArea.set k s.switch.ctxArea.dflt }
        coll := { s.coll with ctx := s.coll.ctx.modify k fun c => { c with hi := (s.switch.ctxArea.get k).1, lo := (s.switch.ctxArea.get k).2 } } }) ∧
  (∀ (s : State) (r : Role) (p : PortIx), Permitted r (0x090100 + p.val) 2 s →
    exec (.portDrainDrain r p) s = .next (answer stDone (objSet (0x090100 + p.val) 2 1
        { s with switch := { s.switch with drainState := s.switch.drainState.set p.val 1 } }))) ∧
  (∀ (s : State) (r : Role) (p : PortIx), Permitted r (0x090100 + p.val) 2 s →
    exec (.portDrainNone r p) s = .next (answer stDone (objSet (0x090100 + p.val) 2 0
        { s with switch := { s.switch with drainState := s.switch.drainState.set p.val 0 } }))) ∧
  (∀ (s : State) (r : Role) (p : PortIx), Permitted r (0x090100 + p.val) 2 s → s.regs.timed.wf = true →
    Answers (.portDrainFlush r p) s fun t => t.obj = cellPut (objKey (0x090100 + p.val) 2) 2 s.obj ∧
      t.bop.answer = stDone ∧ (∀ c ∈ t.switch.laneq.cells, c.1 / 64 ≠ p.val) ∧ (∀ c ∈ t.switch.heldResults.cells, c.1 / 8 ≠ p.val) ∧
      (∀ x ∈ t.regs.timed.get (portDie p.val), x.port ≠ p.val) ∧ t.switch.drainState = s.switch.drainState.set p.val 1 ∧
      t.time = s.time ∧ t.mem = s.mem) ∧
  (∀ (s : State) (p : PortIx), clocksRun s = true → draining s p.val = true → portEmpty s p.val = true →
    exec (.drainEmpty p) s = .next { s with switch := { s.switch with drainState := s.switch.drainState.set p.val 2 } }) ∧
  (∀ (s : State) (r : Role) (k : ClassIx) (v : Byte), Permitted r (0x090010 + k.val) 1 s → v.toNat ≤ 7 → (bit v.toNat 2 = isDeep s k.val ∨ classSpilled s k.val = false) → reserveBytes (objSet (0x090010 + k.val) 1 v.toNat s) ≤ 44 * 2 ^ 20 →
    exec (.classFlags r k v) s = .next (answer stDone (objSet (0x090010 + k.val) 1 v.toNat s))) ∧
  (∀ (s : State) (r : Role) (d : DieIx) (v : Byte), Permitted r 0x090001 (d.val + 1) s → v.toNat ≤ 64 → (s.switch.spill.cells.any (fun x => x.1 / 16 / 8 / 288 == d.val) = false) → carveoutFits s d.val v.toNat = true →
    exec (.carveoutGb r d v) s = .next (answer stDone (objSet 0x090001 (d.val + 1) v.toNat s)))

/-- The wheel of the shapers, the shepherd's grants, credit returned and the weighted order of an engine (04 R118 to
R126). Clause by clause: the hypotheses name a case of `wheelSlotRelease`, `shepherdGrant`, `grantReceive`,
`creditReturn`, `schedulerDecision`, the conclusion says that the command answers a next state and what that state
holds. Corners the manual leaves open are the model's choice: log 106, 158. -/
def Obligations.Scheduling : Prop :=
  (∀ (s : State) (d : DieIx) (k n : Nat), dieUp s d.val = true → clocksRun s = true → s.flow.wheel = Tab.set ⟨none, []⟩ k (some n) → shaperDie k = d.val → n < now16 s / 1024 → s.flow.nextAt.get k ≤ (now16 s : Int) →
    Answers (.wheelSlotRelease d) s fun t => t.flow.wheel.get k = none ∧ t.flow.nextAt = s.flow.nextAt ∧
      t.regs = (count d.val 0x3000 0 1 s).regs ∧ t.switch = s.switch ∧ t.mem = s.mem) ∧
  (∀ (s : State) (p : PortIx) (c : ClassIx) (e : Nat), dieUp s (portDie p.val) = true → clocksRun s = true → sprayLanes s p.val ≠ [] → unsettledOf s p.val + 16 ≤ grantBound s p.val → (nextTurn 8 (s.flow.grantTurn.get (pcKey p.val c.val) + 7) (fun d => dieUp s d && s.switch.requests.get (dpcKey d p.val c.val)) = some e) → (c.val = 7 ∨ c.val = 6 ∧ grantable s p.val 7 = false) → grantable s p.val c.val = true →
    Answers (.shepherdGrant p c) s fun t =>
      t.flow.grantTurn = s.flow.grantTurn.set (pcKey p.val c.val) ((e + 1) % 8) ∧
      t.flow.grants = s.flow.grants.modify (dpcKey e p.val c.val) (· + 1) ∧
      t.flow.unsettled = s.flow.unsettled.modify (settleKey p.val c.val e) (· + 16) ∧
      t.flow.tag = (levelEnter (grantLevel p.val) (upTo 6) (grantable s p.val) s.flow).tag ∧ OnlyChanges [.flow] s t) ∧
  (∀ (s : State) (p : PortIx) (c : ClassIx) (e : Nat), dieUp s (portDie p.val) = true → clocksRun s = true → sprayLanes s p.val ≠ [] → unsettledOf s p.val + 16 ≤ grantBound s p.val → (nextTurn 8 (s.flow.grantTurn.get (pcKey p.val c.val) + 7) (fun d => dieUp s d && s.switch.requests.get (dpcKey d p.val c.val)) = some e) → c.val < 6 → grantable s p.val 7 = false → grantable s p.val 6 = false → levelChoose (grantLevel p.val) (upTo 6) (grantable s p.val) (levelEnter (grantLevel p.val) (upTo 6) (grantable s p.val) s.flow) = some c.val →
    Answers (.shepherdGrant p c) s fun t =>
      t.flow.grantTurn = s.flow.grantTurn.set (pcKey p.val c.val) ((e + 1) % 8) ∧
      t.flow.grants = s.flow.grants.modify (dpcKey e p.val c.val) (· + 1) ∧
      t.flow.unsettled = s.flow.unsettled.modify (settleKey p.val c.val e) (· + 16) ∧
      t.flow.tag = (levelEnter (grantLevel p.val) (upTo 6) (grantable s p.val) s.flow).tag.set (grantLevel p.val + c.val)
        ((levelEnter (grantLevel p.val) (upTo 6) (grantable s p.val) s.flow).tag.get (grantLevel p.val + c.val) +
          BitVec.ofNat 32 (4096 * 1024 / max 1 (cfgClassWeight s c.val))) ∧ OnlyChanges [.flow] s t) ∧
  (∀ (s : State) (d : DieIx) (p : PortIx) (c : ClassIx), dieUp s d.val = true → clocksRun s = true → s.flow.grants.get (dpcKey d.val p.val c.val) ≠ 0 →
    Answers (.grantReceive d p c) s fun t =>
      t.flow.grants = s.flow.grants.modify (dpcKey d.val p.val c.val) (· - 1) ∧
      t.flow.balance = s.flow.balance.modify (dpcKey d.val p.val c.val) (· + 16) ∧ t.flow.unsettled = s.flow.unsettled ∧ t.switch = s.switch) ∧
  (∀ (s : State) (d : DieIx) (p : PortIx) (c : ClassIx) (at_ : Nat), clocksRun s = true → s.flow.idleSince.get (dpcKey d.val p.val c.val) = some at_ → at_ + 2000 ≤ nowNs s → 0 < s.flow.balance.get (dpcKey d.val p.val c.val) → waiting s d.val p.val c.val = false →
    exec (.creditReturn d p c) s = .next (settle p.val c.val d.val (s.flow.balance.get (dpcKey d.val p.val c.val)).toNat { s with flow := { s.flow with
        balance := s.flow.balance.set (dpcKey d.val p.val c.val) 0
        idleSince := s.flow.idleSince.set (dpcKey d.val p.val c.val) none } })) ∧
  (∀ (s : State) (d : DieIx) (e : Fin 16) (i : Nat), dieUp s d.val = true → clocksRun s = true → (nextTurn (engineTargets e.val).length (s.flow.engineTurn.get (d.val * 16 + e.val) + (engineTargets e.val).length - 1) (fun i => targetEligible s d.val ((engineTargets e.val).getD i 0)) = some i) → (engineTargets e.val).getD i 0 ≠ 289 →
    exec (.schedulerDecision d e) s = .next (decideTarget d.val ((engineTargets e.val).getD i 0) { s with flow := { s.flow with
        engineTurn := s.flow.engineTurn.set (d.val * 16 + e.val) ((i + 1) % (engineTargets e.val).length) } })) ∧
  (∀ (s : State) (d : DieIx) (e : Fin 16) (c : Cell), dieUp s d.val = true → clocksRun s = true → (nextTurn 18 (s.flow.engineTurn.get (d.val * 16 + e.val) + 17) (fun i => targetEligible s d.val ((engineTargets e.val).getD i 0)) = some 17) → 2 ≤ e.val → classEligible s d.val (e.val + 272) 7 = true → subEligible s d.val (e.val + 272) 7 0 = true → (∀ b : Fin 16, b ≠ 0 → subEligible s d.val (e.val + 272) 7 b.val = false) → headFrame s (qVoq d.val (e.val + 272) 7 0) = some c → c.ingressDie = d.val → c.dest = e.val + 272 → c.cls = 7 →
    Answers (.schedulerDecision d e) s fun t =>
      t.switch.released = s.switch.released.modify (qVoq d.val (e.val + 272) 7 0) (· ++ [c.frameId]) ∧
      t.flow.balance = s.flow.balance.modify (dpcKey d.val (e.val + 272) 7) (· - c.cells) ∧ t.switch.voq = s.switch.voq)

/-- The credit words of a lossless class of a fibre port. A CREDIT word carries the class and the LIMIT, which is never
lower than the last one sent and is FREED and the reserve with a grant of the shared pool (the model grants the whole
bound, log 160); a SYNC word carries the lane's SENT; a received block that fails its check is discarded and counted;
a CREDIT word raises the allowance only where it is later and the class lossless; SYNC and CLOSE words settle what a
lane lost; a reserved type is ignored; and a class that starves is reported (04 R128 to R134). Clause by clause: the
hypotheses name a case of `creditWordSend`, `syncWordSend`, `lcbReceive`, `closeApply`, `creditWatchExpire`, the
conclusion says that the command answers a next state and what that state holds. Corners the manual leaves open are
the model's choice: log 160. -/
def Obligations.CreditWords : Prop :=
  (∀ (s : State) (p : FibreIx) (c : ClassIx) (l : Nat) (r : List Nat), clocksRun s = true → dieUp s (portDie p.val) = true → sprayLanes s p.val = l :: r → portLossless s p.val c.val = true →
    ∃ (t : State) (w : BitVec 64) (n : Word) (g : Nat), exec (.creditWordSend p c) s = .next t ∧
      t.optics.ports = s.optics.ports.modify p.val (fun q => { q with due := q.due ++ [(l, 1, w, 0, 0)] }) ∧
      w.toNat / 2 ^ 60 = 1 ∧ w.toNat / 2 ^ 57 % 8 = c.val ∧ w.toNat / 2 ^ 32 % 2 ^ 25 = 0 ∧ w.setWidth 32 = n ∧
      (n - s.flow.advertised.get (pcKey p.val c.val)).toNat < 2 ^ 31 ∧
      (n = s.flow.advertised.get (pcKey p.val c.val) ∨
        n = s.flow.freed.get (pcKey p.val c.val) + BitVec.ofNat 32 (cfgReserve s / 256 + g)) ∧
      256 * g ≤ freeSharedFor s (portDie p.val) p.val c.val ∧
      t.flow = { s.flow with
        advertised := s.flow.advertised.set (pcKey p.val c.val) n
        creditAt := s.flow.creditAt.set (pcKey p.val c.val) (nowNs s) } ∧
      OnlyChanges [.flow, .optics] s t) ∧
  (∀ (s : State) (p : FibreIx) (l : LaneIx) (c : ClassIx), clocksRun s = true → dieUp s (portDie p.val) = true → (sprayLanes s p.val).contains l.val = true → portLossless s p.val c.val = true →
    ∃ (t : State) (w : BitVec 64), exec (.syncWordSend p l c) s = .next t ∧
      t.optics.ports = s.optics.ports.modify p.val (fun q => { q with due := q.due ++ [(l.val, 1, w, 0, 0)] }) ∧
      w.toNat / 2 ^ 60 = 2 ∧ w.toNat / 2 ^ 57 % 8 = c.val ∧ w.toNat / 2 ^ 32 % 2 ^ 25 = 0 ∧
      w.setWidth 32 = s.flow.sent.get (laneqKey p.val l.val c.val) ∧
      t.flow = { s.flow with syncAt := s.flow.syncAt.set (laneqKey p.val l.val c.val) (nowNs s) } ∧
      OnlyChanges [.flow, .optics] s t) ∧
  (∀ (s : State) (p : FibreIx) (l : LaneIx) (b : Lcb), lanesAct s p.val = true → ((laneAt s p.val l.val).state ≠ .dark ∧ (laneAt s p.val l.val).state ≠ .locking ∧ (laneAt s p.val l.val).state ≠ .fault ∧ (laneAt s p.val l.val).state ≠ .retune) → isLcb b = true → (b.fecGood = false ∨ beAt b.blockA 5 2 ≠ crc16 (slice b.blockA 1 4 ++ beBytes 8 b.word0.toNat ++ beBytes 8 b.word1.toNat)) →
    exec (.lcbReceive p l b) s = .next (count (portDie p.val) 0x8000 (laneKey p.val l.val) 1 s)) ∧
  (∀ (s : State) (p : FibreIx) (l : LaneIx) (c : ClassIx) (n : Word) (b : Lcb), lanesAct s p.val = true → ((laneAt s p.val l.val).state ≠ .dark ∧ (laneAt s p.val l.val).state ≠ .locking ∧ (laneAt s p.val l.val).state ≠ .fault ∧ (laneAt s p.val l.val).state ≠ .retune) → isLcb b = true → lcbGood b = true → byteAt b.blockA 1 = 1 → b.word0.toNat / 2 ^ 60 = 1 → b.word0.toNat / 2 ^ 57 % 8 = c.val → b.word0.setWidth 32 = n → b.word1.toNat / 2 ^ 60 = 0 →
    ∃ t : State, exec (.lcbReceive p l b) s = .next t ∧
      t.flow.limit = (if portLossless s p.val c.val = true ∧ (s.flow.gotLimit.get (pcKey p.val c.val) = false ∨
          0 < (n - s.flow.limit.get (pcKey p.val c.val)).toNat ∧ (n - s.flow.limit.get (pcKey p.val c.val)).toNat < 2 ^ 31)
        then s.flow.limit.set (pcKey p.val c.val) n else s.flow.limit) ∧
      t.flow.consumed = s.flow.consumed ∧ t.flow.freed = s.flow.freed ∧ t.flow.rcvd = s.flow.rcvd ∧ OnlyChanges [.flow] s t) ∧
  (∀ (s : State) (p : FibreIx) (l : LaneIx) (c : ClassIx) (n : Word) (b : Lcb), lanesAct s p.val = true → ((laneAt s p.val l.val).state ≠ .dark ∧ (laneAt s p.val l.val).state ≠ .locking ∧ (laneAt s p.val l.val).state ≠ .fault ∧ (laneAt s p.val l.val).state ≠ .retune) → isLcb b = true → lcbGood b = true → byteAt b.blockA 1 = 1 → b.word0.toNat / 2 ^ 60 = 2 → b.word0.toNat / 2 ^ 57 % 8 = c.val → b.word0.setWidth 32 = n → b.word1.toNat / 2 ^ 60 = 0 → portLossless s p.val c.val = true →
    exec (.lcbReceive p l b) s = .next (if (n - s.flow.rcvd.get (laneqKey p.val l.val c.val)).toNat < 2 ^ 31 then
        { s with flow := { s.flow with
            rcvd := s.flow.rcvd.set (laneqKey p.val l.val c.val) n
            freed := s.flow.freed.modify (pcKey p.val c.val) (· + (n - s.flow.rcvd.get (laneqKey p.val l.val c.val))) } }
      else s)) ∧
  (∀ (s : State) (p : FibreIx) (l : LaneIx) (m : LaneIx) (c : ClassIx) (n : Word) (b : Lcb), lanesAct s p.val = true → ((laneAt s p.val l.val).state ≠ .dark ∧ (laneAt s p.val l.val).state ≠ .locking ∧ (laneAt s p.val l.val).state ≠ .fault ∧ (laneAt s p.val l.val).state ≠ .retune) → isLcb b = true → lcbGood b = true → byteAt b.blockA 1 = 1 → b.word0.toNat / 2 ^ 60 = 3 → b.word0.toNat / 2 ^ 57 % 8 = c.val → b.word0.toNat / 2 ^ 54 % 8 = m.val → b.word0.setWidth 32 = n → b.word1.toNat / 2 ^ 60 = 0 → portLossless s p.val c.val = true →
    exec (.lcbReceive p l b) s = .next { s with flow := { s.flow with
        closing := s.flow.closing.set (laneqKey p.val m.val c.val) (some (n, nowNs s)) } }) ∧
  (∀ (s : State) (p : FibreIx) (l : LaneIx) (b : Lcb), lanesAct s p.val = true → ((laneAt s p.val l.val).state ≠ .dark ∧ (laneAt s p.val l.val).state ≠ .locking ∧ (laneAt s p.val l.val).state ≠ .fault ∧ (laneAt s p.val l.val).state ≠ .retune) → isLcb b = true → lcbGood b = true → byteAt b.blockA 1 = 1 → (b.word0.toNat / 2 ^ 60 = 0 ∨ 3 < b.word0.toNat / 2 ^ 60) → (b.word1.toNat / 2 ^ 60 = 0 ∨ 3 < b.word1.toNat / 2 ^ 60) →
    exec (.lcbReceive p l b) s = .next s) ∧
  (∀ (s : State) (p : FibreIx) (l : LaneIx) (c : ClassIx) (n : Word) (at_ : Nat), clocksRun s = true → s.flow.closing.get (laneqKey p.val l.val c.val) = some (n, at_) → (s.flow.rcvd.get (laneqKey p.val l.val c.val) = n ∨ at_ + 20000 ≤ nowNs s) →
    Answers (.closeApply p l c) s fun t => t.flow.closing = s.flow.closing.set (laneqKey p.val l.val c.val) none ∧
      t.flow.rcvd = (syncApply p.val l.val c.val n s).flow.rcvd.set (laneqKey p.val l.val c.val) n ∧ t.flow.closed = s.flow.closed.set (laneqKey p.val l.val c.val) true ∧
      t.flow.freed = (if (n - s.flow.rcvd.get (laneqKey p.val l.val c.val)).toNat < 2 ^ 31 then
        s.flow.freed.modify (pcKey p.val c.val) (· + (n - s.flow.rcvd.get (laneqKey p.val l.val c.val))) else s.flow.freed) ∧
      t.flow.limit = s.flow.limit ∧ OnlyChanges [.flow] s t) ∧
  (∀ (s : State) (p : FibreIx) (c : ClassIx) (at_ : Nat), clocksRun s = true → s.flow.waitingAt.get (pcKey p.val c.val) = some at_ → starving s p.val c.val = true → s.flow.starvedSent.get (pcKey p.val c.val) = false → max at_ (s.flow.grewAt.get (pcKey p.val c.val)) + cfgCreditWatch s * 1000000 ≤ nowNs s →
    exec (.creditWatchExpire p c) s = .next (raise 0x0901 1 (unitOf (portDie p.val) p.val c.val) [] (count (portDie p.val) 0x3001 (pcKey p.val c.val) 1
        { s with flow := { s.flow with
            tripped := s.flow.tripped.modify p.val fun b => b ||| BitVec.ofNat 8 (2 ^ c.val)
            starvedSent := s.flow.starvedSent.set (pcKey p.val c.val) true } })))

/-- Pause frames sent and received on electrical ports, the pause watch and its recovery (04 R135 to R138). Clause by
clause: the hypotheses name a case of `pfcRepeat`, `pfcFrameReceive`, `pauseExpire`, `pauseWatchTrip`,
`pauseRecoverEnd`, the conclusion says that the command answers a next state and what that state holds. -/
def Obligations.PauseOfAClass : Prop :=
  (∀ (s : State) (p : ElecIx) (c : ClassIx) (at_ : Nat), portLit s (256 + p.val) = true → s.flow.xoff.get (pcKey (256 + p.val) c.val) = some at_ → at_ * 2000 + cfgPfcQuanta s (256 + p.val) * quantumPs s (256 + p.val) ≤ nowNs s * 2000 → freeReserve s (256 + p.val) c.val < cfgPfcHeadroom s (256 + p.val) →
    exec (.pfcRepeat p c) s = .next (emitOut (.pfc (256 + p.val) c.val (cfgPfcQuanta s (256 + p.val)))
        { s with flow := { s.flow with xoff := s.flow.xoff.set (pcKey (256 + p.val) c.val) (some (nowNs s)), pfcLow := s.flow.pfcLow.set (pcKey (256 + p.val) c.val) true } })) ∧
  (∀ (s : State) (p : ElecIx) (c : ClassIx), clocksRun s = true → dieUp s (portDie (256 + p.val)) = true → ((s.flow.pauseEnd.get (pcKey (256 + p.val) c.val)).any (fun e => nowNs s < e) = true) →
    exec (.pfcFrameReceive p c 0) s = .next { s with flow := { s.flow with
        pauseEnd := s.flow.pauseEnd.set (pcKey (256 + p.val) c.val) none
        unpausedAt := s.flow.unpausedAt.set (pcKey (256 + p.val) c.val) (nowNs s) } }) ∧
  (∀ (s : State) (p : ElecIx) (c : ClassIx) (q : BitVec 16), clocksRun s = true → dieUp s (portDie (256 + p.val)) = true → q ≠ 0 →
    Answers (.pfcFrameReceive p c q) s fun t =>
      t.flow.pauseEnd = s.flow.pauseEnd.set (pcKey (256 + p.val) c.val) (some (nowNs s + ceilDiv (q.toNat * quantumPs s (256 + p.val)) 1000)) ∧
      t.flow.unpausedAt = s.flow.unpausedAt ∧ (s.flow.pauseStart.get (pcKey (256 + p.val) c.val) = none →
        (s.flow.pauseEnd.get (pcKey (256 + p.val) c.val) = none) →
        t.flow.pauseStart = s.flow.pauseStart.set (pcKey (256 + p.val) c.val) (some (nowNs s))) ∧ t.switch = s.switch) ∧
  (∀ (s : State) (p : ElecIx) (c : ClassIx) (e : Nat), clocksRun s = true → s.flow.pauseEnd.get (pcKey (256 + p.val) c.val) = some e → e ≤ nowNs s →
    exec (.pauseExpire p c) s = .next { s with flow := { s.flow with
        pauseEnd := s.flow.pauseEnd.set (pcKey (256 + p.val) c.val) none
        unpausedAt := s.flow.unpausedAt.set (pcKey (256 + p.val) c.val) e } }) ∧
  (∀ (s : State) (p : ElecIx) (c : ClassIx) (at_ e : Nat), clocksRun s = true → s.flow.pauseStart.get (pcKey (256 + p.val) c.val) = some at_ → s.flow.pauseEnd.get (pcKey (256 + p.val) c.val) = some e → nowNs s < e → s.flow.ignoreUntil.get (pcKey (256 + p.val) c.val) = none → at_ + cfgPauseWatch s (256 + p.val) * 1000000 ≤ nowNs s →
    exec (.pauseWatchTrip p c) s = .next (raise 0x0902 1 (unitOf (portDie (256 + p.val)) (256 + p.val) c.val) []
        (count (portDie (256 + p.val)) 0x3002 (pcKey (256 + p.val) c.val) 1 { s with flow := { s.flow with
          ignoreUntil := s.flow.ignoreUntil.set (pcKey (256 + p.val) c.val) (some (nowNs s + cfgPauseRecover s (256 + p.val) * 1000000))
          tripped := s.flow.tripped.modify (256 + p.val) fun b => b ||| BitVec.ofNat 8 (2 ^ c.val) } }))) ∧
  (∀ (s : State) (p : ElecIx) (c : ClassIx) (at_ : Nat), clocksRun s = true → s.flow.ignoreUntil.get (pcKey (256 + p.val) c.val) = some at_ → at_ ≤ nowNs s →
    exec (.pauseRecoverEnd p c) s = .next { s with flow := { s.flow with
        ignoreUntil := s.flow.ignoreUntil.set (pcKey (256 + p.val) c.val) none
        pauseStart := s.flow.pauseStart.set (pcKey (256 + p.val) c.val)
          (if (s.flow.pauseEnd.get (pcKey (256 + p.val) c.val)).any (fun e => nowNs s < e) then some (nowNs s) else none) } })

/-- A frame that enters is dropped and counted, terminated as a contribution, kept for the keeper, or cut into the cells
of its VOQ; one that begins on a lane spends its units of the peer's credit; one that runs dry is marked; one that
leaves settles its cells; and the keeper takes the oldest frame of its link (02 R40, R42, R43, 03 R76 to R81, R85,
R95, R98, 04 R118, R119, R130, R131, 05 R149, 11 R364, R365, 12 R391). Clause by clause: the hypotheses name a case of
`frameIngress`, `laneFrameStart`, `egressUnderrun`, `frameLeavesPort`, `frameAddressedToKeeper`, the conclusion says
that the command answers a next state and what that state holds. Corners the manual leaves open are the model's
choice: log 21, 30, 107, 150, 151, 156. -/
def Obligations.FramesOnLanes : Prop :=
  (∀ (s : State) (p : PortIx) (l : LaneIx) (b : Bytes), dieUp s (portDie p.val) = true → isUp s = true → laneLoops s p.val l.val = false → p.val < 256 → (parseFrame b).epl = none → portLossless s p.val (frameClass b (parseFrame b)) = false →
    exec (.frameIngress p l ⟨b, none⟩) s = .next (count (portDie p.val) 0x1000 0 1 s)) ∧
  (∀ (s : State) (p : PortIx) (l : LaneIx) (b : Bytes) (o : Nat), dieUp s (portDie p.val) = true → isUp s = true → laneLoops s p.val l.val = false → p.val < 256 → (parseFrame b).epl = some o → eplVersion b o = 1 → (eplKind b o ≠ 1 ∨ eplDest b o ≠ cfgDevIndex s) → (s.tables.dit.get (tblKey (portDie p.val) (eplDest b o))).toNat / 2 ^ 30 = 0 → portLossless s p.val (frameClass b (parseFrame b)) = true → s.flow.closed.get (laneqKey p.val l.val (frameClass b (parseFrame b))) = false → fcsGood b = true → b.length ≤ 9216 → (ptpSkipped b = false ∨ cfgTcEnable s p.val = false) →
    Answers (.frameIngress p l ⟨b, none⟩) s fun t =>
      t.flow = { s.flow with
        rcvd := s.flow.rcvd.modify (laneqKey p.val l.val (frameClass b (parseFrame b))) (· + BitVec.ofNat 32 ((b.length + 255) / 256))
        freed := s.flow.freed.modify (pcKey p.val (frameClass b (parseFrame b))) (· + BitVec.ofNat 32 ((b.length + 255) / 256)) } ∧
      t.regs = (count (portDie p.val) 0x1008 0 1 s).regs ∧ OnlyChanges [.flow, .regs] s t) ∧
  (∀ (s : State) (p : PortIx) (l : LaneIx) (b : Bytes) (o : Nat), dieUp s (portDie p.val) = true → isUp s = true → laneLoops s p.val l.val = false → (parseFrame b).epl = some o → eplVersion b o = 1 → eplKind b o = 1 → eplDest b o = cfgDevIndex s → cfgDevIndex s ≠ 0xFFFF → portLossless s p.val (frameClass b (parseFrame b)) = false → fcsGood b = true → b.length ≤ 9216 →
    exec (.frameIngress p l ⟨b, none⟩) s = .next { s with coll := { s.coll with
        atIngress := s.coll.atIngress.modify (portDie p.val) (· ++ [⟨b, nowNs s, (parseFrame b).smac, p.val⟩]) } }) ∧
  (∀ (s : State) (p : PortIx) (l : LaneIx) (b : Bytes) (o : Nat), dieUp s (portDie p.val) = true → isUp s = true → laneLoops s p.val l.val = false → (parseFrame b).epl = some o → eplVersion b o = 1 → (eplKind b o ≠ 1 ∨ eplDest b o ≠ cfgDevIndex s) → (s.tables.dit.get (tblKey (portDie p.val) (eplDest b o))).toNat / 2 ^ 30 = 3 → portLossless s p.val (frameClass b (parseFrame b)) = false → fcsGood b = true → b.length ≤ 9216 →
    exec (.frameIngress p l ⟨b, none⟩) s = .next { s with switch := { s.switch with
        keeperIn := s.switch.keeperIn.modify (portDie p.val) (· ++ [(p.val, b)]) } }) ∧
  (∀ (s : State) (p : PortIx) (l : LaneIx) (b : Bytes) (o q m : Nat), dieUp s (portDie p.val) = true → isUp s = true → laneLoops s p.val l.val = false → (parseFrame b).epl = some o → eplVersion b o = 1 → (eplKind b o ≠ 1 ∨ eplDest b o ≠ cfgDevIndex s) → (s.tables.dit.get (tblKey (portDie p.val) (eplDest b o))).toNat / 2 ^ 30 = 1 → candidates s (s.tables.bundle.get (tblKey (portDie p.val) (resTarget (s.tables.dit.get (tblKey (portDie p.val) (eplDest b o)))))).ports = [(q, m)] → laneClosed s p.val l.val (frameClass b (parseFrame b)) = false → fcsGood b = true → b.length ≤ 9216 → cutsThrough s p.val (frameClass b (parseFrame b)) q = false → isLossless s (frameClass b (parseFrame b)) = false → isDeep s (frameClass b (parseFrame b)) = false → 9216 ≤ freeShared s (portDie p.val) → belowAlpha s (queueBytes (s.switch.voq.get (voqKey (portDie p.val) q (frameClass b (parseFrame b)) (subscriber b (parseFrame b))))) (freeShared s (portDie p.val)) = true → s.switch.voq.wf = true →
    Answers (.frameIngress p l ⟨b, none⟩) s fun t =>
      let k := voqKey (portDie p.val) q (frameClass b (parseFrame b)) (subscriber b (parseFrame b))
      let cells := (t.switch.voq.get k).drop (s.switch.voq.get k).length
      (t.switch.voq.get k).take (s.switch.voq.get k).length = s.switch.voq.get k ∧ cells.flatMap (·.data) = b ∧
      cells.map (·.index) = List.range ((b.length + 255) / 256) ∧
      cells.map (·.last) = (List.range ((b.length + 255) / 256)).map (· + 1 == (b.length + 255) / 256) ∧
      (∀ c ∈ cells, c.destType = 0 ∧ c.dest = q ∧ c.lane = m ∧ c.ingressDie = portDie p.val ∧
        c.frameId = s.switch.frameId.get (portDie p.val) ∧ c.bad = false ∧ c.ingressTime = nowNs s % 2 ^ 32 ∧
        c.lenM1 + 1 = c.data.length) ∧
      (∀ j : Nat, j ≠ k → t.switch.voq.get j = s.switch.voq.get j)) ∧
  (∀ (s : State) (p : PortIx) (l : LaneIx) (b : Bytes) (o q m : Nat), dieUp s (portDie p.val) = true → isUp s = true → laneLoops s p.val l.val = false → (parseFrame b).epl = some o → eplVersion b o = 1 → (eplKind b o ≠ 1 ∨ eplDest b o ≠ cfgDevIndex s) → (s.tables.dit.get (tblKey (portDie p.val) (eplDest b o))).toNat / 2 ^ 30 = 1 → candidates s (s.tables.bundle.get (tblKey (portDie p.val) (resTarget (s.tables.dit.get (tblKey (portDie p.val) (eplDest b o)))))).ports = [(q, m)] → laneClosed s p.val l.val (frameClass b (parseFrame b)) = false → fcsGood b = true → b.length ≤ 9216 → cutsThrough s p.val (frameClass b (parseFrame b)) q = true → isLossless s (frameClass b (parseFrame b)) = false → isDeep s (frameClass b (parseFrame b)) = false → 9216 ≤ freeShared s (portDie p.val) → belowAlpha s (queueBytes (s.switch.voq.get (voqKey (portDie p.val) q (frameClass b (parseFrame b)) (subscriber b (parseFrame b))))) (freeShared s (portDie p.val)) = true → s.switch.ingress.wf = true →
    Answers (.frameIngress p l ⟨b, none⟩) s fun t =>
      let id := s.switch.frameId.get (portDie p.val)
      let cells := ((t.switch.ingress.get (frameKey (portDie p.val) id)).map (·.cells)).getD []
      cells.flatMap (·.data) = b ∧ cells.map (·.index) = List.range ((b.length + 255) / 256) ∧
      cells.map (·.last) = (List.range ((b.length + 255) / 256)).map (· + 1 == (b.length + 255) / 256) ∧
      (∀ c ∈ cells, c.destType = 0 ∧ c.dest = q ∧ c.lane = m ∧ c.ingressDie = portDie p.val ∧ c.frameId = id ∧ c.bad = false ∧
        c.ingressTime = nowNs s % 2 ^ 32 ∧ c.lenM1 + 1 = c.data.length) ∧
      t.switch.voq = s.switch.voq ∧
      t.switch.shared = s.switch.shared.modify (portDie p.val) (· + 256 * 36)) ∧
  (∀ (s : State) (p : PortIx) (l : LaneIx) (b : Bytes) (u : Option (Nat × Nat)), dieUp s (portDie p.val) = true → isUp s = true → laneLoops s p.val l.val = true →
    exec (.frameIngress p l ⟨b, u⟩) s = .next (loopReturn p.val l.val b s)) ∧
  (∀ (s : State) (p : PortIx) (l : LaneIx) (c : ClassIx) (f : EFrame) (r : List EFrame), portLit s p.val = true → (if isFibre p.val then laneUsable s p.val l.val else (membersUp s p.val).contains l.val) = true → s.switch.sending.get (laneKey p.val l.val) = none → (∀ d : Fin 8, s.switch.heldResults.get (pcKey p.val d.val) = []) → (∀ d : Fin 8, c.val < d.val → s.switch.laneq.get (laneqKey p.val (queueLane p.val l.val) d.val) = []) → s.switch.laneq.get (laneqKey p.val (queueLane p.val l.val) c.val) = f :: r → tooOld s f.head = false → (f.head.bad = false ∨ f.copy = true) → mayStart s p.val c.val f = true → (isFibre p.val = true ∨ memberOf s p.val f = some l.val) → (∀ d : Fin 8, ∀ g ∈ s.switch.laneq.get (laneqKey p.val (queueLane p.val l.val) d.val), g.launch = none) →
    Answers (.laneFrameStart p l) s fun t =>
      t.switch = { s.switch with
        laneq := s.switch.laneq.set (laneqKey p.val (queueLane p.val l.val) c.val) r
        sending := s.switch.sending.set (laneKey p.val l.val) (some ⟨{ f with head := { f.head with
          stamp := some (stampOf s (portDie p.val)), stepSum := s.time.stepSum } }, f.got.any (·.bad)⟩) } ∧
      t.flow.consumed = (if isFibre p.val = true ∧ portLossless s p.val c.val = true then
        s.flow.consumed.modify (pcKey p.val c.val) (· + BitVec.ofNat 32 ((f.head.frameLen + 255) / 256)) else s.flow.consumed) ∧
      t.flow.sent = (if isFibre p.val = true ∧ portLossless s p.val c.val = true then
        s.flow.sent.modify (laneqKey p.val l.val c.val) (· + BitVec.ofNat 32 ((f.head.frameLen + 255) / 256)) else s.flow.sent) ∧
      OnlyChanges [.switch, .flow] s t) ∧
  (∀ (s : State) (p : PortIx) (l : LaneIx) (d : Sending), clocksRun s = true → s.switch.sending.get (laneKey p.val l.val) = some d → complete d.frame = false → d.stomp = false →
    exec (.egressUnderrun p l) s = .next (count (portDie p.val) 0x2008 p.val 1 { s with switch := { s.switch with
        sending := s.switch.sending.set (laneKey p.val l.val) (some { d with stomp := true }) } })) ∧
  (∀ (s : State) (p : PortIx) (l : LaneIx) (d : Sending), portLit s p.val = true → s.switch.sending.get (laneKey p.val l.val) = some d → (complete d.frame = true ∨ d.stomp = true) → d.frame.got.any (·.bad) = false → d.frame.copy = false → d.frame.launch = none → d.frame.head.emit = none → dieUp s d.frame.head.ingressDie = true →
    Answers (.frameLeavesPort p l) s fun t =>
      t.out = .frame p.val l.val (if d.stomp then stompFrame (frameBytes d.frame) else departing d.frame) d.stomp :: s.out ∧
      t.switch = { s.switch with
        sending := s.switch.sending.set (laneKey p.val l.val) none
        egressBytes := s.switch.egressBytes.modify (portDie p.val) (· - 256 * d.frame.got.length) } ∧
      t.flow.unsettled = s.flow.unsettled.modify (settleKey p.val d.frame.head.cls d.frame.head.ingressDie) (· - d.frame.head.cells) ∧
      OnlyChanges [.switch, .flow, .out] s t) ∧
  (∀ (s : State) (d : DieIx) (p : Nat) (f : Bytes) (r : List (Nat × Bytes)), dieUp s d.val = true → keeperUp s = true → s.switch.keeperIn.get d.val = (p, f) :: r → p < 256 → (((parseFrame f).epl.all fun o => eplKind f o != 0) = true) →
    exec (.frameAddressedToKeeper d) s = .next { s with switch := { s.switch with keeperIn := s.switch.keeperIn.set d.val r } }) ∧
  (∀ (s : State) (d : DieIx) (p : Nat) (f a : Bytes) (m : Nat) (r : List (Nat × Bytes)), dieUp s d.val = true → keeperUp s = true → s.switch.keeperIn.get d.val = (p, f) :: r → 256 ≤ p → (parseFrame f).epl = none → keeperAnswer s (p - 256) f = some a → (membersUp s p)[flowHash a % (membersUp s p).length]? = some m →
    exec (.frameAddressedToKeeper d) s = .next { s with
        switch := { s.switch with keeperIn := s.switch.keeperIn.set d.val r }
        out := .frame p m a false :: s.out })

/-- Groups prepared, committed, deleted; the quarantine ends; lag records cleared (05 R143, R144, R183 to R186, R189).
Clause by clause: the hypotheses name a case of `groupCreate`, `groupCommit`, `groupDelete`, `quarantineEnd`,
`lagClear`, the conclusion says that the command answers a next state and what that state holds. Corners the manual
leaves open are the model's choice: log 44, 166. -/
def Obligations.GroupLife : Prop :=
  (∀ (s : State) (r : Role) (b : Bytes), Permitted r 0x0A0002 1 s → moorStatus s b = stDone →
    Answers (.groupCreate r b) s fun t => t.bop.answer = stDone ∧ t.coll.groups = s.coll.groups ∧
      t.coll.prepared = s.coll.prepared ++ [(gId b, groupFor s b)] ∧
      t.coll.slots = ((diesUp s).foldl (reserveOn (groupFor s b)) s).coll.slots ∧ t.mem = s.mem ∧ t.switch = s.switch) ∧
  (∀ (s : State) (id : Nat) (g : Group) (l : List (Nat × Group)), clocksRun s = true → s.start.keeperLost = false → s.coll.prepared = (id, g) :: l → s.coll.marked = [] →
    Answers (.groupCommit true) s fun t => t.coll.prepared = l ∧
      t.coll.groups = (8 :: diesUp s).foldl (fun x d => x.set (groupKey d id) (some g)) s.coll.groups ∧
      t.bop.answer = stDone ∧ t.bop.answerValue = [BitVec.ofNat 8 (gGen g.record)] ++ beBytes 4 g.sig.toNat ∧ t.coll.slots = s.coll.slots) ∧
  (∀ (s : State) (id : Nat) (g : Group) (l : List (Nat × Group)), clocksRun s = true → s.coll.prepared = (id, g) :: l → s.coll.marked = [] →
    Answers (.groupCommit false) s fun t => t.coll.prepared = l ∧ t.coll.groups = s.coll.groups ∧ t.bop.answer = stNoContext) ∧
  (∀ (s : State) (r : Role) (id : Fin 65536) (g : Group), Permitted r 0x0A0002 2 s → groupOf s 8 id.val = some g →
    Answers (.groupDelete r id) s fun t => t.bop.answer = stDone ∧
      t.coll.groups = ((diesUp s).foldl (deleteOn g) s).coll.groups.set (groupKey 8 id.val) none ∧
      t.coll.quarantine = s.coll.quarantine.set id.val (some (nowNs s)) ∧
      t.coll.lastGen = s.coll.lastGen.set id.val (some (BitVec.ofNat 8 (gGen g.record))) ∧
      t.coll.lags = s.coll.lags.erase (fun k => k / 256 == id.val)) ∧
  (∀ (s : State) (id : Fin 65536), clocksRun s = true → quarantined s id.val = false →
    exec (.quarantineEnd id) s = .next { s with coll := { s.coll with quarantine := s.coll.quarantine.set id.val none } }) ∧
  (∀ (s : State) (r : Role) (v : Byte), Permitted r 0x0A0100 4 s →
    exec (.lagClear r v) s = .next (answer stDone { s with coll := { s.coll with
        lags := s.coll.lags.erase fun k => k / 256 == objGet s 0x0A0100 1 0 } }))

/-- Contributions at their ingress and home dies, poison notices, timeouts, results retained, locks (05 R159 to R171, 06
R218). Clause by clause: the hypotheses name a case of `contributionIngress`, `contributionHome`,
`poisonNoticeReceive`, `instanceTimeout`, `resultSendComplete`, `retentionExpire`, `residualLockGrant`, the conclusion
says that the command answers a next state and what that state holds. Corners the manual leaves open are the model's
choice: log 45, 46, 47, 111, 112. -/
def Obligations.CollectiveInstances : Prop :=
  (∀ (s : State) (d : DieIx) (c : Contribution) (l : List Contribution) (g : Group) (home : Nat), dieUp s d.val = true → clocksRun s = true → s.coll.atIngress.get d.val = c :: l → bodyGood c.bytes (eplAt c.bytes) = true → groupOf s d.val (cGroup c.bytes (eplAt c.bytes)) = some g → cGen c.bytes (eplAt c.bytes) = gGen g.record → badLength g c.bytes (eplAt c.bytes) = false → opPass (gOp g.record) = false → home = homeOf s g (cChunk c.bytes (eplAt c.bytes)) → dieUp s home = true →
    exec (.contributionIngress d) s = .next (toReduction d.val home c { s with coll := { s.coll with
        atIngress := s.coll.atIngress.set d.val l } })) ∧
  (∀ (s : State) (d : DieIx) (c : Contribution) (l : List Contribution) (g : Group) (k : Nat), dieUp s d.val = true → clocksRun s = true → s.coll.atHome.get d.val = c :: l → groupOf s d.val (cGroup c.bytes (eplAt c.bytes)) = some g → cGen c.bytes (eplAt c.bytes) = gGen g.record → cContributor c.bytes (eplAt c.bytes) < gMembers g.record → s.fabric.failed.get (imgKey d.val g.image) = false → offends g c.bytes (eplAt c.bytes) = false → (s.coll.slots.get (slotOfCtx g d.val (cInst c.bytes (eplAt c.bytes)))).inst.toNat = cInst c.bytes (eplAt c.bytes) → (s.coll.slots.get (slotOfCtx g d.val (cInst c.bytes (eplAt c.bytes)))).isOpen = true → extendTime s c.time < (s.coll.slots.get (slotOfCtx g d.val (cInst c.bytes (eplAt c.bytes)))).openedAt + gTimeout g.record → cChunk c.bytes (eplAt c.bytes) ∉ (s.coll.slots.get (slotOfCtx g d.val (cInst c.bytes (eplAt c.bytes)))).ended → ctxOf s d.val (gId g.record) (cInst c.bytes (eplAt c.bytes)) (cChunk c.bytes (eplAt c.bytes)) = some k → (s.coll.ctx.get k).state = .collecting → cContributor c.bytes (eplAt c.bytes) ∉ (s.coll.ctx.get k).arrived → gOp g.record ≠ 0xF →
    exec (.contributionHome d) s = .next (acceptInto k g c.bytes (eplAt c.bytes) (extendTime s c.time) { s with coll := { s.coll with
        atHome := s.coll.atHome.set d.val l } })) ∧
  (∀ (s : State) (d : DieIx) (id : Nat) (gen : Byte) (inst : BitVec 16) (l : List (Nat × Byte × BitVec 16)) (g : Group), dieUp s d.val = true → clocksRun s = true → s.coll.poisonNotices.get d.val = (id, gen, inst) :: l → groupOf s d.val id = some g → gGen g.record = gen.toNat → (s.coll.slots.get (slotOfCtx g d.val inst.toNat)).inst = inst → ((s.coll.slots.get (slotOfCtx g d.val inst.toNat)).isOpen = true ∨ (s.coll.slots.get (slotOfCtx g d.val inst.toNat)).endCode ≠ 1) →
    exec (.poisonNoticeReceive d) s = .next (poisonHere d.val g inst.toNat [] { s with coll := { s.coll with
        poisonNotices := s.coll.poisonNotices.set d.val l } })) ∧
  (∀ (s : State) (d : DieIx) (id : Nat) (gen : Byte) (inst : BitVec 16) (l : List (Nat × Byte × BitVec 16)) (g : Group), dieUp s d.val = true → clocksRun s = true → s.coll.poisonNotices.get d.val = (id, gen, inst) :: l → groupOf s d.val id = some g → gGen g.record = gen.toNat → (s.coll.slots.get (slotOfCtx g d.val inst.toNat)).inst = inst → (s.coll.slots.get (slotOfCtx g d.val inst.toNat)).isOpen = false → (s.coll.slots.get (slotOfCtx g d.val inst.toNat)).endCode = 1 →
    exec (.poisonNoticeReceive d) s = .next { s with coll := { s.coll with
        poisonNotices := s.coll.poisonNotices.set d.val l } }) ∧
  (∀ (s : State) (d : DieIx) (id : Fin 65536) (inst : BitVec 16) (g : Group), dieUp s d.val = true → clocksRun s = true → s.coll.atHome.get d.val = [] → groupOf s d.val id.val = some g → (s.coll.slots.get (slotOfCtx g d.val inst.toNat)).inst = inst → (s.coll.slots.get (slotOfCtx g d.val inst.toNat)).isOpen = true → (s.coll.slots.get (slotOfCtx g d.val inst.toNat)).openedAt + gTimeout g.record ≤ nowNs s →
    exec (.instanceTimeout d id inst) s = .next (timeoutHere d.val g inst.toNat s)) ∧
  (∀ (s : State) (d : DieIx) (c : Fin 4096) (g : Group) (r : Retained), dieUp s d.val = true → clocksRun s = true → (s.coll.ctx.get (ctxKey d.val c.val)).state = .sending → cellsGone s (ctxKey d.val c.val) = true → (s.coll.ctx.get (ctxKey d.val c.val)).commitDue = false → commitReady s (ctxKey d.val c.val) = false → groupOfCtx s (ctxKey d.val c.val) = some g → (s.coll.ctx.get (ctxKey d.val c.val)).sent = some r → r.dests ≠ [] →
    exec (.resultSendComplete d c) s = .next (chunkEnds g d.val (s.coll.ctx.get (ctxKey d.val c.val)).inst.toNat (s.coll.ctx.get (ctxKey d.val c.val)).chunk true
        (freeCtx (ctxKey d.val c.val) (retain d.val { r with time := nowNs s % 2 ^ 32 } s)))) ∧
  (∀ (s : State) (d : DieIx), dieUp s d.val = true → clocksRun s = true →
    exec (.retentionExpire d) s = .next { s with coll := { s.coll with
        retained := s.coll.retained.modify d.val (·.filter fun y => !retainedOut s d.val y) } }) ∧
  (∀ (s : State) (d : DieIx) (id : Fin 65536) (chunk k : Nat), dieUp s d.val = true → clocksRun s = true → s.coll.residHolder.get (residKey d.val id.val chunk) = none → nextWaiter s (s.coll.residWait.get (residKey d.val id.val chunk)) = some k →
    exec (.residualLockGrant d id chunk) s = .next { s with coll := { s.coll with
        residHolder := s.coll.residHolder.set (residKey d.val id.val chunk) (some k)
        residWait := s.coll.residWait.modify (residKey d.val id.val chunk) (·.filter (· != k)) } })

/-- A cell fires, a token crosses its links, and the edge units take and give tokens (07 R226 to R244). Clause by clause:
the hypotheses name a case of `cellFire`, `tokenLinkCrossing`, `streamIngressDeliver`, `decodeToken`, `encodeCmd`,
`streamEgressLast`, the conclusion says that the command answers a next state and what that state holds. Corners the
manual leaves open are the model's choice: log 116, 118, 119. -/
def Obligations.CellsAndTokens : Prop :=
  (∀ (s s' : State) (d : DieIx) (tl : TileIx) (r : Fin 8) (c : Fin 16) (h lt tr pc : Nat) (i : Image) (b : Bytes) (heads : List (Option Token)) (f : Firing), runningOn s d.val tl.val = some (h, i, lt) → atPosition (cellRecords i.bytes) lt r.val c.val = some b → (heads = (upTo 4).map (fun p => (s.fabric.links.get (cellKey d.val tl.val r.val c.val * 24 + 20 + p)).head?)) → (((upTo 8).map (triggerOf b)).find? (fun t => eligible s (cellKey d.val tl.val r.val c.val) t heads (s.fabric.cells.get (cellKey d.val tl.val r.val c.val))) = some tr) → (s.fabric.cells.get (cellKey d.val tl.val r.val c.val)).parityBad = false → (runBlock d.val b heads (bits tr 30 27) (bits tr 22 19) 32 (bits tr 4 0) ⟨{ s.fabric.cells.get (cellKey d.val tl.val r.val c.val) with tag := (((upTo 4).find? (bit (bits tr 30 27))).bind fun p => (heads.getD p none).map (·.tag)).getD 0 }, [], none⟩ s = (pc, f, s')) → f.fault = none →
    Answers (.cellFire d tl r c) s fun t => t.fabric.cells = s'.fabric.cells.set (cellKey d.val tl.val r.val c.val) f.regs ∧
      t.fabric.links = f.sent.foldl (fun (l : Tab (List Token)) (y : Nat × Token) => l.modify (cellKey d.val tl.val r.val c.val * 24 + 16 + y.1) (· ++ [y.2]))
        ((upTo 4).foldl (fun (l : Tab (List Token)) p => if bit (bits tr 26 23) p then l.modify (cellKey d.val tl.val r.val c.val * 24 + 20 + p) (·.drop 1) else l) s'.fabric.links) ∧
      t.fabric.progressAt = s'.fabric.progressAt.set (imgKey d.val h) (nowNs s') ∧ t.coll = s'.coll ∧ t.mem = s'.mem) ∧
  (∀ (s : State) (d : DieIx) (tl : TileIx) (r : Fin 8) (c : Fin 16) (o : Fin 20) (h lt : Nat) (i : Image) (t : Token) (l : List Token), runningOn s d.val tl.val = some (h, i, lt) → selectOf i.bytes lt r.val c.val o.val < 20 → srcTokens s d.val tl.val r.val c.val (selectOf i.bytes lt r.val c.val o.val) = t :: l → ((((upTo 20).filter fun k => selectOf i.bytes lt r.val c.val k == selectOf i.bytes lt r.val c.val o.val).map (hopOf i tl.val lt r.val c.val)).all (hopRoom s d.val tl.val) = true) →
    exec (.tokenLinkCrossing d tl r c o) s = .next ((((upTo 20).filter fun k => selectOf i.bytes lt r.val c.val k == selectOf i.bytes lt r.val c.val o.val).map
        (hopOf i tl.val lt r.val c.val)).foldl (hopPut d.val tl.val t) (setSrc d.val tl.val r.val c.val (selectOf i.bytes lt r.val c.val o.val) l s))) ∧
  (∀ (s : State) (d : DieIx) (tl : TileIx) (p : Fin 4) (h lt k j : Nat) (i : Image) (f : Bytes) (l : List (Nat × Bytes)) (g : Machine.Group), runningOn s d.val tl.val = some (h, i, lt) → unitHead s d.val tl.val (uSI p.val) = none → ((s.fabric.retiring.any fun x => x.1 == d.val && (imageOn s d.val x.2.1).any fun y => y.1 == h) = false) → ((s.coll.deliver.get d.val).find? (fun k => onIngress i lt p.val k && !s.switch.ctxSpilled.get k && (match groupOfCtx s k with | some g => g.image == h | none => false)) = some k) → (s.coll.ctx.get k).staged = (j, f) :: l → groupOfCtx s k = some g → i.library = none → s.fabric.edgeOut.get (unitKey d.val tl.val (uSI p.val)) = [] → opRows (gOp g.record) = false → unitRouted i lt (uSI p.val) = true → ((popStaged d.val k l s).coll.ctx.get k).doneDue = false →
    Answers (.streamIngressDeliver d tl p) s fun t => t.coll = (popStaged d.val k l s).coll ∧
      t.fabric.edgeOut = s.fabric.edgeOut.set (unitKey d.val tl.val (uSI p.val))
        (headToken k g j f ((s.coll.ctx.get k).arrived.head? == some j) :: packedTokens (BitVec.ofNat 16 (k % 4096)) (cPayload f 0)) ∧ t.mem = s.mem) ∧
  (∀ (s : State) (d : DieIx) (tl : TileIx) (p : Fin 4) (h lt k : Nat) (i : Image) (t : Token) (g : Machine.Group), runningOn s d.val tl.val = some (h, i, lt) → (unitWork s d.val tl.val (uDU p.val)).queue = [] → unitHead s d.val tl.val (uDU p.val) = some t → tagCtx s d.val h t.tag = some (k, g) → t.kind = 1 →
    Answers (.decodeToken d tl p) s fun x =>
      x.fabric.du = s.fabric.du.set (duKey d.val tl.val (uDU p.val) (t.tag.toNat % 4096))
        ⟨lane t 2 % 256, lane t 1, lane t 0 % 256, 0, 0, [], !isNumeric (lane t 2 % 256), []⟩ ∧
      x.fabric.edgeIn = s.fabric.edgeIn.modify (unitKey d.val tl.val (uDU p.val)) (·.drop 1) ∧ x.coll = s.coll ∧ x.mem = s.mem) ∧
  (∀ (s : State) (d : DieIx) (tl : TileIx) (p : Fin 4) (h lt k : Nat) (i : Image) (t : Token) (g : Machine.Group), runningOn s d.val tl.val = some (h, i, lt) → (unitWork s d.val tl.val (uEU p.val)).queue = [] → (unitWork s d.val tl.val (uEU p.val)).busy = false → unitHead s d.val tl.val (uEU p.val) = some t → tagCtx s d.val h t.tag = some (k, g) → t.kind = 4 →
    exec (.encodeCmd d tl p) s = .next (unitDrain d.val tl.val (uEU p.val) h (unitRouted i lt (uEU p.val)) (progress d.val h
        (onWork d.val tl.val (uEU p.val) (fun x => { x with busy := true, dead := false, cmd := t, half := [], blocks := 0, bytes := 0, left := [], queue := [natToken 1 t.tag [0, 32 * lane t 15, 32 * lane t 15, 0]] }) (unitTake d.val tl.val (uEU p.val) s))))) ∧
  (∀ (s : State) (d : DieIx) (tl : TileIx) (p : Fin 4) (h lt k : Nat) (i : Image) (t : Token) (g : Machine.Group), runningOn s d.val tl.val = some (h, i, lt) → i.library = none → (unitWork s d.val tl.val (uSE p.val)).busy = true → unitHead s d.val tl.val (uSE p.val) = some t → tagCtx s d.val h t.tag = some (k, g) → t.kind = 2 → lane t 0 ≤ 16384 →
    exec (.streamEgressLast d tl p) s = .next (progress d.val h (egressResult k g (unitWork s d.val tl.val (uSE p.val)).cmd
        (padTo (lane t 0) (unitWork s d.val tl.val (uSE p.val)).left) (onWork d.val tl.val (uSE p.val) (fun x => { x with busy := false, left := [] })
          (unitTake d.val tl.val (uSE p.val) s))))) ∧
  (∀ (s : State) (d : DieIx) (tl : TileIx) (p : Fin 4) (h lt : Nat) (i : Image) (t : Token), runningOn s d.val tl.val = some (h, i, lt) → unitHead s d.val tl.val (uSI p.val) = some t →
    exec (.streamIngressDeliver d tl p) s = .next (unitFault d.val tl.val h 6 s))

/-- The four commands of a context port and the DATA tokens of WRITE and ACC (07 R242, 06 R201, R202). Clause by clause:
the hypotheses name a case of `cpRead`, `cpReadf`, `cpWrite`, `cpAcc`, `walkRequest`, `retrieverAccessComplete`, the
conclusion says that the command answers a next state and what that state holds. Corners the manual leaves open are
the model's choice: log 117, 118. -/
def Obligations.ContextPortsAndWalks : Prop :=
  (∀ (s : State) (d : DieIx) (tl : TileIx) (p : Fin 4) (h lt k : Nat) (i : Image) (t : Token) (g : Machine.Group), runningOn s d.val tl.val = some (h, i, lt) → (unitWork s d.val tl.val (uCP p.val)).queue = [] → (unitWork s d.val tl.val (uCP p.val)).busy = false → unitHead s d.val tl.val (uCP p.val) = some t → tagCtx s d.val h t.tag = some (k, g) → t.kind = 4 → lane t 0 = 0 → (lane t 2 = 0 ∨ 16 * (lane t 1 + lane t 2 - 1) < gElems g.record) → ((s.coll.ctx.get k).state ≠ .computing ∨ shadowAgrees g (s.coll.ctx.get k) = true) →
    exec (.cpRead d tl p) s = .next (unitDrain d.val tl.val (uCP p.val) h (unitRouted i lt (uCP p.val)) (progress d.val h
        (onWork d.val tl.val (uCP p.val) (fun x => { x with cmd := t, queue := cpStream k g 0 (lane t 1) (lane t 2) t.tag s })
          (unitTake d.val tl.val (uCP p.val) s))))) ∧
  (∀ (s : State) (d : DieIx) (tl : TileIx) (p : Fin 4) (h lt k : Nat) (i : Image) (t : Token) (g : Machine.Group), runningOn s d.val tl.val = some (h, i, lt) → (unitWork s d.val tl.val (uCP p.val)).queue = [] → (unitWork s d.val tl.val (uCP p.val)).busy = false → unitHead s d.val tl.val (uCP p.val) = some t → tagCtx s d.val h t.tag = some (k, g) → t.kind = 4 → lane t 0 = 3 → (lane t 2 = 0 ∨ 16 * (lane t 1 + lane t 2 - 1) < gElems g.record) → ((s.coll.ctx.get k).state ≠ .computing ∨ shadowAgrees g (s.coll.ctx.get k) = true) →
    exec (.cpReadf d tl p) s = .next (unitDrain d.val tl.val (uCP p.val) h (unitRouted i lt (uCP p.val)) (progress d.val h
        (onWork d.val tl.val (uCP p.val) (fun x => { x with cmd := t, queue := cpStream k g 3 (lane t 1) (lane t 2) t.tag s })
          (unitTake d.val tl.val (uCP p.val) s))))) ∧
  (∀ (s : State) (d : DieIx) (tl : TileIx) (p : Fin 4) (h lt k : Nat) (i : Image) (t : Token) (g : Machine.Group), runningOn s d.val tl.val = some (h, i, lt) → (unitWork s d.val tl.val (uCP p.val)).queue = [] → (unitWork s d.val tl.val (uCP p.val)).busy = false → unitHead s d.val tl.val (uCP p.val) = some t → tagCtx s d.val h t.tag = some (k, g) → t.kind = 4 → lane t 0 = 1 → (lane t 2 = 0 ∨ 16 * (lane t 1 + lane t 2 - 1) < gElems g.record) →
    exec (.cpWrite d tl p) s = .next (progress d.val h (onWork d.val tl.val (uCP p.val)
        (fun x => { x with cmd := t, busy := decide (0 < lane t 2), blocks := 0 }) (unitTake d.val tl.val (uCP p.val) s)))) ∧
  (∀ (s : State) (d : DieIx) (tl : TileIx) (p : Fin 4) (h lt k k' : Nat) (i : Image) (tk : Token) (g g' : Machine.Group), runningOn s d.val tl.val = some (h, i, lt) → (unitWork s d.val tl.val (uCP p.val)).queue = [] → (unitWork s d.val tl.val (uCP p.val)).busy = true → unitHead s d.val tl.val (uCP p.val) = some tk → tagCtx s d.val h tk.tag = some (k, g) → tk.kind = 0 → lane (unitWork s d.val tl.val (uCP p.val)).cmd 0 = 1 → tagCtx s d.val h (unitWork s d.val tl.val (uCP p.val)).cmd.tag = some (k', g') →
    exec (.cpWrite d tl p) s = .next (progress d.val h (accumulate k' g' (true)
        (16 * (lane (unitWork s d.val tl.val (uCP p.val)).cmd 1 + (unitWork s d.val tl.val (uCP p.val)).blocks)) tk.data (onWork d.val tl.val (uCP p.val)
        (fun x => { x with blocks := x.blocks + 1, busy := decide (x.blocks + 1 < lane (unitWork s d.val tl.val (uCP p.val)).cmd 2) }) (unitTake d.val tl.val (uCP p.val) s))))) ∧
  (∀ (s : State) (d : DieIx) (tl : TileIx) (p : Fin 4) (h lt k : Nat) (i : Image) (t : Token) (g : Machine.Group), runningOn s d.val tl.val = some (h, i, lt) → (unitWork s d.val tl.val (uCP p.val)).queue = [] → (unitWork s d.val tl.val (uCP p.val)).busy = false → unitHead s d.val tl.val (uCP p.val) = some t → tagCtx s d.val h t.tag = some (k, g) → t.kind = 4 → lane t 0 = 2 → (lane t 2 = 0 ∨ 16 * (lane t 1 + lane t 2 - 1) < gElems g.record) →
    exec (.cpAcc d tl p) s = .next (progress d.val h (onWork d.val tl.val (uCP p.val)
        (fun x => { x with cmd := t, busy := decide (0 < lane t 2), blocks := 0 }) (unitTake d.val tl.val (uCP p.val) s)))) ∧
  (∀ (s : State) (d : DieIx) (tl : TileIx) (p : Fin 4) (h lt k k' : Nat) (i : Image) (tk : Token) (g g' : Machine.Group), runningOn s d.val tl.val = some (h, i, lt) → (unitWork s d.val tl.val (uCP p.val)).queue = [] → (unitWork s d.val tl.val (uCP p.val)).busy = true → unitHead s d.val tl.val (uCP p.val) = some tk → tagCtx s d.val h tk.tag = some (k, g) → tk.kind = 0 → lane (unitWork s d.val tl.val (uCP p.val)).cmd 0 = 2 → tagCtx s d.val h (unitWork s d.val tl.val (uCP p.val)).cmd.tag = some (k', g') →
    exec (.cpAcc d tl p) s = .next (progress d.val h (accumulate k' g' (bit (lane (unitWork s d.val tl.val (uCP p.val)).cmd 3) 0)
        (16 * (lane (unitWork s d.val tl.val (uCP p.val)).cmd 1 + (unitWork s d.val tl.val (uCP p.val)).blocks)) tk.data (onWork d.val tl.val (uCP p.val)
        (fun x => { x with blocks := x.blocks + 1, busy := decide (x.blocks + 1 < lane (unitWork s d.val tl.val (uCP p.val)).cmd 2) }) (unitTake d.val tl.val (uCP p.val) s))))) ∧
  (∀ (s s' : State) (d : DieIx) (tl : TileIx) (p : Fin 8) (h lt k n : Nat) (i : Image) (t : Token) (g : Machine.Group), runningOn s d.val tl.val = some (h, i, lt) → portDrain d.val tl.val p.val h (unitRouted i lt (uRP p.val)) s = s' → (unitWork s' d.val tl.val (uRP p.val)).busy = false → unitHead s' d.val tl.val (uRP p.val) = some t → t.kind = 1 → tagCtx s' d.val h (BitVec.ofNat 16 (lane t 12 % 4096)) = some (k, g) → ((upTo 64).find? (fun n => !(threadAt s' d.val tl.val p.val n).active) = some n) →
    exec (.walkRequest d tl p) s = .next (threadRun d.val tl.val p.val n h i (progress d.val h (startThread d.val tl.val p.val n k t (unitTake d.val tl.val (uRP p.val) s'))))) ∧
  (∀ (s s' : State) (d : DieIx) (tl : TileIx) (p : Fin 8) (n : Fin 64) (h lt : Nat) (i : Image) (t t' : Thread) (g : Machine.Group), runningOn s d.val tl.val = some (h, i, lt) → t = threadAt s d.val tl.val p.val n.val → t.active = true → t.ended = false → (t.todo = [] → t.pc < 16) → (t.todo ≠ [] → 0 < responseRoom s d.val tl.val p.val n.val) → groupOfCtx s (ctxKey d.val t.ctx) = some g → (if t.todo.isEmpty then walkStep (ctxKey d.val t.ctx) g i (if (unitWork s d.val tl.val (uRP p.val)).busy && (unitWork s d.val tl.val (uRP p.val)).bytes = n.val then (unitWork s d.val tl.val (uRP p.val)).blocks else 0) (responseRoom s d.val tl.val p.val n.val) t s else readTodo (ctxKey d.val t.ctx) g (responseRoom s d.val tl.val p.val n.val) t s) = .on t' s' → t'.active = true → (runningOn (progress d.val h (onThread d.val tl.val p.val n.val (fun _ => t') s')) d.val tl.val ≠ none) →
    exec (.retrieverAccessComplete d tl p n) s = .next (portDrain d.val tl.val p.val h (unitRouted i lt (uRP p.val))
        (progress d.val h (onThread d.val tl.val p.val n.val (fun _ => t') s'))))

/-- Images staged, committed, unloaded, placed on tiles and taken off them (07 R257 to R259, R266, 14 R442). Clause by
clause: the hypotheses name a case of `imageStageData`, `imageCommit`, `imageUnload`, `imagePlace`, `imageUnplace`,
the conclusion says that the command answers a next state and what that state holds. Corners the manual leaves open
are the model's choice: log 51, 52, 121, 122. -/
def Obligations.ImageResidency : Prop :=
  (∀ (s : State) (r : Role) (b : Bytes), Permitted r 0x0B0001 2 s → b.length ≤ 1024 →
    exec (.imageStageData r b) s = .next (answer stDone { s with mem := memPut s.mem (imgStageAddr s.fabric.stageOffset) (b ++ List.replicate (1024 - b.length) 0), fabric := { s.fabric with stageOffset := s.fabric.stageOffset + b.length, stageLen := max s.fabric.stageLen (s.fabric.stageOffset + b.length) } })) ∧
  (∀ (s : State) (r : Role) (v : Byte) (b : Bytes), Permitted r 0x0B0001 3 s → leNat (memBytes s.mem (imgStageAddr 8) 4) ≤ 2097152 → s.fabric.stageLen ≤ 2097152 → b = memBytes s.mem (imgStageAddr 0) (min s.fabric.stageLen (leNat (memBytes s.mem (imgStageAddr 8) 4))) → commitCheck s b = imDone →
    Answers (.imageCommit r v) s fun t => t.fabric.images = s.fabric.images.set (freeHandle s) (some (imageOf b none)) ∧
      t.fabric.commitResult = freeHandle s ∧ t.fabric.stageLen = 0 ∧ t.fabric.placed = s.fabric.placed ∧
      t.keeper.meas = s.keeper.meas.set 4 (sha256 (s.keeper.meas.get 4 ++ slice b 48 32)) ∧ t.bop.answer = stDone ∧ t.mem = s.mem) ∧
  (∀ (s : State) (r : Role) (h : Byte), Permitted r 0x0B0002 1 s → imageAt s h.toNat ≠ none → placedAnywhere s h.toNat = false →
    Answers (.imageUnload r h) s fun t => t.fabric = { s.fabric with
        images := s.fabric.images.set h.toNat none, faultRec := s.fabric.faultRec.set h.toNat [], commitResult := h.toNat
        library := ⟨s.fabric.library.dflt, s.fabric.library.cells.filter fun c => c.2 != h.toNat⟩ } ∧ t.bop.answer = stDone ∧ t.mem = s.mem) ∧
  (∀ (s : State) (r : Role) (h a : Byte) (m : BitVec 8) (i : Image), Permitted r 0x0B0003 1 s → imageAt s h.toNat = some i → ((diesOf m.toNat).all (fun d => tilesFree s d h.toNat a.toNat i.tiles) = true) → ((diesOf m.toNat).all (fun d => (scratchAt s d i).isSome) = true) →
    exec (.imagePlace r h m a) s = .next (setPlaceResult imDone 0 ((diesOf m.toNat).foldl (placeOn h.toNat a.toNat i) (answer stDone s)))) ∧
  (∀ (s : State) (r : Role) (h : Byte) (m : BitVec 8), Permitted r 0x0B0003 2 s → imageAt s h.toNat ≠ none → imageBound s h.toNat = false →
    exec (.imageUnplace r h m) s = .next (setPlaceResult imDone 0 ((diesOf m.toNat).foldl (unplaceOn h.toNat) (answer stDone s))))

/-- Faults of an image, the stall watch, resuming, spare cells and their modes (07 R260 to R265, 14 R441, R442, 18 R536).
Clause by clause: the hypotheses name a case of `imageFault`, `stallWatch`, `imageResume`, `imageRestart`,
`collRecoveryMode`, `cellRetire`, `spareSwitch`, `spareMode`, the conclusion says that the command answers a next
state and what that state holds. Corners the manual leaves open are the model's choice: log 120, 122, 165. -/
def Obligations.ImagesThatFault : Prop :=
  (∀ (s : State) (d : DieIx) (tl : TileIx) (r : Fin 8) (c : Fin 16) (cause addr h lt : Nat) (i : Image), runningOn s d.val tl.val = some (h, i, lt) →
    exec (.imageFault d tl r c cause addr) s = .next (faultImage d.val h ⟨d.val, tl.val, r.val, c.val, cause, addr, 0⟩ s)) ∧
  (∀ (s : State) (d : DieIx) (h : Nat), s.fabric.placed.get (imgKey d.val h) ≠ 0 → clocksRun s = true → dieUp s d.val = true → s.fabric.stopped.get (imgKey d.val h) = false → s.fabric.failed.get (imgKey d.val h) = false → imagePending s d.val h = true → s.fabric.progressAt.get (imgKey d.val h) + 1000000 ≤ nowNs s →
    exec (.stallWatch d h) s = .next (unitFault d.val (s.fabric.placed.get (imgKey d.val h) - 1) h 11 s)) ∧
  (∀ (s : State) (d : DieIx) (h : Nat), dieUp s d.val = true → clocksRun s = true → cfgCollRecovery s = 0 → resumable s d.val h = true →
    Answers (.imageResume d h) s fun t => t = resumeImage d.val h s ∧ t.fabric.stopped = s.fabric.stopped.set (imgKey d.val h) false ∧
      t.fabric.progressAt = s.fabric.progressAt.set (imgKey d.val h) (nowNs s) ∧ t.coll = s.coll ∧ t.mem = s.mem) ∧
  (∀ (s : State) (r : Role) (h : Byte), Permitted r 0x0B0005 1 s → imageAt s h.toNat ≠ none → cfgCollRecovery s = 1 →
    exec (.imageRestart r h) s = .next (answer stDone (((diesUp s).filter fun d => resumable s d h.toNat).foldl (fun s d => resumeImage d h.toNat s) s))) ∧
  (∀ (s : State) (r : Role), Permitted r 0x0A0001 7 s →
    exec (.collRecoveryMode r 1) s = .next (answer stDone (objSet 0x0A0001 7 1 s)) ∧
      exec (.collRecoveryMode r 0) s = .next ((upTo 512).foldl (fun s i => if resumable s (i / 64) (i % 64 + 1) then
        resumeImage (i / 64) (i % 64 + 1) s else s) (answer stDone (objSet 0x0A0001 7 0 s)))) ∧
  (∀ (s : State) (d : DieIx) (tl : TileIx) (r : Fin 8) (pos : Fin 17), dieUp s d.val = true → clocksRun s = true → tileUp s d.val tl.val = true → tilelessDies s = [] → imageOn s d.val tl.val = none → cfgSpareMode s = 0 → s.fabric.retired.get (rowKey d.val tl.val r.val) = 0 → s.fabric.spareBad.get (rowKey d.val tl.val r.val) = false → s.fabric.retiring = [] → pos ≠ 16 →
    exec (.cellRetire d tl r pos true) s = .next { s with fabric := { s.fabric with retired := s.fabric.retired.set (rowKey d.val tl.val r.val) (pos.val + 1) } }) ∧
  (∀ (s : State) (d : DieIx) (tl : TileIx) (r : Fin 8) (pos : Fin 17), dieUp s d.val = true → clocksRun s = true → tileUp s d.val tl.val = true → tilelessDies s = [] → tileQuiet s d.val tl.val = false → cfgSpareMode s = 0 → s.fabric.retired.get (rowKey d.val tl.val r.val) = 0 → s.fabric.spareBad.get (rowKey d.val tl.val r.val) = false → s.fabric.retiring = [] → pos ≠ 16 →
    exec (.cellRetire d tl r pos true) s = .next { s with fabric := { s.fabric with retiring := [(d.val, tl.val, r.val, pos.val, nowNs s + 100000)] } }) ∧
  (∀ (s : State) (d : DieIx) (tl : TileIx) (r : Fin 8) (pos : Fin 17) (n : Nat) (fails : Bool), dieUp s d.val = true → clocksRun s = true → tileUp s d.val tl.val = true → retiringAt s d.val tl.val r.val pos.val = some n → n ≤ nowNs s →
    exec (.cellRetire d tl r pos fails) s = .next (loseTileless (remapRow d.val tl.val r.val pos.val (tileQuiet s d.val tl.val) { s with fabric := { s.fabric with
        retiring := s.fabric.retiring.filter fun y => !(y.1 == d.val && y.2.1 == tl.val && y.2.2.1 == r.val && y.2.2.2.1 == pos.val) } }))) ∧
  (∀ (s : State) (d : DieIx) (tl : TileIx) (r : Fin 8) (pos : Fin 17), dieUp s d.val = true → clocksRun s = true → tileUp s d.val tl.val = true → retiringAt s d.val tl.val r.val pos.val = none → spareTaken s d.val tl.val r.val = true → s.fabric.retired.get (rowKey d.val tl.val r.val) ≠ pos.val + 1 → pos ≠ 16 →
    exec (.cellRetire d tl r pos true) s = .next (loseTileless (tileLost d.val tl.val 5 s))) ∧
  (∀ (s : State) (r : Role) (d tl w pos : Byte), Permitted r 0x0B0005 2 s → d.toNat < 8 → tl.toNat < 8 → w.toNat < 8 → pos.toNat < 17 → (d.toNat, tl.toNat, w.toNat, pos.toNat) ∈ s.fabric.spareNeeded →
    exec (.spareSwitch r d tl w pos) s = .next (loseTileless (answer stDone (retireNow d.toNat tl.toNat w.toNat pos.toNat
        { s with fabric := { s.fabric with spareNeeded := s.fabric.spareNeeded.filter (· != (d.toNat, tl.toNat, w.toNat, pos.toNat)) } })))) ∧
  (∀ (s : State) (r : Role), Permitted r 0x0B0001 5 s →
    exec (.spareMode r 1) s = .next (loseTileless (answer stDone (objSet 0x0B0001 5 1 s))) ∧
      exec (.spareMode r 0) s = .next (loseTileless (s.fabric.spareNeeded.foldl (fun s x => retireNow x.1 x.2.1 x.2.2.1 x.2.2.2 s)
        { answer stDone (objSet 0x0B0001 5 0 s) with fabric := { s.fabric with spareNeeded := [] } })))

/-- Regions created, ready, deleted, their control words, and the grant of an update lock (08 R268 to R274, R279). Clause
by clause: the hypotheses name a case of `regionCreate`, `regionReady`, `regionDelete`, `regionControlData`,
`updateLockGrant`, the conclusion says that the command answers a next state and what that state holds. Corners the
manual leaves open are the model's choice: log 26, 43, 53. -/
def Obligations.RegionRequests : Prop :=
  (∀ (s : State) (r : Role) (b : Bytes), Permitted r 0x0C0001 1 s → b.length = 24 → regionFieldsOk b = true → regionAt s (beAt b 0 2) = none → ((s.resident.regions.cells.filter fun c => c.2.isSome).length < 4096) → ((upTo 8).filter (fun d => !(partsWanted (regionOf b) d).isEmpty && !dieUp s d) = []) → (placeAll s (regionOf b)).2 = [] →
    exec (.regionCreate r b) s = .next (regionResult (beAt b 0 2) rgDone 0 { s with resident := { s.resident with
        regions := s.resident.regions.set (beAt b 0 2) (some (placeAll s (regionOf b)).1) } })) ∧
  (∀ (s : State) (h : Nat) (r : Region), clocksRun s = true → regionAt s h = some r → r.state = .initialising → r.lost = 0 →
    exec (.regionReady h) s = .next (raise 0x0C01 2 (unitOf 15 0 0) (args32 [(h : Int)]) (onRegion h (fun r => { r with state := .ready })
        (zeroMeta h r ((upTo 8).foldl (fun s d => zeroPart r d 1 (zeroPart r d 0 s)) s))))) ∧
  (∀ (s : State) (h : Nat) (r : Region), clocksRun s = true → regionAt s h = some r → r.state = .initialising → r.lost ≠ 0 →
    exec (.regionReady h) s = .next (onRegion h (fun r => { r with state := .takeover })
        (zeroMeta h r ((upTo 8).foldl (fun s d => zeroPart r d 1 (zeroPart r d 0 s)) s)))) ∧
  (∀ (s : State) (r : Role) (h : BitVec 16), Permitted r 0x0C0001 2 s → handleOk h.toNat = true → regionAt s h.toNat ≠ none → regionMoored s h.toNat = false → exporting s h.toNat = false → s.resident.importRun ≠ some h.toNat →
    exec (.regionDelete r h) s = .next (regionResult h.toNat rgDone 0 { s with resident := { s.resident with
        regions := s.resident.regions.set h.toNat none
        metas := s.resident.metas.erase fun k => k / 2 ^ 32 == h.toNat
        lockHolder := s.resident.lockHolder.erase fun k => k / 2 ^ 32 == h.toNat
        lockWait := s.resident.lockWait.erase fun k => k / 2 ^ 32 == h.toNat
        unacked := s.resident.unacked.erase fun k => k / 2 ^ 32 == h.toNat
        mirrorIn := s.resident.mirrorIn.erase fun k => k / 2 ^ 32 == h.toNat } })) ∧
  (∀ (s : State) (r : Role) (h : Nat) (b : Bytes) (x : Region), Permitted r (0x0C1000 + h) 4 s → b.length ≤ 64 → regionAt s h = some x →
    exec (.regionControlData r h b) s = .next (answer stDone ((upTo 16).foldl (fun t k => if x.parts.get k = 0 || !dieUp t (k % 8) then t else
        storeMem (memAddr (k % 8) (x.parts.get k - 1 + 64 * objGet s (0x0C1000 + h) 3 0)) (padTo 64 b) t) s))) ∧
  (∀ (s : State) (h b k : Nat), clocksRun s = true → s.resident.lockHolder.get (blockKey h b) = none → s.resident.unacked.get (blockKey h b) = false → nextWaiter s (s.resident.lockWait.get (blockKey h b)) = some k →
    exec (.updateLockGrant h b) s = .next { s with resident := { s.resident with
        lockHolder := s.resident.lockHolder.set (blockKey h b) (some k)
        lockWait := s.resident.lockWait.modify (blockKey h b) (·.filter (· != k)) } })

/-- A block committed, the mirror's words, commit and acknowledgement, the audit and the resolution (08 R281, R282, R287,
R288, R290). Clause by clause: the hypotheses name a case of `blockCommit`, `mirrorWordReceive`,
`mirrorCommitReceive`, `mirrorAck`, `mirrorAuditBlock`, `mirrorResolve`, the conclusion says that the command answers
a next state and what that state holds. Corners the manual leaves open are the model's choice: log 123, 124, 125. -/
def Obligations.MirrorProtocol : Prop :=
  (∀ (s : State) (d : DieIx) (c : Fin 4096) (g : Machine.Group) (x : Region) (m : Nat), dieUp s d.val = true → clocksRun s = true → commitReady s (ctxKey d.val c.val) = true → groupOfCtx s (ctxKey d.val c.val) = some g → regionAt s (gResident g.record) = some x → boundBlocks s g.record (s.coll.ctx.get (ctxKey d.val c.val)).chunk = [(gResident g.record, (s.coll.ctx.get (ctxKey d.val c.val)).chunk)] → x.mirrored = true → (s.coll.ctx.get (ctxKey d.val c.val)).wroteWords = x.blockBytes / 64 → tapDie x (s.coll.ctx.get (ctxKey d.val c.val)).chunk = some m →
    ∃ b y, b = (s.coll.ctx.get (ctxKey d.val c.val)).chunk ∧ y = { getMeta s (gResident g.record) b (x.mainCopy b) with
        seq := (getMeta s (gResident g.record) b (x.mainCopy b)).seq + 1, crc := (s.coll.ctx.get (ctxKey d.val c.val)).wroteCrc } ∧
      Answers (.blockCommit d c) s fun t => t.resident.unacked = s.resident.unacked.set (blockKey (gResident g.record) b) true ∧
        t.resident.toMirror = s.resident.toMirror.modify m (· ++ [.commit (gResident g.record) b y.seq y.crc (x.blockBytes / 64)]) ∧
        t.mem = memPut s.mem (x.metaAddr b (x.mainCopy b)) (metaBytes y) ∧ t.coll.ctx = s.coll.ctx.modify (ctxKey d.val c.val) (fun z => { z with commitDue := false }) ∧
        t.resident.lockHolder = (unlockBlock (ctxKey d.val c.val) (blockKey (gResident g.record) b) s).resident.lockHolder) ∧
  (∀ (s : State) (d : DieIx) (h b w seq : Nat) (data : Bytes) (l : List MirrorMsg) (x : Region), dieUp s d.val = true → clocksRun s = true → s.resident.toMirror.get d.val = .word h b w seq data :: l → regionAt s h = some x → (s.resident.mirrorIn.get (blockKey h b)).seq = seq →
    Answers (.mirrorWordReceive d) s fun t => t.resident.toMirror = s.resident.toMirror.set d.val l ∧
      t.resident.mirrorIn = s.resident.mirrorIn.set (blockKey h b) ⟨seq, (s.resident.mirrorIn.get (blockKey h b)).crc ^^^
        BitVec.ofNat 32 (crc32cStd (beBytes 4 w ++ data)), (s.resident.mirrorIn.get (blockKey h b)).words + 1⟩ ∧
      t.mem = memPut s.mem (x.addr b 1 + 64 * w) data ∧ t.regs = s.regs) ∧
  (∀ (s : State) (d : DieIx) (h b seq words : Nat) (crc : Word) (l : List MirrorMsg) (x : Region), dieUp s d.val = true → clocksRun s = true → s.resident.toMirror.get d.val = .commit h b seq crc words :: l → regionAt s h = some x → x.mirrored = true → s.resident.mirrorIn.get (blockKey h b) = ⟨seq, crc, words⟩ →
    Answers (.mirrorCommitReceive d) s fun t => t.resident.toMirror = (s.resident.toMirror.set d.val l).modify (x.dieOf b) (· ++ [.ack h b true]) ∧
      t.mem = memPut s.mem (x.metaAddr b 1) (metaBytes ⟨seq, crc, false, 0⟩) ∧ t.resident.mirrorIn = s.resident.mirrorIn.set (blockKey h b) s.resident.mirrorIn.dflt) ∧
  (∀ (s : State) (d : DieIx) (h b : Nat) (l : List MirrorMsg) (x : Region), dieUp s d.val = true → clocksRun s = true → s.resident.toMirror.get d.val = .ack h b true :: l → regionAt s h = some x →
    exec (.mirrorAck d) s = .next { s with resident := { s.resident with
        toMirror := s.resident.toMirror.set d.val l, unacked := s.resident.unacked.set (blockKey h b) false } }) ∧
  (∀ (s : State) (d : DieIx) (h b : Nat) (l : List MirrorMsg) (x : Region), dieUp s d.val = true → clocksRun s = true → s.resident.toMirror.get d.val = .ack h b false :: l → regionAt s h = some x →
    Answers (.mirrorAck d) s fun t => t.resident.unacked = s.resident.unacked ∧ t.regs = (count d.val 0x7000 0 1 s).regs ∧ t.coll = s.coll) ∧
  (∀ (s : State) (h b : Nat) (p m : Bool) (x : Region), clocksRun s = true → regionAt s h = some x → x.mirrored = true → b < x.blocks → x.state ≠ .initialising → cfgAuditRate s ≠ 0 → lockHeld s h b = false → x.hasCopy b 0 = true → x.hasCopy b 1 = true → dieUp s (x.dieOf b) = true →
    exec (.mirrorAuditBlock h b p m) s = .next (compareCopies h x b (p && copyValid s h x b 0) (m && copyValid s h x b 1) s)) ∧
  (∀ (s : State) (r : Role) (h : BitVec 16) (b : Word) (src : Byte) (x : Region), Permitted r 0x0C0005 1 s → handleOk h.toNat = true → src.toNat ≤ 1 → regionAt s h.toNat = some x → x.mirrored = true → b.toNat < x.blocks → x.hasCopy b.toNat 0 = true → x.hasCopy b.toNat 1 = true → lockHeld s h.toNat b.toNat = false →
    ∃ m : Meta, m = ⟨max (getMeta s h.toNat b.toNat 0).seq (getMeta s h.toNat b.toNat 1).seq + 1, blockCrc (copyBytes s x b.toNat src.toNat), false, 0⟩ ∧
      exec (.mirrorResolve r h b src) s = .next (regionResult h.toNat rgDone 0 (setMeta h.toNat b.toNat src.toNat m (copyOver h.toNat x b.toNat src.toNat m s))))

/-- Export and import of regions, and the end of a takeover (08 R292 to R296). Clause by clause: the hypotheses name a
case of `exportStart`, `exportBlock`, `importOpen`, `importFrame`, `importClose`, `takeoverComplete`, the conclusion
says that the command answers a next state and what that state holds. Corners the manual leaves open are the model's
choice: log 60, 126, 127, 164. -/
def Obligations.RegionTransfers : Prop :=
  (∀ (s : State) (r : Role) (h : BitVec 16) (f n : Word) (dest : BitVec 16) (c : Byte) (x : Region), Permitted r 0x0C0006 1 s → handleOk h.toNat = true → c.toNat ≤ 7 → regionAt s h.toNat = some x → f.toNat + n.toNat ≤ x.blocks → s.resident.exportRun = none → n.toNat ≠ 0 → x.state ≠ .initialising →
    exec (.exportStart r h f n dest c) s = .next (regionResult h.toNat rgDone 0 { s with resident := { s.resident with
        exportRun := some (h.toNat, f.toNat, n.toNat, dest.toNat, c.toNat), exportNext := .empty f.toNat, exportSent := 0, exportSuspect := 0, exportStatus := rgDone } })) ∧
  (∀ (s : State) (d : DieIx) (h f n dest c b : Nat) (x : Region), dieUp s d.val = true → clocksRun s = true → s.resident.exportRun = some (h, f, n, dest, c) → regionAt s h = some x → nextOn x d.val (f + n - s.resident.exportNext.get d.val) (s.resident.exportNext.get d.val) = some b → lockHeld s h b = false → memBad s (x.addr b (x.mainCopy b)) x.blockBytes = false →
    Answers (.exportBlock d none) s fun t => t.resident.exportNext = s.resident.exportNext.set d.val (b + 1) ∧
      t.resident.exportSent = s.resident.exportSent + 1 ∧ t.resident.exportSuspect = s.resident.exportSuspect + (if isSuspect s h b then 1 else 0) ∧ t.mem = s.mem) ∧
  (∀ (s : State) (r : Role) (h : BitVec 16) (x : Region), Permitted r 0x0C0007 1 s → handleOk h.toNat = true → regionAt s h.toNat = some x → regionMoored s h.toNat = false → s.resident.exportRun = none → s.resident.importRun = none → x.state ≠ .initialising → x.state ≠ .takeover →
    exec (.importOpen r h) s = .next (regionResult h.toNat rgDone 0 { s with resident := { s.resident with
        regions := s.resident.regions.modify h.toNat (·.map fun r => { r with state := .importing }), importRun := some h.toNat, importWords := .empty []
        importHandle := h.toNat, importBlocks := 0, importDrop := 0, importLeft := 0 } })) ∧
  (∀ (s : State) (b : Bytes) (h : Nat) (p : BlockPart) (x : Region), keeperUp s = true → s.resident.importRun = some h → partOf b = some p → regionAt s h = some x → p.handle = h → partFits x p = true → x.hasCopy p.block 0 = true → x.hasCopy p.block 1 = false → (s.resident.importWords.get p.block).length = x.blockBytes / 64 →
    Answers (.importFrame b) s fun t => t.mem = memPut s.mem (x.addr p.block 0 + 64 * p.word) p.payload ∧ t.resident.importDrop = s.resident.importDrop ∧
      t.resident.regions = s.resident.regions ∧ t.coll = s.coll) ∧
  (∀ (s : State) (r : Role) (h : BitVec 16) (x : Region), Permitted r 0x0C0007 2 s → s.resident.importRun = some h.toNat → regionAt s h.toNat = some x → x.state = .importing → s.resident.importWords = .empty [] →
    exec (.importClose r h) s = .next (answer stDone { s with resident := { s.resident with
        regions := s.resident.regions.modify h.toNat (·.map fun r => { r with state := r.closedState }), importRun := none, importWords := .empty [], importLeft := 0 } })) ∧
  (∀ (s : State) (h : Nat) (x : Region), clocksRun s = true → regionAt s h = some x → x.state = .takeover →
    exec (.takeoverComplete h) s = .next (raise 0x0C02 0 (unitOf 15 0 0) (args32 [(h : Int), (x.lastLost : Int)])
        (onRegion h (fun r => { r with state := .unprotected, unchecked := 0 }) ((upTo x.blocks).foldl (takeoverBlock h) s))))

/-- The loop of a ring, its acquisition, the beacon checks, the set point and the seek commands (09 R309 to R313, R320, 14
R442). Clause by clause: the hypotheses name a case of `ringLoopTick`, `ringAcquireDone`, `beaconCheckStart`,
`beaconCheckComplete`, `setpointStore`, `ringSeek`, `ringLockMode`, the conclusion says that the command answers a
next state and what that state holds. Corners the manual leaves open are the model's choice: log 32, 33, 128. -/
def Obligations.RingsAndBeacons : Prop :=
  (∀ (s : State) (g : RingId) (v : RingSight), ringsAct s (ringDie g) = true → (ringOf s (ringKey g)).state = .seek → (ringOf s (ringKey g)).held = false → (ringOf s (ringKey g)).fresh = false → v.resonance = true →
    exec (.ringLoopTick g v) s = .next (onRing (ringKey g) (fun r => { r with state := .acquire, inRangeNs := 0 }) s)) ∧
  (∀ (s : State) (g : RingId) (v : RingSight), ringsAct s (ringDie g) = true → (ringOf s (ringKey g)).state = .seek → (ringOf s (ringKey g)).held = false → (ringOf s (ringKey g)).fresh = false → v.resonance = false → (ringOf s (ringKey g)).heater + 50 < 6000 →
    exec (.ringLoopTick g v) s = .next (onRing (ringKey g) (fun r => { r with heater := (ringOf s (ringKey g)).heater + 50 }) s)) ∧
  (∀ (s : State) (g : RingId) (v : RingSight), ringsAct s (ringDie g) = true → (ringOf s (ringKey g)).state = .seek → (ringOf s (ringKey g)).held = false → (ringOf s (ringKey g)).fresh = true →
    exec (.ringLoopTick g v) s = .next (onRing (ringKey g) (fun r => { r with heater := seekStart s r r.startAs v.temp, fresh := false }) s)) ∧
  (∀ (s : State) (g : RingId) (v : RingSight), ringsAct s (ringDie g) = true → (ringOf s (ringKey g)).state = .acquire → v.inRange = true → 200000 ≤ (ringOf s (ringKey g)).inRangeNs →
    exec (.ringAcquireDone g v) s = .next (onRing (ringKey g) (fun r => { r with state := .verify, checkAt := some (nowNs s) }) s)) ∧
  (∀ (s : State) (g : RingId), ringsAct s (ringDie g) = true → (ringOf s (ringKey g)).state = .locked → (ringOf s (ringKey g)).checkAt = none → (ringOf s (ringKey g)).checkedAt + 100000000 ≤ nowNs s →
    exec (.beaconCheckStart g) s = .next (onRing (ringKey g) (fun r => { r with checkAt := some (nowNs s) }) s)) ∧
  (∀ (s : State) (p : FibreIx) (k : Fin 9) (t : Nat) (tones : List Nat) (v : RingSight), ringsAct s (portDie p.val) = true → ((ringOf s (txRingKey p.val k.val)).state = .verify ∨ (ringOf s (txRingKey p.val k.val)).state = .locked) → (ringOf s (txRingKey p.val k.val)).checkAt = some t → t + 1000000 ≤ nowNs s → beaconResult k.val tones = .match_ →
    Answers (.beaconCheckComplete (.txPort p k) tones v) s fun z => ∃ x : State, z = ringFollowed (.txPort p k) x ∧
      x.optics.rings = (s.optics.rings.modify (txRingKey p.val k.val) (fun r => { r with checkAt := none })).modify (txRingKey p.val k.val) (fun r => { r with
        state := .locked, mismatches := 0, checkedAt := nowNs s, storedAt := if r.state = .locked then r.storedAt else nowNs s, first := false, sp := if r.first then r.heater else r.sp, spTemp := if r.first then v.temp else r.spTemp })) ∧
  (∀ (s : State) (g : RingId) (temp : Int), ringsAct s (ringDie g) = true → (ringOf s (ringKey g)).state = .locked → (ringOf s (ringKey g)).storedAt + 1000000000 ≤ nowNs s →
    exec (.setpointStore g temp) s = .next (onRing (ringKey g) (fun r => { r with sp := r.heater, spTemp := temp, points := r.points ++ [(temp, r.heater)], tcoef := refit (r.points ++ [(temp, r.heater)]) r.tcoef, storedAt := nowNs s }) s)) ∧
  (∀ (s : State) (r : Role) (p : FibreIx) (rx : Bool) (k : Fin 9) (start : Nat), Permitted r (0x040500 + p.val) 1 s → start ≤ 6000 → (ringOf s (if rx then rxRingKey p.val k.val else txRingKey p.val k.val)).state = .seek → (ringOf s (if rx then rxRingKey p.val k.val else txRingKey p.val k.val)).held = true → ((upTo 8).find? (fun l => (if rx then rxSlotOf s p.val l else txSlotOf s p.val l) == k.val) = none) →
    exec (.ringSeek r p rx k start) s = .next (onRing (if rx then rxRingKey p.val k.val else txRingKey p.val k.val) (fun r => { r with
        state := .seek, heater := start, held := false, fresh := false, restarted := false, inRangeNs := 0, checkAt := none, mismatches := 0 })
        (answer stDone { s with optics := { s.optics with notices := s.optics.notices.filter (·.1 != (if rx then rxRingKey p.val k.val else txRingKey p.val k.val)) } }))) ∧
  (∀ (s : State) (r : Role), Permitted r 0x040001 1 s →
    exec (.ringLockMode r 1) s = .next (answer stDone (objSet 0x040001 1 1 s)) ∧
      exec (.ringLockMode r 0) s = .next (releaseRings (answer stDone (objSet 0x040001 1 0 s))))

/-- Lanes that train, fail and are tried again, and the control blocks and messages they send (09 R304, R316 to R322, 03
R76). Clause by clause: the hypotheses name a case of `laneSignalOk`, `trainLcbSend`, `markerSend`,
`laneTrainTimeout`, `laneFaultRetry`, `lcbSend`, `lcmResend`, `laneFailsAbruptly`, the conclusion says that the
command answers a next state and what that state holds. Corners the manual leaves open are the model's choice: log 34,
128, 129. -/
def Obligations.LaneTraining : Prop :=
  (∀ (s : State) (p : FibreIx) (l : LaneIx) (n : Nat), lanesAct s p.val = true → (laneAt s p.val l.val).state = .signal → 1000000 ≤ n →
    exec (.laneSignalOk p l n) s = .next (onLane p.val l.val (fun x => { x with state := .train, rxOk := true, enteredAt := nowNs s }) s)) ∧
  (∀ (s : State) (p : FibreIx) (l : LaneIx), lanesAct s p.val = true → (laneAt s p.val l.val).state ∉ [LaneState.dark, .service, .loop, .fault] → ringLocked s (txRingKey p.val (txSlotOf s p.val l.val)) = true → (laneAt s p.val l.val).trainAt + 1000 ≤ nowNs s →
    exec (.trainLcbSend p l) s = .next (dueBlock p.val l.val 3 0 0 0 (onLane p.val l.val (fun x => { x with trainAt := nowNs s }) s))) ∧
  (∀ (s : State) (p : FibreIx) (l : LaneIx), lanesAct s p.val = true → (laneAt s p.val l.val).state = .service → (laneAt s p.val l.val).markerAt + 100000 ≤ nowNs s →
    exec (.markerSend p l) s = .next (leaveDone p.val l.val (dueBlock p.val l.val 4 0 0 0 (onLane p.val l.val (fun x => { x with markerAt := nowNs s }) s)))) ∧
  (∀ (s : State) (p : FibreIx) (l : LaneIx), lanesAct s p.val = true → (laneAt s p.val l.val).state ∈ [LaneState.locking, .signal, .train, .margin] → (laneAt s p.val l.val).lockingAt + 500000000 ≤ nowNs s →
    exec (.laneTrainTimeout p l) s = .next (onLane p.val l.val (fun y => { y with
        failures := (laneAt s p.val l.val).failures + 1, state := if 2 ≤ (laneAt s p.val l.val).failures then .fault else .locking })
        (laneRelock p.val l.val (count (portDie p.val) 0x8003 (laneKey p.val l.val) 1 s)))) ∧
  (∀ (s : State) (p : FibreIx) (l : LaneIx), lanesAct s p.val = true → (laneAt s p.val l.val).state = .fault → marginHost s = false → (laneAt s p.val l.val).enteredAt + 10000000000 ≤ nowNs s →
    exec (.laneFaultRetry p l) s = .next (onLane p.val l.val (fun y => { y.restart (nowNs s) with failures := 0 }) s)) ∧
  (∀ (s : State) (p : FibreIx) (l : LaneIx) (e : Nat × Nat × BitVec 64 × BitVec 64 × Nat), lanesAct s p.val = true → s.switch.sending.get (laneKey p.val l.val) = none → (s.optics.ports.get p.val).due.find? (dueNow s p.val l.val) = some e → e.2.1 = 2 →
    exec (.lcbSend p l) s = .next (emitOut (.lcb p.val l.val (lcbBlocks 2 (laneAt s p.val l.val).txSeq.toNat e.2.2.1 e.2.2.2.1)) (onLane p.val l.val (fun x => { x with txSeq := x.txSeq + 1 })
        (onFPort p.val (fun q => { q with due := removeFirst (dueNow s p.val l.val) (s.optics.ports.get p.val).due }) s)))) ∧
  (∀ (s : State) (p : FibreIx) (l : LaneIx) (e : Nat × Nat × BitVec 64 × BitVec 64 × Nat), lanesAct s p.val = true → s.switch.sending.get (laneKey p.val l.val) = none → (s.optics.ports.get p.val).due.find? (dueNow s p.val l.val) = some e → e.2.1 = 4 →
    exec (.lcbSend p l) s = .next (emitOut (.lcb p.val l.val (lcbBlocks 4 (laneAt s p.val l.val).txSeq.toNat (markerWord s p.val l.val) (trainWord s p.val l.val))) (onLane p.val l.val (fun x => { x with txSeq := x.txSeq + 1 })
        (onFPort p.val (fun q => { q with due := removeFirst (dueNow s p.val l.val) (s.optics.ports.get p.val).due }) s)))) ∧
  (∀ (s : State) (p : FibreIx) (m : PendingLcm) (c : Nat), lanesAct s p.val = true → (s.optics.ports.get p.val).pending = [m] → m.sentAt + 100000 ≤ nowNs s → m.sends < 10 → carrier s p.val m.lane = some c →
    exec (.lcmResend p) s = .next (dueBlock p.val c 2 (lcmWord0 m.msg m.seq m.lane m.slot m.slot2) m.arg 0
        (onFPort p.val (fun q => { q with pending := q.pending.map fun x => if x.msg == m.msg && x.seq == m.seq then { x with sends := x.sends + 1, sentAt := nowNs s } else x }) s))) ∧
  (∀ (s : State) (p : FibreIx) (l : LaneIx), lanesAct s p.val = true → laneUsable s p.val l.val = true →
    exec (.laneFailsAbruptly p l) s = .next (onLane p.val l.val (fun x => { x with trainedFrom := true }) (laneRelock p.val l.val s)))

/-- Margin tests, in-service estimates and reports, and the monitors (09 R314, R315, R323 to R327, 14 R442). Clause by
clause: the hypotheses name a case of `marginDwell`, `marginRun`, `laneAdmit`, `marginEstimate`, `marginReportSend`,
`monitorRefresh`, `marginMode`, the conclusion says that the command answers a next state and what that state holds.
Corners the manual leaves open are the model's choice: log 31, 131, 169. -/
def Obligations.MarginsOfLanes : Prop :=
  (∀ (s : State) (p : FibreIx) (l : LaneIx) (b : Option Bool), lanesAct s p.val = true → (laneAt s p.val l.val).testing = true → (laneAt s p.val l.val).rxTesting = false →
    exec (.marginDwell p l b) s = .next (onLane p.val l.val (fun y => { y with
        omaSteps := if y.dwell < 31 then y.dwell + 2 else 0, dwell := y.dwell + 1, dwellAt := nowNs s, testing := decide (y.dwell < 31) }) s)) ∧
  (∀ (s : State) (p : FibreIx) (l : LaneIx), lanesAct s p.val = true → (laneAt s p.val l.val).testing = false → (laneAt s p.val l.val).rxTesting = true →
    exec (.marginDwell p l (some true)) s = .next (marginResult p.val l.val (((laneAt s p.val l.val).rxDwell - 1) * (laneAt s p.val l.val).rxStep) 0 s) ∧
      exec (.marginDwell p l none) s = .next (marginResult p.val l.val 0 2 s) ∧
      exec (.marginDwell p l (some false)) s = .next (if (laneAt s p.val l.val).rxSteps ≤ (laneAt s p.val l.val).rxDwell + 1 then marginResult p.val l.val 160 1 s
        else onLane p.val l.val (fun y => { y with rxDwell := y.rxDwell + 1 }) s)) ∧
  (∀ (s : State) (r : Role) (p : FibreIx) (m : Byte), Permitted r (0x040100 + p.val) 6 s →
    exec (.marginRun r p m) s = .next (marginPass p.val (((laneBits m.toNat).filter fun l => (laneAt s p.val l).state == .marginLow || ((laneAt s p.val l).state == .ready && (laneAt s p.val l).held)).foldl
        (fun t l => onLane p.val l (fun x => { x with state := .margin, enteredAt := nowNs t, lockingAt := nowNs t, held := false, txMargin := none, rxMargin := none, dwell := 0 }) t) (answer stDone s)))) ∧
  (∀ (s : State) (r : Role) (p : FibreIx) (m : Byte), Permitted r (0x040100 + p.val) 7 s →
    exec (.laneAdmit r p m) s = .next ((laneBits m.toNat).foldl (fun t l => if (laneAt t p.val l).state = .marginLow || ((laneAt t p.val l).state = .ready && (laneAt t p.val l).held) then
        trainAdvance p.val l (onLane p.val l (fun x => { x with state := .ready, held := false, enteredAt := nowNs t }) t) else t) (answer stDone s))) ∧
  (∀ (s : State) (p : FibreIx) (l : LaneIx) (c u : Nat) (e : Int), lanesAct s p.val = true → laneUnlocked (laneAt s p.val l.val).state = false → estimateOf (((c + 160 * u) :: (laneAt s p.val l.val).bins).take 1000) = some e →
    exec (.marginEstimate p l c u) s = .next (trainAdvance p.val l.val (lossLocate p.val l.val (onLane p.val l.val (fun x => { x with
        bins := ((c + 160 * u) :: (laneAt s p.val l.val).bins).take 1000, binAt := nowNs s, estimate := some e, rxOk := if laneTalks x then decide (c + 160 * u < 51000) else x.rxOk }) s)))) ∧
  (∀ (s : State) (p : FibreIx) (l : LaneIx) (e : Int), lanesAct s p.val = true → laneUnlocked (laneAt s p.val l.val).state = false → (laneAt s p.val l.val).estimate = some e → ((laneAt s p.val l.val).reportAt + 10000000 ≤ nowNs s ∨ crossed s (laneAt s p.val l.val) = true) →
    exec (.marginReportSend p l) s = .next (laneThresholds p.val l.val (sendLcm p.val 6 l.val (rxSlotOf (onLane p.val l.val (fun x => { x with reportAt := nowNs s, reported := some e }) s) p.val l.val) 0
        (reportArg e (laneAt s p.val l.val).s6 (s.optics.ports.get p.val).s5 (s.optics.ports.get p.val).s4)
        (onLane p.val l.val (fun x => { x with reportAt := nowNs s, reported := some e }) s)))) ∧
  (∀ (s : State) (p : FibreIx) (s1 si s2 s3 s6 : List Int) (s4 s5 : Int) (taps : List (Fin 512 × Int × Int)), lanesAct s p.val = true → 6 ≤ stateCode s.start.state →
    exec (.monitorRefresh p ⟨s1, si⟩ s2 s3 s4 s5 ⟨s6, taps⟩) s = .next (monitorRefresh p.val s1 si s2 s3 s4 s5 s6 (taps.map fun x => (x.1.val, x.2)) s)) ∧
  (∀ (s : State) (p : FibreIx) (s1 si s2 s3 s6 : List Int) (s4 s5 : Int), lanesAct s p.val = true → s.start.state = .opticsCal → (∀ l : LaneIx, (laneAt s p.val l.val).baseSet = false ∧ (laneAt s p.val l.val).leaving = 0) →
    Answers (.monitorRefresh p ⟨s1, si⟩ s2 s3 s4 s5 ⟨s6, []⟩) s fun t =>
      t.optics.ports = s.optics.ports.modify p.val (fun q => { q with
        s2 := tapReadings s2 q.s2, s4 := tapReading s4, s5 := tapReading s5, monitorAt := nowNs s }) ∧
      t.optics.els = (tapLines (16 + portDie p.val / 2) si (tapLines (moduleOf p.val) s1 s)).optics.els ∧ t.switch = s.switch) ∧
  (∀ (s : State) (r : Role), Permitted r 0x040001 3 s →
    exec (.marginMode r 1) s = .next (answer stDone (objSet 0x040001 3 1 s)) ∧
      exec (.marginMode r 0) s = .next (releaseLanes (answer stDone (objSet 0x040001 3 0 s))))

/-- Laser lines and modules, migration to the spare line and back, loops and mesh spares (09 R306, R327 to R334, 14 R442).
Clause by clause: the hypotheses name a case of `lineMigration`, `migrateRepeat`, `laneMigrate`, `laneRestore`,
`migrationMode`, `loopMode`, `meshSpareSubstitute`, `elsPowerTimeout`, `elsPoll`, the conclusion says that the command
answers a next state and what that state holds. Corners the manual leaves open are the model's choice: log 36, 128,
177. -/
def Obligations.LinesAndLoops : Prop :=
  (∀ (s : State) (m : Fin 16) (k : Fin 8), clocksRun s = true → isUp s = true → (elsOf s m.val).migrating = none → furthestLine s m.val (fadingLines s m.val) = some k.val → spareForbidden s m.val = false → migrationHost s = false →
    exec (.lineMigration m k) s = .next (migrateStep m.val (onEls m.val (fun e => { e with spare := k.val, migrating := some k.val }) s))) ∧
  (∀ (s : State) (m : Fin 16) (k : Fin 8), clocksRun s = true → isUp s = true → (elsOf s m.val).migrating ≠ none →
    exec (.lineMigration m k) s = .next (migrateStep m.val s)) ∧
  (∀ (s : State) (p : FibreIx) (l : LaneIx), lanesAct s p.val = true → (laneAt s p.val l.val).peerMigrating = true → (laneAt s p.val l.val).retuneAt + 100000000 ≤ nowNs s →
    exec (.migrateRepeat p l) s = .next (sendMigrate p.val l.val (if txSlotOf s p.val l.val = 8 then l.val else 8) (txSlotOf s p.val l.val) s)) ∧
  (∀ (s : State) (r : Role) (m : Fin 16) (k : Byte), Permitted r (0x040040 + m.val) 1 s → k.toNat ≤ 7 → spareForbidden s m.val = false →
    exec (.laneMigrate r m k) s = .next (migrateStep m.val (onEls m.val (fun e => { e with spare := k.toNat, migrating := some k.toNat }) (answer stDone s)))) ∧
  (∀ (s : State) (r : Role) (m : Fin 16) (k : Byte), Permitted r (0x040040 + m.val) 2 s → k.toNat ≤ 7 → (elsOf s m.val).spare = k.toNat →
    exec (.laneRestore r m k) s = .next (migrateStep m.val (onEls m.val (fun e => { e with migrating := some (16 + k.toNat) }) (answer stDone s)))) ∧
  (∀ (s : State) (r : Role), Permitted r 0x040001 2 s →
    exec (.migrationMode r 1) s = .next (answer stDone (objSet 0x040001 2 1 s)) ∧
      exec (.migrationMode r 0) s = .next (releaseMigrations (answer stDone (objSet 0x040001 2 0 s)))) ∧
  (∀ (s : State) (r : Role) (p : FibreIx), Permitted r (0x040100 + p.val) 4 s → (∀ l : LaneIx, (laneAt s p.val l.val).state ≠ .loop ∧ (laneAt s p.val l.val).leaving = 0) →
    exec (.loopMode r p 0) s = .next (onFPort p.val (fun q => { q with loopMode := 0 }) (answer stDone (objSet (0x040100 + p.val) 4 0 s)))) ∧
  (∀ (s : State) (r : Role) (p : FibreIx), Permitted r (0x040100 + p.val) 4 s → objGet s (0x040100 + p.val) 5 0 = 1 → laneTaken s p.val 0 = false → laneEmpty s p.val 0 = true → (∀ l : LaneIx, (laneAt s p.val l.val).state ≠ .loop ∧ (laneAt s p.val l.val).leaving = 0) → (sprayLanes s p.val).contains 0 = false → s.optics.ports.wf = true →
    Answers (.loopMode r p 1) s fun t => t.out = Out.prbs p.val 0 1 :: s.out ∧ (t.optics.ports.get p.val).loopMode = 1 ∧ t.bop.answer = stDone ∧ t.switch = s.switch) ∧
  (∀ (s : State) (a b : DieIx) (c : Fin 80) (x : Bool), clocksRun s = true → dieUp s a.val = true → dieUp s b.val = true → a ≠ b →
    exec (.meshSpareSubstitute a b c x) s = .next (meshSubstitute a.val b.val c.val x s)) ∧
  (∀ (s : State) (a b : DieIx) (c : Fin 80), clocksRun s = true → dieUp s a.val = true → dieUp s b.val = true → a ≠ b → s.optics.channels = .empty 0 → s.optics.channelFor = .empty 0 → spareUsable s a.val b.val 80 = true →
    Answers (.meshSpareSubstitute a b c false) s fun t => t.optics.channels.get (channelKey a.val b.val c.val) = 1 ∧
      t.optics.channels.get (channelKey a.val b.val 80) = 2 ∧ t.optics.channelFor.get (channelKey a.val b.val 80) = c.val + 1 ∧ t.switch = s.switch) ∧
  (∀ (s : State) (m : Fin 20), clocksRun s = true → (elsOf s m.val).state = 2 → (elsOf s m.val).enabledAt + 200000000 ≤ wallNs s →
    exec (.elsPowerTimeout m) s = .next (elsCause (raise 0x0401 0 (unitEls s m.val 0) (args32 [0]) (onEls m.val (fun e => { e with state := 4 }) s)))) ∧
  (∀ (s : State) (m : Fin 20) (l : List Int) (f : Nat), keeperUp s = true → 6 ≤ stateCode s.start.state → (elsOf s m.val).state ≠ 0 →
    exec (.elsPoll m l f) s = .next (elsPoll m.val l f s)) ∧
  (∀ (s : State) (m : Fin 20) (l : List Int), keeperUp s = true → s.start.state = .opticsCal → ((elsOf s m.val).state = 2 ∨ (elsOf s m.val).state = 4) → elsAtPower s m.val = true → s.optics.els.wf = true →
    Answers (.elsPoll m l 0) s fun t => (elsOf t m.val).state = 3 ∧ (elsOf t m.val).polledAt = nowNs s ∧ (elsOf t m.val).lines = tapReadings l (elsOf s m.val).lines ∧ (elsOf t m.val).spare = (elsOf s m.val).spare ∧ t.switch = s.switch)

/-- Electrical ports enabled, their modes, bring-up, training, loops, equalisers and modules (11 R366 to R373). Clause by
clause: the hypotheses name a case of `epEnable`, `epMode`, `linkTrainingRequest`, `linkTrainingTimeout`, `memberUp`,
`memberDown`, `epTrainTimeout`, `epLoop`, `eqFreeze`, `modulePresenceChange`, `moduleActivate`,
`moduleActivateTimeout`, `modulePoll`, `mpFrameReceive`, `mpFailover`, the conclusion says that the command answers a
next state and what that state holds. Corners the manual leaves open are the model's choice: log 35, 38. -/
def Obligations.ElectricalPorts : Prop :=
  (∀ (s : State) (r : Role) (p : ElecIx) (v : Byte), Permitted r (0x060100 + p.val) 3 s → v.toNat ≤ 1 → (epOf s p.val).moduleState ≠ 2 →
    exec (.epEnable r p v) s = .next (moduleSettle p.val (onEp p.val (fun e => { e with enable := v.toNat == 1, moduleState := if v.toNat = 0 && !e.copper && e.present then 1 else e.moduleState })
        (answer stDone (objSet (0x060100 + p.val) 3 v.toNat s))))) ∧
  (∀ (s : State) (r : Role) (p : ElecIx) (v : Byte), Permitted r (0x060100 + p.val) 3 s → v.toNat ≤ 1 → (epOf s p.val).moduleState = 2 →
    exec (.epEnable r p v) s = .next (onEp p.val (fun e => { e with pendingEnable := some (v.toNat == 1) }) (answer stDone (objSet (0x060100 + p.val) 3 v.toNat s)))) ∧
  (∀ (s : State) (r : Role) (p : ElecIx) (v : Byte), Permitted r (0x060100 + p.val) 1 s → 1 ≤ v.toNat → v.toNat ≤ 4 → epChangeOk s p.val = true → (epOf s p.val).moduleState ≠ 2 →
    exec (.epMode r p false v) s = .next (applyMode p.val v.toNat (answer stDone (objSet (0x060100 + p.val) 1 v.toNat s)))) ∧
  (∀ (s : State) (r : Role) (p : ElecIx) (v : Byte), Permitted r (0x060100 + p.val) 2 s → v.toNat ≤ 1 → epChangeOk s p.val = true →
    exec (.epMode r p true v) s = .next (moduleSettle p.val (onEp p.val (fun e => { e.takePending with copper := v.toNat == 1, moduleState := if e.present then 1 else 0, activateAt := none, application := 0 })
        (portDown p.val (answer stDone (objSet (0x060100 + p.val) 2 v.toNat s)))))) ∧
  (∀ (s : State) (p : ElecIx) (l : Fin 4) (tap ch : Int) (pr : Bool) (g t : Nat), epActs s p.val = true → (epOf s p.val).trainingAt.get l.val = some t →
    exec (.linkTrainingRequest p l tap ch pr g) s = .next (linkTraining p.val l.val tap ch pr g s)) ∧
  (∀ (s : State) (p : ElecIx) (l : Fin 4) (tap ch : Int) (pr : Bool) (t : Nat) (k : Nat), epActs s p.val = true → s.mgmt.eports.wf = true → (epOf s p.val).rxReady.wf = true → (epOf s p.val).trainingAt.get l.val = some t → -3 ≤ tap → tap ≤ 1 → ch ≠ 0 → k = l.val * 8 + (tap + 3).toNat → ((epOf s p.val).taps.get k + ch).natAbs ≤ Config.tapLimit (tap + 3).toNat →
    Answers (.linkTrainingRequest p l tap ch pr 1) s fun t =>
      (epOf t p.val).taps = (epOf s p.val).taps.set k ((epOf s p.val).taps.get k + ch) ∧
      t.out = (if (epOf s p.val).rxReady.get l.val then [] else [.trainingRequest (256 + p.val) l.val (Config.freeValue s.free % 5) (Config.freeValue s.free / 5 % 2 == 1)])
        ++ (emitOut (Out.trainingStatus (256 + p.val) l.val (tap + 3).toNat false) s).out ∧
      (epOf t p.val).smallGains = (epOf s p.val).smallGains.set l.val 0 ∧ t.switch = s.switch) ∧
  (∀ (s : State) (p : ElecIx) (l : Fin 4) (tap ch : Int) (pr : Bool) (t : Nat) (k : Nat), epActs s p.val = true → s.mgmt.eports.wf = true → (epOf s p.val).rxReady.wf = true → (epOf s p.val).trainingAt.get l.val = some t → -3 ≤ tap → tap ≤ 1 → ch ≠ 0 → k = l.val * 8 + (tap + 3).toNat → Config.tapLimit (tap + 3).toNat < ((epOf s p.val).taps.get k + ch).natAbs →
    Answers (.linkTrainingRequest p l tap ch pr 1) s fun t => (epOf t p.val).taps = (epOf s p.val).taps ∧
      t.out = (if (epOf s p.val).rxReady.get l.val then [] else [.trainingRequest (256 + p.val) l.val (Config.freeValue s.free % 5) (Config.freeValue s.free / 5 % 2 == 1)])
        ++ (emitOut (Out.trainingStatus (256 + p.val) l.val (tap + 3).toNat true) s).out ∧
      (epOf t p.val).smallGains = (epOf s p.val).smallGains.set l.val 0 ∧ t.switch = s.switch) ∧
  (∀ (s : State) (p : ElecIx) (l : Fin 4) (tap ch : Int) (pr : Bool) (t : Nat), epActs s p.val = true → (epOf s p.val).trainingAt.get l.val = some t → (tap < -3 ∨ 6 < tap) → (epOf s p.val).rxReady.get l.val = false → (epOf s p.val).smallGains.get l.val < 7 →
    ∃ e, e = epOf s p.val ∧ exec (.linkTrainingRequest p l tap ch pr 0) s = .next (askTap p.val l.val { s with mgmt := { s.mgmt with eports := s.mgmt.eports.modify p.val fun x => { x with
        smallGains := x.smallGains.set l.val (e.smallGains.get l.val + 1), rxReady := x.rxReady.set l.val false, peerReady := x.peerReady.set l.val (e.peerReady.get l.val || pr) } } })) ∧
  (∀ (s : State) (p : ElecIx) (l : Fin 4) (tap ch : Int) (pr : Bool) (t : Nat), epActs s p.val = true → s.mgmt.eports.wf = true → (epOf s p.val).rxReady.wf = true → (epOf s p.val).trainingAt.get l.val = some t → 2 ≤ tap → tap ≤ 6 → (epOf s p.val).rxReady.get l.val = true →
    Answers (.linkTrainingRequest p l tap ch pr 1) s fun t =>
      (epOf t p.val).taps = presetTaps l.val (tap - 1).toNat (epOf s p.val).taps ∧ t.out = s.out ∧ t.switch = s.switch) ∧
  (∀ (s : State) (p : ElecIx) (l : Fin 4) (t : Nat), epActs s p.val = true → (epOf s p.val).trainingAt.get l.val = some t → t + 450000000 ≤ nowNs s →
    exec (.linkTrainingTimeout p l) s = .next (onEp p.val (fun e => { e with trainingAt := e.trainingAt.set l.val none }) s)) ∧
  (∀ (s : State) (p : ElecIx) (m : Fin 4) (n : Nat), epActs s p.val = true → epTransmits (epOf s p.val) = true → m.val < memberCount (epOf s p.val).mode → (epOf s p.val).bringupAt.get m.val ≠ none → ((memberLanes (epOf s p.val).mode m.val).any (fun l => ((epOf s p.val).trainingAt.get l).isSome) = false) → 1000000 ≤ n →
    exec (.memberUp p m n) s = .next (onEp p.val (fun e => { e with membersUp := e.membersUp ||| BitVec.ofNat 4 (2 ^ m.val), bringupAt := e.bringupAt.set m.val none }) s)) ∧
  (∀ (s : State) (p : ElecIx) (m : Fin 4), epActs s p.val = true → (epOf s p.val).membersUp.getLsbD m.val = true → s.start.headless = true → (epOf s p.val).copper = false → (memberGoesDown p.val m.val s).start = s.start → (epOf (memberGoesDown p.val m.val s) p.val).copper = false →
    exec (.memberDown p m) s = .next (memberGoesDown p.val m.val s)) ∧
  (∀ (s : State) (p : ElecIx) (m : Fin 4) (t : Nat), epActs s p.val = true → (epOf s p.val).bringupAt.get m.val = some t → t + 500000000 ≤ nowNs s →
    exec (.epTrainTimeout p m) s = .next (bringUp p.val [m.val] (count (portDie (256 + p.val)) 0xA000 (256 + p.val) 1 s))) ∧
  (∀ (s : State) (r : Role) (p : ElecIx), Permitted r (0x060100 + p.val) 7 s → s.switch.drainState.get (256 + p.val) = 2 →
    exec (.epLoop r p 3) s = .next (onEp p.val (fun e => { e with loop := 3 }) (portDown p.val (answer stDone (objSet (0x060100 + p.val) 7 3 s))))) ∧
  (∀ (s : State) (r : Role) (p : ElecIx), Permitted r (0x060100 + p.val) 7 s → (epOf s p.val).loop = 0 →
    exec (.epLoop r p 0) s = .next (answer stDone (objSet (0x060100 + p.val) 7 0 s))) ∧
  (∀ (s : State) (r : Role) (p : ElecIx) (v : Byte), Permitted r (0x060100 + p.val) 8 s → v.toNat ≤ 15 →
    exec (.eqFreeze r p v) s = .next (answer stDone (onEp p.val (fun e => { e with eqFreeze := BitVec.ofNat 4 v.toNat })
      (((upTo 4).filter fun l => bit v.toNat l && !(epOf s p.val).eqFreeze.getLsbD l).foldl (fun s l => eqSettle p.val l s) s)))) ∧
  (∀ (s : State) (p : ElecIx) (n : Nat), clocksRun s = true → (epOf s p.val).present = true → 10000000 ≤ n →
    exec (.modulePresenceChange p false n) s = .next (portDown p.val (onEp p.val (fun e => { e.takePending with
        present := false, moduleState := 0, application := 0, activateAt := none, identity := [] }) s))) ∧
  (∀ (s : State) (p : ElecIx) (n : Nat), clocksRun s = true → (epOf s p.val).present = false → 10000000 ≤ n → s.start.headless = false → keeperUp s = true →
    exec (.modulePresenceChange p true n) s = .next (moduleSettle p.val (readIdentity p.val (onEp p.val (fun e => { e with present := true, moduleState := 1, application := 0, activateAt := none }) s)))) ∧
  (∀ (s : State) (p : ElecIx) (a : Nat), keeperUp s = true → (epOf s p.val).moduleState = 2 →
    exec (.moduleActivate p (some a) false) s = .next (onEp p.val (fun e => { e with application := a }) s) ∧
      exec (.moduleActivate p (some a) true) s = .next (moduleEnds p.val 3 (onEp p.val (fun e => { e with application := a }) s)) ∧
      exec (.moduleActivate p none false) s = .next (moduleEnds p.val 4 s)) ∧
  (∀ (s : State) (p : ElecIx) (t : Nat), keeperUp s = true → (epOf s p.val).moduleState = 2 → (epOf s p.val).activateAt = some t → t + 5000000000 ≤ nowNs s →
    exec (.moduleActivateTimeout p) s = .next (moduleEnds p.val 5 s)) ∧
  (∀ (s : State) (p : ElecIx) (f : Option Nat), keeperUp s = true → (epOf s p.val).present = true →
    exec (.modulePoll p true none) s = .next (onEp p.val (fun e => { e with polledAt := nowNs s }) s) ∧
      exec (.modulePoll p false f) s = .next (count (portDie (256 + p.val)) 0xA001 (256 + p.val) 1 (onEp p.val (fun e => { e with polledAt := nowNs s }) s))) ∧
  (∀ (s : State) (m : Fin 2) (b : Bytes), keeperUp s = true → s.mgmt.mpUp.getLsbD m.val = true → (mpBudget m.val s).1 = true → fcsGood b = true → mpAccepts b = true → mpAnswer (mpBudget m.val s).2 m.val b = none →
    exec (.mpFrameReceive m b) s = .next (mpBudget m.val s).2) ∧
  (∀ (s : State) (m : Fin 2) (b : Bytes), keeperUp s = true → s.mgmt.mpUp.getLsbD m.val = true → fcsGood b = false →
    exec (.mpFrameReceive m b) s = .next (count 8 0xA002 0 1 s)) ∧
  (∀ (s : State) (m : Fin 2) (b : Nat), keeperUp s = true → s.mgmt.mpBegun.get m.val = some b → b + 1000000 ≤ nowNs s →
    Answers (.mpFailover m true) s fun t => t.mgmt.mpUp = s.mgmt.mpUp ||| BitVec.ofNat 2 (2 ^ m.val) ∧ t.mgmt.mpBegun = s.mgmt.mpBegun ∧ t.mgmt.eports = s.mgmt.eports ∧ t.switch = s.switch) ∧
  (∀ (s : State) (m : Fin 2) (b : Nat), keeperUp s = true → s.mgmt.mpBegun.get m.val = some b →
    Answers (.mpFailover m false) s fun t => t.mgmt.mpUp = s.mgmt.mpUp &&& ~~~(BitVec.ofNat 2 (2 ^ m.val)) ∧ t.mgmt.mpBegun = s.mgmt.mpBegun.set m.val (some (nowNs s)) ∧ t.mgmt.eports = s.mgmt.eports ∧ t.switch = s.switch)

/-- Express paths requested, drained, checked, opened, measured, cleared and torn down, and a low input (10 R344 to R354).
Clause by clause: the hypotheses name a case of `expressSet`, `expressDrainCheck`, `expressGuardCheck`,
`expressGateOpen`, `expressPowerCheck`, `expressClear`, `expressTeardown`, `expressInputLow`, the conclusion says that
the command answers a next state and what that state holds. Corners the manual leaves open are the model's choice: log
130. -/
def Obligations.ExpressPaths : Prop :=
  (∀ (s : State) (r : Role) (q a b : BitVec 16) (act : Word), Permitted r 0x050002 1 s → expressCheck s q.toNat a.toNat b.toNat act.toNat = 0 → (pathOf s q.toNat).state = .idle →
    Answers (.expressSet r q a b act) s fun t =>
      t.express.paths = s.express.paths.set q.toNat { Path.reset with
        state := .scheduled, a := a.toNat, b := b.toNat, actTime := act, changedAt := BitVec.ofNat 32 (tmuNs s), drainPass := clearingHolds s a.toNat (pathSlot q.toNat), e1 := (pathOf s q.toNat).e1, e2 := (pathOf s q.toNat).e2 } ∧
      t.express.result = q.toNat % 65536 * 65536 ∧ t.express.queued = s.express.queued ∧ t.bop.answer = stDone ∧ t.mem = s.mem) ∧
  (∀ (s : State) (q : Fin 512) (n : Nat), clocksRun s = true → (pathOf s q.val).state = .scheduled → (pathOf s q.val).aAccepted = true → (pathOf s q.val).drained = false → (s.express.paths.cells.any (fun c => c.2.state == .clearing && c.1 / 64 == pathSlot q.val && c.1 != q.val && (c.2.a == (pathOf s q.val).a || c.2.b == (pathOf s q.val).b)) = false) → ((pathOf s q.val).drainPass = true ∨ 50000 ≤ n) →
    Answers (.expressDrainCheck q n) s fun t => t.express.paths = s.express.paths.modify q.val (fun p => { p with drained := true }) ∧
      t.switch = s.switch ∧ t.optics.lanes = s.optics.lanes ∧ t.mem = s.mem) ∧
  (∀ (s : State) (q : Fin 512) (e : Int), clocksRun s = true → (pathOf s q.val).state = .scheduled → atOrAfter (sinkNs s q.val) ((pathOf s q.val).actTime.toNat + 2 ^ 32 - 100000) = true → guardCode s q.val e = 0 →
    exec (.expressGuardCheck q e) s = .next (parkLane (pathOf s q.val).a (pathSlot q.val)
        (onPath q.val (fun p => { p with state := .armed, changedAt := BitVec.ofNat 32 (tmuNs s) }) (onPath q.val (fun p => { p with e1 := tapReading e }) s)))) ∧
  (∀ (s : State) (q : Fin 512), clocksRun s = true → (pathOf s q.val).state = .armed → (pathOf s q.val).gateOpen = false → atOrAfter (sinkNs s q.val) (pathOf s q.val).actTime.toNat = true →
    exec (.expressGateOpen q) s = .next (onPath q.val (fun p => { p with gateOpen := true, openedAt := nowNs s }) s)) ∧
  (∀ (s : State) (q : Fin 512) (e : Int), clocksRun s = true → (pathOf s q.val).state = .armed → (pathOf s q.val).gateOpen = true → cfgExpOutPower s - 50 ≤ e → e ≤ cfgExpOutPower s + 50 →
    Answers (.expressPowerCheck q e) s fun t => t.express.paths = (s.express.paths.modify q.val (fun p => { p with e2 := tapReading e, gain := gateGain (pathOf s q.val).e1 (cfgExpOutPower s) })).modify q.val
        (fun p => { p with state := .active, changedAt := BitVec.ofNat 32 (tmuNs s) }) ∧ t.optics = s.optics ∧ t.mem = s.mem) ∧
  (∀ (s : State) (q : Fin 512) (e : Int), clocksRun s = true → (pathOf s q.val).state = .armed → (pathOf s q.val).gateOpen = true → (pathOf s q.val).openedAt + 1000000 ≤ nowNs s → (e < cfgExpOutPower s - 50 ∨ cfgExpOutPower s + 50 < e) →
    exec (.expressPowerCheck q e) s = .next (endPath q.val 0x16 (onPath q.val (fun p => { p with e2 := tapReading e, gain := gateGain (pathOf s q.val).e1 (cfgExpOutPower s) }) s))) ∧
  (∀ (s : State) (r : Role) (q : BitVec 16) (x : Word) (f : Byte), Permitted r 0x050002 2 s → q.toNat ≤ 511 → f.toNat ≤ 1 → (pathOf s q.toNat).state = .active → (f.toNat = 1 ∨ (1000000 ≤ (x.toNat + 2 ^ 32 - tmuNs s % 2 ^ 32) % 2 ^ 32 ∧ (x.toNat + 2 ^ 32 - tmuNs s % 2 ^ 32) % 2 ^ 32 ≤ 2000000000)) →
    Answers (.expressClear r q x f) s fun t =>
      t.express.paths = s.express.paths.modify q.toNat (fun p => { p with state := .clearing, clearTime := BitVec.ofNat 32 (if f.toNat = 1 then tmuNs s else x.toNat), changedAt := BitVec.ofNat 32 (tmuNs s) }) ∧
      t.express.result = q.toNat % 65536 * 65536 ∧ t.bop.answer = stDone ∧ t.switch = s.switch) ∧
  (∀ (s : State) (q : Fin 512), clocksRun s = true → (pathOf s q.val).state = .clearing → atOrAfter (sinkNs s q.val) (pathOf s q.val).clearTime.toNat = true →
    Answers (.expressTeardown q) s fun t => t = teardown q.val s ∧ (s.express.queued.get q.val = none → t.express.paths = s.express.paths.modify q.val (fun p => { p with
        state := .idle, gateOpen := false, changedAt := BitVec.ofNat 32 (tmuNs s) })) ∧ t.switch = s.switch ∧ t.mem = s.mem) ∧
  (∀ (s : State) (q : Fin 512) (e : Int) (n : Nat), clocksRun s = true → (pathOf s q.val).state = .active → e < cfgExpInMin s → 100000 ≤ n → (pathOf s q.val).lowSent = false →
    exec (.expressInputLow q e n) s = .next (raise 0x0503 1 (unitPath (onPath q.val (fun p => { p with e1 := tapReading e, lowSent := true }) s) q.val) (args32 [tapReading e])
        (count (portDie (pathOf s q.val).b) 0x9000 q.val 1 (onPath q.val (fun p => { p with e1 := tapReading e, lowSent := true }) s)))) ∧
  (∀ (s : State) (q : Fin 512) (e : Int) (n : Nat), clocksRun s = true → (pathOf s q.val).state = .active → cfgExpInMin s ≤ e →
    exec (.expressInputLow q e n) s = .next (onPath q.val (fun p => { p with e1 := tapReading e, lowSent := false }) s))

/-- Staging a firmware image, its commit and write, and the anti-rollback counter (14 R434, R435). Clause by clause: the
hypotheses name a case of `fwStageData`, `fwCommit`, `fwFlashWriteDone`, `rollbackAdvance`, the conclusion says that
the command answers a next state and what that state holds. Corners the manual leaves open are the model's choice: log
72, 96, 97. -/
def Obligations.FirmwareUpdate : Prop :=
  (∀ (s : State) (r : Role) (d : Bytes), Permitted r 0x010002 2 s → d.length ≤ 1024 → s.keeper.fwResult ≠ 0x0A → s.keeper.stageOffset + d.length ≤ 5242880 →
    exec (.fwStageData r d) s = .next (answer stDone { s with
        mem := memPut s.mem (fwStageAddr s (stagingDie s) s.keeper.stageOffset) ((d ++ List.replicate (1024 - d.length) 0).take (5242880 - s.keeper.stageOffset))
        keeper := { s.keeper with stageOffset := s.keeper.stageOffset + d.length, stageLen := max s.keeper.stageLen (s.keeper.stageOffset + d.length) } })) ∧
  (∀ (s : State) (r : Role) (v : Byte) (b : Bytes) (c : Nat), Permitted r 0x010002 3 s → s.keeper.fwResult ≠ 0x0A → b = stagedFw s (stagingDie s) → c = fwCheck s b (if fwTotal b ≤ s.keeper.stageLen then fwTotal b else 0) →
    exec (.fwCommit r v) s = .next (answer stDone (if c ≠ 0 then { s with keeper := { s.keeper with fwResult := c } }
        else { s with mem := memPut s.mem (flashAddr 0) (List.replicate (fwTotal b) 0xFF), keeper := { s.keeper with fwResult := 0x0A, stageDie := stagingDie s } }))) ∧
  (∀ (s : State) (g : Bool), s.keeper.fwResult = 0x0A → keeperUp s = true →
    exec (.fwFlashWriteDone g) s = .next ((flashWrite (stagedFw s s.keeper.stageDie) g s).onKeeper fun k => { k with fwResult := if g then 0 else 0x0B })) ∧
  (∀ (s : State) (r : Role) (v : Byte) (n : Nat) (t : State), Permitted r 0x010001 5 s → v.toNat ≤ 64 → v.toNat ≤ s.keeper.fwSvn → rollback s < v.toNat → t = blowSteps ((rollbackSteps s v.toNat).take n) s →
    exec (.rollbackAdvance r v ⟨n, none⟩) s = .next (if v.toNat ≤ rollback t then measEvent 3 (answer stDone t) else answer stDone t)) ∧
  (∀ (s : State) (r : Role) (v : Byte) (n : Nat) (x : Fin 3) (t : State) (k : Nat), Permitted r 0x010001 5 s → v.toNat ≤ 64 → v.toNat ≤ s.keeper.fwSvn → rollback s < v.toNat → t = blowSteps ((rollbackSteps s v.toNat).take n) s → (rollbackSteps s v.toNat)[n]? = some k → (n = 0 ∨ t.keeper.fuseResult = 0) → rollback (fuseField (25 + k) 1 (some x.val) t) < v.toNat →
    exec (.rollbackAdvance r v ⟨n, some x⟩) s = .next (answer stDone (fuseField (25 + k) 1 (some x.val) t)))

/-- Fuse programming, measurements, attestation and the log (14 R428, R437, R438, R444). Clause by clause: the hypotheses
name a case of `fuseProgram`, `attestRequest`, `attestReportDone`, `measExtend`, `logRead`, the conclusion says that
the command answers a next state and what that state holds. Corners the manual leaves open are the model's choice: log
50, 73, 95. -/
def Obligations.FusesAndEvidence : Prop :=
  (∀ (s : State) (r : Role) (f v : Nat), Permitted r 0x010003 2 s → fuseRefusal s f v = 0 →
    exec (.fuseProgram r f v none) s = .next (measEvent 2 (answer stDone { s with keeper := { s.keeper with
        fuses := ((s.keeper.fuses.set (4 * f) v).set (4 * f + 1) v).set (4 * f + 2) v, fuseResult := 0 } }))) ∧
  (∀ (s : State) (r : Role) (f v : Nat) (b : Option (Fin 3)), Permitted r 0x010003 2 s → fuseRefusal s f v ≠ 0 →
    exec (.fuseProgram r f v b) s = .next (answer stDone { s with keeper := { s.keeper with fuseResult := fuseRefusal s f v } })) ∧
  (∀ (s : State) (r : Role) (n : Bytes), Permitted r 0x010004 4 s → n.length ≤ 32 → s.keeper.attestNonce = none →
    exec (.attestRequest r n) s = .next (answer stDone { s with keeper := { s.keeper with attestNonce := some (padTo 32 n) } })) ∧
  (∀ (s : State) (n : Bytes), s.keeper.attestNonce = some n → keeperUp s = true →
    exec .attestReportDone s = .next { s with free := s.free + 1, keeper := { s.keeper with attestNonce := none, attestReport := reportBody s n ++ padTo 17088 (Config.slhSign (s.keeper.voted.get 89) (reportBody s n) s.free) } }) ∧
  (∀ (s : State) (r : Role) (i : Byte) (d : Bytes), Permitted r 0x010004 7 s → d.length = 32 → (i.toNat = 6 ∨ i.toNat = 7) →
    exec (.measExtend r i d) s = .next (answer stDone { s with keeper := { s.keeper with
        meas := s.keeper.meas.set i.toNat (sha256 (s.keeper.meas.get i.toNat ++ d)) } })) ∧
  (∀ (s : State) (k : Fin 8) (x : Session), s.bop.sessions.get k.val = some x → keeperUp s = true →
    Answers (.logRead k) s fun t => t.bop = { s.bop with
        sessions := s.bop.sessions.set k.val (some { x with logCursor := (logFrom t x.logCursor 64).2.1 }), answer := stDone
        answerValue := (logFrom t x.logCursor 64).1.flatMap fun r => listItem (logItem r) } ∧
      (∃ n ≤ 64, t.keeper.log = (logSome n (draw s).2).keeper.log) ∧
      t.keeper.logLost = min (2 ^ 32 - 1) (s.keeper.logLost + (logFrom t x.logCursor 64).2.2) ∧ t.start = s.start ∧ t.regs = s.regs ∧ t.mem = s.mem)

/-- Keys, sessions and the BOP domain (16 R466 to R470, R486, R487, R491, R492). Clause by clause: the hypotheses name a
case of `keyInstall`, `openMsg`, `closeSession`, `sessionIdleExpire`, `sessionClose`, `keyWrite`, `domainId`,
`domainRequest`, the conclusion says that the command answers a next state and what that state holds. Corners the
manual leaves open are the model's choice: log 50, 84, 139, 142. -/
def Obligations.Sessions : Prop :=
  (∀ (s0 s : State) (mp : Fin 2) (src : Nat) (d b : Bytes), bopServes s0 = true → mpBudget mp.val s0 = (true, s) → bopShape d = true → bopType d = 7 → allZero (slice d 24 16) = true → roleKey s 1 = none → b = bopBody d → b.length = 136 → beAt b 0 8 = serial s → allZero (slice b 8 32) = false →
    exec (.keyInstall mp src d) s0 = .next (raise 0x0102 2 unitKeeper (beBytes 16 (src % 2 ^ 128)) { s with
        bop := { s.bop with keys := (((s.bop.keys.set 1 (slice b 8 32)).set 2 (slice b 40 32)).set 3 (slice b 72 32)).set 4 (slice b 104 32) }
        out := .bop mp (mpOwn s mp src) (src % 2 ^ 128) (bopMessage s 8 0xFF 0 (bopSeq d) 0 0 (slice b 8 32) [0, 0, 0, 0]) :: s.out })) ∧
  (∀ (s0 s u : State) (mp : Fin 2) (src k : Nat) (d b key : Bytes) (r : Role), bopServes s0 = true → mpBudget mp.val s0 = (true, s) → bopShape d = true → bopType d = 1 → b = bopBody d → b.length = 20 → bopSerial d = serial s → roleOfCode (byteAt b 0) = some r → roleKey s (byteAt b 0) = some key → tagGood key d = true → 1024 ≤ beAt b 2 2 → beAt b 2 2 ≤ 8192 → takeNumber r s = some (k, u) →
    exec (.openMsg mp src d) s0 = .next { u with
        free := u.free + 16
        bop := { u.bop with sessions := u.bop.sessions.set k (some (newSession r (sessionKey u key (slice b 4 16) (freeBytes 16 u).1 k (roleCode r)) (beAt b 2 2) src mp (wallNs u))) }
        out := .bop mp (mpOwn u mp src) (src % 2 ^ 128) (bopMessage u 2 k 0 (bopSeq d) 0 0 key ([0] ++ beBytes 1 k ++ [0, 0] ++ (freeBytes 16 u).1 ++ [u.start.partCode, u.start.stepping] ++ beBytes 1 (stateCode u.start.state))) :: u.out }) ∧
  (∀ (s0 s : State) (mp : Fin 2) (src : Nat) (d : Bytes) (x : Session), bopServes s0 = true → mpBudget mp.val s0 = (true, s) → bopType d = 5 → sessionOf s d = some x → x.accepted = [] →
    exec (.closeSession mp src d) s0 = .next { s with bop := { s.bop with sessions := s.bop.sessions.set (bopSession d) none } }) ∧
  (∀ (s : State) (k : Fin 8) (x : Session), s.bop.sessions.get k.val = some x → keeperUp s = true → x.lastAt + cfgSessionIdle s * 1000000000 ≤ wallNs s → x.accepted = [] →
    exec (.sessionIdleExpire k) s = .next { s with bop := { s.bop with sessions := s.bop.sessions.set k.val none } }) ∧
  (∀ (s : State) (r : Role) (k : Byte) (x : Session), Permitted r 0x010010 8 s → k.toNat < 8 → s.bop.sessions.get k.toNat = some x → x.accepted = [] →
    exec (.sessionClose r k) s = .next (answer stDone { s with bop := { s.bop with sessions := s.bop.sessions.set k.toNat none } })) ∧
  (∀ (s : State) (r : Role) (n : Nat) (key : Bytes), Permitted r 0x010010 n s → 1 ≤ n → n ≤ 4 → key.length ≤ 32 → (n = 1 → allZero (padTo 32 key) = false) →
    exec (.keyWrite r n key) s = .next (answer stDone { s with bop := { s.bop with keys := s.bop.keys.set n (padTo 32 key) } })) ∧
  (∀ (s : State) (r : Role) (v : BitVec 16), Permitted r 0x010010 5 s → cfgDomainId s = 0xFFFF → v.toNat ≠ 0xFFFF → s.mgmt.mpUp = 3 →
    exec (.domainId r v) s = .next { answer stDone (objSet 0x010010 5 v.toNat s) with
        out := .management 1 (mldReport s 1 4 (domainAddr v.toNat)) :: .management 0 (mldReport s 0 4 (domainAddr v.toNat)) :: s.out }) ∧
  (∀ (s : State) (r : Role) (v : BitVec 16), Permitted r 0x010010 5 s → cfgDomainId s ≠ 0xFFFF → v.toNat = 0xFFFF → s.mgmt.mpUp = 3 →
    exec (.domainId r v) s = .next { answer stDone (objSet 0x010010 5 v.toNat s) with
        out := .management 1 (mldReport s 1 3 (domainAddr (cfgDomainId s))) :: .management 0 (mldReport s 0 3 (domainAddr (cfgDomainId s))) :: s.out }) ∧
  (∀ (s0 s : State) (mp : Fin 2) (src : Nat) (d key : Bytes) (r : Role) (x : Session), bopServes s0 = true → mpBudget mp.val s0 = (true, s) → bopShape d = true → bopType d = 3 → bit (bopFlags d) 2 = true → bopSession d = 0xFF → bopSerial d = 0 → cfgDomainId s ≠ 0xFFFF → bopDomain d = cfgDomainId s → roleOfCode (bits (bopFlags d) 5 4 + 1) = some r → roleKey s (bits (bopFlags d) 5 4 + 1) = some key → tagGood key d = true → sessGet s (8 + (bits (bopFlags d) 5 4 + 1)) = some x →
    exec (.domainRequest mp src d) s0 = .next (serveRequest (8 + (bits (bopFlags d) 5 4 + 1)) (requestIn mp src (8 + (bits (bopFlags d) 5 4 + 1)) key d s)))

/-- Requests, their execution and answers, object writes and the register window (05 R187, 16 R472 to R477, R481, R482,
R485). Clause by clause: the hypotheses name a case of `requestFragment`, `requestExecute`, `fragmentTimeout`,
`objectWrite`, `regData`, `regBurst`, the conclusion says that the command answers a next state and what that state
holds. Corners the manual leaves open are the model's choice: log 8, 140, 144. -/
def Obligations.Requests : Prop :=
  (∀ (s0 s : State) (mp : Fin 2) (src : Nat) (d : Bytes) (x : Session), bopServes s0 = true → mpBudget mp.val s0 = (true, s) → s.bop.sessions.wf = true → sessionOf s d = some x → bopType d = 3 → bit (bopFlags d) 2 = false → bopFrags d = 0 → bopFrag d = 0 → s.start.state ≠ .halted → x.partials = [] → x.accepted.length < 256 → (∀ p ∈ x.accepted, p.seq ≠ bopSeq d) → (∀ p ∈ x.replies, p.1 ≠ bopSeq d) → seqNew x (bopSeq d) = true →
    Answers (.requestFragment mp src d) s0 fun t => sessGet t (bopSession d) = some { seqUse (bopSeq d) { x with lastAt := wallNs s } with
        accepted := x.accepted ++ [(⟨bopSeq d, bopFlags d, 0, [(0, bopBody d)], wallNs s, mp, src⟩ : Request)] } ∧
      t.out = s.out ∧ t.mem = s.mem ∧ t.regs = s.regs ∧ t.obj = s.obj) ∧
  (∀ (s0 s : State) (mp : Fin 2) (src : Nat) (d body : Bytes) (x : Session), bopServes s0 = true → mpBudget mp.val s0 = (true, s) → s.bop.sessions.wf = true → sessionOf s d = some x → bopType d = 3 → bopFlags d = 8 → bopFrag d = 0 → (x.replies.find? (fun r => r.1 = bopSeq d) = some (bopSeq d, body)) → body.length ≤ x.maxFrag →
    Answers (.requestFragment mp src d) s0 fun t => t.out = Out.bop mp (mpOwn s mp src) (src % 2 ^ 128) (bopMessage s 4 (bopSession d) 0 (bopSeq d) 0 0 x.key body) :: s.out ∧ t.mem = s.mem ∧ t.regs = s.regs ∧ t.obj = s.obj) ∧
  (∀ (s s' u : State) (k : Fin 8) (x y z : Session) (q : Request) (o : BopOp) (a : OpResult), bopServes s = true → closedOf s k.val = none → nextTurnOf s = some k.val → s.bop.sessions.get k.val = some x → x.accepted = [q] → x.run = none → requestOps (requestBody q) = some [o] → isRecords o = false → settingOf o.index o.sub = false → s' = { s with bop := { s.bop with turn := k.val, sessions := s.bop.sessions.set k.val (some { x with run := some { newRun q with left := [] } }) } } → opRun x.role k.val o 65516 s' = (a, u) → bopServes u = true → u.bop.sessions.get k.val = some y → y.closing = false → y.accepted = [q] → z = { y with run := none, accepted := [], replies := ((q.seq, [0, 0] ++ beBytes 2 1 ++ resultBytes o a) :: y.replies).take 256 } →
    exec (.requestExecute k) s = .next (sendReply q.mp q.source k.val q.seq z y.key ([0, 0] ++ beBytes 2 1 ++ resultBytes o a)
        { u with bop := { u.bop with sessions := u.bop.sessions.set k.val (some z) } })) ∧
  (∀ (s s' : State) (n sk : Nat) (x : Session) (q : Request) (m : List Request) (o : BopOp) (r : Run) (l : List Bytes), nextTurnOf s = some n → sk = servedAs s n → s' = { s with bop := { s.bop with turn := n } } → sessGet s' sk = some x → x.accepted = q :: m → x.run = some r → r.left = [o] → isRecords o = true → recordsOf o = some l → 0 < r.taken → r.taken + 64 < l.length → bopServes (takeRecords o ((l.drop r.taken).take 64) (sessPut sk (some { x with run := some { r with left := [] } }) s')).2 = true →
    let v := takeRecords o ((l.drop r.taken).take 64) (sessPut sk (some { x with run := some { r with left := [] } }) s')
    roundTurn s = onSess sk (fun x => { x with run := some { r with taken := r.taken + 64, items := r.items ++ v.1 } }) v.2) ∧
  (∀ (s : State), (firstRequest s (servedAs s ((s.bop.turn + 1) % 12))).isSome = true →
    nextTurnOf s = some ((s.bop.turn + 1) % 12)) ∧
  (∀ (s : State) (k : Fin 8) (x : Session), s.bop.sessions.get k.val = some x → keeperUp s = true →
    exec (.fragmentTimeout k) s = .next { s with bop := { s.bop with sessions := s.bop.sessions.set k.val (some { x with partials := x.partials.filter fun p => wallNs s < p.lastAt + 1000000000 }) } }) ∧
  (∀ (s : State) (r : Role) (i b : Nat) (v : Bytes), keeperUp s = true → writeStatus r i b v.length s = stDone →
    exec (.objectWrite r i b v) s = .next (objEffect r (roleSession s r) i b v s)) ∧
  (∀ (s : State) (r : Role) (i b n : Nat) (dflt : Nat) (lo hi : Int) (a : Access) (v : Bytes), keeperUp s = true → writeStatus r i b v.length s = stDone → objOf i b = some ⟨a, .exactly n, some (dflt, lo, hi, false)⟩ → plainRule i b (beNat v) s = true → lo ≤ beNat v → beNat v ≤ hi → (i ≠ 0x0A0001 ∨ b ≠ 6) →
    exec (.objectWrite r i b v) s = .next (answer stDone (plainStore i b (beNat v) s))) ∧
  (∀ (s : State) (r : Role) (i b n : Nat) (dflt : Nat) (lo hi : Int) (a : Access) (v : Bytes), keeperUp s = true → writeStatus r i b v.length s = stDone → objOf i b = some ⟨a, .exactly n, some (dflt, lo, hi, false)⟩ → (beNat v < lo ∨ hi < beNat v) →
    exec (.objectWrite r i b v) s = .next (answer stBadValue s)) ∧
  (∀ (s : State) (r : Role) (k : Fin 8) (x : Session) (m : Nat) (w : Option Word) (u : State), s.bop.sessions.get k.val = some x → keeperUp s = true → rangeReady s 0x1F0001 = true → roleMaster r = some m → regReadAt m x.regAddr s = (w, u) →
    exec (.regData r k none) s = .next { u with bop := { u.bop with
        answer := if w = none then stBusError else stDone, answerValue := (w.map fun v => beBytes 4 v.toNat).getD [] } }) ∧
  (∀ (s : State) (k : Fin 8) (x : Session) (v : Word), s.bop.sessions.get k.val = some x → keeperUp s = true → rangeReady s 0x1F0001 = true →
    exec (.regData .admin k (some v)) s = .next { regWrite 5 x.regAddr v s with bop := { (regWrite 5 x.regAddr v s).bop with
        answer := if writeErrs s 5 x.regAddr then stBusError else stDone, answerValue := [] } }) ∧
  (∀ (s : State) (r : Role) (k : Fin 8) (x : Session) (m n : Nat) (l : List Word) (e : Bool) (u : State), s.bop.sessions.get k.val = some x → keeperUp s = true → rangeReady s 0x1F0001 = true → roleMaster r = some m → burstRead m x.regAddr (min 256 n) s = (l, e, u) →
    exec (.regBurst r k n none) s = .next { u with bop := { u.bop with
        answer := if e then stBusError else stDone, answerValue := l.flatMap (fun v => beBytes 4 v.toNat) ++ if e then beBytes 4 l.length else [] } }) ∧
  (∀ (s : State) (k : Fin 8) (x : Session) (n m : Nat) (l : List Word) (e : Bool) (u : State), s.bop.sessions.get k.val = some x → keeperUp s = true → rangeReady s 0x1F0001 = true → burstWrite 5 x.regAddr (l.take 256) s = (m, e, u) →
    exec (.regBurst .admin k n (some l)) s = .next { u with bop := { u.bop with
        answer := if e then stBusError else stDone, answerValue := if e then beBytes 4 m else [] } })

/-- Foghorn events are raised, sent, sent again, acknowledged and heartbeats sent, a collector is written and goes stale
(16 R488 to R492). Clause by clause: the hypotheses name a case of `foghornRaise`, `foghornSend`, `foghornAck`,
`foghornHeartbeat`, `collectorStale`, `collectorAddr`, `keyWrite`, the conclusion says that the command answers a next
state and what that state holds. Corners the manual leaves open are the model's choice: log 50, 143. -/
def Obligations.Foghorn : Prop :=
  (∀ (s : State) (e : EventArgs), keeperUp s = true → e.severity ≤ cfgFogSeverity s → (findHoldoff e.code e.unit s.bop.holdoffs = none ∨ (∃ h, findHoldoff e.code e.unit s.bop.holdoffs = some h ∧ h.suppressed = 0 ∧ h.raisedAt + cfgFogHoldoff s * 1000000 ≤ nowNs s)) → s.bop.ring.length < 1024 →
    exec (.foghornRaise e) s = .next { s with bop := { s.bop with
        holdoffs := ⟨e.code, e.unit, nowNs s, 0⟩ :: s.bop.holdoffs.filter fun h => !(h.code = e.code && h.unit = e.unit)
        ring := s.bop.ring ++ [⟨s.bop.nextSeq, BitVec.ofNat 32 (tmuNs s), e.code, e.severity, 0, e.unit, padTo 32 e.args⟩]
        nextSeq := (s.bop.nextSeq + 1) % 2 ^ 32 } }) ∧
  (∀ (s : State) (e : EventArgs) (h : Holdoff), keeperUp s = true → e.severity ≤ cfgFogSeverity s → findHoldoff e.code e.unit s.bop.holdoffs = some h → nowNs s < h.raisedAt + cfgFogHoldoff s * 1000000 →
    exec (.foghornRaise e) s = .next { s with bop := { s.bop with
        holdoffs := { h with suppressed := h.suppressed + 1 } :: s.bop.holdoffs.filter fun h => !(h.code = e.code && h.unit = e.unit) } }) ∧
  (∀ (s : State) (c : Fin 4) (x : Collector) (l : List Event), keeperUp s = true → x = s.bop.collectors.get c.val → x.state = 1 → s.mgmt.mpUp.getLsbD (foghornPort s) = true → l = eventsFrom s x.from_ → ((l.all fun e => (x.sentEvent e).isNone) = true) → l ≠ [] → l.length ≤ 16 →
    exec (.foghornSend c) s = .next { s with
        bop := { s.bop with collectors := s.bop.collectors.modify c.val fun y => { y with sent := l.map fun (e : Event) => ⟨e.seq, wallNs s, cfgFogRetry s⟩ } }
        out := .foghorn c.val (foghornPort s) (foghornDatagram s 1 c.val l) :: s.out }) ∧
  (∀ (s : State) (c : Fin 4) (x : Collector) (l due : List Event), keeperUp s = true → x = s.bop.collectors.get c.val → x.state = 1 → s.mgmt.mpUp.getLsbD (foghornPort s) = true → l = eventsFrom s x.from_ → due = l.filter (x.due (wallNs s)) → due ≠ [] → due.length ≤ 16 →
    exec (.foghornSend c) s = .next { s with
        bop := { s.bop with collectors := s.bop.collectors.modify c.val fun y => { y with sent := l.map fun (e : Event) => match x.sentEvent e with
          | none => ⟨e.seq, wallNs s, cfgFogRetry s⟩
          | some t => if t.sentAt + t.waitMs * 1000000 ≤ wallNs s then ⟨e.seq, wallNs s, min 3200 (2 * t.waitMs)⟩ else t } }
        out := .foghorn c.val (foghornPort s) (foghornDatagram s 1 c.val due) :: s.out }) ∧
  (∀ (s : State) (c : Fin 4) (d : Bytes) (x : Collector) (q : Nat), keeperUp s = true → x = s.bop.collectors.get c.val → x.state ≠ 0 → ackGood s c.val d = true → q = beAt d 16 4 → seqFrom x.from_ q = true → seqFrom q (highestSeq s) = true → q ≠ s.bop.nextSeq →
    exec (.foghornAck c d) s = .next { s with bop := { s.bop with collectors := s.bop.collectors.modify c.val fun y => { y with
        state := 1, ackedAt := wallNs s, acked := q, from_ := (q + 1) % 2 ^ 32
        sent := y.sent.filter fun t => later 32 t.seq q } } }) ∧
  (∀ (s : State) (c : Fin 4), keeperUp s = true → (s.bop.collectors.get c.val).state ≠ 0 → s.mgmt.mpUp.getLsbD (foghornPort s) = true → (s.bop.collectors.get c.val).heartbeatAt + cfgFogHeartbeat s * 1000000 ≤ wallNs s →
    exec (.foghornHeartbeat c) s = .next { s with
        bop := { s.bop with collectors := s.bop.collectors.modify c.val fun y => { y with heartbeatAt := wallNs s } }
        out := .foghorn c.val (foghornPort s) (foghornDatagram s 2 c.val []) :: s.out }) ∧
  (∀ (s : State) (c : Fin 4), keeperUp s = true → (s.bop.collectors.get c.val).state = 1 → (s.bop.collectors.get c.val).ackedAt + cfgFogStale s * 1000000000 ≤ wallNs s →
    exec (.collectorStale c) s = .next { s with bop := { s.bop with collectors := s.bop.collectors.modify c.val fun y => { y with state := 2 } } }) ∧
  (∀ (s : State) (r : Role) (c : Fin 4) (a : Bytes), Permitted r (0x010030 + c.val) 1 s → a.length ≤ 16 →
    exec (.collectorAddr r c a) s = .next (answer stDone { s with bop := { s.bop with collectors := s.bop.collectors.set c.val (if allZero (padTo 16 a) then Collector.reset else { Collector.reset with address := padTo 16 a, state := 1, ackedAt := wallNs s, heartbeatAt := wallNs s, from_ := oldestSeq s }) } })) ∧
  (∀ (s : State) (r : Role) (key : Bytes), Permitted r 0x010020 1 s → key.length ≤ 32 →
    exec (.keyWrite r 5 key) s = .next (answer stDone { s with bop := { s.bop with foghornKey := padTo 32 key } }))

/-- Register writes, mailboxes, bit aliases and the accesses of JTAG (17 R494 to R500, R502, R503, R507, R508, R510, 00
R8, 18 R549, R550). Clause by clause: the hypotheses name a case of `registerWrite`, `absentUnitAccess`, `mbGo`,
`bitAliasWrite`, `regAccess`, `frzRead`, `memoryIslandIdle`, the conclusion says that the command answers a next state
and what that state holds. Corners the manual leaves open are the model's choice: log 37, 75, 76, 132, 136. -/
def Obligations.RegisterAccess : Prop :=
  (∀ (s : State) (m : Fin 16) (a v : Word), addrAligned a = true → addrDie a < 9 → addrBlock a ≠ 0xFE → addrBlock a ≠ 0xF8 → Granted s m.val (addrDie a) (addrBlock a) (addrWord a) true →
    exec (.registerWrite m a v) s = .next (regStore m.val (addrDie a) (addrBlock a) (addrWord a) v s)) ∧
  (∀ (s : State) (m : Fin 16) (a v : Word), addrAligned a = true → addrDie a < 9 → blockPlain (addrBlock a) = true → Granted s m.val (addrDie a) (addrBlock a) (addrWord a) true →
    exec (.registerWrite m a v) s = .next { s with regs := { s.regs with plain := s.regs.plain.set (plainKey (addrDie a) (addrBlock a) (addrWord a)) v } }) ∧
  (∀ (s : State) (m : Fin 16) (a v : Word), addrAligned a = true → addrDie a < 9 → addrBlock a ≠ 0xFE → accessCheck s m.val (addrDie a) (addrBlock a) (addrWord a) true = .denied →
    exec (.registerWrite m a v) s = .next (count (addrDie a) 0xD001 0 1 s)) ∧
  (∀ (s : State) (m : Fin 16) (a v : Word), addrAligned a = true → addrDie a = 15 → diesUp s ≠ [] → clocksRun s = true → addrBlock a ≠ 0x20 →
    exec (.registerWrite m a v) s = .next ((diesUp s).foldl (fun s d => writeOn m.val d (addrBlock a) (addrWord a) v s) s)) ∧
  (∀ (s : State) (m : Fin 16) (a : Word) (w : Option Word), addrAligned a = true → addrDie a < 8 → blockAbsent s (addrDie a) (addrBlock a) = true → dieAnswers s (addrDie a) = true → blockListed (addrDie a) (addrBlock a) = true →
    exec (.absentUnitAccess m a w) s = .next (count (addrDie a) 0x0001 0 1 s)) ∧
  (∀ (s : State) (m : Fin 16) (die : AnyDie) (v : Word) (b : Mailbox) (u : State), Granted s m.val die.val 0xF8 (0x20 * m.val + 1) true → (u = onMailbox m.val die.val (fun b => { b with write := v.getLsbD 28, countM1 := bits v.toNat 3 0 }) s) → b = u.regs.mailboxes.get (die.val * 16 + m.val) → addrAligned b.addr = true → (∀ i < b.countM1 + 1, mbWordCheck u m.val die.val (addrBlock b.addr) (addrWord b.addr + i) b.write = .granted) →
    exec (.mbGo m die v) s = .next (onMailbox m.val die.val (fun b => { b with error := false })
        (if b.write then mbWrites m.val die.val (addrBlock b.addr) b.data (b.countM1 + 1) (addrWord b.addr) 0 u
         else mbReads m.val die.val (addrBlock b.addr) (b.countM1 + 1) (addrWord b.addr) 0 u))) ∧
  (∀ (s : State) (m : Fin 16) (die : AnyDie) (v : Word) (b : Mailbox) (u : State) (i : Nat), Granted s m.val die.val 0xF8 (0x20 * m.val + 1) true → (u = onMailbox m.val die.val (fun b => { b with write := v.getLsbD 28, countM1 := bits v.toNat 3 0 }) s) → b = u.regs.mailboxes.get (die.val * 16 + m.val) → addrAligned b.addr = true → i ≤ b.countM1 → (∀ j < i, mbWordCheck u m.val die.val (addrBlock b.addr) (addrWord b.addr + j) b.write = .granted) → mbWordCheck u m.val die.val (addrBlock b.addr) (addrWord b.addr + i) b.write = .denied →
    exec (.mbGo m die v) s = .next (onMailbox m.val die.val (fun b => { b with error := true }) (count die.val 0xD001 0 1 u))) ∧
  (∀ (s : State) (m : Fin 16) (die : AnyDie) (w : BitVec 18) (x : Bool), Granted s m.val die.val 0xFE w.toNat true → Granted s m.val die.val (aliasBlock w.toNat) (aliasWord w.toNat) true → bit (rwMask die.val (aliasBlock w.toNat) (aliasWord w.toNat)) (aliasBit w.toNat) = true → aliasBlock w.toNat ≠ 0x20 →
    exec (.bitAliasWrite m die w x) s = .next (regStore m.val die.val (aliasBlock w.toNat) (aliasWord w.toNat)
        (BitVec.ofNat 32 (setBit (regPeek s m.val die.val (aliasBlock w.toNat) (aliasWord w.toNat) &&& rwMask die.val (aliasBlock w.toNat) (aliasWord w.toNat)) (aliasBit w.toNat) x)) s)) ∧
  (∀ (s u v : State) (a : Word) (w : Option Word), u = jtagMark false s → regReadAt 10 a u = (w, v) →
    exec (.regAccess a none) s = .next { v with regs := { v.regs with jtagValid := true, jtagError := w.isNone, jtagData := w.getD 0 } }) ∧
  (∀ (s u : State) (a v : Word), u = jtagMark true s →
    exec (.regAccess a (some v)) s = .next { regWrite 10 a v u with regs := { (regWrite 10 a v u).regs with jtagValid := true, jtagError := writeErrs u 10 a, jtagData := 0 } }) ∧
  (∀ (s : State), jtagAdmits s false = true → s.start.state ≠ .frozen → clocksRun s = true →
    jtagMark false s = measEvent 1 s) ∧
  (∀ (s : State) (die : AnyDie) (n : Byte) (a : Word), s.start.state = .frozen → jtagPolicy s < 2 →
    exec (.frzRead die (.space 0) n a) s = .next { s with
        ras := { s.ras with frzJtag := true }
        regs := { s.regs with jtagValid := true, jtagError := (frozenReg s die.val a).isNone, jtagData := (frozenReg s die.val a).getD 0 } }) ∧
  (∀ (s : State) (die : DieIx) (n : Byte) (a : Word) (off : Nat), s.start.state = .frozen → jtagPolicy s < 2 → off = 4 * (n.toNat * 2 ^ 32 + a.toNat) → dieUp s die.val = true → off + 4 ≤ memTop s die.val → memBad s (memAddr die.val off) 4 = false →
    exec (.frzRead ⟨die.val, by omega⟩ (.space 3) n a) s = .next { s with
        ras := { s.ras with frzJtag := true, island := s.ras.island.set die.val (some (wallNs s)) }
        regs := { s.regs with jtagValid := true, jtagError := false, jtagData := BitVec.ofNat 32 (leNat (memSeen s (memAddr die.val off) 4)) } }) ∧
  (∀ (s : State) (die : AnyDie) (n : Byte) (a : Word), s.start.state ≠ .off →
    exec (.frzRead die .bootStatus n a) s = .next { s with
        regs := { s.regs with jtagValid := true, jtagError := false, jtagData := BitVec.ofNat 32 (bootStatus s) } }) ∧
  (∀ (s : State) (die : DieIx) (t : Nat), s.ras.island.get die.val = some t → t + 100000 ≤ wallNs s →
    exec (.memoryIslandIdle die) s = .next { s with ras := { s.ras with island := s.ras.island.set die.val none } })

/-- The reference of the configuration CRC, its commit and the mismatch that a change or an upset reports (17 R504 to
R506). Clause by clause: the hypotheses name a case of `cfgCommit`, `cfgRefWrite`, `cfgRecompute`, the conclusion says
that the command answers a next state and what that state holds. Corners the manual leaves open are the model's
choice: log 135. -/
def Obligations.ConfigurationCrc : Prop :=
  (∀ (s : State) (m : Fin 16) (die : AnyDie), Granted s m.val die.val 0x02 2 true → s.regs.cfgRef.wf = true →
    exec (.cfgCommit m die) s = .next { s with regs := { s.regs with cfgRef := s.regs.cfgRef.set die.val (cfgRun s die.val), cfgMatch := s.regs.cfgMatch.set die.val true } }) ∧
  (∀ (s : State) (m : Fin 16) (die : AnyDie) (v : Word), Granted s m.val die.val 0x02 1 true → s.regs.cfgRef.wf = true → (s.regs.cfgMatch.get die.val = false ∨ v = cfgRun s die.val) →
    exec (.cfgRefWrite m die v) s = .next { s with regs := { s.regs with cfgRef := s.regs.cfgRef.set die.val v, cfgMatch := s.regs.cfgMatch.set die.val (cfgRun s die.val == v) } }) ∧
  (∀ (s : State) (m : Fin 16) (die : AnyDie) (v : Word), Granted s m.val die.val 0x02 1 true → s.regs.cfgRef.wf = true → s.regs.cfgMatch.get die.val = true → v ≠ cfgRun s die.val →
    exec (.cfgRefWrite m die v) s = .next (raise 0x1F01 0 (unitOf die.val 0 0) (args32 [((cfgRun s die.val).toNat : Int), (v.toNat : Int)])
        { s with regs := { s.regs with cfgRef := s.regs.cfgRef.set die.val v, cfgMatch := s.regs.cfgMatch.set die.val false, cfgSeen := s.regs.cfgSeen.set die.val true } })) ∧
  (∀ (s : State) (die : AnyDie) (v : Word), dieAnswers s die.val = true → v ≠ cfgRun s die.val → s.regs.cfgRun.wf = true →
    exec (.cfgRecompute die v) s = .next (cfgCompare die.val (raise 0x1F02 0 (unitOf die.val 0 0) (args32 [(v.toNat : Int), ((cfgRun s die.val).toNat : Int)])
        { s with regs := { s.regs with cfgUpset := s.regs.cfgUpset.set die.val true, cfgRun := s.regs.cfgRun.set die.val (v ^^^ Config.cfgRunReset die.val) } })) ∧
      cfgRun { s with regs := { s.regs with cfgUpset := s.regs.cfgUpset.set die.val true, cfgRun := s.regs.cfgRun.set die.val (v ^^^ Config.cfgRunReset die.val) } } die.val = v)

/-- A descriptor is fetched, carried out and completed; a channel is enabled, its head moved and aborted; an engine halts
and resumes (17 R513 to R518, R521 to R523, R525). Clause by clause: the hypotheses name a case of `chHeadWrite`,
`chEnable`, `chAbort`, `dmaDescriptorFetch`, `dmaDescriptorComplete`, `dmaHalted`, `resume`, the conclusion says that
the command answers a next state and what that state holds. Corners the manual leaves open are the model's choice: log
74, 133, 134. -/
def Obligations.DmaEngines : Prop :=
  (∀ (s : State) (m : Fin 16) (e : AnyDie) (c : Fin 32) (v : Word), Granted s m.val e.val 0x0E (0x103 + 16 * c.val) true →
    exec (.chHeadWrite m e c v) s = .next { s with regs := { s.regs with chans := s.regs.chans.modify (chKey e.val c.val) fun x => { x with head := v.setWidth 17 } } }) ∧
  (∀ (s : State) (m : Fin 16) (e : AnyDie) (c : Fin 32) (v : Word), Granted s m.val e.val 0x0E (0x100 + 16 * c.val) true → v.getLsbD 30 = false →
    exec (.chEnable m e c v) s = .next { s with regs := { s.regs with chans := s.regs.chans.modify (chKey e.val c.val) fun x => { x with
        enable := v.getLsbD 31, error := x.error && v.getLsbD 31, irqTarget := bits v.toNat 10 8, ringLog2 := if x.enable then x.ringLog2 else bits v.toNat 4 0 } } }) ∧
  (∀ (s : State) (m : Fin 16) (e : AnyDie) (c : Fin 32), Granted s m.val e.val 0x0E (0x100 + 16 * c.val) true →
    exec (.chAbort m e c) s = .next { s with regs := { s.regs with chans := s.regs.chans.modify (chKey e.val c.val) fun x => { x with
        enable := false, flight := x.flight.map fun f => { f with outcome := 0x0A, stamp := none } } } }) ∧
  (∀ (s : State) (e : AnyDie) (c : Fin 32) (u : Option (Nat × Nat)) (x : Chan) (i a k : Nat) (d : Desc), engineRuns s e.val = true → (engineAt s e.val).halted = false → (engineAt s e.val).halting = false → x = chanAt s e.val c.val → x.enable = true → x.error = false → x.flight = [] → leftToFetch x ≠ 0 → ringSound x ((x.head - x.tail).toNat) = true → i = nextIndex x → a = (x.base.toNat + 64 * (i % 2 ^ x.ringLog2)) % 2 ^ 64 → a % 64 = 0 → dmaUnit s e.val (chOwner s e.val c.val) a = .ok k → memBad s k 64 = false → d = descOf (memSeen s k 64) →
    exec (.dmaDescriptorFetch e ⟨c, u⟩) s = .next (runDesc e.val c.val { d with upset := u } (chKey e.val c.val, i)
        { s with regs := { s.regs with chans := s.regs.chans.modify (chKey e.val c.val) fun y => { y with flight := y.flight ++ [⟨i, a, d.irq, 0, none⟩] } } })) ∧
  (∀ (s : State) (e : AnyDie) (c : Fin 32) (g : Nat × Nat) (d : Desc) (j : Nat), d.op = 2 → d.aligned = true → d.good e.val = true → d.length = 64 → dmaUnit s e.val (chOwner s e.val c.val) d.dst = .ok j →
    runDesc e.val c.val d g s = emitOutcome (some g) 0x01 0 (coverMem { s with mem := memPut s.mem j (List.replicate 16 (leBytes 4 d.pattern)).flatten } e.val (chOwner s e.val c.val) d.dst 64)) ∧
  (∀ (s : State) (e : AnyDie) (c : Fin 32) (g : Nat × Nat) (d : Desc) (k j : Nat), d.op = 1 → d.aligned = true → d.good e.val = true → d.length = 64 → dmaUnit s e.val (chOwner s e.val c.val) d.src = .ok k → dmaUnit s e.val (chOwner s e.val c.val) d.dst = .ok j →
    runDesc e.val c.val d g s = emitOutcome (some g) (if memBad s k 64 then 0x08 else 0x01) 0 (coverMem { s with mem := memPut s.mem j (if memBad s k 64 then List.replicate 64 0 else memSeen s k 64) } e.val (chOwner s e.val c.val) d.dst 64)) ∧
  (∀ (s : State) (e : AnyDie) (c : Fin 32) (f : Flight) (l : List Flight) (k : Nat) (m : List Host.Cell), (chanAt s e.val c.val).flight = f :: l → engineRuns s e.val = true → f.outcome ≠ 0 → dmaUnit s e.val (chOwner s e.val c.val) (f.address / 64 * 64) = .ok k → m = memPut s.mem (k + f.address % 64 + 56) [BitVec.ofNat 8 f.outcome] →
    Answers (.dmaDescriptorComplete e c) s fun t =>
      t.mem = (match f.stamp with | some x => memPut m (k + f.address % 64 + 60) (leBytes 4 x.toNat) | none => m) ∧
      t.regs = { s.regs with
        chans := s.regs.chans.modify (chKey e.val c.val) (fun y => { y with flight := y.flight.drop 1, tail := y.tail + 1, lastStatus := f.outcome, done := y.done + 1, error := y.error || decide (6 ≤ f.outcome) })
        engines := if f.irq || decide (6 ≤ f.outcome) then s.regs.engines.modify e.val (fun g => { g with irqStatus := g.irqStatus ||| BitVec.ofNat 32 (2 ^ c.val) }) else s.regs.engines } ∧
      t.bop = s.bop ∧ t.switch = s.switch) ∧
  (∀ (s : State) (e : AnyDie), engineRuns s e.val = true → (engineAt s e.val).halting = true → (∀ c : Fin 32, (chanAt s e.val c.val).flight = []) →
    exec (.dmaHalted e) s = .next (raise 0x0E01 0 (unitOf e.val 0 0) (args32 [((engineAt s e.val).errChannel : Int), ((engineAt s e.val).errCode : Int)] ++ beBytes 8 (engineAt s e.val).errAddr)
        { s with regs := { s.regs with engines := (s.regs.engines.modify e.val fun g => { g with halted := true, halting := false }).modify e.val fun g => { g with irqStatus := g.irqStatus ||| BitVec.ofNat 32 (2 ^ (engineAt s e.val).errChannel) } } })) ∧
  (∀ (s : State) (m : Fin 16) (e : AnyDie), Granted s m.val e.val 0x0E 3 true → (engineAt s e.val).halted = true →
    exec (.resume none m e) s = .next { s with regs := { s.regs with engines := s.regs.engines.modify e.val fun g => { g with halted := false } } }) ∧
  (∀ (s : State) (r : Role) (m : Fin 16) (e : AnyDie), Permitted r 0x0E0002 (e.val + 1) s → (engineAt s e.val).halted = true →
    exec (.resume (some r) m e) s = .next (answer stDone { s with regs := { s.regs with engines := s.regs.engines.modify e.val fun g => { g with halted := false } } }))

/-- Scrubbing, memory errors, self-tests of operator cells, retests and the sticky counter flags (18 R530 to R540, R545).
Clause by clause: the hypotheses name a case of `scrubRead`, `sramScrub`, `scrubBehind`, `memCeHigh`,
`memUncorrectable`, `cellSelftest`, `crosscheckRetest`, `counterFlagsClear`, the conclusion says that the command
answers a next state and what that state holds. Corners the manual leaves open are the model's choice: log 137, 138. -/
def Obligations.SilentErrors : Prop :=
  (∀ (s : State) (die : DieIx) (ch : Fin 24) (g n : Nat) (h : Nat), dieUp s die.val = true → clocksRun s = true → granuleChannel s die.val g = ch.val → g * 256 < memTop s die.val → h = nowNs s / hourNs → s.ras.ceHourStart.get (ceKey die.val ch.val) = h → s.ras.scrubNext.get die.val ≠ g → 1 ≤ n → n ≤ 3 →
    exec (.scrubRead die ch g n) s = .next { count die.val 0xE002 ch.val 1 s with ras := { s.ras with
        ceHour := s.ras.ceHour.set (ceKey die.val ch.val) (s.ras.ceHour.get (ceKey die.val ch.val) + 1), ceHourStart := s.ras.ceHourStart.set (ceKey die.val ch.val) h } }) ∧
  (∀ (s : State) (die : DieIx) (ch : Fin 24) (g n : Nat), dieUp s die.val = true → clocksRun s = true → granuleChannel s die.val g = ch.val → g * 256 < memTop s die.val → s.ras.scrubNext.get die.val ≠ g → (n = 4 ∨ n = 5) →
    exec (.scrubRead die ch g n) s = exec (.memUncorrectable die ch g) s) ∧
  (∀ (s : State) (die : DieIx) (ch : Fin 24) (g : Nat), dieUp s die.val = true → clocksRun s = true → granuleChannel s die.val g = ch.val → s.ras.scrubNext.get die.val = g → (g + 1) * 256 < memTop s die.val →
    exec (.scrubRead die ch g 0) s = .next { s with ras := { s.ras with scrubNext := s.ras.scrubNext.set die.val (g + 1) } }) ∧
  (∀ (s : State) (die : DieIx) (ce ue a w : Nat), dieUp s die.val = true → clocksRun s = true →
    exec (.sramScrub die ce ue a w) s = .next (
        let t := count die.val 0xE001 0 ue (count die.val 0xE000 0 ce { s with ras := { s.ras with sramAt := s.ras.sramAt.set die.val (nowNs s) } })
        if ue = 0 then t else raise 0x1005 0 (unitOf die.val 0 0) (args32 [(a : Int), (w : Int)]) t)) ∧
  (∀ (s : State) (die : DieIx), dieUp s die.val = true → clocksRun s = true → s.ras.scrubSent.get die.val = false → s.ras.scrubStart.get die.val + 2 * cfgScrubPeriod s * hourNs ≤ nowNs s →
    exec (.scrubBehind die) s = .next (raise 0x1006 1 (unitOf die.val 0 0) (args32 [((nowNs s - s.ras.scrubStart.get die.val) / hourNs : Nat)])
        { s with ras := { s.ras with scrubSent := s.ras.scrubSent.set die.val true } })) ∧
  (∀ (s : State) (die : DieIx) (ch : Fin 24) (n : Nat), dieUp s die.val = true → clocksRun s = true → channelUp s die.val ch.val = true → s.ras.ceHourStart.get (ceKey die.val ch.val) = nowNs s / hourNs → s.ras.ceSent.get (ceKey die.val ch.val) = false → n = s.ras.ceHour.get (ceKey die.val ch.val) → cfgMemCeLimit s < n →
    exec (.memCeHigh die ch) s = .next (raise 0x1004 1 (unitOf die.val ch.val 0) (args32 [(n : Int)]) { s with ras := { s.ras with ceSent := s.ras.ceSent.set (ceKey die.val ch.val) true } })) ∧
  (∀ (s : State) (die : DieIx) (ch : Fin 24) (g : Nat), dieUp s die.val = true → clocksRun s = true → granuleChannel s die.val g = ch.val → g * 256 < memTop s die.val → memAddr die.val (g * 256) / 256 ∉ s.ras.poisoned →
    exec (.memUncorrectable die ch g) s = .next (raise 0x1003 0 (unitOf die.val ch.val 0) (beBytes 8 (g * 256) ++ args32 [(ownerOf s die.val (g * 256) : Int)])
        (count die.val 0xE003 ch.val 1 { s with ras := { s.ras with poisoned := memAddr die.val (g * 256) / 256 :: s.ras.poisoned } }))) ∧
  (∀ (s y : State) (die : DieIx) (tile : TileIx) (row : Fin 8) (pos : Fin 17) (op : Nat), dieUp s die.val = true → clocksRun s = true → tileUp s die.val tile.val = true → testable s die.val tile.val row.val pos.val = true → tilelessDies s = [] → y = { s with ras := { s.ras with lastGood := s.ras.lastGood.set (tileKey die.val tile.val) (row.val * 32 + pos.val + 1), testedCells := s.ras.testedCells.modify (tileKey die.val tile.val) (Nat.lor · (2 ^ (17 * row.val + pos.val))) } } →
    exec (.cellSelftest die tile row pos op false false false false) s = .next (if allTested y die.val tile.val then passEnds die.val tile.val y else y)) ∧
  (∀ (s y : State) (die : DieIx) (tile : TileIx) (row : Fin 8) (pos : Fin 17) (op : Nat), dieUp s die.val = true → clocksRun s = true → tileUp s die.val tile.val = true → testable s die.val tile.val row.val pos.val = false → tilelessDies s = [] → y = { s with ras := { s.ras with testedCells := s.ras.testedCells.modify (tileKey die.val tile.val) (Nat.lor · (2 ^ (17 * row.val + pos.val))) } } → allTested y die.val tile.val = true →
    exec (.cellSelftest die tile row pos op false false false false) s = .next { y with ras := { y.ras with
        passAt := y.ras.passAt.set (tileKey die.val tile.val) (tmuNs s), testedCells := y.ras.testedCells.set (tileKey die.val tile.val) 0, tested := y.ras.tested ||| BitVec.ofNat 64 (2 ^ (8 * die.val + tile.val)) } }) ∧
  (∀ (s t y : State) (die : DieIx) (tile : TileIx) (row : Fin 8) (pos : Fin 17) (op : Nat) (store : Bool), dieUp s die.val = true → clocksRun s = true → tileUp s die.val tile.val = true → testable s die.val tile.val row.val pos.val = true → t = cellFails die.val tile.val row.val pos.val op s → y = { t with ras := { t.ras with testedCells := t.ras.testedCells.modify (tileKey die.val tile.val) (Nat.lor · (2 ^ (17 * row.val + pos.val))) } } →
    exec (.cellSelftest die tile row pos op true false store false) s = .next (loseTileless (if tileUp y die.val tile.val && allTested y die.val tile.val then passEnds die.val tile.val y else y))) ∧
  (∀ (s t : State) (die : DieIx) (tile : TileIx) (row : Fin 8) (pos : Fin 17) (op : Nat) (store : Bool), dieUp s die.val = true → clocksRun s = true → tileUp s die.val tile.val = true → testable s die.val tile.val row.val pos.val = true → t = tileLost die.val tile.val 5 s →
    exec (.cellSelftest die tile row pos op true true store true) s = .next (loseTileless { t with ras := { t.ras with testedCells := t.ras.testedCells.modify (tileKey die.val tile.val) (Nat.lor · (2 ^ (17 * row.val + pos.val))) } })) ∧
  (∀ (s : State) (die : DieIx) (tile : TileIx), dieUp s die.val = true → clocksRun s = true → tileUp s die.val tile.val = true → (∀ t, s.ras.transientAt.get (tileKey die.val tile.val) = some t → t + hourNs ≤ nowNs s) →
    exec (.crosscheckRetest die tile false) s = .next { s with ras := { s.ras with transientAt := s.ras.transientAt.set (tileKey die.val tile.val) (some (nowNs s)) } }) ∧
  (∀ (s : State) (die : DieIx) (tile : TileIx) (t : Nat), dieUp s die.val = true → clocksRun s = true → tileUp s die.val tile.val = true → s.ras.transientAt.get (tileKey die.val tile.val) = some t → nowNs s < t + hourNs →
    exec (.crosscheckRetest die tile true) s = .next (loseTileless (tileLost die.val tile.val 5 s)) ∧
      exec (.crosscheckRetest die tile false) s = .next (loseTileless (tileLost die.val tile.val 5 { s with ras := { s.ras with transientAt := s.ras.transientAt.set (tileKey die.val tile.val) (some (nowNs s)) } }))) ∧
  (∀ (s : State) (d : DieIx), clocksRun s = true → isS s = false → diesUp s = [d.val] → tileUp s d.val 1 = true → (∀ t, t < 8 → t ≠ 1 → tileUp s d.val t = false) →
    Answers (.crosscheckRetest d 1 true) s fun t => dieUp t d.val = false ∧ t.start.state = .halted ∧ t.start.haltCause = 4 ∧ t.time = s.time) ∧
  (∀ (s : State) (r : Role) (ev i : BitVec 16) (die fl : Byte), Permitted r 0x10F002 1 s → counterHeld s die.toNat ev.toNat i.toNat = true →
    exec (.counterFlagsClear r ev die i fl) s = .next (answer stDone (clearFlags die.toNat ev.toNat i.toNat fl.toNat s)))

end
end

