-- ==== Sys2Proof/Laws/Hide.lean ====
section
/-! SUPPORT. What a state keeps: `State.hide`, a state with some of its parts replaced by their reset values, and its laws. Two
states equal under `hide m` differ at most in the parts that `m` names (bit i names the i-th field of `State`; the
generators `gens` go with `free`, bit 19). -/

set_option linter.all false

namespace Sys2Proof.Machine


/-- A state with the parts named by a mask (bit i: the i-th field of `State`) replaced by their reset values: two states that
are equal under `hide m` differ in those parts only. -/
def State.hide (m : Nat) (s : State) : State where
  power := if m.testBit 0 = true then Power.reset else s.power
  time := if m.testBit 1 = true then Time.reset else s.time
  start := if m.testBit 2 = true then Start.reset else s.start
  keeper := if m.testBit 3 = true then Keeper.reset else s.keeper
  tables := if m.testBit 4 = true then Tables.reset else s.tables
  switch := if m.testBit 5 = true then Switch.reset else s.switch
  flow := if m.testBit 6 = true then Flow.reset else s.flow
  coll := if m.testBit 7 = true then Coll.reset else s.coll
  fabric := if m.testBit 8 = true then Fabric.reset else s.fabric
  resident := if m.testBit 9 = true then Resident.reset else s.resident
  optics := if m.testBit 10 = true then Optics.reset else s.optics
  express := if m.testBit 11 = true then Express.reset else s.express
  mgmt := if m.testBit 12 = true then Mgmt.reset else s.mgmt
  bop := if m.testBit 13 = true then Bop.reset else s.bop
  regs := if m.testBit 14 = true then Regs.reset else s.regs
  ras := if m.testBit 15 = true then Ras.reset else s.ras
  mem := if m.testBit 16 = true then [] else s.mem
  obj := if m.testBit 17 = true then [] else s.obj
  out := if m.testBit 18 = true then [] else s.out
  free := if m.testBit 19 = true then 0 else s.free
  gens := if m.testBit 19 = true then .empty 0 else s.gens
  pending := if m.testBit 20 = true then [] else s.pending

theorem State.hide_mono {m M : Nat} {s t : State} (h : s.hide m = t.hide m) (hm : m &&& M = m) : s.hide M = t.hide M := by
  have key : ∀ i, m.testBit i = true → M.testBit i = true := fun i hi => by
    have := congrArg (fun x => x.testBit i) hm
    simp [hi] at this
    exact this
  have e := h
  simp only [State.hide, State.mk.injEq] at e ⊢
  obtain ⟨e0, e1, e2, e3, e4, e5, e6, e7, e8, e9, e10, e11, e12, e13, e14, e15, e16, e17, e18, e19, e20, e21⟩ := e
  refine ⟨?_, ?_, ?_, ?_, ?_, ?_, ?_, ?_, ?_, ?_, ?_, ?_, ?_, ?_, ?_, ?_, ?_, ?_, ?_, ?_, ?_, ?_⟩
  · have := key 0
    by_cases hb : m.testBit 0 = true <;> simp_all
  · have := key 1
    by_cases hb : m.testBit 1 = true <;> simp_all
  · have := key 2
    by_cases hb : m.testBit 2 = true <;> simp_all
  · have := key 3
    by_cases hb : m.testBit 3 = true <;> simp_all
  · have := key 4
    by_cases hb : m.testBit 4 = true <;> simp_all
  · have := key 5
    by_cases hb : m.testBit 5 = true <;> simp_all
  · have := key 6
    by_cases hb : m.testBit 6 = true <;> simp_all
  · have := key 7
    by_cases hb : m.testBit 7 = true <;> simp_all
  · have := key 8
    by_cases hb : m.testBit 8 = true <;> simp_all
  · have := key 9
    by_cases hb : m.testBit 9 = true <;> simp_all
  · have := key 10
    by_cases hb : m.testBit 10 = true <;> simp_all
  · have := key 11
    by_cases hb : m.testBit 11 = true <;> simp_all
  · have := key 12
    by_cases hb : m.testBit 12 = true <;> simp_all
  · have := key 13
    by_cases hb : m.testBit 13 = true <;> simp_all
  · have := key 14
    by_cases hb : m.testBit 14 = true <;> simp_all
  · have := key 15
    by_cases hb : m.testBit 15 = true <;> simp_all
  · have := key 16
    by_cases hb : m.testBit 16 = true <;> simp_all
  · have := key 17
    by_cases hb : m.testBit 17 = true <;> simp_all
  · have := key 18
    by_cases hb : m.testBit 18 = true <;> simp_all
  · have := key 19
    by_cases hb : m.testBit 19 = true <;> simp_all
  · have := key 19
    by_cases hb : m.testBit 19 = true <;> simp_all
  · have := key 20
    by_cases hb : m.testBit 20 = true <;> simp_all
@[simp] theorem State.hide_with_power {M : Nat} (h : 1 &&& M = 1) (s : State) (v) :
    State.hide M { s with power := v } = s.hide M := State.hide_mono (m := 1) rfl h
@[simp] theorem State.hide_with_time {M : Nat} (h : 2 &&& M = 2) (s : State) (v) :
    State.hide M { s with time := v } = s.hide M := State.hide_mono (m := 2) rfl h
@[simp] theorem State.hide_with_start {M : Nat} (h : 4 &&& M = 4) (s : State) (v) :
    State.hide M { s with start := v } = s.hide M := State.hide_mono (m := 4) rfl h
@[simp] theorem State.hide_with_keeper {M : Nat} (h : 8 &&& M = 8) (s : State) (v) :
    State.hide M { s with keeper := v } = s.hide M := State.hide_mono (m := 8) rfl h
@[simp] theorem State.hide_with_tables {M : Nat} (h : 16 &&& M = 16) (s : State) (v) :
    State.hide M { s with tables := v } = s.hide M := State.hide_mono (m := 16) rfl h
@[simp] theorem State.hide_with_switch {M : Nat} (h : 32 &&& M = 32) (s : State) (v) :
    State.hide M { s with switch := v } = s.hide M := State.hide_mono (m := 32) rfl h
@[simp] theorem State.hide_with_flow {M : Nat} (h : 64 &&& M = 64) (s : State) (v) :
    State.hide M { s with flow := v } = s.hide M := State.hide_mono (m := 64) rfl h
@[simp] theorem State.hide_with_coll {M : Nat} (h : 128 &&& M = 128) (s : State) (v) :
    State.hide M { s with coll := v } = s.hide M := State.hide_mono (m := 128) rfl h
@[simp] theorem State.hide_with_fabric {M : Nat} (h : 256 &&& M = 256) (s : State) (v) :
    State.hide M { s with fabric := v } = s.hide M := State.hide_mono (m := 256) rfl h
@[simp] theorem State.hide_with_resident {M : Nat} (h : 512 &&& M = 512) (s : State) (v) :
    State.hide M { s with resident := v } = s.hide M := State.hide_mono (m := 512) rfl h
@[simp] theorem State.hide_with_optics {M : Nat} (h : 1024 &&& M = 1024) (s : State) (v) :
    State.hide M { s with optics := v } = s.hide M := State.hide_mono (m := 1024) rfl h
@[simp] theorem State.hide_with_express {M : Nat} (h : 2048 &&& M = 2048) (s : State) (v) :
    State.hide M { s with express := v } = s.hide M := State.hide_mono (m := 2048) rfl h
@[simp] theorem State.hide_with_mgmt {M : Nat} (h : 4096 &&& M = 4096) (s : State) (v) :
    State.hide M { s with mgmt := v } = s.hide M := State.hide_mono (m := 4096) rfl h
@[simp] theorem State.hide_with_bop {M : Nat} (h : 8192 &&& M = 8192) (s : State) (v) :
    State.hide M { s with bop := v } = s.hide M := State.hide_mono (m := 8192) rfl h
@[simp] theorem State.hide_with_regs {M : Nat} (h : 16384 &&& M = 16384) (s : State) (v) :
    State.hide M { s with regs := v } = s.hide M := State.hide_mono (m := 16384) rfl h
@[simp] theorem State.hide_with_ras {M : Nat} (h : 32768 &&& M = 32768) (s : State) (v) :
    State.hide M { s with ras := v } = s.hide M := State.hide_mono (m := 32768) rfl h
@[simp] theorem State.hide_with_mem {M : Nat} (h : 65536 &&& M = 65536) (s : State) (v) :
    State.hide M { s with mem := v } = s.hide M := State.hide_mono (m := 65536) rfl h
@[simp] theorem State.hide_with_obj {M : Nat} (h : 131072 &&& M = 131072) (s : State) (v) :
    State.hide M { s with obj := v } = s.hide M := State.hide_mono (m := 131072) rfl h
@[simp] theorem State.hide_with_out {M : Nat} (h : 262144 &&& M = 262144) (s : State) (v) :
    State.hide M { s with out := v } = s.hide M := State.hide_mono (m := 262144) rfl h
@[simp] theorem State.hide_with_free {M : Nat} (h : 524288 &&& M = 524288) (s : State) (v) :
    State.hide M { s with free := v } = s.hide M := State.hide_mono (m := 524288) rfl h
@[simp] theorem State.hide_with_gens {M : Nat} (h : 524288 &&& M = 524288) (s : State) (v) :
    State.hide M { s with gens := v } = s.hide M := State.hide_mono (m := 524288) rfl h
@[simp] theorem State.hide_with_pending {M : Nat} (h : 1048576 &&& M = 1048576) (s : State) (v) :
    State.hide M { s with pending := v } = s.hide M := State.hide_mono (m := 1048576) rfl h
@[simp] theorem State.hide_onPower {M : Nat} (h : 1 &&& M = 1) (s : State) (f) :
    (s.onPower f).hide M = s.hide M := State.hide_with_power h s _
@[simp] theorem State.hide_onTime {M : Nat} (h : 2 &&& M = 2) (s : State) (f) :
    (s.onTime f).hide M = s.hide M := State.hide_with_time h s _
@[simp] theorem State.hide_onStart {M : Nat} (h : 4 &&& M = 4) (s : State) (f) :
    (s.onStart f).hide M = s.hide M := State.hide_with_start h s _
@[simp] theorem State.hide_onKeeper {M : Nat} (h : 8 &&& M = 8) (s : State) (f) :
    (s.onKeeper f).hide M = s.hide M := State.hide_with_keeper h s _
@[simp] theorem State.hide_onTables {M : Nat} (h : 16 &&& M = 16) (s : State) (f) :
    (s.onTables f).hide M = s.hide M := State.hide_with_tables h s _
@[simp] theorem State.hide_onSwitch {M : Nat} (h : 32 &&& M = 32) (s : State) (f) :
    (s.onSwitch f).hide M = s.hide M := State.hide_with_switch h s _
@[simp] theorem State.hide_onFlow {M : Nat} (h : 64 &&& M = 64) (s : State) (f) :
    (s.onFlow f).hide M = s.hide M := State.hide_with_flow h s _
@[simp] theorem State.hide_onColl {M : Nat} (h : 128 &&& M = 128) (s : State) (f) :
    (s.onColl f).hide M = s.hide M := State.hide_with_coll h s _
@[simp] theorem State.hide_onFabric {M : Nat} (h : 256 &&& M = 256) (s : State) (f) :
    (s.onFabric f).hide M = s.hide M := State.hide_with_fabric h s _
@[simp] theorem State.hide_onResident {M : Nat} (h : 512 &&& M = 512) (s : State) (f) :
    (s.onResident f).hide M = s.hide M := State.hide_with_resident h s _
@[simp] theorem State.hide_onOptics {M : Nat} (h : 1024 &&& M = 1024) (s : State) (f) :
    (s.onOptics f).hide M = s.hide M := State.hide_with_optics h s _
@[simp] theorem State.hide_onExpress {M : Nat} (h : 2048 &&& M = 2048) (s : State) (f) :
    (s.onExpress f).hide M = s.hide M := State.hide_with_express h s _
@[simp] theorem State.hide_onMgmt {M : Nat} (h : 4096 &&& M = 4096) (s : State) (f) :
    (s.onMgmt f).hide M = s.hide M := State.hide_with_mgmt h s _
@[simp] theorem State.hide_onBop {M : Nat} (h : 8192 &&& M = 8192) (s : State) (f) :
    (s.onBop f).hide M = s.hide M := State.hide_with_bop h s _
@[simp] theorem State.hide_onRegs {M : Nat} (h : 16384 &&& M = 16384) (s : State) (f) :
    (s.onRegs f).hide M = s.hide M := State.hide_with_regs h s _
@[simp] theorem State.hide_onRas {M : Nat} (h : 32768 &&& M = 32768) (s : State) (f) :
    (s.onRas f).hide M = s.hide M := State.hide_with_ras h s _
theorem State.hide_foldl {α : Type} {M : Nat} {f : State → α → State} (h : ∀ s a, (f s a).hide M = s.hide M) (l : List α) :
    ∀ s, (l.foldl f s).hide M = s.hide M := by
  induction l with
  | nil => intro s; rfl
  | cons a l ih => intro s; exact (ih _).trans (h s a)
theorem State.hide_foldl_snd {α β : Type} {M : Nat} {f : β × State → α → β × State}
    (h : ∀ x a, (f x a).2.hide M = x.2.hide M) (l : List α) : ∀ x, (l.foldl f x).2.hide M = x.2.hide M := by
  induction l with
  | nil => intro s; rfl
  | cons a l ih => intro s; exact (ih _).trans (h s a)

/-! ### The parts that two states equal under a mask share -/

theorem State.hide_power {m : Nat} {s t : State} (h : s.hide m = t.hide m) (hm : m.testBit 0 = false) : s.power = t.power := by
  have e := congrArg State.power h
  simpa [State.hide, hm] using e
theorem State.hide_time {m : Nat} {s t : State} (h : s.hide m = t.hide m) (hm : m.testBit 1 = false) : s.time = t.time := by
  have e := congrArg State.time h
  simpa [State.hide, hm] using e
theorem State.hide_start {m : Nat} {s t : State} (h : s.hide m = t.hide m) (hm : m.testBit 2 = false) : s.start = t.start := by
  have e := congrArg State.start h
  simpa [State.hide, hm] using e
theorem State.hide_keeper {m : Nat} {s t : State} (h : s.hide m = t.hide m) (hm : m.testBit 3 = false) : s.keeper = t.keeper := by
  have e := congrArg State.keeper h
  simpa [State.hide, hm] using e
theorem State.hide_tables {m : Nat} {s t : State} (h : s.hide m = t.hide m) (hm : m.testBit 4 = false) : s.tables = t.tables := by
  have e := congrArg State.tables h
  simpa [State.hide, hm] using e
theorem State.hide_switch {m : Nat} {s t : State} (h : s.hide m = t.hide m) (hm : m.testBit 5 = false) : s.switch = t.switch := by
  have e := congrArg State.switch h
  simpa [State.hide, hm] using e
theorem State.hide_flow {m : Nat} {s t : State} (h : s.hide m = t.hide m) (hm : m.testBit 6 = false) : s.flow = t.flow := by
  have e := congrArg State.flow h
  simpa [State.hide, hm] using e
theorem State.hide_coll {m : Nat} {s t : State} (h : s.hide m = t.hide m) (hm : m.testBit 7 = false) : s.coll = t.coll := by
  have e := congrArg State.coll h
  simpa [State.hide, hm] using e
theorem State.hide_fabric {m : Nat} {s t : State} (h : s.hide m = t.hide m) (hm : m.testBit 8 = false) : s.fabric = t.fabric := by
  have e := congrArg State.fabric h
  simpa [State.hide, hm] using e
theorem State.hide_resident {m : Nat} {s t : State} (h : s.hide m = t.hide m) (hm : m.testBit 9 = false) : s.resident = t.resident := by
  have e := congrArg State.resident h
  simpa [State.hide, hm] using e
theorem State.hide_optics {m : Nat} {s t : State} (h : s.hide m = t.hide m) (hm : m.testBit 10 = false) : s.optics = t.optics := by
  have e := congrArg State.optics h
  simpa [State.hide, hm] using e
theorem State.hide_express {m : Nat} {s t : State} (h : s.hide m = t.hide m) (hm : m.testBit 11 = false) : s.express = t.express := by
  have e := congrArg State.express h
  simpa [State.hide, hm] using e
theorem State.hide_mgmt {m : Nat} {s t : State} (h : s.hide m = t.hide m) (hm : m.testBit 12 = false) : s.mgmt = t.mgmt := by
  have e := congrArg State.mgmt h
  simpa [State.hide, hm] using e
theorem State.hide_bop {m : Nat} {s t : State} (h : s.hide m = t.hide m) (hm : m.testBit 13 = false) : s.bop = t.bop := by
  have e := congrArg State.bop h
  simpa [State.hide, hm] using e
theorem State.hide_regs {m : Nat} {s t : State} (h : s.hide m = t.hide m) (hm : m.testBit 14 = false) : s.regs = t.regs := by
  have e := congrArg State.regs h
  simpa [State.hide, hm] using e
theorem State.hide_ras {m : Nat} {s t : State} (h : s.hide m = t.hide m) (hm : m.testBit 15 = false) : s.ras = t.ras := by
  have e := congrArg State.ras h
  simpa [State.hide, hm] using e
theorem State.hide_mem {m : Nat} {s t : State} (h : s.hide m = t.hide m) (hm : m.testBit 16 = false) : s.mem = t.mem := by
  have e := congrArg State.mem h
  simpa [State.hide, hm] using e
theorem State.hide_obj {m : Nat} {s t : State} (h : s.hide m = t.hide m) (hm : m.testBit 17 = false) : s.obj = t.obj := by
  have e := congrArg State.obj h
  simpa [State.hide, hm] using e
theorem State.hide_out {m : Nat} {s t : State} (h : s.hide m = t.hide m) (hm : m.testBit 18 = false) : s.out = t.out := by
  have e := congrArg State.out h
  simpa [State.hide, hm] using e
theorem State.hide_free {m : Nat} {s t : State} (h : s.hide m = t.hide m) (hm : m.testBit 19 = false) : s.free = t.free := by
  have e := congrArg State.free h
  simpa [State.hide, hm] using e
theorem State.hide_gens {m : Nat} {s t : State} (h : s.hide m = t.hide m) (hm : m.testBit 19 = false) : s.gens = t.gens := by
  have e := congrArg State.gens h
  simpa [State.hide, hm] using e
theorem State.hide_pending {m : Nat} {s t : State} (h : s.hide m = t.hide m) (hm : m.testBit 20 = false) : s.pending = t.pending := by
  have e := congrArg State.pending h
  simpa [State.hide, hm] using e

end Sys2Proof.Machine
end

