-- ==== Sys2Proof/Laws/Frames1.lean ====
section
/-! SUPPORT. The parts of the state that the shared operations leave unchanged, one lemma per operation, in the order of the
model's files: part 1 of 5. -/

set_option maxRecDepth 4000
set_option linter.all false

namespace Sys2Proof.Machine



@[simp] theorem State_putMem_frame {M : Nat} (hM : 65536 &&& M = 65536) (s : State) (a : Nat) (b : Bytes) : (State.putMem s a b).hide M = s.hide M := by
  have key : (State.putMem s a b).hide 65536 = s.hide 65536 := by
    unfold State.putMem; simp
  exact State.hide_mono key hM

@[simp] theorem objSet_frame {M : Nat} (hM : 131072 &&& M = 131072) (idx sub v : Nat) (s : State) : (objSet idx sub v s).hide M = s.hide M := by
  have key : (objSet idx sub v s).hide 131072 = s.hide 131072 := by
    unfold objSet; simp
  exact State.hide_mono key hM

@[simp] theorem coverGranules_frame {M : Nat} (hM : 32768 &&& M = 32768) (a n : Nat) (s : State) : (coverGranules a n s).hide M = s.hide M := by
  have key : (coverGranules a n s).hide 32768 = s.hide 32768 := by
    unfold coverGranules; simp
  exact State.hide_mono key hM

@[simp] theorem draw_frame {M : Nat} (hM : 524288 &&& M = 524288) (s : State) : (draw s).2.hide M = s.hide M := by
  have key : (draw s).2.hide 524288 = s.hide 524288 := by
    unfold draw; simp
  exact State.hide_mono key hM

@[simp] theorem setGen_frame {M : Nat} (hM : 524288 &&& M = 524288) (die : Nat) (g : BitVec 128) (s : State) : (setGen die g s).hide M = s.hide M := by
  have key : (setGen die g s).hide 524288 = s.hide 524288 := by
    unfold setGen; simp
  exact State.hide_mono key hM

@[simp] theorem drawOn_frame {M : Nat} (hM : 524288 &&& M = 524288) (die : Nat) (s : State) : (drawOn die s).2.hide M = s.hide M := by
  have key : (drawOn die s).2.hide 524288 = s.hide 524288 := by
    unfold drawOn; simp
  exact State.hide_mono key hM

@[simp] theorem emitOut_frame {M : Nat} (hM : 262144 &&& M = 262144) (o : Out) (s : State) : (emitOut o s).hide M = s.hide M := by
  have key : (emitOut o s).hide 262144 = s.hide 262144 := by
    unfold emitOut; simp
  exact State.hide_mono key hM

@[simp] theorem count_frame {M : Nat} (hM : 16384 &&& M = 16384) (die ev inst n : Nat) (s : State) : (count die ev inst n s).hide M = s.hide M := by
  have key : (count die ev inst n s).hide 16384 = s.hide 16384 := by
    unfold count; ((repeat' split) <;> simp)
  exact State.hide_mono key hM

@[simp] theorem raise_frame {M : Nat} (hM : 24576 &&& M = 24576) (code sev unit : Nat) (args : Bytes) (s : State) : (raise code sev unit args s).hide M = s.hide M := by
  have key : (raise code sev unit args s).hide 24576 = s.hide 24576 := by
    unfold raise; ((repeat' split) <;> (try dsimp only) <;> (repeat' split) <;> simp)
  exact State.hide_mono key hM

@[simp] theorem sessionClosed_frame {M : Nat} (hM : 8192 &&& M = 8192) (k : Nat) (s : State) : (sessionClosed k s).hide M = s.hide M := by
  have key : (sessionClosed k s).hide 8192 = s.hide 8192 := by
    unfold sessionClosed; ((repeat' split) <;> simp)
  exact State.hide_mono key hM

@[simp] theorem sessionsLost_frame {M : Nat} (hM : 8192 &&& M = 8192) (s : State) : (sessionsLost s).hide M = s.hide M := by
  refine State.hide_mono (m := 8192) ?_ hM
  unfold sessionsLost
  dsimp only
  rw [State.hide_with_bop (by decide)]
  exact State.hide_foldl (fun s k => sessionClosed_frame (by decide) k s) _ _

@[simp] theorem answer_frame {M : Nat} (hM : 8192 &&& M = 8192) (code : Nat) (s : State) : (answer code s).hide M = s.hide M := by
  have key : (answer code s).hide 8192 = s.hide 8192 := by
    unfold answer; simp
  exact State.hide_mono key hM

@[simp] theorem guardWrite_frame {M : Nat} (hM : 8192 &&& M = 8192) (r : Role) (idx sub : Nat) (k : State → State)
    (hk : ∀ s, (k s).hide M = s.hide M) (s : State) : (guardWrite r idx sub k s).hide M = s.hide M := by
  unfold guardWrite; (repeat' split) <;> (try dsimp only) <;> (repeat' split) <;> simp [hM, hk]

@[simp] theorem writeRange_frame {M : Nat} (hM : 139264 &&& M = 139264) (idx sub v lo hi : Nat) (s : State) : (writeRange idx sub v lo hi s).hide M = s.hide M := by
  have key : (writeRange idx sub v lo hi s).hide 139264 = s.hide 139264 := by
    unfold writeRange; ((repeat' split) <;> simp)
  exact State.hide_mono key hM

@[simp] theorem clearFlags_frame {M : Nat} (hM : 16384 &&& M = 16384) (die ev inst written : Nat) (s : State) : (clearFlags die ev inst written s).hide M = s.hide M := by
  have key : (clearFlags die ev inst written s).hide 16384 = s.hide 16384 := by
    unfold clearFlags; simp
  exact State.hide_mono key hM

@[simp] theorem tmuStatusWrite_frame {M : Nat} (hM : 2 &&& M = 2) (v : Word) (s : State) : (tmuStatusWrite v s).hide M = s.hide M := by
  have key : (tmuStatusWrite v s).hide 2 = s.hide 2 := by
    unfold tmuStatusWrite; simp
  exact State.hide_mono key hM

@[simp] theorem digestChange_frame {M : Nat} (hM : 16 &&& M = 16) (die t : Nat) (old new : Option Bytes) (s : State) : (digestChange die t old new s).hide M = s.hide M := by
  have key : (digestChange die t old new s).hide 16 = s.hide 16 := by
    unfold digestChange; simp
  exact State.hide_mono key hM

@[simp] theorem setDit_frame {M : Nat} (hM : 16 &&& M = 16) (die i : Nat) (w : Word) (s : State) : (setDit die i w s).hide M = s.hide M := by
  have key : (setDit die i w s).hide 16 = s.hide 16 := by
    unfold setDit; simp
  exact State.hide_mono key hM

@[simp] theorem setBundle_frame {M : Nat} (hM : 16 &&& M = 16) (die i : Nat) (b : Bundle) (s : State) : (setBundle die i b s).hide M = s.hide M := by
  have key : (setBundle die i b s).hide 16 = s.hide 16 := by
    unfold setBundle; simp
  exact State.hide_mono key hM

@[simp] theorem setMcast_frame {M : Nat} (hM : 16 &&& M = 16) (die i : Nat) (m : BitVec 288) (s : State) : (setMcast die i m s).hide M = s.hide M := by
  have key : (setMcast die i m s).hide 16 = s.hide 16 := by
    unfold setMcast; simp
  exact State.hide_mono key hM

@[simp] theorem setNextHop_frame {M : Nat} (hM : 16 &&& M = 16) (die i : Nat) (n : NextHop) (s : State) : (setNextHop die i n s).hide M = s.hide M := by
  have key : (setNextHop die i n s).hide 16 = s.hide 16 := by
    unfold setNextHop; simp
  exact State.hide_mono key hM

@[simp] theorem setLpm_frame {M : Nat} (hM : 16 &&& M = 16) (die fam len addr : Nat) (v : Option Nat) (units : Int) (s : State) : (setLpm die fam len addr v units s).hide M = s.hide M := by
  have key : (setLpm die fam len addr v units s).hide 16 = s.hide 16 := by
    unfold setLpm; simp
  exact State.hide_mono key hM

@[simp] theorem emtPut_frame {M : Nat} (hM : 16 &&& M = 16) (die pos : Nat) (e : Option EmtEntry) (s : State) : (emtPut die pos e s).hide M = s.hide M := by
  have key : (emtPut die pos e s).hide 16 = s.hide 16 := by
    unfold emtPut; simp
  exact State.hide_mono key hM

@[simp] theorem movePath_frame {M : Nat} (hM : 16 &&& M = 16) (die : Nat) (l : List Nat) (s : State) : (movePath die l s).hide M = s.hide M := by
  fun_induction movePath die l s with
  | case1 => simp_all (zetaDelta := true)
  | case2 => rfl

@[simp] theorem notPosted_frame {M : Nat} (hM : 16 &&& M = 16) (serial : Nat) (s : State) : (notPosted serial s).hide M = s.hide M := by
  have key : (notPosted serial s).hide 16 = s.hide 16 := by
    unfold notPosted; simp
  exact State.hide_mono key hM

@[simp] theorem emtReplace_frame {M : Nat} (hM : 16 &&& M = 16) (die pos : Nat) (e : EmtEntry) (s : State) : (emtReplace die pos e s).hide M = s.hide M := by
  have key : (emtReplace die pos e s).hide 16 = s.hide 16 := by
    unfold emtReplace; simp
  exact State.hide_mono key hM

@[simp] theorem stashTry_frame {M : Nat} (hM : 524304 &&& M = 524304) (die : Nat) (y0 : List (Nat × EmtEntry)) (s : State) : (stashTry die y0 s).hide M = s.hide M := by
  have key : (stashTry die y0 s).hide 524304 = s.hide 524304 := by
    fun_induction stashTry die y0 s <;> ((repeat' split) <;> simp_all)
  exact State.hide_mono key hM

@[simp] theorem stashMove_frame {M : Nat} (hM : 524304 &&& M = 524304) (die : Nat) (s : State) : (stashMove die s).hide M = s.hide M := by
  have key : (stashMove die s).hide 524304 = s.hide 524304 := by
    unfold stashMove; simp
  exact State.hide_mono key hM

@[simp] theorem sendLearn_frame {M : Nat} (hM : 16 &&& M = 16) (die : Nat) (r : LearnRec) (s : State) : (sendLearn die r s).hide M = s.hide M := by
  have key : (sendLearn die r s).hide 16 = s.hide 16 := by
    unfold sendLearn; (first | simp | (refine (State.hide_foldl (fun _ _ => ?_) _ _).trans ?_ <;> simp) | (refine (State.hide_foldl_snd (fun _ _ => ?_) _ _).trans ?_ <;> simp))
  exact State.hide_mono key hM

@[simp] theorem emtDelete_frame {M : Nat} (hM : 524304 &&& M = 524304) (die pos : Nat) (s : State) : (emtDelete die pos s).hide M = s.hide M := by
  have key : (emtDelete die pos s).hide 524304 = s.hide 524304 := by
    unfold emtDelete; ((repeat' split) <;> simp)
  exact State.hide_mono key hM

@[simp] theorem emtTouch_frame {M : Nat} (hM : 16 &&& M = 16) (die pos : Nat) (s : State) : (emtTouch die pos s).hide M = s.hide M := by
  have key : (emtTouch die pos s).hide 16 = s.hide 16 := by
    unfold emtTouch; ((repeat' split) <;> simp)
  exact State.hide_mono key hM

@[simp] theorem learnBudget_frame {M : Nat} (hM : 16 &&& M = 16) (die : Nat) (s : State) : (learnBudget die s).2.hide M = s.hide M := by
  have key : (learnBudget die s).2.hide 16 = s.hide 16 := by
    unfold learnBudget; ((repeat' split) <;> (try dsimp only) <;> (repeat' split) <;> simp)
  exact State.hide_mono key hM

theorem State.hide_snd {α : Type} {M : Nat} {p : α × State} {a : α} {s t : State} (e : p = (a, t)) (h : p.2.hide M = s.hide M) : t.hide M = s.hide M := by
  rw [e] at h; exact h

theorem emtInsertNew_frame {M : Nat} (hM : 540688 &&& M = 540688) {die : Nat} {e : EmtEntry} {s t : State} {p q : Nat}
    (h : emtInsertNew die e s = some (p, q, t)) : t.hide M = s.hide M := by
  refine State.hide_mono (m := 540688) ?_ hM
  unfold emtInsertNew at h
  split at h
  · cases h
  · dsimp only at h
    split at h <;> (simp only [Option.some.injEq, Prod.mk.injEq] at h; obtain ⟨_, _, rfl⟩ := h; simp)

@[simp] theorem neighLearn_frame {M : Nat} (hM : 548880 &&& M = 548880) (die port fam : Nat) (addr : Bytes) (mac : Nat) (s : State) : (neighLearn die port fam addr mac s).hide M = s.hide M := by
  refine State.hide_mono (m := 548880) ?_ hM
  unfold neighLearn
  (repeat' split) <;> (try dsimp only) <;> (repeat' split) <;> first | (simp; done) | (simp only [Prod.ext_iff] at *; (casesm* _ ∧ _); subst_vars; simp_all; done) | (have := emtInsertNew_frame (M := 548880) (by decide) (by assumption); simp only [Prod.ext_iff] at *; (casesm* _ ∧ _); subst_vars; simp_all; done)

@[simp] theorem applyLearn_frame {M : Nat} (hM : 548880 &&& M = 548880) (die : Nat) (r : LearnRec) (s : State) : (applyLearn die r s).hide M = s.hide M := by
  refine State.hide_mono (m := 548880) ?_ hM
  unfold applyLearn
  (repeat' split) <;> (try dsimp only) <;> (repeat' split) <;> first | (simp; done) | exact emtInsertNew_frame (by decide) (by assumption)

@[simp] theorem ageAdvance_frame {M : Nat} (hM : 16 &&& M = 16) (die : Nat) (s : State) : (ageAdvance die s).hide M = s.hide M := by
  have key : (ageAdvance die s).hide 16 = s.hide 16 := by
    unfold ageAdvance; simp
  exact State.hide_mono key hM

@[simp] theorem ageOnStep_frame {M : Nat} (hM : 16 &&& M = 16) (die : Nat) (step : Int) (s : State) : (ageOnStep die step s).hide M = s.hide M := by
  have key : (ageOnStep die step s).hide 16 = s.hide 16 := by
    unfold ageOnStep; simp
  exact State.hide_mono key hM

@[simp] theorem sweepEntry_frame {M : Nat} (hM : 524304 &&& M = 524304) (die pos : Nat) (s : State) : (sweepEntry die pos s).hide M = s.hide M := by
  have key : (sweepEntry die pos s).hide 524304 = s.hide 524304 := by
    unfold sweepEntry; ((repeat' split) <;> simp)
  exact State.hide_mono key hM

@[simp] theorem agingModeWrite_frame {M : Nat} (hM : 139280 &&& M = 139280) (v : Nat) (s : State) : (agingModeWrite v s).hide M = s.hide M := by
  have key : (agingModeWrite v s).hide 139280 = s.hide 139280 := by
    unfold agingModeWrite; ((repeat' split) <;> simp)
  exact State.hide_mono key hM

@[simp] theorem tablesDieLost_frame {M : Nat} (hM : 16 &&& M = 16) (d : Nat) (s : State) : (tablesDieLost d s).hide M = s.hide M := by
  have key : (tablesDieLost d s).hide 16 = s.hide 16 := by
    unfold tablesDieLost; simp
  exact State.hide_mono key hM

@[simp] theorem drainAdd_frame {M : Nat} (hM : 16 &&& M = 16) (die idx : Nat) (s : State) : (drainAdd die idx s).hide M = s.hide M := by
  have key : (drainAdd die idx s).hide 16 = s.hide 16 := by
    unfold drainAdd; simp
  exact State.hide_mono key hM

@[simp] theorem drainSub_frame {M : Nat} (hM : 16 &&& M = 16) (die idx : Nat) (s : State) : (drainSub die idx s).hide M = s.hide M := by
  have key : (drainSub die idx s).hide 16 = s.hide 16 := by
    unfold drainSub; simp
  exact State.hide_mono key hM

@[simp] theorem onSet_frame {M : Nat} (hM : 16 &&& M = 16) (die set : Nat) (f : CmdSet → CmdSet) (s : State) : (onSet die set f s).hide M = s.hide M := by
  have key : (onSet die set f s).hide 16 = s.hide 16 := by
    unfold onSet; simp
  exact State.hide_mono key hM

@[simp] theorem tblApply_frame {M : Nat} (hM : 540688 &&& M = 540688) (die set : Nat) (c : CmdSet) (op table : Nat) (force static : Bool) (idx : Nat) (s : State) : (tblApply die set c op table force static idx s).hide M = s.hide M := by
  refine State.hide_mono (m := 540688) ?_ hM
  unfold tblApply
  (repeat' split) <;> (try dsimp only) <;> (repeat' split) <;> first | (simp; done) | (have := emtInsertNew_frame (M := 540688) (by decide) (by assumption); simp_all; done)

@[simp] theorem runSet_frame {M : Nat} (hM : 524304 &&& M = 524304) (die set op table : Nat) (s : State) : (runSet die set op table s).hide M = s.hide M := by
  have key : (runSet die set op table s).hide 524304 = s.hide 524304 := by
    unfold runSet; simp
  exact State.hide_mono key hM

@[simp] theorem tblCommand_frame {M : Nat} (hM : 540688 &&& M = 540688) (die set op table : Nat) (force static : Bool) (idx : Nat) (s : State) : (tblCommand die set op table force static idx s).hide M = s.hide M := by
  have key : (tblCommand die set op table force static idx s).hide 540688 = s.hide 540688 := by
    unfold tblCommand; ((repeat' split) <;> (try dsimp only) <;> (repeat' split) <;> simp)
  exact State.hide_mono key hM

@[simp] theorem tblBroadcastOn_frame {M : Nat} (hM : 540688 &&& M = 540688) (l : List Nat) (set : Nat) (cmd : Word) (keeperAlive dieLeft : Bool) (s : State) : (tblBroadcastOn l set cmd keeperAlive dieLeft s).hide M = s.hide M := by
  have key : (tblBroadcastOn l set cmd keeperAlive dieLeft s).hide 540688 = s.hide 540688 := by
    unfold tblBroadcastOn; ((repeat' split) <;> (try dsimp only) <;> (repeat' split) <;> simp [State.hide_foldl, State.hide_foldl_snd])
  exact State.hide_mono key hM

@[simp] theorem emtSeedSet_frame {M : Nat} (hM : 16 &&& M = 16) (die which : Nat) (v : Word) (s : State) : (emtSeedSet die which v s).hide M = s.hide M := by
  have key : (emtSeedSet die which v s).hide 16 = s.hide 16 := by
    unfold emtSeedSet; ((repeat' split) <;> simp)
  exact State.hide_mono key hM

@[simp] theorem digestCheck_frame {M : Nat} (hM : 24592 &&& M = 24592) (die t : Nat) (s : State) : (digestCheck die t s).hide M = s.hide M := by
  have key : (digestCheck die t s).hide 24592 = s.hide 24592 := by
    unfold digestCheck; ((repeat' split) <;> (try dsimp only) <;> (repeat' split) <;> simp)
  exact State.hide_mono key hM

@[simp] theorem digestRefWrite_frame {M : Nat} (hM : 24592 &&& M = 24592) (t die : Nat) (v : BitVec 64) (s : State) : (digestRefWrite t die v s).hide M = s.hide M := by
  have key : (digestRefWrite t die v s).hide 24592 = s.hide 24592 := by
    unfold digestRefWrite; simp
  exact State.hide_mono key hM

@[simp] theorem setQ_frame {M : Nat} (hM : 32 &&& M = 32) (q : Nat) (l : List Cell) (s : State) : (setQ q l s).hide M = s.hide M := by
  have key : (setQ q l s).hide 32 = s.hide 32 := by
    unfold setQ; simp
  exact State.hide_mono key hM

@[simp] theorem settle_frame {M : Nat} (hM : 64 &&& M = 64) (port cls die n : Nat) (s : State) : (settle port cls die n s).hide M = s.hide M := by
  have key : (settle port cls die n s).hide 64 = s.hide 64 := by
    unfold settle; ((repeat' split) <;> simp)
  exact State.hide_mono key hM

@[simp] theorem settleLost_frame {M : Nat} (hM : 64 &&& M = 64) (die : Nat) (s : State) : (settleLost die s).hide M = s.hide M := by
  have key : (settleLost die s).hide 64 = s.hide 64 := by
    unfold settleLost; simp
  exact State.hide_mono key hM

@[simp] theorem refreshIdle_frame {M : Nat} (hM : 64 &&& M = 64) (die port cls : Nat) (s : State) : (refreshIdle die port cls s).hide M = s.hide M := by
  have key : (refreshIdle die port cls s).hide 64 = s.hide 64 := by
    unfold refreshIdle; simp
  exact State.hide_mono key hM

@[simp] theorem spillState_frame {M : Nat} (hM : 32 &&& M = 32) (die : Nat) (s : State) : (spillState die s).hide M = s.hide M := by
  have key : (spillState die s).hide 32 = s.hide 32 := by
    unfold spillState; simp
  exact State.hide_mono key hM

@[simp] theorem pfcSend_frame {M : Nat} (hM : 262208 &&& M = 262208) (port cls : Nat) (s : State) : (pfcSend port cls s).hide M = s.hide M := by
  have key : (pfcSend port cls s).hide 262208 = s.hide 262208 := by
    unfold pfcSend; simp
  exact State.hide_mono key hM

@[simp] theorem pfcCheck_frame {M : Nat} (hM : 262208 &&& M = 262208) (port cls : Nat) (s : State) : (pfcCheck port cls s).hide M = s.hide M := by
  have key : (pfcCheck port cls s).hide 262208 = s.hide 262208 := by
    unfold pfcCheck; ((repeat' split) <;> (try dsimp only) <;> (repeat' split) <;> simp)
  exact State.hide_mono key hM

@[simp] theorem uncharge_frame {M : Nat} (hM : 32 &&& M = 32) (c : Cell) (n : Nat) (s : State) : (uncharge c n s).hide M = s.hide M := by
  have key : (uncharge c n s).hide 32 = s.hide 32 := by
    unfold uncharge; simp
  exact State.hide_mono key hM

@[simp] theorem freeCell_frame {M : Nat} (hM : 262240 &&& M = 262240) (c : Cell) (s : State) : (freeCell c s).hide M = s.hide M := by
  have key : (freeCell c s).hide 262240 = s.hide 262240 := by
    unfold freeCell; ((repeat' split) <;> (try dsimp only) <;> (repeat' split) <;> simp)
  exact State.hide_mono key hM

@[simp] theorem probeDone_frame {M : Nat} (hM : 16 &&& M = 16) (c : Cell) (s : State) : (probeDone c s).hide M = s.hide M := by
  have key : (probeDone c s).hide 16 = s.hide 16 := by
    unfold probeDone; ((repeat' split) <;> simp)
  exact State.hide_mono key hM

@[simp] theorem emitOutcome_frame {M : Nat} (hM : 16384 &&& M = 16384) (e : Option (Nat × Nat)) (status stamp : Nat) (s : State) : (emitOutcome e status stamp s).hide M = s.hide M := by
  have key : (emitOutcome e status stamp s).hide 16384 = s.hide 16384 := by
    unfold emitOutcome; ((repeat' split) <;> simp)
  exact State.hide_mono key hM

@[simp] theorem noteWaiting_frame {M : Nat} (hM : 64 &&& M = 64) (p c : Nat) (s : State) : (noteWaiting p c s).hide M = s.hide M := by
  have key : (noteWaiting p c s).hide 64 = s.hide 64 := by
    unfold noteWaiting; ((repeat' split) <;> simp)
  exact State.hide_mono key hM

@[simp] theorem setSpill_frame {M : Nat} (hM : 32 &&& M = 32) (k : Nat) (l : List SpillBlock) (s : State) : (setSpill k l s).hide M = s.hide M := by
  have key : (setSpill k l s).hide 32 = s.hide 32 := by
    unfold setSpill; simp
  exact State.hide_mono key hM

@[simp] theorem spillAppend_frame {M : Nat} (hM : 32800 &&& M = 32800) (k : Nat) (c : Cell) (s : State) : (spillAppend k c s).hide M = s.hide M := by
  have key : (spillAppend k c s).hide 32800 = s.hide 32800 := by
    unfold spillAppend; ((repeat' split) <;> (try dsimp only) <;> (repeat' split) <;> simp)
  exact State.hide_mono key hM

@[simp] theorem frameEnds_frame {M : Nat} (hM : 16576 &&& M = 16576) (h : Cell) (spent : Bool) (s : State) : (frameEnds h spent s).hide M = s.hide M := by
  have key : (frameEnds h spent s).hide 16576 = s.hide 16576 := by
    unfold frameEnds; ((repeat' split) <;> simp)
  exact State.hide_mono key hM

@[simp] theorem discardFrame_frame {M : Nat} (hM : 278768 &&& M = 278768) (h : Cell) (spent : Bool) (s : State) : (discardFrame h spent s).hide M = s.hide M := by
  refine State.hide_mono (m := 278768) ?_ hM
  unfold discardFrame
  extract_lets die id q coming here s1 s2 s3 s4 s5 s6 s7 s8
  have h1 : s1.hide 278768 = s.hide 278768 := State.hide_foldl (fun s c => freeCell_frame (by decide) ..) _ _
  clear_value s1 here coming q
  have h2 : s2.hide 278768 = s1.hide 278768 := by
    unfold s2
    split <;> simp
  have h3 : s3.hide 278768 = s2.hide 278768 := frameEnds_frame (by decide) ..
  have h4 : s4.hide 278768 = s3.hide 278768 := by
    unfold s4
    split
    · exact probeDone_frame (by decide) ..
    · rfl
  have h5 : s5.hide 278768 = s4.hide 278768 := by
    unfold s5
    split
    · exact setSpill_frame (by decide) ..
    · rfl
  have h6 : s6.hide 278768 = s5.hide 278768 := State.hide_onSwitch (by decide) ..
  have h7 : s7.hide 278768 = s6.hide 278768 := State.hide_onSwitch (by decide) ..
  have h8 : s8.hide 278768 = s7.hide 278768 := State.hide_onSwitch (by decide) ..
  have k : s7.hide 278768 = s.hide 278768 := by rw [h7, h6, h5, h4, h3, h2, h1]
  split
  · exact k
  · rw [refreshIdle_frame (by decide), noteWaiting_frame (by decide), h8, k]

@[simp] theorem cellLost_frame {M : Nat} (hM : 16576 &&& M = 16576) (c : Cell) (s : State) : (cellLost c s).hide M = s.hide M := by
  have key : (cellLost c s).hide 16576 = s.hide 16576 := by
    unfold cellLost; ((repeat' split) <;> simp)
  exact State.hide_mono key hM

@[simp] theorem ageDiscard_frame {M : Nat} (hM : 278768 &&& M = 278768) (die : Nat) (h : Cell) (spent : Bool) (s : State) : (ageDiscard die h spent s).hide M = s.hide M := by
  have key : (ageDiscard die h spent s).hide 278768 = s.hide 278768 := by
    unfold ageDiscard; simp
  exact State.hide_mono key hM

@[simp] theorem chooseLane_frame {M : Nat} (hM : 524288 &&& M = 524288) (die : Nat) (l : List (Nat × Nat)) (occ : Nat → Nat → Nat) (s : State) : (chooseLane die l occ s).2.hide M = s.hide M := by
  have key : (chooseLane die l occ s).2.hide 524288 = s.hide 524288 := by
    unfold chooseLane; ((repeat' split) <;> (try dsimp only) <;> (repeat' split) <;> (first | (simp; done) | (simp only [Prod.ext_iff] at *; (casesm* _ ∧ _); subst_vars; simp; done) | (simp only [Prod.ext_iff, Option.some.injEq] at *; (casesm* _ ∧ _); subst_vars; simp; done) | (simp_all; done)))
  exact State.hide_mono key hM

@[simp] theorem egressLane_frame {M : Nat} (hM : 524288 &&& M = 524288) (port : Nat) (s : State) : (egressLane port s).2.hide M = s.hide M := by
  have key : (egressLane port s).2.hide 524288 = s.hide 524288 := by
    unfold egressLane; simp
  exact State.hide_mono key hM

@[simp] theorem charge_frame {M : Nat} (hM : 262240 &&& M = 262240) (c : Cell) (n : Nat) (s : State) : (charge c n s).hide M = s.hide M := by
  have key : (charge c n s).hide 262240 = s.hide 262240 := by
    unfold charge; simp
  exact State.hide_mono key hM

@[simp] theorem enqueueCell_frame {M : Nat} (hM : 32800 &&& M = 32800) (q : Nat) (c : Cell) (s : State) : (enqueueCell q c s).hide M = s.hide M := by
  have key : (enqueueCell q c s).hide 32800 = s.hide 32800 := by
    unfold enqueueCell; ((repeat' split) <;> simp)
  exact State.hide_mono key hM

@[simp] theorem nextFrameId_frame {M : Nat} (hM : 32 &&& M = 32) (die : Nat) (s : State) : (nextFrameId die s).2.hide M = s.hide M := by
  have key : (nextFrameId die s).2.hide 32 = s.hide 32 := by
    unfold nextFrameId; simp
  exact State.hide_mono key hM

@[simp] theorem admitFrame_frame {M : Nat} (hM : 311408 &&& M = 311408) (h : Cell) (q : Nat) (f : Bytes) (cut faulty : Bool) (s : State) : (admitFrame h q f cut faulty s).hide M = s.hide M := by
  refine State.hide_mono (m := 311408) ?_ hM
  unfold admitFrame
  dsimp only
  split
  · rw [emitOutcome_frame (by decide)]; (repeat' split) <;> simp
  · rename_i pool _
    have h0 := nextFrameId_frame (M := 311408) (by decide) h.ingressDie s
    revert h0
    rcases nextFrameId h.ingressDie s with ⟨id, t⟩
    intro h0
    dsimp only at h0 ⊢
    refine Eq.trans (b := t.hide 311408) ?_ h0
    split
    · rw [State.hide_onSwitch (by decide)]
      split <;> simp
    · have e : ∀ u : State, u.hide 311408 = t.hide 311408 → ∀ l : List Cell,
          (l.foldl (fun s c => enqueueCell q c s) u).hide 311408 = t.hide 311408 := fun u hu l =>
        (State.hide_foldl (fun s c => enqueueCell_frame (by decide) q c s) l u).trans hu
      split
      · rw [refreshIdle_frame (by decide)]
        apply e; split <;> simp
      · apply e; split <;> simp

@[simp] theorem cellRelease_frame {M : Nat} (hM : 311392 &&& M = 311392) (die id : Nat) (s : State) : (cellRelease die id s).hide M = s.hide M := by
  have key : (cellRelease die id s).hide 311392 = s.hide 311392 := by
    unfold cellRelease; ((repeat' split) <;> simp)
  exact State.hide_mono key hM

@[simp] theorem enqueueLane_frame {M : Nat} (hM : 96 &&& M = 96) (port lane cls : Nat) (f : EFrame) (s : State) : (enqueueLane port lane cls f s).hide M = s.hide M := by
  have key : (enqueueLane port lane cls f s).hide 96 = s.hide 96 := by
    unfold enqueueLane; simp
  exact State.hide_mono key hM

@[simp] theorem headLane_frame {M : Nat} (hM : 96 &&& M = 96) (port lane cls : Nat) (f : EFrame) (s : State) : (headLane port lane cls f s).hide M = s.hide M := by
  have key : (headLane port lane cls f s).hide 96 = s.hide 96 := by
    unfold headLane; simp
  exact State.hide_mono key hM

@[simp] theorem releaseEgress_frame {M : Nat} (hM : 32 &&& M = 32) (port : Nat) (f : EFrame) (s : State) : (releaseEgress port f s).hide M = s.hide M := by
  have key : (releaseEgress port f s).hide 32 = s.hide 32 := by
    unfold releaseEgress; simp
  exact State.hide_mono key hM

@[simp] theorem dropAtEgress_frame {M : Nat} (hM : 278768 &&& M = 278768) (port : Nat) (f : EFrame) (s : State) : (dropAtEgress port f s).hide M = s.hide M := by
  have key : (dropAtEgress port f s).hide 278768 = s.hide 278768 := by
    unfold dropAtEgress; ((repeat' split) <;> simp)
  exact State.hide_mono key hM

@[simp] theorem toLane_frame {M : Nat} (hM : 803056 &&& M = 803056) (port : Nat) (f : EFrame) (s : State) : (toLane port f s).hide M = s.hide M := by
  have key : (toLane port f s).hide 803056 = s.hide 803056 := by
    unfold toLane; ((repeat' split) <;> (try dsimp only) <;> (repeat' split) <;> (first | (simp; done) | (simp only [Prod.ext_iff] at *; (casesm* _ ∧ _); subst_vars; simp; done) | (simp only [Prod.ext_iff, Option.some.injEq] at *; (casesm* _ ∧ _); subst_vars; simp; done) | (simp_all; done)))
  exact State.hide_mono key hM

@[simp] theorem serveHeld_frame {M : Nat} (hM : 540768 &&& M = 540768) (p cls : Nat) (y0 : Nat) (s : State) : (serveHeld p cls y0 s).hide M = s.hide M := by
  have key : (serveHeld p cls y0 s).hide 540768 = s.hide 540768 := by
    (induction y0 generalizing s with | zero => simp [serveHeld] | succ n ih => simp only [serveHeld]; ((repeat' split) <;> simp_all))
  exact State.hide_mono key hM

@[simp] theorem serveHeldAll_frame {M : Nat} (hM : 540768 &&& M = 540768) (p : Nat) (s : State) : (serveHeldAll p s).hide M = s.hide M := by
  have key : (serveHeldAll p s).hide 540768 = s.hide 540768 := by
    unfold serveHeldAll; simp
  exact State.hide_mono key hM

@[simp] theorem makeCopies_frame {M : Nat} (hM : 540768 &&& M = 540768) (egress : Nat) (f : EFrame) (s : State) : (makeCopies egress f s).hide M = s.hide M := by
  have key : (makeCopies egress f s).hide 540768 = s.hide 540768 := by
    unfold makeCopies; ((repeat' split) <;> (try dsimp only) <;> (repeat' split) <;> (first | ((repeat' split) <;> (first | (simp; done) | (simp only [Prod.ext_iff] at *; (casesm* _ ∧ _); subst_vars; simp; done) | (simp only [Prod.ext_iff, Option.some.injEq] at *; (casesm* _ ∧ _); subst_vars; simp; done) | (simp_all; done))) | (refine (State.hide_foldl (fun _ _ => ?_) _ _).trans ?_ <;> ((repeat' split) <;> (first | (simp; done) | (simp only [Prod.ext_iff] at *; (casesm* _ ∧ _); subst_vars; simp; done) | (simp only [Prod.ext_iff, Option.some.injEq] at *; (casesm* _ ∧ _); subst_vars; simp; done) | (simp_all; done)))) | (refine (State.hide_foldl_snd (fun _ _ => ?_) _ _).trans ?_ <;> ((repeat' split) <;> (first | (simp; done) | (simp only [Prod.ext_iff] at *; (casesm* _ ∧ _); subst_vars; simp; done) | (simp only [Prod.ext_iff, Option.some.injEq] at *; (casesm* _ ∧ _); subst_vars; simp; done) | (simp_all; done))))))
  exact State.hide_mono key hM

@[simp] theorem toHome_frame {M : Nat} (hM : 160 &&& M = 160) (home : Nat) (f : EFrame) (s : State) : (toHome home f s).hide M = s.hide M := by
  have key : (toHome home f s).hide 160 = s.hide 160 := by
    unfold toHome; simp
  exact State.hide_mono key hM

@[simp] theorem passOn_frame {M : Nat} (hM : 803056 &&& M = 803056) (egress key : Nat) (f : EFrame) (s : State) : (passOn egress key f s).hide M = s.hide M := by
  have key : (passOn egress key f s).hide 803056 = s.hide 803056 := by
    unfold passOn; ((repeat' split) <;> (try dsimp only) <;> (repeat' split) <;> simp)
  exact State.hide_mono key hM

theorem attachCell_frame {M : Nat} (hM : 32 &&& M = 32) {port : Nat} {c : Cell} {s t : State}
    (h : attachCell port c s = some t) : t.hide M = s.hide M := by
  unfold attachCell at h
  dsimp only at h
  (repeat' split at h) <;> first | (cases h; done) | (cases h; simp [hM])

@[simp] theorem egressCell_frame {M : Nat} (hM : 803056 &&& M = 803056) (egress : Nat) (c : Cell) (s : State) : (egressCell egress c s).hide M = s.hide M := by
  refine State.hide_mono (m := 803056) ?_ hM
  unfold egressCell
  dsimp only
  split
  · rename_i e
    split at e
    · exact attachCell_frame (by decide) e
    · cases e
  · simp

@[simp] theorem toTransit_frame {M : Nat} (hM : 32 &&& M = 32) (mid : Nat) (c : Cell) (s : State) : (toTransit mid c s).hide M = s.hide M := by
  have key : (toTransit mid c s).hide 32 = s.hide 32 := by
    unfold toTransit; (first | simp | (refine (State.hide_foldl (fun _ _ => ?_) _ _).trans ?_ <;> simp) | (refine (State.hide_foldl_snd (fun _ _ => ?_) _ _).trans ?_ <;> simp))
  exact State.hide_mono key hM

@[simp] theorem assignOrder_frame {M : Nat} (hM : 32 &&& M = 32) (c : Cell) (s : State) : (assignOrder c s).2.hide M = s.hide M := by
  have key : (assignOrder c s).2.hide 32 = s.hide 32 := by
    unfold assignOrder; ((repeat' split) <;> (try dsimp only) <;> (repeat' split) <;> simp)
  exact State.hide_mono key hM

@[simp] theorem spreaderSend_frame {M : Nat} (hM : 278768 &&& M = 278768) (q : Nat) (s : State) : (spreaderSend q s).hide M = s.hide M := by
  have key : (spreaderSend q s).hide 278768 = s.hide 278768 := by
    unfold spreaderSend; ((repeat' split) <;> simp)
  exact State.hide_mono key hM

@[simp] theorem transitForward_frame {M : Nat} (hM : 803056 &&& M = 803056) (die egress : Nat) (s : State) : (transitForward die egress s).hide M = s.hide M := by
  have key : (transitForward die egress s).hide 803056 = s.hide 803056 := by
    unfold transitForward; ((repeat' split) <;> (try dsimp only) <;> (repeat' split) <;> simp)
  exact State.hide_mono key hM

@[simp] theorem memUncorrectable_frame {M : Nat} (hM : 57344 &&& M = 57344) (die ch granule : Nat) (s : State) : (memUncorrectable die ch granule s).hide M = s.hide M := by
  have key : (memUncorrectable die ch granule s).hide 57344 = s.hide 57344 := by
    unfold memUncorrectable; ((repeat' split) <;> (try dsimp only) <;> (repeat' split) <;> simp)
  exact State.hide_mono key hM

@[simp] theorem spillReadback_frame {M : Nat} (hM : 319728 &&& M = 319728) (die q : Nat) (bad : Option (Fin 24 × Fin 17)) (s : State) : (spillReadback die q bad s).hide M = s.hide M := by
  have key : (spillReadback die q bad s).hide 319728 = s.hide 319728 := by
    unfold spillReadback; ((repeat' split) <;> (try dsimp only) <;> (repeat' split) <;> simp [State.hide_foldl, State.hide_foldl_snd])
  exact State.hide_mono key hM

@[simp] theorem portsDark_frame {M : Nat} (hM : 278768 &&& M = 278768) (pick : Nat → Bool) (s : State) : (portsDark pick s).hide M = s.hide M := by
  have key : (portsDark pick s).hide 278768 = s.hide 278768 := by
    unfold portsDark; ((repeat' split) <;> (try dsimp only) <;> (repeat' split) <;> (first | ((repeat' split) <;> (first | (simp; done) | (simp only [Prod.ext_iff] at *; (casesm* _ ∧ _); subst_vars; simp; done) | (simp only [Prod.ext_iff, Option.some.injEq] at *; (casesm* _ ∧ _); subst_vars; simp; done) | (simp_all; done))) | (refine (State.hide_foldl (fun _ _ => ?_) _ _).trans ?_ <;> ((repeat' split) <;> (first | (simp; done) | (simp only [Prod.ext_iff] at *; (casesm* _ ∧ _); subst_vars; simp; done) | (simp only [Prod.ext_iff, Option.some.injEq] at *; (casesm* _ ∧ _); subst_vars; simp; done) | (simp_all; done)))) | (refine (State.hide_foldl_snd (fun _ _ => ?_) _ _).trans ?_ <;> ((repeat' split) <;> (first | (simp; done) | (simp only [Prod.ext_iff] at *; (casesm* _ ∧ _); subst_vars; simp; done) | (simp only [Prod.ext_iff, Option.some.injEq] at *; (casesm* _ ∧ _); subst_vars; simp; done) | (simp_all; done))))))
  exact State.hide_mono key hM

@[simp] theorem switchDieLost_frame {M : Nat} (hM : 16608 &&& M = 16608) (d : Nat) (s : State) : (switchDieLost d s).hide M = s.hide M := by
  have key : (switchDieLost d s).hide 16608 = s.hide 16608 := by
    unfold switchDieLost; simp [State.hide_foldl, State.hide_foldl_snd]
  exact State.hide_mono key hM

@[simp] theorem portDrainDrain_frame {M : Nat} (hM : 139296 &&& M = 139296) (p : Nat) (s : State) : (portDrainDrain p s).hide M = s.hide M := by
  have key : (portDrainDrain p s).hide 139296 = s.hide 139296 := by
    unfold portDrainDrain; simp
  exact State.hide_mono key hM

@[simp] theorem portDrainFlush_frame {M : Nat} (hM : 418032 &&& M = 418032) (p : Nat) (s : State) : (portDrainFlush p s).hide M = s.hide M := by
  refine State.hide_mono (m := 418032) ?_ hM
  unfold portDrainFlush
  dsimp only
  rw [answer_frame (by decide), State.hide_onSwitch (by decide)]
  refine (State.hide_foldl (fun s c => noteWaiting_frame (by decide) ..) _ _).trans ?_
  refine (State.hide_foldl (fun s f => ?_) _ _).trans ?_
  · rw [emitOutcome_frame (by decide), releaseEgress_frame (by decide), count_frame (by decide)]
  · rw [State.hide_onRegs (by decide), State.hide_onSwitch (by decide)]
    refine (State.hide_foldl (fun s y => ?_) _ _).trans ?_
    · rw [discardFrame_frame (by decide), count_frame (by decide)]
    · simp

@[simp] theorem portDrainNone_frame {M : Nat} (hM : 139296 &&& M = 139296) (p : Nat) (s : State) : (portDrainNone p s).hide M = s.hide M := by
  have key : (portDrainNone p s).hide 139296 = s.hide 139296 := by
    unfold portDrainNone; simp
  exact State.hide_mono key hM

@[simp] theorem classFlagsWrite_frame {M : Nat} (hM : 139264 &&& M = 139264) (c v : Nat) (s : State) : (classFlagsWrite c v s).hide M = s.hide M := by
  have key : (classFlagsWrite c v s).hide 139264 = s.hide 139264 := by
    unfold classFlagsWrite; ((repeat' split) <;> (try dsimp only) <;> (repeat' split) <;> simp)
  exact State.hide_mono key hM

@[simp] theorem carveoutWrite_frame {M : Nat} (hM : 139264 &&& M = 139264) (d v : Nat) (s : State) : (carveoutWrite d v s).hide M = s.hide M := by
  have key : (carveoutWrite d v s).hide 139264 = s.hide 139264 := by
    unfold carveoutWrite; ((repeat' split) <;> simp)
  exact State.hide_mono key hM

@[simp] theorem countBusError_frame {M : Nat} (hM : 16384 &&& M = 16384) (s : State) (die : Nat) : (countBusError s die).hide M = s.hide M := by
  have key : (countBusError s die).hide 16384 = s.hide 16384 := by
    unfold countBusError; simp
  exact State.hide_mono key hM

@[simp] theorem guardReg_frame {M : Nat} (hM : 16384 &&& M = 16384) (m die block word : Nat) (k : State → State)
    (hk : ∀ s, (k s).hide M = s.hide M) (s : State) : (guardReg m die block word k s).hide M = s.hide M := by
  unfold guardReg; (repeat' split) <;> simp [hM, hk]

@[simp] theorem cfgCompare_frame {M : Nat} (hM : 24576 &&& M = 24576) (die : Nat) (s : State) : (cfgCompare die s).hide M = s.hide M := by
  have key : (cfgCompare die s).hide 24576 = s.hide 24576 := by
    unfold cfgCompare; ((repeat' split) <;> (try dsimp only) <;> (repeat' split) <;> simp)
  exact State.hide_mono key hM

@[simp] theorem cfgChange_frame {M : Nat} (hM : 24576 &&& M = 24576) (die block word old new : Nat) (s : State) : (cfgChange die block word old new s).hide M = s.hide M := by
  have key : (cfgChange die block word old new s).hide 24576 = s.hide 24576 := by
    unfold cfgChange; ((repeat' split) <;> simp)
  exact State.hide_mono key hM

@[simp] theorem writeAccessWord_frame {M : Nat} (hM : 24576 &&& M = 24576) (die block : Nat) (v : Word) (s : State) : (writeAccessWord die block v s).hide M = s.hide M := by
  have key : (writeAccessWord die block v s).hide 24576 = s.hide 24576 := by
    unfold writeAccessWord; ((repeat' split) <;> simp)
  exact State.hide_mono key hM

@[simp] theorem onRegion_frame {M : Nat} (hM : 512 &&& M = 512) (h : Nat) (f : Region → Region) (s : State) : (onRegion h f s).hide M = s.hide M := by
  have key : (onRegion h f s).hide 512 = s.hide 512 := by
    unfold onRegion; simp
  exact State.hide_mono key hM

@[simp] theorem storeMem_frame {M : Nat} (hM : 98304 &&& M = 98304) (a : Nat) (b : Bytes) (s : State) : (storeMem a b s).hide M = s.hide M := by
  have key : (storeMem a b s).hide 98304 = s.hide 98304 := by
    unfold storeMem; simp
  exact State.hide_mono key hM

@[simp] theorem zeroMem_frame {M : Nat} (hM : 98304 &&& M = 98304) (a n : Nat) (s : State) : (zeroMem a n s).hide M = s.hide M := by
  have key : (zeroMem a n s).hide 98304 = s.hide 98304 := by
    unfold zeroMem; simp
  exact State.hide_mono key hM

@[simp] theorem setMeta_frame {M : Nat} (hM : 98816 &&& M = 98816) (h b copy : Nat) (m : Meta) (s : State) : (setMeta h b copy m s).hide M = s.hide M := by
  have key : (setMeta h b copy m s).hide 98816 = s.hide 98816 := by
    unfold setMeta; ((repeat' split) <;> simp)
  exact State.hide_mono key hM

@[simp] theorem suspectEvent_frame {M : Nat} (hM : 24576 &&& M = 24576) (die h b cause : Nat) (s : State) : (suspectEvent die h b cause s).hide M = s.hide M := by
  have key : (suspectEvent die h b cause s).hide 24576 = s.hide 24576 := by
    unfold suspectEvent; simp
  exact State.hide_mono key hM

@[simp] theorem markSuspect_frame {M : Nat} (hM : 123392 &&& M = 123392) (h b cause : Nat) (s : State) : (markSuspect h b cause s).hide M = s.hide M := by
  have key : (markSuspect h b cause s).hide 123392 = s.hide 123392 := by
    unfold markSuspect; ((repeat' split) <;> (try dsimp only) <;> (repeat' split) <;> simp)
  exact State.hide_mono key hM

@[simp] theorem importMark_frame {M : Nat} (hM : 98816 &&& M = 98816) (h b : Nat) (m : Meta) (s : State) : (importMark h b m s).hide M = s.hide M := by
  have key : (importMark h b m s).hide 98816 = s.hide 98816 := by
    unfold importMark; ((repeat' split) <;> (try dsimp only) <;> (repeat' split) <;> simp)
  exact State.hide_mono key hM

@[simp] theorem importDone_frame {M : Nat} (hM : 123392 &&& M = 123392) (h : Nat) (r : Region) (p : BlockPart) (s : State) : (importDone h r p s).hide M = s.hide M := by
  have key : (importDone h r p s).hide 123392 = s.hide 123392 := by
    unfold importDone; ((repeat' split) <;> (try dsimp only) <;> (repeat' split) <;> simp)
  exact State.hide_mono key hM

@[simp] theorem importFrame_frame {M : Nat} (hM : 123392 &&& M = 123392) (b : Bytes) (s : State) : (importFrame b s).hide M = s.hide M := by
  have key : (importFrame b s).hide 123392 = s.hide 123392 := by
    unfold importFrame; ((repeat' split) <;> (try dsimp only) <;> (repeat' split) <;> simp)
  exact State.hide_mono key hM

@[simp] theorem importClose_frame {M : Nat} (hM : 123392 &&& M = 123392) (s : State) : (importClose s).hide M = s.hide M := by
  have key : (importClose s).hide 123392 = s.hide 123392 := by
    unfold importClose; ((repeat' split) <;> (try dsimp only) <;> (repeat' split) <;> (first | ((repeat' split) <;> (first | (simp; done) | (simp only [Prod.ext_iff] at *; (casesm* _ ∧ _); subst_vars; simp; done) | (simp only [Prod.ext_iff, Option.some.injEq] at *; (casesm* _ ∧ _); subst_vars; simp; done) | (simp_all; done))) | (refine (State.hide_foldl (fun _ _ => ?_) _ _).trans ?_ <;> ((repeat' split) <;> (first | (simp; done) | (simp only [Prod.ext_iff] at *; (casesm* _ ∧ _); subst_vars; simp; done) | (simp only [Prod.ext_iff, Option.some.injEq] at *; (casesm* _ ∧ _); subst_vars; simp; done) | (simp_all; done)))) | (refine (State.hide_foldl_snd (fun _ _ => ?_) _ _).trans ?_ <;> ((repeat' split) <;> (first | (simp; done) | (simp only [Prod.ext_iff] at *; (casesm* _ ∧ _); subst_vars; simp; done) | (simp only [Prod.ext_iff, Option.some.injEq] at *; (casesm* _ ∧ _); subst_vars; simp; done) | (simp_all; done))))))
  exact State.hide_mono key hM

@[simp] theorem shaperCharge_frame {M : Nat} (hM : 64 &&& M = 64) (k len : Nat) (s : State) : (shaperCharge k len s).hide M = s.hide M := by
  have key : (shaperCharge k len s).hide 64 = s.hide 64 := by
    unfold shaperCharge; ((repeat' split) <;> simp)
  exact State.hide_mono key hM

@[simp] theorem plainStore_frame {M : Nat} (hM : 131168 &&& M = 131168) (idx sub v : Nat) (s : State) : (plainStore idx sub v s).hide M = s.hide M := by
  have key : (plainStore idx sub v s).hide 131168 = s.hide 131168 := by
    unfold plainStore; ((repeat' split) <;> (try dsimp only) <;> (repeat' split) <;> (first | ((repeat' split) <;> (first | (simp; done) | (simp only [Prod.ext_iff] at *; (casesm* _ ∧ _); subst_vars; simp; done) | (simp only [Prod.ext_iff, Option.some.injEq] at *; (casesm* _ ∧ _); subst_vars; simp; done) | (simp_all; done))) | (refine (State.hide_foldl (fun _ _ => ?_) _ _).trans ?_ <;> ((repeat' split) <;> (first | (simp; done) | (simp only [Prod.ext_iff] at *; (casesm* _ ∧ _); subst_vars; simp; done) | (simp only [Prod.ext_iff, Option.some.injEq] at *; (casesm* _ ∧ _); subst_vars; simp; done) | (simp_all; done)))) | (refine (State.hide_foldl_snd (fun _ _ => ?_) _ _).trans ?_ <;> ((repeat' split) <;> (first | (simp; done) | (simp only [Prod.ext_iff] at *; (casesm* _ ∧ _); subst_vars; simp; done) | (simp only [Prod.ext_iff, Option.some.injEq] at *; (casesm* _ ∧ _); subst_vars; simp; done) | (simp_all; done))))))
  exact State.hide_mono key hM

@[simp] theorem shepherdGrant_frame {M : Nat} (hM : 64 &&& M = 64) (p c : Nat) (s : State) : (shepherdGrant p c s).hide M = s.hide M := by
  have key : (shepherdGrant p c s).hide 64 = s.hide 64 := by
    unfold shepherdGrant; ((repeat' split) <;> (try dsimp only) <;> (repeat' split) <;> simp)
  exact State.hide_mono key hM

@[simp] theorem releaseFrame_frame {M : Nat} (hM : 96 &&& M = 96) (q : Nat) (c : Cell) (s : State) : (releaseFrame q c s).hide M = s.hide M := by
  have key : (releaseFrame q c s).hide 96 = s.hide 96 := by
    unfold releaseFrame; ((repeat' split) <;> simp)
  exact State.hide_mono key hM

@[simp] theorem decideTarget_frame {M : Nat} (hM : 96 &&& M = 96) (die target : Nat) (s : State) : (decideTarget die target s).hide M = s.hide M := by
  have key : (decideTarget die target s).hide 96 = s.hide 96 := by
    unfold decideTarget; ((repeat' split) <;> (try dsimp only) <;> (repeat' split) <;> simp)
  exact State.hide_mono key hM

@[simp] theorem decideReduction_frame {M : Nat} (hM : 224 &&& M = 224) (die : Nat) (s : State) : (decideReduction die s).hide M = s.hide M := by
  have key : (decideReduction die s).hide 224 = s.hide 224 := by
    unfold decideReduction; ((repeat' split) <;> (try dsimp only) <;> (repeat' split) <;> simp)
  exact State.hide_mono key hM

@[simp] theorem pickFrame_frame {M : Nat} (hM : 278768 &&& M = 278768) (p lane : Nat) (y0 : Nat) (y1 : Nat) (s : State) : (pickFrame p lane y0 y1 s).2.hide M = s.hide M := by
  have key : (pickFrame p lane y0 y1 s).2.hide 278768 = s.hide 278768 := by
    (induction y0 generalizing y1 s with | zero => simp [pickFrame] | succ n ih => simp only [pickFrame]; ((repeat' split) <;> simp_all))
  exact State.hide_mono key hM

@[simp] theorem pickTimed_frame {M : Nat} (hM : 278768 &&& M = 278768) (p lane : Nat) (y0 : Nat) (y1 : Nat) (s : State) : (pickTimed p lane y0 y1 s).2.hide M = s.hide M := by
  have key : (pickTimed p lane y0 y1 s).2.hide 278768 = s.hide 278768 := by
    (induction y0 generalizing y1 s with | zero => simp [pickTimed] | succ n ih => simp only [pickTimed]; ((repeat' split) <;> simp_all))
  exact State.hide_mono key hM

@[simp] theorem nextFrame_frame {M : Nat} (hM : 278768 &&& M = 278768) (p lane : Nat) (s : State) : (nextFrame p lane s).2.hide M = s.hide M := by
  have key : (nextFrame p lane s).2.hide 278768 = s.hide 278768 := by
    unfold nextFrame; dsimp only; split <;> simp
  exact State.hide_mono key hM

@[simp] theorem beginFrame_frame {M : Nat} (hM : 16480 &&& M = 16480) (p lane c : Nat) (f : EFrame) (s : State) : (beginFrame p lane c f s).hide M = s.hide M := by
  have key : (beginFrame p lane c f s).hide 16480 = s.hide 16480 := by
    unfold beginFrame; ((repeat' split) <;> (try dsimp only) <;> (repeat' split) <;> simp)
  exact State.hide_mono key hM

@[simp] theorem laneFrameStart_frame {M : Nat} (hM : 803056 &&& M = 803056) (p lane : Nat) (s : State) : (laneFrameStart p lane s).hide M = s.hide M := by
  refine State.hide_mono (m := 803056) ?_ hM
  have h := nextFrame_frame (M := 803056) (by decide) p lane (serveHeldAll p s)
  rw [serveHeldAll_frame (by decide)] at h
  have w : ((upTo 8).foldl (fun s c => noteWaiting p c s) (nextFrame p lane (serveHeldAll p s)).2).hide 803056 = s.hide 803056 :=
    (State.hide_foldl (fun s c => noteWaiting_frame (by decide) ..) _ _).trans h
  unfold laneFrameStart
  extract_lets usable
  split
  · rfl
  · dsimp only
    split
    · exact w
    · exact (beginFrame_frame (by decide) ..).trans w

@[simp] theorem frameLeaves_frame {M : Nat} (hM : 278624 &&& M = 278624) (p lane : Nat) (s : State) : (frameLeaves p lane s).hide M = s.hide M := by
  have key : (frameLeaves p lane s).hide 278624 = s.hide 278624 := by
    unfold frameLeaves; ((repeat' split) <;> (try dsimp only) <;> (repeat' split) <;> simp)
  exact State.hide_mono key hM

@[simp] theorem syncApply_frame {M : Nat} (hM : 64 &&& M = 64) (p lane c : Nat) (sent : BitVec 32) (s : State) : (syncApply p lane c sent s).hide M = s.hide M := by
  have key : (syncApply p lane c sent s).hide 64 = s.hide 64 := by
    unfold syncApply; ((repeat' split) <;> (try dsimp only) <;> (repeat' split) <;> simp)
  exact State.hide_mono key hM

@[simp] theorem creditReceive_frame {M : Nat} (hM : 64 &&& M = 64) (p c : Nat) (l : BitVec 32) (s : State) : (creditReceive p c l s).hide M = s.hide M := by
  have key : (creditReceive p c l s).hide 64 = s.hide 64 := by
    unfold creditReceive; ((repeat' split) <;> (try dsimp only) <;> (repeat' split) <;> simp)
  exact State.hide_mono key hM

@[simp] theorem creditWordReceive_frame {M : Nat} (hM : 64 &&& M = 64) (p lane : Nat) (w : BitVec 64) (s : State) : (creditWordReceive p lane w s).hide M = s.hide M := by
  have key : (creditWordReceive p lane w s).hide 64 = s.hide 64 := by
    unfold creditWordReceive; ((repeat' split) <;> (try dsimp only) <;> (repeat' split) <;> simp)
  exact State.hide_mono key hM

@[simp] theorem restartCounts_frame {M : Nat} (hM : 64 &&& M = 64) (p : Nat) (s : State) : (restartCounts p s).hide M = s.hide M := by
  have key : (restartCounts p s).hide 64 = s.hide 64 := by
    unfold restartCounts; simp
  exact State.hide_mono key hM

@[simp] theorem closeWords_frame {M : Nat} (hM : 1024 &&& M = 1024) (p lane : Nat) (s : State) : (closeWords p lane s).hide M = s.hide M := by
  have key : (closeWords p lane s).hide 1024 = s.hide 1024 := by
    unfold closeWords; ((repeat' split) <;> (try dsimp only) <;> (repeat' split) <;> (first | ((repeat' split) <;> (first | (simp; done) | (simp only [Prod.ext_iff] at *; (casesm* _ ∧ _); subst_vars; simp; done) | (simp only [Prod.ext_iff, Option.some.injEq] at *; (casesm* _ ∧ _); subst_vars; simp; done) | (simp_all; done))) | (refine (State.hide_foldl (fun _ _ => ?_) _ _).trans ?_ <;> ((repeat' split) <;> (first | (simp; done) | (simp only [Prod.ext_iff] at *; (casesm* _ ∧ _); subst_vars; simp; done) | (simp only [Prod.ext_iff, Option.some.injEq] at *; (casesm* _ ∧ _); subst_vars; simp; done) | (simp_all; done)))) | (refine (State.hide_foldl_snd (fun _ _ => ?_) _ _).trans ?_ <;> ((repeat' split) <;> (first | (simp; done) | (simp only [Prod.ext_iff] at *; (casesm* _ ∧ _); subst_vars; simp; done) | (simp only [Prod.ext_iff, Option.some.injEq] at *; (casesm* _ ∧ _); subst_vars; simp; done) | (simp_all; done))))))
  exact State.hide_mono key hM

@[simp] theorem sprayLeave_frame {M : Nat} (hM : 1120 &&& M = 1120) (p lane : Nat) (s : State) : (sprayLeave p lane s).hide M = s.hide M := by
  have key : (sprayLeave p lane s).hide 1120 = s.hide 1120 := by
    unfold sprayLeave; ((repeat' split) <;> (try dsimp only) <;> (repeat' split) <;> simp)
  exact State.hide_mono key hM

@[simp] theorem sprayJoin_frame {M : Nat} (hM : 96 &&& M = 96) (p lane : Nat) (both : Bool) (s : State) : (sprayJoin p lane both s).hide M = s.hide M := by
  have key : (sprayJoin p lane both s).hide 96 = s.hide 96 := by
    unfold sprayJoin; ((repeat' split) <;> (try dsimp only) <;> (repeat' split) <;> simp)
  exact State.hide_mono key hM

@[simp] theorem moveFrames_frame {M : Nat} (hM : 803056 &&& M = 803056) (p lane : Nat) (s : State) : (moveFrames p lane s).hide M = s.hide M := by
  have key : (moveFrames p lane s).hide 803056 = s.hide 803056 := by
    unfold moveFrames; ((repeat' split) <;> (try dsimp only) <;> (repeat' split) <;> (first | ((repeat' split) <;> (first | (simp; done) | (simp only [Prod.ext_iff] at *; (casesm* _ ∧ _); subst_vars; simp; done) | (simp only [Prod.ext_iff, Option.some.injEq] at *; (casesm* _ ∧ _); subst_vars; simp; done) | (simp_all; done))) | (refine (State.hide_foldl (fun _ _ => ?_) _ _).trans ?_ <;> ((repeat' split) <;> (first | (simp; done) | (simp only [Prod.ext_iff] at *; (casesm* _ ∧ _); subst_vars; simp; done) | (simp only [Prod.ext_iff, Option.some.injEq] at *; (casesm* _ ∧ _); subst_vars; simp; done) | (simp_all; done)))) | (refine (State.hide_foldl_snd (fun _ _ => ?_) _ _).trans ?_ <;> ((repeat' split) <;> (first | (simp; done) | (simp only [Prod.ext_iff] at *; (casesm* _ ∧ _); subst_vars; simp; done) | (simp only [Prod.ext_iff, Option.some.injEq] at *; (casesm* _ ∧ _); subst_vars; simp; done) | (simp_all; done))))))
  exact State.hide_mono key hM

@[simp] theorem lookupBudget_frame {M : Nat} (hM : 16 &&& M = 16) (die : Nat) (s : State) : (lookupBudget die s).2.hide M = s.hide M := by
  have key : (lookupBudget die s).2.hide 16 = s.hide 16 := by
    unfold lookupBudget; ((repeat' split) <;> (try dsimp only) <;> (repeat' split) <;> simp)
  exact State.hide_mono key hM

@[simp] theorem verdict_frame {M : Nat} (hM : 16 &&& M = 16) (die port : Nat) (f : Bytes) (p : Parsed) (s : State) : (verdict die port f p s).2.hide M = s.hide M := by
  have key : (verdict die port f p s).2.hide 16 = s.hide 16 := by
    unfold verdict; ((repeat' split) <;> (try dsimp only) <;> (repeat' split) <;> (first | (simp; done) | (simp only [Prod.ext_iff] at *; (casesm* _ ∧ _); subst_vars; simp; done) | (simp only [Prod.ext_iff, Option.some.injEq] at *; (casesm* _ ∧ _); subst_vars; simp; done) | (simp_all; done)))
  exact State.hide_mono key hM

@[simp] theorem unitsArrived_frame {M : Nat} (hM : 64 &&& M = 64) (port lane cls n : Nat) (s : State) : (unitsArrived port lane cls n s).hide M = s.hide M := by
  have key : (unitsArrived port lane cls n s).hide 64 = s.hide 64 := by
    unfold unitsArrived; ((repeat' split) <;> simp)
  exact State.hide_mono key hM

@[simp] theorem unitsFreed_frame {M : Nat} (hM : 64 &&& M = 64) (port cls n : Nat) (s : State) : (unitsFreed port cls n s).hide M = s.hide M := by
  have key : (unitsFreed port cls n s).hide 64 = s.hide 64 := by
    unfold unitsFreed; ((repeat' split) <;> simp)
  exact State.hide_mono key hM

@[simp] theorem unicastLane_frame {M : Nat} (hM : 540704 &&& M = 540704) (die n : Nat) (b : Bundle) (s : State) : (unicastLane die n b s).2.hide M = s.hide M := by
  have key : (unicastLane die n b s).2.hide 540704 = s.hide 540704 := by
    unfold unicastLane; ((repeat' split) <;> (first | (simp; done) | (simp only [Prod.ext_iff] at *; (casesm* _ ∧ _); subst_vars; simp; done) | (simp only [Prod.ext_iff, Option.some.injEq] at *; (casesm* _ ∧ _); subst_vars; simp; done) | (simp_all; done)))
  exact State.hide_mono key hM

@[simp] theorem discardFaulty_frame {M : Nat} (hM : 16384 &&& M = 16384) (die port : Nat) (s : State) : (discardFaulty die port s).hide M = s.hide M := by
  have key : (discardFaulty die port s).hide 16384 = s.hide 16384 := by
    unfold discardFaulty; simp
  exact State.hide_mono key hM

@[simp] theorem forward_frame {M : Nat} (hM : 835696 &&& M = 835696) (die port : Nat) (f : Bytes) (p : Parsed) (w : Word) (mac : Option Nat) (routed : Bool) (index : Option Nat) (s : State) : (forward die port f p w mac routed index s).hide M = s.hide M := by
  have key : (forward die port f p w mac routed index s).hide 835696 = s.hide 835696 := by
    unfold forward; ((repeat' split) <;> (try dsimp only) <;> (repeat' split) <;> simp)
  exact State.hide_mono key hM

@[simp] theorem loopReturn_frame {M : Nat} (hM : 262144 &&& M = 262144) (port lane : Nat) (f : Bytes) (s : State) : (loopReturn port lane f s).hide M = s.hide M := by
  have key : (loopReturn port lane f s).hide 262144 = s.hide 262144 := by
    unfold loopReturn; ((repeat' split) <;> (try dsimp only) <;> (repeat' split) <;> simp)
  exact State.hide_mono key hM

@[simp] theorem learnFrom_frame {M : Nat} (hM : 548880 &&& M = 548880) (die port : Nat) (p : Parsed) (routed : Bool) (s : State) : (learnFrom die port p routed s).hide M = s.hide M := by
  have key : (learnFrom die port p routed s).hide 548880 = s.hide 548880 := by
    unfold learnFrom; ((repeat' split) <;> simp)
  exact State.hide_mono key hM

@[simp] theorem lookupUpset_frame {M : Nat} (hM : 24576 &&& M = 24576) (die array word : Nat) (s : State) : (lookupUpset die array word s).hide M = s.hide M := by
  have key : (lookupUpset die array word s).hide 24576 = s.hide 24576 := by
    unfold lookupUpset; simp
  exact State.hide_mono key hM

@[simp] theorem frameIngress_frame {M : Nat} (hM : 844016 &&& M = 844016) (port lane : Nat) (f : Bytes) (upset : Option (Nat × Nat)) (s : State) : (frameIngress port lane f upset s).hide M = s.hide M := by
  have key : (frameIngress port lane f upset s).hide 844016 = s.hide 844016 := by
    unfold frameIngress; ((repeat' split) <;> (try dsimp only) <;> (repeat' split) <;> simp)
  exact State.hide_mono key hM

@[simp] theorem settleCauses_frame {M : Nat} (hM : 24580 &&& M = 24580) (s : State) : (settleCauses s).hide M = s.hide M := by
  have key : (settleCauses s).hide 24580 = s.hide 24580 := by
    unfold settleCauses; ((repeat' split) <;> simp)
  exact State.hide_mono key hM

@[simp] theorem setCause_frame {M : Nat} (hM : 24580 &&& M = 24580) (bit : Nat) (holds : Bool) (s : State) : (setCause bit holds s).hide M = s.hide M := by
  have key : (setCause bit holds s).hide 24580 = s.hide 24580 := by
    unfold setCause; simp
  exact State.hide_mono key hM

@[simp] theorem unitLost_frame {M : Nat} (hM : 24576 &&& M = 24576) (die number cause : Nat) (s : State) : (unitLost die number cause s).hide M = s.hide M := by
  have key : (unitLost die number cause s).hide 24576 = s.hide 24576 := by
    unfold unitLost; simp
  exact State.hide_mono key hM

@[simp] theorem clearDie_frame {M : Nat} (hM : 4 &&& M = 4) (d : Nat) (s : State) : (clearDie d s).hide M = s.hide M := by
  have key : (clearDie d s).hide 4 = s.hide 4 := by
    unfold clearDie; simp
  exact State.hide_mono key hM

@[simp] theorem permanentCauses_frame {M : Nat} (hM : 24580 &&& M = 24580) (s : State) : (permanentCauses s).hide M = s.hide M := by
  have key : (permanentCauses s).hide 24580 = s.hide 24580 := by
    unfold permanentCauses; ((repeat' split) <;> (try dsimp only) <;> (repeat' split) <;> simp)
  exact State.hide_mono key hM

@[simp] theorem onRing_frame {M : Nat} (hM : 1024 &&& M = 1024) (k : Nat) (f : Ring → Ring) (s : State) : (onRing k f s).hide M = s.hide M := by
  have key : (onRing k f s).hide 1024 = s.hide 1024 := by
    unfold onRing; simp
  exact State.hide_mono key hM

@[simp] theorem onLane_frame {M : Nat} (hM : 1024 &&& M = 1024) (p l : Nat) (f : Lane → Lane) (s : State) : (onLane p l f s).hide M = s.hide M := by
  have key : (onLane p l f s).hide 1024 = s.hide 1024 := by
    unfold onLane; simp
  exact State.hide_mono key hM

end Sys2Proof.Machine
end

