-- ==== Sys2Proof/Laws/Frames2.lean ====
section
/-! SUPPORT. The parts of the state that the shared operations leave unchanged, one lemma per operation, in the order of the
model's files: part 2 of 5. -/

set_option maxRecDepth 4000
set_option linter.all false

namespace Sys2Proof.Machine

@[simp] theorem onFPort_frame {M : Nat} (hM : 1024 &&& M = 1024) (p : Nat) (f : FPort → FPort) (s : State) : (onFPort p f s).hide M = s.hide M := by
  have key : (onFPort p f s).hide 1024 = s.hide 1024 := by
    unfold onFPort; simp
  exact State.hide_mono key hM

@[simp] theorem seekFrom_frame {M : Nat} (hM : 1024 &&& M = 1024) (id : RingId) (how : SeekStart) (temp : Int) (s : State) : (seekFrom id how temp s).hide M = s.hide M := by
  have key : (seekFrom id how temp s).hide 1024 = s.hide 1024 := by
    unfold seekFrom; ((repeat' split) <;> (try dsimp only) <;> (repeat' split) <;> simp)
  exact State.hide_mono key hM

@[simp] theorem parkRing_frame {M : Nat} (hM : 1024 &&& M = 1024) (k : Nat) (s : State) : (parkRing k s).hide M = s.hide M := by
  have key : (parkRing k s).hide 1024 = s.hide 1024 := by
    unfold parkRing; simp
  exact State.hide_mono key hM

@[simp] theorem ringFault_frame {M : Nat} (hM : 25600 &&& M = 25600) (id : RingId) (last : Nat) (s : State) : (ringFault id last s).hide M = s.hide M := by
  have key : (ringFault id last s).hide 25600 = s.hide 25600 := by
    unfold ringFault; simp
  exact State.hide_mono key hM

@[simp] theorem ringKeyFault_frame {M : Nat} (hM : 25600 &&& M = 25600) (k : Nat) (s : State) : (ringKeyFault k s).hide M = s.hide M := by
  have key : (ringKeyFault k s).hide 25600 = s.hide 25600 := by
    unfold ringKeyFault; simp
  exact State.hide_mono key hM

@[simp] theorem laneEnter_frame {M : Nat} (hM : 1024 &&& M = 1024) (p l : Nat) (st : LaneState) (s : State) : (laneEnter p l st s).hide M = s.hide M := by
  have key : (laneEnter p l st s).hide 1024 = s.hide 1024 := by
    unfold laneEnter; simp
  exact State.hide_mono key hM

@[simp] theorem laneRestart_frame {M : Nat} (hM : 1024 &&& M = 1024) (p l : Nat) (s : State) : (laneRestart p l s).hide M = s.hide M := by
  have key : (laneRestart p l s).hide 1024 = s.hide 1024 := by
    unfold laneRestart; ((repeat' split) <;> simp)
  exact State.hide_mono key hM

@[simp] theorem dueBlock_frame {M : Nat} (hM : 1024 &&& M = 1024) (p lane kind : Nat) (w0 w1 : BitVec 64) (extra : Nat) (s : State) : (dueBlock p lane kind w0 w1 extra s).hide M = s.hide M := by
  have key : (dueBlock p lane kind w0 w1 extra s).hide 1024 = s.hide 1024 := by
    unfold dueBlock; simp
  exact State.hide_mono key hM

@[simp] theorem sendLcm_frame {M : Nat} (hM : 1024 &&& M = 1024) (p msg lane slot slot2 : Nat) (arg : BitVec 64) (s : State) : (sendLcm p msg lane slot slot2 arg s).hide M = s.hide M := by
  have key : (sendLcm p msg lane slot slot2 arg s).hide 1024 = s.hide 1024 := by
    unfold sendLcm; ((repeat' split) <;> (try dsimp only) <;> (repeat' split) <;> simp)
  exact State.hide_mono key hM

@[simp] theorem sendAck_frame {M : Nat} (hM : 1024 &&& M = 1024) (p on msg seq lane status : Nat) (s : State) : (sendAck p on msg seq lane status s).hide M = s.hide M := by
  have key : (sendAck p on msg seq lane status s).hide 1024 = s.hide 1024 := by
    unfold sendAck; simp
  exact State.hide_mono key hM

@[simp] theorem laneDown_frame {M : Nat} (hM : 1024 &&& M = 1024) (p l reason : Nat) (s : State) : (laneDown p l reason s).hide M = s.hide M := by
  have key : (laneDown p l reason s).hide 1024 = s.hide 1024 := by
    unfold laneDown; simp
  exact State.hide_mono key hM

@[simp] theorem leaveOrderly_frame {M : Nat} (hM : 1120 &&& M = 1120) (p l reason : Nat) (s : State) : (leaveOrderly p l reason s).hide M = s.hide M := by
  have key : (leaveOrderly p l reason s).hide 1120 = s.hide 1120 := by
    unfold leaveOrderly; ((repeat' split) <;> simp)
  exact State.hide_mono key hM

@[simp] theorem leaveAbrupt_frame {M : Nat} (hM : 804080 &&& M = 804080) (p l : Nat) (s : State) : (leaveAbrupt p l s).hide M = s.hide M := by
  have key : (leaveAbrupt p l s).hide 804080 = s.hide 804080 := by
    unfold leaveAbrupt; simp
  exact State.hide_mono key hM

@[simp] theorem laneFails_frame {M : Nat} (hM : 804080 &&& M = 804080) (p l reason : Nat) (s : State) : (laneFails p l reason s).hide M = s.hide M := by
  have key : (laneFails p l reason s).hide 804080 = s.hide 804080 := by
    unfold laneFails; ((repeat' split) <;> (try dsimp only) <;> (repeat' split) <;> simp)
  exact State.hide_mono key hM

@[simp] theorem laneFollows_frame {M : Nat} (hM : 804080 &&& M = 804080) (p l : Nat) (s : State) : (laneFollows p l s).hide M = s.hide M := by
  have key : (laneFollows p l s).hide 804080 = s.hide 804080 := by
    unfold laneFollows; ((repeat' split) <;> (try dsimp only) <;> (repeat' split) <;> simp)
  exact State.hide_mono key hM

@[simp] theorem ringFollowed_frame {M : Nat} (hM : 804080 &&& M = 804080) (id : RingId) (s : State) : (ringFollowed id s).hide M = s.hide M := by
  have key : (ringFollowed id s).hide 804080 = s.hide 804080 := by
    unfold ringFollowed; ((repeat' split) <;> simp)
  exact State.hide_mono key hM

@[simp] theorem laneRelock_frame {M : Nat} (hM : 804080 &&& M = 804080) (p l : Nat) (s : State) : (laneRelock p l s).hide M = s.hide M := by
  have key : (laneRelock p l s).hide 804080 = s.hide 804080 := by
    unfold laneRelock; simp
  exact State.hide_mono key hM

@[simp] theorem laneFromDark_frame {M : Nat} (hM : 1024 &&& M = 1024) (p l : Nat) (s : State) : (laneFromDark p l s).hide M = s.hide M := by
  have key : (laneFromDark p l s).hide 1024 = s.hide 1024 := by
    unfold laneFromDark; simp
  exact State.hide_mono key hM

@[simp] theorem dieDark_frame {M : Nat} (hM : 1024 &&& M = 1024) (d : Nat) (s : State) : (dieDark d s).hide M = s.hide M := by
  have key : (dieDark d s).hide 1024 = s.hide 1024 := by
    unfold dieDark; simp
  exact State.hide_mono key hM

@[simp] theorem onEls_frame {M : Nat} (hM : 1024 &&& M = 1024) (m : Nat) (f : Els → Els) (s : State) : (onEls m f s).hide M = s.hide M := by
  have key : (onEls m f s).hide 1024 = s.hide 1024 := by
    unfold onEls; simp
  exact State.hide_mono key hM

@[simp] theorem elsEnable_frame {M : Nat} (hM : 1028 &&& M = 1028) (m : Nat) (s : State) : (elsEnable m s).hide M = s.hide M := by
  have key : (elsEnable m s).hide 1028 = s.hide 1028 := by
    unfold elsEnable; ((repeat' split) <;> (try dsimp only) <;> (repeat' split) <;> simp)
  exact State.hide_mono key hM

@[simp] theorem elsCause_frame {M : Nat} (hM : 24580 &&& M = 24580) (s : State) : (elsCause s).hide M = s.hide M := by
  have key : (elsCause s).hide 24580 = s.hide 24580 := by
    unfold elsCause; simp
  exact State.hide_mono key hM

@[simp] theorem onPath_frame {M : Nat} (hM : 2048 &&& M = 2048) (q : Nat) (f : Path → Path) (s : State) : (onPath q f s).hide M = s.hide M := by
  have key : (onPath q f s).hide 2048 = s.hide 2048 := by
    unfold onPath; simp
  exact State.hide_mono key hM

@[simp] theorem expressResult_frame {M : Nat} (hM : 2048 &&& M = 2048) (q code : Nat) (s : State) : (expressResult q code s).hide M = s.hide M := by
  have key : (expressResult q code s).hide 2048 = s.hide 2048 := by
    unfold expressResult; simp
  exact State.hide_mono key hM

@[simp] theorem holdLane_frame {M : Nat} (hM : 1120 &&& M = 1120) (p k : Nat) (s : State) : (holdLane p k s).hide M = s.hide M := by
  have key : (holdLane p k s).hide 1120 = s.hide 1120 := by
    unfold holdLane; simp
  exact State.hide_mono key hM

@[simp] theorem expressSet_frame {M : Nat} (hM : 11360 &&& M = 11360) (q a b : Nat) (act : Word) (s : State) : (expressSet q a b act s).hide M = s.hide M := by
  have key : (expressSet q a b act s).hide 11360 = s.hide 11360 := by
    unfold expressSet; ((repeat' split) <;> (try dsimp only) <;> (repeat' split) <;> simp)
  exact State.hide_mono key hM

@[simp] theorem freeLane_frame {M : Nat} (hM : 1024 &&& M = 1024) (p k : Nat) (s : State) : (freeLane p k s).hide M = s.hide M := by
  have key : (freeLane p k s).hide 1024 = s.hide 1024 := by
    unfold freeLane; ((repeat' split) <;> simp)
  exact State.hide_mono key hM

@[simp] theorem releaseRing_frame {M : Nat} (hM : 3072 &&& M = 3072) (key k : Nat) (uses : Path → Bool) (s : State) : (releaseRing key k uses s).hide M = s.hide M := by
  have key : (releaseRing key k uses s).hide 3072 = s.hide 3072 := by
    unfold releaseRing; ((repeat' split) <;> simp)
  exact State.hide_mono key hM

@[simp] theorem releasePath_frame {M : Nat} (hM : 3072 &&& M = 3072) (q a b : Nat) (s : State) : (releasePath q a b s).hide M = s.hide M := by
  have key : (releasePath q a b s).hide 3072 = s.hide 3072 := by
    unfold releasePath; simp
  exact State.hide_mono key hM

@[simp] theorem sendReturn_frame {M : Nat} (hM : 1024 &&& M = 1024) (port q role time : Nat) (s : State) : (sendReturn port q role time s).hide M = s.hide M := by
  have key : (sendReturn port q role time s).hide 1024 = s.hide 1024 := by
    unfold sendReturn; simp
  exact State.hide_mono key hM

@[simp] theorem installQueued_frame {M : Nat} (hM : 2048 &&& M = 2048) (q : Nat) (s : State) : (installQueued q s).hide M = s.hide M := by
  have key : (installQueued q s).hide 2048 = s.hide 2048 := by
    unfold installQueued; ((repeat' split) <;> simp)
  exact State.hide_mono key hM

@[simp] theorem endQueued_frame {M : Nat} (hM : 27648 &&& M = 27648) (q code : Nat) (s : State) : (endQueued q code s).hide M = s.hide M := by
  have key : (endQueued q code s).hide 27648 = s.hide 27648 := by
    unfold endQueued; ((repeat' split) <;> (try dsimp only) <;> (repeat' split) <;> simp)
  exact State.hide_mono key hM

@[simp] theorem endPath_frame {M : Nat} (hM : 27648 &&& M = 27648) (q code : Nat) (s : State) : (endPath q code s).hide M = s.hide M := by
  have key : (endPath q code s).hide 27648 = s.hide 27648 := by
    unfold endPath; ((repeat' split) <;> (try dsimp only) <;> (repeat' split) <;> simp)
  exact State.hide_mono key hM

@[simp] theorem parkLane_frame {M : Nat} (hM : 1024 &&& M = 1024) (p k : Nat) (s : State) : (parkLane p k s).hide M = s.hide M := by
  have key : (parkLane p k s).hide 1024 = s.hide 1024 := by
    unfold parkLane; ((repeat' split) <;> simp)
  exact State.hide_mono key hM

@[simp] theorem expressGuard_frame {M : Nat} (hM : 27648 &&& M = 27648) (q : Nat) (e1 : Int) (s : State) : (expressGuard q e1 s).hide M = s.hide M := by
  have key : (expressGuard q e1 s).hide 27648 = s.hide 27648 := by
    unfold expressGuard; ((repeat' split) <;> (try dsimp only) <;> (repeat' split) <;> simp)
  exact State.hide_mono key hM

@[simp] theorem expressClear_frame {M : Nat} (hM : 27648 &&& M = 27648) (q t flags : Nat) (s : State) : (expressClear q t flags s).hide M = s.hide M := by
  have key : (expressClear q t flags s).hide 27648 = s.hide 27648 := by
    unfold expressClear; ((repeat' split) <;> (try dsimp only) <;> (repeat' split) <;> simp)
  exact State.hide_mono key hM

@[simp] theorem teardown_frame {M : Nat} (hM : 3072 &&& M = 3072) (q : Nat) (s : State) : (teardown q s).hide M = s.hide M := by
  have key : (teardown q s).hide 3072 = s.hide 3072 := by
    unfold teardown; simp
  exact State.hide_mono key hM

@[simp] theorem claimAnswered_frame {M : Nat} (hM : 27648 &&& M = 27648) (port q role time : Nat) (accepted : Bool) (s : State) : (claimAnswered port q role time accepted s).hide M = s.hide M := by
  have key : (claimAnswered port q role time accepted s).hide 27648 = s.hide 27648 := by
    unfold claimAnswered; ((repeat' split) <;> simp)
  exact State.hide_mono key hM

@[simp] theorem endPaths_frame {M : Nat} (hM : 27648 &&& M = 27648) (code : Nat) (pick : Path → Bool) (s : State) : (endPaths code pick s).hide M = s.hide M := by
  have key : (endPaths code pick s).hide 27648 = s.hide 27648 := by
    unfold endPaths; simp [State.hide_foldl, State.hide_foldl_snd]
  exact State.hide_mono key hM

@[simp] theorem expressOnStep_frame {M : Nat} (hM : 27648 &&& M = 27648) (big : Bool) (s : State) : (expressOnStep big s).hide M = s.hide M := by
  have key : (expressOnStep big s).hide 27648 = s.hide 27648 := by
    unfold expressOnStep; ((repeat' split) <;> (try dsimp only) <;> (repeat' split) <;> (first | simp | (refine (State.hide_foldl (fun _ _ => ?_) _ _).trans ?_ <;> simp) | (refine (State.hide_foldl_snd (fun _ _ => ?_) _ _).trans ?_ <;> simp)))
  exact State.hide_mono key hM

@[simp] theorem expressHeadless_frame {M : Nat} (hM : 27648 &&& M = 27648) (s : State) : (expressHeadless s).hide M = s.hide M := by
  have key : (expressHeadless s).hide 27648 = s.hide 27648 := by
    unfold expressHeadless; simp
  exact State.hide_mono key hM

@[simp] theorem expressDieLost_frame {M : Nat} (hM : 27648 &&& M = 27648) (d : Nat) (s : State) : (expressDieLost d s).hide M = s.hide M := by
  have key : (expressDieLost d s).hide 27648 = s.hide 27648 := by
    unfold expressDieLost; simp
  exact State.hide_mono key hM

@[simp] theorem expressGate_frame {M : Nat} (hM : 2048 &&& M = 2048) (k bit : Nat) (uses : Path → Bool) (shut : Bool) (s : State) : (expressGate k bit uses shut s).hide M = s.hide M := by
  have key : (expressGate k bit uses shut s).hide 2048 = s.hide 2048 := by
    unfold expressGate; simp
  exact State.hide_mono key hM

@[simp] theorem dropGate_frame {M : Nat} (hM : 2048 &&& M = 2048) (p k : Nat) (shut : Bool) (s : State) : (dropGate p k shut s).hide M = s.hide M := by
  have key : (dropGate p k shut s).hide 2048 = s.hide 2048 := by
    unfold dropGate; simp
  exact State.hide_mono key hM

@[simp] theorem addGate_frame {M : Nat} (hM : 2048 &&& M = 2048) (p k : Nat) (shut : Bool) (s : State) : (addGate p k shut s).hide M = s.hide M := by
  have key : (addGate p k shut s).hide 2048 = s.hide 2048 := by
    unfold addGate; simp
  exact State.hide_mono key hM

@[simp] theorem busTaps_frame {M : Nat} (hM : 2048 &&& M = 2048) (q : Nat) (e1 e2 : Int) (s : State) : (busTaps q e1 e2 s).hide M = s.hide M := by
  have key : (busTaps q e1 e2 s).hide 2048 = s.hide 2048 := by
    unfold busTaps; simp
  exact State.hide_mono key hM

@[simp] theorem gatesDark_frame {M : Nat} (hM : 2048 &&& M = 2048) (s : State) : (gatesDark s).hide M = s.hide M := by
  have key : (gatesDark s).hide 2048 = s.hide 2048 := by
    unfold gatesDark; simp
  exact State.hide_mono key hM

@[simp] theorem launchFrame_frame {M : Nat} (hM : 540768 &&& M = 540768) (t : Timed) (skip : Int) (s : State) : (launchFrame t skip s).hide M = s.hide M := by
  have key : (launchFrame t skip s).hide 540768 = s.hide 540768 := by
    unfold launchFrame; ((repeat' split) <;> (first | (simp; done) | (simp only [Prod.ext_iff] at *; (casesm* _ ∧ _); subst_vars; simp; done) | (simp only [Prod.ext_iff, Option.some.injEq] at *; (casesm* _ ∧ _); subst_vars; simp; done) | (simp_all; done)))
  exact State.hide_mono key hM

@[simp] theorem timedEligible_frame {M : Nat} (hM : 540768 &&& M = 540768) (die : Nat) (s : State) : (timedEligible die s).hide M = s.hide M := by
  have key : (timedEligible die s).hide 540768 = s.hide 540768 := by
    unfold timedEligible; ((repeat' split) <;> simp)
  exact State.hide_mono key hM

@[simp] theorem launchPassed_frame {M : Nat} (hM : 540768 &&& M = 540768) (die : Nat) (step : Int) (s : State) : (launchPassed die step s).hide M = s.hide M := by
  have key : (launchPassed die step s).hide 540768 = s.hide 540768 := by
    unfold launchPassed; ((repeat' split) <;> (try dsimp only) <;> (repeat' split) <;> (first | simp | (refine (State.hide_foldl (fun _ _ => ?_) _ _).trans ?_ <;> simp) | (refine (State.hide_foldl_snd (fun _ _ => ?_) _ _).trans ?_ <;> simp)))
  exact State.hide_mono key hM

@[simp] theorem returnTimed_frame {M : Nat} (hM : 16416 &&& M = 16416) (die : Nat) (s : State) : (returnTimed die s).hide M = s.hide M := by
  have key : (returnTimed die s).hide 16416 = s.hide 16416 := by
    unfold returnTimed; ((repeat' split) <;> (try dsimp only) <;> (repeat' split) <;> (first | ((repeat' split) <;> (first | (simp; done) | (simp only [Prod.ext_iff] at *; (casesm* _ ∧ _); subst_vars; simp; done) | (simp only [Prod.ext_iff, Option.some.injEq] at *; (casesm* _ ∧ _); subst_vars; simp; done) | (simp_all; done))) | (refine (State.hide_foldl (fun _ _ => ?_) _ _).trans ?_ <;> ((repeat' split) <;> (first | (simp; done) | (simp only [Prod.ext_iff] at *; (casesm* _ ∧ _); subst_vars; simp; done) | (simp only [Prod.ext_iff, Option.some.injEq] at *; (casesm* _ ∧ _); subst_vars; simp; done) | (simp_all; done)))) | (refine (State.hide_foldl_snd (fun _ _ => ?_) _ _).trans ?_ <;> ((repeat' split) <;> (first | (simp; done) | (simp only [Prod.ext_iff] at *; (casesm* _ ∧ _); subst_vars; simp; done) | (simp only [Prod.ext_iff, Option.some.injEq] at *; (casesm* _ ∧ _); subst_vars; simp; done) | (simp_all; done))))))
  exact State.hide_mono key hM

@[simp] theorem applyStep_frame {M : Nat} (hM : 552050 &&& M = 552050) (step : Int) (s : State) : (applyStep step s).hide M = s.hide M := by
  have key : (applyStep step s).hide 552050 = s.hide 552050 := by
    unfold applyStep; ((repeat' split) <;> (try dsimp only) <;> (repeat' split) <;> simp [State.hide_foldl, State.hide_foldl_snd])
  exact State.hide_mono key hM

@[simp] theorem alignmentMark_frame {M : Nat} (hM : 552050 &&& M = 552050) (s : State) : (alignmentMark s).hide M = s.hide M := by
  have key : (alignmentMark s).hide 552050 = s.hide 552050 := by
    unfold alignmentMark; ((repeat' split) <;> simp)
  exact State.hide_mono key hM

@[simp] theorem incWrite_frame {M : Nat} (hM : 2 &&& M = 2) (v : Word) (s : State) : (incWrite v s).hide M = s.hide M := by
  have key : (incWrite v s).hide 2 = s.hide 2 := by
    unfold incWrite; ((repeat' split) <;> simp)
  exact State.hide_mono key hM

@[simp] theorem requestStep_frame {M : Nat} (hM : 24578 &&& M = 24578) (step : Int) (force : Bool) (s : State) : (requestStep step force s).hide M = s.hide M := by
  have key : (requestStep step force s).hide 24578 = s.hide 24578 := by
    unfold requestStep; ((repeat' split) <;> simp)
  exact State.hide_mono key hM

@[simp] theorem stepCtlWrite_frame {M : Nat} (hM : 24578 &&& M = 24578) (v : Word) (s : State) : (stepCtlWrite v s).hide M = s.hide M := by
  have key : (stepCtlWrite v s).hide 24578 = s.hide 24578 := by
    unfold stepCtlWrite; ((repeat' split) <;> simp)
  exact State.hide_mono key hM

@[simp] theorem timeStepWrite_frame {M : Nat} (hM : 24578 &&& M = 24578) (ns : Word) (frac : BitVec 16) (force : Bool) (s : State) : (timeStepWrite ns frac force s).hide M = s.hide M := by
  have key : (timeStepWrite ns frac force s).hide 24578 = s.hide 24578 := by
    unfold timeStepWrite; ((repeat' split) <;> simp)
  exact State.hide_mono key hM

@[simp] theorem guardRead_frame {M : Nat} (hM : 16384 &&& M = 16384) (m die block word : Nat) (k : State → State)
    (hk : ∀ s, (k s).hide M = s.hide M) (s : State) : (guardRead m die block word k s).hide M = s.hide M := by
  unfold guardRead; (repeat' split) <;> simp [hM, hk]

@[simp] theorem nowRead_frame {M : Nat} (hM : 2 &&& M = 2) (die : Nat) (s : State) : (nowRead die s).hide M = s.hide M := by
  have key : (nowRead die s).hide 2 = s.hide 2 := by
    unfold nowRead; simp
  exact State.hide_mono key hM

@[simp] theorem servo_frame {M : Nat} (hM : 2 &&& M = 2) (s : State) : (servo s).hide M = s.hide M := by
  have key : (servo s).hide 2 = s.hide 2 := by
    unfold servo; simp
  exact State.hide_mono key hM

@[simp] theorem ppsEdge_frame {M : Nat} (hM : 24578 &&& M = 24578) (s : State) : (ppsEdge s).hide M = s.hide M := by
  have key : (ppsEdge s).hide 24578 = s.hide 24578 := by
    unfold ppsEdge; ((repeat' split) <;> (try dsimp only) <;> (repeat' split) <;> simp)
  exact State.hide_mono key hM

@[simp] theorem ppsGone_frame {M : Nat} (hM : 24578 &&& M = 24578) (s : State) : (ppsGone s).hide M = s.hide M := by
  have key : (ppsGone s).hide 24578 = s.hide 24578 := by
    unfold ppsGone; ((repeat' split) <;> simp)
  exact State.hide_mono key hM

@[simp] theorem clk10Gone_frame {M : Nat} (hM : 24578 &&& M = 24578) (s : State) : (clk10Gone s).hide M = s.hide M := by
  have key : (clk10Gone s).hide 24578 = s.hide 24578 := by
    unfold clk10Gone; simp
  exact State.hide_mono key hM

@[simp] theorem clk10Measure_frame {M : Nat} (hM : 24578 &&& M = 24578) (ticks : Nat) (s : State) : (clk10Measure ticks s).hide M = s.hide M := by
  have key : (clk10Measure ticks s).hide 24578 = s.hide 24578 := by
    unfold clk10Measure; ((repeat' split) <;> (try dsimp only) <;> (repeat' split) <;> simp)
  exact State.hide_mono key hM

@[simp] theorem servoModeWrite_frame {M : Nat} (hM : 139264 &&& M = 139264) (v : Nat) (s : State) : (servoModeWrite v s).hide M = s.hide M := by
  have key : (servoModeWrite v s).hide 139264 = s.hide 139264 := by
    unfold servoModeWrite; simp
  exact State.hide_mono key hM

@[simp] theorem onChan_frame {M : Nat} (hM : 16384 &&& M = 16384) (eng ch : Nat) (f : Chan → Chan) (s : State) : (onChan eng ch f s).hide M = s.hide M := by
  have key : (onChan eng ch f s).hide 16384 = s.hide 16384 := by
    unfold onChan; simp
  exact State.hide_mono key hM

@[simp] theorem onEngine_frame {M : Nat} (hM : 16384 &&& M = 16384) (eng : Nat) (f : DmaEngine → DmaEngine) (s : State) : (onEngine eng f s).hide M = s.hide M := by
  have key : (onEngine eng f s).hide 16384 = s.hide 16384 := by
    unfold onEngine; simp
  exact State.hide_mono key hM

@[simp] theorem irqSet_frame {M : Nat} (hM : 16384 &&& M = 16384) (eng ch : Nat) (s : State) : (irqSet eng ch s).hide M = s.hide M := by
  have key : (irqSet eng ch s).hide 16384 = s.hide 16384 := by
    unfold irqSet; simp
  exact State.hide_mono key hM

@[simp] theorem engineError_frame {M : Nat} (hM : 16384 &&& M = 16384) (eng ch code addr : Nat) (s : State) : (engineError eng ch code addr s).hide M = s.hide M := by
  have key : (engineError eng ch code addr s).hide 16384 = s.hide 16384 := by
    unfold engineError; ((repeat' split) <;> simp)
  exact State.hide_mono key hM

@[simp] theorem copyUnits_frame {M : Nat} (hM : 65536 &&& M = 65536) (eng owner : Nat) (y0 : Nat) (y1 : Nat) (y2 : Nat) (y3 : Bool) (s : State) : (copyUnits eng owner y0 y1 y2 y3 s).st.hide M = s.hide M := by
  have key : (copyUnits eng owner y0 y1 y2 y3 s).st.hide 65536 = s.hide 65536 := by
    fun_induction copyUnits eng owner y0 y1 y2 y3 s <;> ((repeat' split) <;> simp_all)
  exact State.hide_mono key hM

@[simp] theorem fillUnits_frame {M : Nat} (hM : 65536 &&& M = 65536) (eng owner : Nat) (b : Bytes) (y0 : Nat) (y1 : Nat) (y2 : Bool) (s : State) : (fillUnits eng owner b y0 y1 y2 s).st.hide M = s.hide M := by
  have key : (fillUnits eng owner b y0 y1 y2 s).st.hide 65536 = s.hide 65536 := by
    fun_induction fillUnits eng owner b y0 y1 y2 s <;> ((repeat' split) <;> simp_all)
  exact State.hide_mono key hM

@[simp] theorem gatherItems_frame {M : Nat} (hM : 65536 &&& M = 65536) (eng owner src dst index units n i : Nat) (ecc : Bool) (s : State) : (gatherItems eng owner src dst index units n i ecc s).st.hide M = s.hide M := by
  refine State.hide_mono (m := 65536) ?_ hM
  induction n generalizing i ecc s with
  | zero => rfl
  | succ n ih =>
    unfold gatherItems
    dsimp only
    split
    · rfl
    · split
      · split <;> simp
      · exact (ih _ _ _).trans (by split <;> simp)

@[simp] theorem coverMem_frame {M : Nat} (hM : 32768 &&& M = 32768) (s : State) (eng owner dst n : Nat) : (coverMem s eng owner dst n).hide M = s.hide M := by
  have key : (coverMem s eng owner dst n).hide 32768 = s.hide 32768 := by
    unfold coverMem; ((repeat' split) <;> simp)
  exact State.hide_mono key hM

@[simp] theorem emitPort_frame {M : Nat} (hM : 835696 &&& M = 835696) (eng : Nat) (f : Bytes) (d : Desc) (tag : Nat × Nat) (s : State) : (emitPort eng f d tag s).hide M = s.hide M := by
  have key : (emitPort eng f d tag s).hide 835696 = s.hide 835696 := by
    unfold emitPort; ((repeat' split) <;> (first | (simp; done) | (simp only [Prod.ext_iff] at *; (casesm* _ ∧ _); subst_vars; simp; done) | (simp only [Prod.ext_iff, Option.some.injEq] at *; (casesm* _ ∧ _); subst_vars; simp; done) | (simp_all; done)))
  exact State.hide_mono key hM

@[simp] theorem emitTimed_frame {M : Nat} (hM : 16416 &&& M = 16416) (eng : Nat) (f : Bytes) (d : Desc) (tag : Nat × Nat) (s : State) : (emitTimed eng f d tag s).hide M = s.hide M := by
  have key : (emitTimed eng f d tag s).hide 16416 = s.hide 16416 := by
    unfold emitTimed; ((repeat' split) <;> (try dsimp only) <;> (repeat' split) <;> (first | (simp; done) | (simp only [Prod.ext_iff] at *; (casesm* _ ∧ _); subst_vars; simp; done) | (simp only [Prod.ext_iff, Option.some.injEq] at *; (casesm* _ ∧ _); subst_vars; simp; done) | (simp_all; done)))
  exact State.hide_mono key hM

@[simp] theorem emitLookup_frame {M : Nat} (hM : 844016 &&& M = 844016) (eng : Nat) (f : Bytes) (upset : Option (Nat × Nat)) (tag : Nat × Nat) (s : State) : (emitLookup eng f upset tag s).hide M = s.hide M := by
  have key : (emitLookup eng f upset tag s).hide 844016 = s.hide 844016 := by
    unfold emitLookup; ((repeat' split) <;> (try dsimp only) <;> (repeat' split) <;> simp)
  exact State.hide_mono key hM

@[simp] theorem emitFrame_frame {M : Nat} (hM : 844016 &&& M = 844016) (eng : Nat) (b : Bytes) (d : Desc) (tag : Nat × Nat) (s : State) : (emitFrame eng b d tag s).hide M = s.hide M := by
  have key : (emitFrame eng b d tag s).hide 844016 = s.hide 844016 := by
    unfold emitFrame; ((repeat' split) <;> simp)
  exact State.hide_mono key hM

@[simp] theorem runDesc_frame {M : Nat} (hM : 909552 &&& M = 909552) (eng ch : Nat) (d : Desc) (tag : Nat × Nat) (s : State) : (runDesc eng ch d tag s).hide M = s.hide M := by
  refine State.hide_mono (m := 909552) ?_ hM
  have hs : ∀ m : Moved, (settleMoved eng ch tag m).hide 909552 = m.st.hide 909552 := by
    intro m; unfold settleMoved; split <;> simp
  unfold runDesc
  dsimp only
  split
  · simp
  · split
    · simp
    · split
      · simp
      · rw [hs]; dsimp only; split <;> simp
      · rw [hs]; dsimp only; split <;> simp
      · rw [hs]; dsimp only; split <;> simp
      · split
        · simp
        · split <;> simp

@[simp] theorem dmaFetch_frame {M : Nat} (hM : 909552 &&& M = 909552) (eng ch : Nat) (upset : Option (Nat × Nat)) (s : State) : (dmaFetch eng ch upset s).hide M = s.hide M := by
  have key : (dmaFetch eng ch upset s).hide 909552 = s.hide 909552 := by
    unfold dmaFetch; ((repeat' split) <;> (try dsimp only) <;> (repeat' split) <;> simp)
  exact State.hide_mono key hM

@[simp] theorem chanDone_frame {M : Nat} (hM : 16384 &&& M = 16384) (eng ch status : Nat) (irq : Bool) (s : State) : (chanDone eng ch status irq s).hide M = s.hide M := by
  have key : (chanDone eng ch status irq s).hide 16384 = s.hide 16384 := by
    unfold chanDone; ((repeat' split) <;> simp)
  exact State.hide_mono key hM

@[simp] theorem dmaComplete_frame {M : Nat} (hM : 81920 &&& M = 81920) (eng ch : Nat) (s : State) : (dmaComplete eng ch s).hide M = s.hide M := by
  have key : (dmaComplete eng ch s).hide 81920 = s.hide 81920 := by
    unfold dmaComplete; ((repeat' split) <;> simp)
  exact State.hide_mono key hM

@[simp] theorem dmaHalt_frame {M : Nat} (hM : 24576 &&& M = 24576) (eng : Nat) (s : State) : (dmaHalt eng s).hide M = s.hide M := by
  have key : (dmaHalt eng s).hide 24576 = s.hide 24576 := by
    unfold dmaHalt; ((repeat' split) <;> (try dsimp only) <;> (repeat' split) <;> simp)
  exact State.hide_mono key hM

@[simp] theorem dmaResume_frame {M : Nat} (hM : 16384 &&& M = 16384) (eng : Nat) (s : State) : (dmaResume eng s).hide M = s.hide M := by
  have key : (dmaResume eng s).hide 16384 = s.hide 16384 := by
    unfold dmaResume; ((repeat' split) <;> simp)
  exact State.hide_mono key hM

@[simp] theorem chanAbort_frame {M : Nat} (hM : 16384 &&& M = 16384) (eng ch : Nat) (s : State) : (chanAbort eng ch s).hide M = s.hide M := by
  have key : (chanAbort eng ch s).hide 16384 = s.hide 16384 := by
    unfold chanAbort; simp
  exact State.hide_mono key hM

@[simp] theorem chCtlWrite_frame {M : Nat} (hM : 16384 &&& M = 16384) (eng ch : Nat) (v : Word) (s : State) : (chCtlWrite eng ch v s).hide M = s.hide M := by
  have key : (chCtlWrite eng ch v s).hide 16384 = s.hide 16384 := by
    unfold chCtlWrite; ((repeat' split) <;> simp)
  exact State.hide_mono key hM

@[simp] theorem chHeadSet_frame {M : Nat} (hM : 16384 &&& M = 16384) (eng ch : Nat) (v : Word) (s : State) : (chHeadSet eng ch v s).hide M = s.hide M := by
  have key : (chHeadSet eng ch v s).hide 16384 = s.hide 16384 := by
    unfold chHeadSet; simp
  exact State.hide_mono key hM

@[simp] theorem dmaRegWrite_frame {M : Nat} (hM : 16384 &&& M = 16384) (eng word : Nat) (v : Word) (s : State) : (dmaRegWrite eng word v s).hide M = s.hide M := by
  have key : (dmaRegWrite eng word v s).hide 16384 = s.hide 16384 := by
    unfold dmaRegWrite; ((repeat' split) <;> simp)
  exact State.hide_mono key hM

@[simp] theorem onCtx_frame {M : Nat} (hM : 128 &&& M = 128) (k : Nat) (f : Ctx → Ctx) (s : State) : (onCtx k f s).hide M = s.hide M := by
  have key : (onCtx k f s).hide 128 = s.hide 128 := by
    unfold onCtx; simp
  exact State.hide_mono key hM

@[simp] theorem onSlot_frame {M : Nat} (hM : 128 &&& M = 128) (k : Nat) (f : Slot → Slot) (s : State) : (onSlot k f s).hide M = s.hide M := by
  have key : (onSlot k f s).hide 128 = s.hide 128 := by
    unfold onSlot; simp
  exact State.hide_mono key hM

@[simp] theorem reserveOn_frame {M : Nat} (hM : 128 &&& M = 128) (g : Group) (s : State) (d : Nat) : (reserveOn g s d).hide M = s.hide M := by
  have key : (reserveOn g s d).hide 128 = s.hide 128 := by
    unfold reserveOn; ((repeat' split) <;> simp)
  exact State.hide_mono key hM

@[simp] theorem releaseOn_frame {M : Nat} (hM : 128 &&& M = 128) (g : Group) (s : State) (d : Nat) : (releaseOn g s d).hide M = s.hide M := by
  have key : (releaseOn g s d).hide 128 = s.hide 128 := by
    unfold releaseOn; ((repeat' split) <;> simp)
  exact State.hide_mono key hM

@[simp] theorem groupPrepare_frame {M : Nat} (hM : 128 &&& M = 128) (r : Bytes) (s : State) : (groupPrepare r s).2.hide M = s.hide M := by
  have key : (groupPrepare r s).2.hide 128 = s.hide 128 := by
    unfold groupPrepare; ((repeat' split) <;> (try dsimp only) <;> (repeat' split) <;> (first | ((repeat' split) <;> (first | (simp; done) | (simp only [Prod.ext_iff] at *; (casesm* _ ∧ _); subst_vars; simp; done) | (simp only [Prod.ext_iff, Option.some.injEq] at *; (casesm* _ ∧ _); subst_vars; simp; done) | (simp_all; done))) | (refine (State.hide_foldl (fun _ _ => ?_) _ _).trans ?_ <;> ((repeat' split) <;> (first | (simp; done) | (simp only [Prod.ext_iff] at *; (casesm* _ ∧ _); subst_vars; simp; done) | (simp only [Prod.ext_iff, Option.some.injEq] at *; (casesm* _ ∧ _); subst_vars; simp; done) | (simp_all; done)))) | (refine (State.hide_foldl_snd (fun _ _ => ?_) _ _).trans ?_ <;> ((repeat' split) <;> (first | (simp; done) | (simp only [Prod.ext_iff] at *; (casesm* _ ∧ _); subst_vars; simp; done) | (simp only [Prod.ext_iff, Option.some.injEq] at *; (casesm* _ ∧ _); subst_vars; simp; done) | (simp_all; done))))))
  exact State.hide_mono key hM

@[simp] theorem groupCommit_frame {M : Nat} (hM : 8320 &&& M = 8320) (commit : Bool) (s : State) : (groupCommit commit s).2.hide M = s.hide M := by
  have key : (groupCommit commit s).2.hide 8320 = s.hide 8320 := by
    unfold groupCommit; ((repeat' split) <;> (try dsimp only) <;> (repeat' split) <;> (first | ((repeat' split) <;> (first | (simp; done) | (simp only [Prod.ext_iff] at *; (casesm* _ ∧ _); subst_vars; simp; done) | (simp only [Prod.ext_iff, Option.some.injEq] at *; (casesm* _ ∧ _); subst_vars; simp; done) | (simp_all; done))) | (refine (State.hide_foldl (fun _ _ => ?_) _ _).trans ?_ <;> ((repeat' split) <;> (first | (simp; done) | (simp only [Prod.ext_iff] at *; (casesm* _ ∧ _); subst_vars; simp; done) | (simp only [Prod.ext_iff, Option.some.injEq] at *; (casesm* _ ∧ _); subst_vars; simp; done) | (simp_all; done)))) | (refine (State.hide_foldl_snd (fun _ _ => ?_) _ _).trans ?_ <;> ((repeat' split) <;> (first | (simp; done) | (simp only [Prod.ext_iff] at *; (casesm* _ ∧ _); subst_vars; simp; done) | (simp only [Prod.ext_iff, Option.some.injEq] at *; (casesm* _ ∧ _); subst_vars; simp; done) | (simp_all; done))))))
  exact State.hide_mono key hM

@[simp] theorem commitMark_frame {M : Nat} (hM : 128 &&& M = 128) (d : Nat) (arrived : Bool) (s : State) : (commitMark d arrived s).hide M = s.hide M := by
  have key : (commitMark d arrived s).hide 128 = s.hide 128 := by
    unfold commitMark; ((repeat' split) <;> (try dsimp only) <;> (repeat' split) <;> simp)
  exact State.hide_mono key hM

@[simp] theorem groupMoor_frame {M : Nat} (hM : 8320 &&& M = 8320) (r : Bytes) (s : State) : (groupMoor r s).2.2.hide M = s.hide M := by
  refine State.hide_mono (m := 8320) ?_ hM
  unfold groupMoor
  dsimp only
  split
  · simp
  · refine (State.hide_foldl_snd (fun x a => ?_) _ _).trans ?_ <;> simp

@[simp] theorem fallback_frame {M : Nat} (hM : 114688 &&& M = 114688) (w : WordAt) (s : State) : (fallback w s).2.hide M = s.hide M := by
  have key : (fallback w s).2.hide 114688 = s.hide 114688 := by
    unfold fallback; ((repeat' split) <;> (try dsimp only) <;> (repeat' split) <;> simp)
  exact State.hide_mono key hM

@[simp] theorem readWord_frame {M : Nat} (hM : 114688 &&& M = 114688) (w : WordAt) (s : State) : (readWord w s).2.hide M = s.hide M := by
  have key : (readWord w s).2.hide 114688 = s.hide 114688 := by
    unfold readWord; ((repeat' split) <;> simp)
  exact State.hide_mono key hM

@[simp] theorem noteSuspect_frame {M : Nat} (hM : 128 &&& M = 128) (k : Nat) (w : WordAt) (s : State) : (noteSuspect k w s).hide M = s.hide M := by
  have key : (noteSuspect k w s).hide 128 = s.hide 128 := by
    unfold noteSuspect; ((repeat' split) <;> simp)
  exact State.hide_mono key hM

@[simp] theorem writeWord_frame {M : Nat} (hM : 98944 &&& M = 98944) (k : Nat) (g : Group) (w : WordAt) (d : Bytes) (s : State) : (writeWord k g w d s).hide M = s.hide M := by
  have key : (writeWord k g w d s).hide 98944 = s.hide 98944 := by
    unfold writeWord; ((repeat' split) <;> (try dsimp only) <;> (repeat' split) <;> simp)
  exact State.hide_mono key hM

@[simp] theorem unlockBlock_frame {M : Nat} (hM : 512 &&& M = 512) (k key : Nat) (s : State) : (unlockBlock k key s).hide M = s.hide M := by
  have key : (unlockBlock k key s).hide 512 = s.hide 512 := by
    unfold unlockBlock; simp
  exact State.hide_mono key hM

@[simp] theorem commitBlock_frame {M : Nat} (hM : 123392 &&& M = 123392) (k : Nat) (s : State) (x : Nat × Nat) : (commitBlock k s x).hide M = s.hide M := by
  have key : (commitBlock k s x).hide 123392 = s.hide 123392 := by
    unfold commitBlock; ((repeat' split) <;> (try dsimp only) <;> (repeat' split) <;> simp)
  exact State.hide_mono key hM

@[simp] theorem blockCommit_frame {M : Nat} (hM : 123520 &&& M = 123520) (k : Nat) (s : State) : (blockCommit k s).hide M = s.hide M := by
  have key : (blockCommit k s).hide 123520 = s.hide 123520 := by
    unfold blockCommit; ((repeat' split) <;> (first | simp | (refine (State.hide_foldl (fun _ _ => ?_) _ _).trans ?_ <;> simp) | (refine (State.hide_foldl_snd (fun _ _ => ?_) _ _).trans ?_ <;> simp)))
  exact State.hide_mono key hM

@[simp] theorem destPorts_frame {M : Nat} (hM : 540704 &&& M = 540704) (die idx n : Nat) (s : State) : (destPorts die idx n s).2.hide M = s.hide M := by
  have key : (destPorts die idx n s).2.hide 540704 = s.hide 540704 := by
    unfold destPorts; ((repeat' split) <;> (try dsimp only) <;> (repeat' split) <;> simp)
  exact State.hide_mono key hM

@[simp] theorem copiesOf_frame {M : Nat} (hM : 540704 &&& M = 540704) (die : Nat) (dests : List Nat) (n : Nat) (s : State) : (copiesOf die dests n s).2.hide M = s.hide M := by
  have key : (copiesOf die dests n s).2.hide 540704 = s.hide 540704 := by
    unfold copiesOf; ((repeat' split) <;> (try dsimp only) <;> (repeat' split) <;> (first | simp | (refine (State.hide_foldl (fun _ _ => ?_) _ _).trans ?_ <;> simp) | (refine (State.hide_foldl_snd (fun _ _ => ?_) _ _).trans ?_ <;> simp)))
  exact State.hide_mono key hM

@[simp] theorem sendDatagram_frame {M : Nat} (hM : 573472 &&& M = 573472) (die cls udpSrc : Nat) (dests : List Nat) (d : Bytes) (s : State) : (sendDatagram die cls udpSrc dests d s).2.hide M = s.hide M := by
  have key : (sendDatagram die cls udpSrc dests d s).2.hide 573472 = s.hide 573472 := by
    unfold sendDatagram; ((repeat' split) <;> (try dsimp only) <;> (repeat' split) <;> (first | ((repeat' split) <;> (first | (simp; done) | (simp only [Prod.ext_iff] at *; (casesm* _ ∧ _); subst_vars; simp; done) | (simp only [Prod.ext_iff, Option.some.injEq] at *; (casesm* _ ∧ _); subst_vars; simp; done) | (simp_all; done))) | (refine (State.hide_foldl (fun _ _ => ?_) _ _).trans ?_ <;> ((repeat' split) <;> (first | (simp; done) | (simp only [Prod.ext_iff] at *; (casesm* _ ∧ _); subst_vars; simp; done) | (simp only [Prod.ext_iff, Option.some.injEq] at *; (casesm* _ ∧ _); subst_vars; simp; done) | (simp_all; done)))) | (refine (State.hide_foldl_snd (fun _ _ => ?_) _ _).trans ?_ <;> ((repeat' split) <;> (first | (simp; done) | (simp only [Prod.ext_iff] at *; (casesm* _ ∧ _); subst_vars; simp; done) | (simp only [Prod.ext_iff, Option.some.injEq] at *; (casesm* _ ∧ _); subst_vars; simp; done) | (simp_all; done))))))
  exact State.hide_mono key hM

@[simp] theorem sendParts_frame {M : Nat} (hM : 573472 &&& M = 573472) (die cls chunk : Nat) (dests : List Nat) (parts : List Bytes) (s : State) : (sendParts die cls chunk dests parts s).2.hide M = s.hide M := by
  have key : (sendParts die cls chunk dests parts s).2.hide 573472 = s.hide 573472 := by
    unfold sendParts; ((repeat' split) <;> (try dsimp only) <;> (repeat' split) <;> (first | ((repeat' split) <;> (first | (simp; done) | (simp only [Prod.ext_iff] at *; (casesm* _ ∧ _); subst_vars; simp; done) | (simp only [Prod.ext_iff, Option.some.injEq] at *; (casesm* _ ∧ _); subst_vars; simp; done) | (simp_all; done))) | (refine (State.hide_foldl (fun _ _ => ?_) _ _).trans ?_ <;> ((repeat' split) <;> (first | (simp; done) | (simp only [Prod.ext_iff] at *; (casesm* _ ∧ _); subst_vars; simp; done) | (simp only [Prod.ext_iff, Option.some.injEq] at *; (casesm* _ ∧ _); subst_vars; simp; done) | (simp_all; done)))) | (refine (State.hide_foldl_snd (fun _ _ => ?_) _ _).trans ?_ <;> ((repeat' split) <;> (first | (simp; done) | (simp only [Prod.ext_iff] at *; (casesm* _ ∧ _); subst_vars; simp; done) | (simp only [Prod.ext_iff, Option.some.injEq] at *; (casesm* _ ∧ _); subst_vars; simp; done) | (simp_all; done))))))
  exact State.hide_mono key hM

@[simp] theorem replyBudget_frame {M : Nat} (hM : 128 &&& M = 128) (die : Nat) (s : State) : (replyBudget die s).2.hide M = s.hide M := by
  have key : (replyBudget die s).2.hide 128 = s.hide 128 := by
    unfold replyBudget; ((repeat' split) <;> (try dsimp only) <;> (repeat' split) <;> simp)
  exact State.hide_mono key hM

@[simp] theorem replyTo_frame {M : Nat} (hM : 573600 &&& M = 573600) (die : Nat) (f : Bytes) (code : Nat) (g : Option Group) (s : State) : (replyTo die f code g s).hide M = s.hide M := by
  have key : (replyTo die f code g s).hide 573600 = s.hide 573600 := by
    unfold replyTo; ((repeat' split) <;> (first | (simp; done) | (simp only [Prod.ext_iff] at *; (casesm* _ ∧ _); subst_vars; simp; done) | (simp only [Prod.ext_iff, Option.some.injEq] at *; (casesm* _ ∧ _); subst_vars; simp; done) | (simp_all; done)))
  exact State.hide_mono key hM

@[simp] theorem evict_frame {M : Nat} (hM : 16512 &&& M = 16512) (die n : Nat) (y0 : Nat) (s : State) : (evict die n y0 s).hide M = s.hide M := by
  have key : (evict die n y0 s).hide 16512 = s.hide 16512 := by
    fun_induction evict die n y0 s <;> ((repeat' split) <;> simp_all)
  exact State.hide_mono key hM

@[simp] theorem retain_frame {M : Nat} (hM : 16512 &&& M = 16512) (die : Nat) (r : Retained) (s : State) : (retain die r s).hide M = s.hide M := by
  have key : (retain die r s).hide 16512 = s.hide 16512 := by
    unfold retain; simp
  exact State.hide_mono key hM

@[simp] theorem chunkEnds_frame {M : Nat} (hM : 128 &&& M = 128) (g : Group) (die inst chunk : Nat) (completed : Bool) (s : State) : (chunkEnds g die inst chunk completed s).hide M = s.hide M := by
  have key : (chunkEnds g die inst chunk completed s).hide 128 = s.hide 128 := by
    unfold chunkEnds; simp
  exact State.hide_mono key hM

@[simp] theorem dropLocks_frame {M : Nat} (hM : 640 &&& M = 640) (k : Nat) (s : State) : (dropLocks k s).hide M = s.hide M := by
  have key : (dropLocks k s).hide 640 = s.hide 640 := by
    unfold dropLocks; simp
  exact State.hide_mono key hM

@[simp] theorem freeCtx_frame {M : Nat} (hM : 672 &&& M = 672) (k : Nat) (s : State) : (freeCtx k s).hide M = s.hide M := by
  have key : (freeCtx k s).hide 672 = s.hide 672 := by
    unfold freeCtx; simp
  exact State.hide_mono key hM

@[simp] theorem contextsLost_frame {M : Nat} (hM : 672 &&& M = 672) (d : Nat) (s : State) : (contextsLost d s).hide M = s.hide M := by
  have key : (contextsLost d s).hide 672 = s.hide 672 := by
    unfold contextsLost; ((repeat' split) <;> (try dsimp only) <;> (repeat' split) <;> (first | ((repeat' split) <;> (first | (simp; done) | (simp only [Prod.ext_iff] at *; (casesm* _ ∧ _); subst_vars; simp; done) | (simp only [Prod.ext_iff, Option.some.injEq] at *; (casesm* _ ∧ _); subst_vars; simp; done) | (simp_all; done))) | (refine (State.hide_foldl (fun _ _ => ?_) _ _).trans ?_ <;> ((repeat' split) <;> (first | (simp; done) | (simp only [Prod.ext_iff] at *; (casesm* _ ∧ _); subst_vars; simp; done) | (simp only [Prod.ext_iff, Option.some.injEq] at *; (casesm* _ ∧ _); subst_vars; simp; done) | (simp_all; done)))) | (refine (State.hide_foldl_snd (fun _ _ => ?_) _ _).trans ?_ <;> ((repeat' split) <;> (first | (simp; done) | (simp only [Prod.ext_iff] at *; (casesm* _ ∧ _); subst_vars; simp; done) | (simp only [Prod.ext_iff, Option.some.injEq] at *; (casesm* _ ∧ _); subst_vars; simp; done) | (simp_all; done))))))
  exact State.hide_mono key hM

@[simp] theorem endContext_frame {M : Nat} (hM : 574112 &&& M = 574112) (k code : Nat) (members : List Nat) (s : State) : (endContext k code members s).hide M = s.hide M := by
  have key : (endContext k code members s).hide 574112 = s.hide 574112 := by
    unfold endContext; ((repeat' split) <;> (try dsimp only) <;> (repeat' split) <;> simp)
  exact State.hide_mono key hM

@[simp] theorem watchFrom_frame {M : Nat} (hM : 256 &&& M = 256) (die h : Nat) (s : State) : (watchFrom die h s).hide M = s.hide M := by
  have key : (watchFrom die h s).hide 256 = s.hide 256 := by
    unfold watchFrom; ((repeat' split) <;> simp)
  exact State.hide_mono key hM

@[simp] theorem recordLags_frame {M : Nat} (hM : 128 &&& M = 128) (id : Nat) (c : Ctx) (s : State) : (recordLags id c s).hide M = s.hide M := by
  have key : (recordLags id c s).hide 128 = s.hide 128 := by
    unfold recordLags; simp
  exact State.hide_mono key hM

@[simp] theorem completeTo_frame {M : Nat} (hM : 574112 &&& M = 574112) (dests : List Nat) (k : Nat) (h : ResHead) (payload : Bytes) (t : Trailer) (s : State) : (completeTo dests k h payload t s).hide M = s.hide M := by
  have key : (completeTo dests k h payload t s).hide 574112 = s.hide 574112 := by
    unfold completeTo; ((repeat' split) <;> simp_all)
  exact State.hide_mono key hM

@[simp] theorem completeCtx_frame {M : Nat} (hM : 574112 &&& M = 574112) (k : Nat) (h : ResHead) (payload : Bytes) (t : Trailer) (s : State) : (completeCtx k h payload t s).hide M = s.hide M := by
  have key : (completeCtx k h payload t s).hide 574112 = s.hide 574112 := by
    unfold completeCtx; ((repeat' split) <;> simp)
  exact State.hide_mono key hM

@[simp] theorem sendComplete_frame {M : Nat} (hM : 123552 &&& M = 123552) (k : Nat) (s : State) : (sendComplete k s).hide M = s.hide M := by
  have key : (sendComplete k s).hide 123552 = s.hide 123552 := by
    unfold sendComplete; ((repeat' split) <;> (try dsimp only) <;> (repeat' split) <;> simp)
  exact State.hide_mono key hM

@[simp] theorem recordPoison_frame {M : Nat} (hM : 128 &&& M = 128) (k j : Nat) (blocks : List Nat) (s : State) : (recordPoison k j blocks s).hide M = s.hide M := by
  have key : (recordPoison k j blocks s).hide 128 = s.hide 128 := by
    unfold recordPoison; ((repeat' split) <;> simp)
  exact State.hide_mono key hM

@[simp] theorem accumulate_frame {M : Nat} (hM : 128 &&& M = 128) (k : Nat) (g : Group) (load : Bool) (start : Nat) (vals : List Word) (s : State) : (accumulate k g load start vals s).hide M = s.hide M := by
  have key : (accumulate k g load start vals s).hide 128 = s.hide 128 := by
    unfold accumulate; ((repeat' split) <;> (try dsimp only) <;> (repeat' split) <;> simp)
  exact State.hide_mono key hM

@[simp] theorem crosscheckFail_frame {M : Nat} (hM : 582304 &&& M = 582304) (k tile stage : Nat) (s : State) : (crosscheckFail k tile stage s).hide M = s.hide M := by
  have key : (crosscheckFail k tile stage s).hide 582304 = s.hide 582304 := by
    unfold crosscheckFail; simp
  exact State.hide_mono key hM

@[simp] theorem drawBits_frame {M : Nat} (hM : 524288 &&& M = 524288) (die : Nat) (stoch : Bool) (n : Nat) (s : State) : (drawBits die stoch n s).2.hide M = s.hide M := by
  induction n generalizing s with
  | zero => rfl
  | succ n ih => cases stoch <;> simp [drawBits, ih, hM]

@[simp] theorem zeroResiduals_frame {M : Nat} (hM : 98304 &&& M = 98304) (g : Group) (chunk : Nat) (s : State) : (zeroResiduals g chunk s).hide M = s.hide M := by
  have key : (zeroResiduals g chunk s).hide 98304 = s.hide 98304 := by
    unfold zeroResiduals; ((repeat' split) <;> simp)
  exact State.hide_mono key hM

@[simp] theorem claimBudget_frame {M : Nat} (hM : 24704 &&& M = 24704) (k : Nat) (g : Group) (s : State) : (claimBudget k g s).2.hide M = s.hide M := by
  have key : (claimBudget k g s).2.hide 24704 = s.hide 24704 := by
    unfold claimBudget; ((repeat' split) <;> (try dsimp only) <;> (repeat' split) <;> simp)
  exact State.hide_mono key hM

@[simp] theorem sendPoisoned_frame {M : Nat} (hM : 16512 &&& M = 16512) (k f b n : Nat) (s : State) : (sendPoisoned k f b n s).2.hide M = s.hide M := by
  have key : (sendPoisoned k f b n s).2.hide 16512 = s.hide 16512 := by
    unfold sendPoisoned; ((repeat' split) <;> simp)
  exact State.hide_mono key hM

@[simp] theorem settleEncodings_frame {M : Nat} (hM : 114816 &&& M = 114816) (k : Nat) (sent : Bool) (s : State) : (settleEncodings k sent s).hide M = s.hide M := by
  have key : (settleEncodings k sent s).hide 114816 = s.hide 114816 := by
    unfold settleEncodings; ((repeat' split) <;> (try dsimp only) <;> (repeat' split) <;> simp [State.hide_foldl, State.hide_foldl_snd])
  exact State.hide_mono key hM

@[simp] theorem encodeBlock_frame {M : Nat} (hM : 647296 &&& M = 647296) (k : Nat) (g : Group) (b : Nat) (vals : List Word) (s : State) : (encodeBlock k g b vals s).2.hide M = s.hide M := by
  refine State.hide_mono (m := 647296) ?_ hM
  generalize hp : encodeBlock k g b vals s = p
  unfold encodeBlock at hp
  extract_lets r die c out w n addr resid a E key h jump s0 s1 e2 at hp
  have h1 : s1.hide 647296 = s.hide 647296 := by
    unfold s1
    split
    · rw [onCtx_frame (by decide)]
      unfold s0
      split
      · rw [count_frame (by decide), onCtx_frame (by decide)]
      · rfl
    · rfl
  clear_value e2 s1 s0 jump h key E a resid addr
  generalize (gFeedback r && _) = cond at hp
  split at hp
  · subst hp; simp
  · split at hp
    · subst hp; simp
    · have h2 := drawBits_frame (M := 647296) (by decide) die (gStoch r) n s1
      rcases hd : drawBits die (gStoch r) n s1 with ⟨draws, s2⟩
      rw [hd] at hp h2
      dsimp only at hp h2
      rcases hq : quantBlock out E draws a with ⟨enc, q, sat⟩
      rw [hq] at hp
      dsimp only at hp
      generalize (isNarrow out && _) = wants at hp
      have h3 : (if wants then claimBudget k g s2 else (false, s2)).2.hide 647296 = s2.hide 647296 := by
        split
        · rw [claimBudget_frame (by decide)]
        · rfl
      rcases hc : (if wants then claimBudget k g s2 else (false, s2)) with ⟨claimed, s3⟩
      rw [hc] at hp h3
      dsimp only at hp h3
      cases claimed with
      | false =>
        simp only [Bool.false_eq_true, if_false] at hp
        subst hp
        dsimp only
        refine Eq.trans ?_ (h3.trans (h2.trans h1))
        simp
      | true =>
        simp only [if_true] at hp
        have h4 := drawBits_frame (M := 647296) (by decide) die (gStoch r) n s3
        rcases he : drawBits die (gStoch r) n s3 with ⟨d2, s4⟩
        rw [he] at hp h4
        dsimp only at hp h4
        subst hp
        dsimp only
        refine Eq.trans ?_ (h4.trans (h3.trans (h2.trans h1)))
        simp

theorem takeMirror_frame {M : Nat} (hM : 512 &&& M = 512) {die : Nat} {m : MirrorMsg} {s t : State}
    (h : takeMirror die s = some (m, t)) : t.hide M = s.hide M := by
  unfold takeMirror at h
  split at h
  · cases h
  · simp only [Option.some.injEq, Prod.mk.injEq] at h; obtain ⟨_, rfl⟩ := h; simp [hM]

theorem takeNumber_frame {M : Nat} (hM : 8192 &&& M = 8192) {r : Role} {k : Nat} {s t : State}
    (h : takeNumber r s = some (k, t)) : t.hide M = s.hide M := by
  unfold takeNumber at h
  split at h
  · cases h; rfl
  · split at h
    · cases h
    · obtain ⟨_, _, h⟩ := Option.map_eq_some_iff.mp h
      cases h; simp [hM]

@[simp] theorem encodeBlocks_frame {M : Nat} (hM : 647296 &&& M = 647296) (k : Nat) (g : Group) (n b : Nat) (v : List Word) (s : State) : (encodeBlocks k g n b v s).2.hide M = s.hide M := by
  refine State.hide_mono (m := 647296) ?_ hM
  induction n generalizing b v s with
  | zero => rfl
  | succ n ih =>
    have h1 := encodeBlock_frame (M := 647296) (by decide) k g b (v.take 32) s
    unfold encodeBlocks
    split
    · rename_i e; rw [e] at h1; exact h1
    · rename_i x t e; rw [e] at h1
      have h2 := ih (b + 1) (v.drop 32) t
      split <;> (rename_i e2; rw [e2] at h2; exact h2.trans h1)

@[simp] theorem plainBlock_frame {M : Nat} (hM : 540800 &&& M = 540800) (k f : Nat) (stoch : Bool) (b : Nat) (a : List Word) (s : State) : (plainBlock k f stoch b a s).2.hide M = s.hide M := by
  refine State.hide_mono (m := 540800) ?_ hM
  unfold plainBlock
  split
  · simp
  · have h1 := drawBits_frame (M := 540800) (by decide) (ctxDie k) stoch a.length s
    dsimp only
    rw [onCtx_frame (by decide), h1]

@[simp] theorem plainBlocks_frame {M : Nat} (hM : 540800 &&& M = 540800) (k f : Nat) (stoch : Bool) (y0 : Nat) (y1 : Nat) (y2 : List Word) (s : State) : (plainBlocks k f stoch y0 y1 y2 s).2.hide M = s.hide M := by
  have key : (plainBlocks k f stoch y0 y1 y2 s).2.hide 540800 = s.hide 540800 := by
    (induction y0 generalizing y1 y2 s with | zero => simp [plainBlocks] | succ n ih => simp only [plainBlocks]; ((repeat' split) <;> simp_all))
  exact State.hide_mono key hM

@[simp] theorem plainRows_frame {M : Nat} (hM : 540800 &&& M = 540800) (k f : Nat) (stoch : Bool) (b : Nat) (l : List (List Word)) (s : State) : (plainRows k f stoch b l s).2.hide M = s.hide M := by
  refine State.hide_mono (m := 540800) ?_ hM
  induction l generalizing b s with
  | nil => rfl
  | cons a r ih =>
    unfold plainRows
    dsimp only
    rw [ih, plainBlocks_frame (by decide)]

@[simp] theorem finishChunk_frame {M : Nat} (hM : 639648 &&& M = 639648) (k code elems valid overflow : Nat) (payload : Bytes) (s : State) : (finishChunk k code elems valid overflow payload s).hide M = s.hide M := by
  have key : (finishChunk k code elems valid overflow payload s).hide 639648 = s.hide 639648 := by
    unfold finishChunk; ((repeat' split) <;> (try dsimp only) <;> (repeat' split) <;> simp)
  exact State.hide_mono key hM

@[simp] theorem poisonChunk_frame {M : Nat} (hM : 128 &&& M = 128) (k : Nat) (j : Option Nat) (s : State) : (poisonChunk k j s).hide M = s.hide M := by
  have key : (poisonChunk k j s).hide 128 = s.hide 128 := by
    unfold poisonChunk; simp
  exact State.hide_mono key hM

@[simp] theorem addOverflow_frame {M : Nat} (hM : 128 &&& M = 128) (k n : Nat) (s : State) : (addOverflow k n s).hide M = s.hide M := by
  have key : (addOverflow k n s).hide 128 = s.hide 128 := by
    unfold addOverflow; simp
  exact State.hide_mono key hM

@[simp] theorem addPair_frame {M : Nat} (hM : 128 &&& M = 128) (k : Nat) (g : Group) (j idx : Nat) (v : Word) (s : State) : (addPair k g j idx v s).hide M = s.hide M := by
  have key : (addPair k g j idx v s).hide 128 = s.hide 128 := by
    unfold addPair; ((repeat' split) <;> (try dsimp only) <;> (repeat' split) <;> simp)
  exact State.hide_mono key hM

@[simp] theorem addKey_frame {M : Nat} (hM : 128 &&& M = 128) (k : Nat) (g : Group) (key : Nat) (s : State) : (addKey k g key s).hide M = s.hide M := by
  have key : (addKey k g key s).hide 128 = s.hide 128 := by
    unfold addKey; ((repeat' split) <;> (try dsimp only) <;> (repeat' split) <;> simp)
  exact State.hide_mono key hM

@[simp] theorem addRow_frame {M : Nat} (hM : 128 &&& M = 128) (k : Nat) (g : Group) (j : Nat) (row : Bytes) (s : State) : (addRow k g j row s).hide M = s.hide M := by
  have key : (addRow k g j row s).hide 128 = s.hide 128 := by
    unfold addRow; ((repeat' split) <;> (try dsimp only) <;> (repeat' split) <;> simp)
  exact State.hide_mono key hM

@[simp] theorem addPosition_frame {M : Nat} (hM : 128 &&& M = 128) (k : Nat) (g : Group) (j p : Nat) (lam : Word) (o : List Word) (s : State) : (addPosition k g j p lam o s).hide M = s.hide M := by
  have key : (addPosition k g j p lam o s).hide 128 = s.hide 128 := by
    unfold addPosition; ((repeat' split) <;> (try dsimp only) <;> (repeat' split) <;> simp)
  exact State.hide_mono key hM

@[simp] theorem libAccept_frame {M : Nat} (hM : 128 &&& M = 128) (k : Nat) (g : Group) (j : Nat) (f : Bytes) (s : State) : (libAccept k g j f s).hide M = s.hide M := by
  have key : (libAccept k g j f s).hide 128 = s.hide 128 := by
    unfold libAccept; ((repeat' split) <;> (try dsimp only) <;> (repeat' split) <;> (first | simp | (refine (State.hide_foldl (fun _ _ => ?_) _ _).trans ?_ <;> simp) | (refine (State.hide_foldl_snd (fun _ _ => ?_) _ _).trans ?_ <;> simp)))
  exact State.hide_mono key hM

@[simp] theorem readRowWords_frame {M : Nat} (hM : 114816 &&& M = 114816) (k : Nat) (r : Region) (h n o : Nat) (s : State) : (readRowWords k r h n o s).2.hide M = s.hide M := by
  refine State.hide_mono (m := 114816) ?_ hM
  induction n generalizing o s with
  | zero => rfl
  | succ n ih =>
    unfold readRowWords
    split
    · rename_i w _
      have h1 := readWord_frame (M := 114816) (by decide) w (noteSuspect k w s)
      split
      · rename_i x t e; rw [e] at h1
        have h2 := ih (o + 64) t
        split <;> (rename_i e2; rw [e2] at h2; refine h2.trans (h1.trans ?_); simp)
      · rename_i e; rw [e] at h1; exact h1.trans (by simp)
    · rfl

@[simp] theorem addRowWords_frame {M : Nat} (hM : 115328 &&& M = 115328) (k : Nat) (g : Group) (r : Region) (h n o : Nat) (v : List Word) (s : State) : (addRowWords k g r h n o v s).2.hide M = s.hide M := by
  refine State.hide_mono (m := 115328) ?_ hM
  induction n generalizing o v s with
  | zero => rfl
  | succ n ih =>
    unfold addRowWords
    split
    · rename_i w _
      have h1 := readWord_frame (M := 115328) (by decide) w s
      split
      · rename_i x t e; rw [e] at h1
        exact (ih _ _ _).trans ((by simp : _ = t.hide 115328).trans h1)
      · rename_i e; rw [e] at h1; exact h1
    · rfl

@[simp] theorem fetchRow_frame {M : Nat} (hM : 114816 &&& M = 114816) (k : Nat) (g : Group) (r : Region) (idx : Nat) (x : RowReply) (s : State) : (fetchRow k g r idx x s).2.2.hide M = s.hide M := by
  have key : (fetchRow k g r idx x s).2.2.hide 114816 = s.hide 114816 := by
    unfold fetchRow; ((repeat' split) <;> (first | (simp; done) | (simp only [Prod.ext_iff] at *; (casesm* _ ∧ _); subst_vars; simp; done) | (simp only [Prod.ext_iff, Option.some.injEq] at *; (casesm* _ ∧ _); subst_vars; simp; done) | (simp_all; done)))
  exact State.hide_mono key hM

end Sys2Proof.Machine
end

