-- ==== Sys2Proof/Laws/Frames3.lean ====
section
/-! SUPPORT. The parts of the state that the shared operations leave unchanged, one lemma per operation, in the order of the
model's files: part 3 of 5. -/

set_option maxRecDepth 4000
set_option linter.all false

namespace Sys2Proof.Machine

@[simp] theorem serveBag_frame {M : Nat} (hM : 114816 &&& M = 114816) (k : Nat) (g : Group) (r : Region) (ids : List Nat) (x : RowReply) (s : State) : (serveBag k g r ids x s).2.hide M = s.hide M := by
  refine State.hide_mono (m := 114816) ?_ hM
  unfold serveBag
  dsimp only
  have key : ∀ (l : List Nat) (y : Option (List (Word × Word)) × RowReply × State), (l.foldl (fun (y : Option (List (Word × Word)) × RowReply × State) i =>
    let (row, x, s) := fetchRow k g r i y.2.1 y.2.2
    match row with
    | none => (y.1, x, s)
    | some v =>
      let acc := bagCombine g y.1 v
      (some acc, { x with poison := x.poison || v.any poisons || acc.any fun p => poisons p.1 || poisons p.2 }, s)) y).2.2.hide 114816 = y.2.2.hide 114816 := by
    intro l
    induction l with
    | nil => intro y; rfl
    | cons a l ih =>
      intro y
      refine (ih _).trans ?_
      dsimp only
      split <;> exact fetchRow_frame (by decide) ..
  exact key ids _

@[simp] theorem serveRows_frame {M : Nat} (hM : 115328 &&& M = 115328) (k : Nat) (g : Group) (r : Region) (f : Bytes) (s : State) : (serveRows k g r f s).2.hide M = s.hide M := by
  have key : (serveRows k g r f s).2.hide 115328 = s.hide 115328 := by
    unfold serveRows; ((repeat' split) <;> (try dsimp only) <;> (repeat' split) <;> (first | ((repeat' split) <;> (first | (simp; done) | (simp only [Prod.ext_iff] at *; (casesm* _ ∧ _); subst_vars; simp; done) | (simp only [Prod.ext_iff, Option.some.injEq] at *; (casesm* _ ∧ _); subst_vars; simp; done) | (simp_all; done))) | (refine (State.hide_foldl (fun _ _ => ?_) _ _).trans ?_ <;> ((repeat' split) <;> (first | (simp; done) | (simp only [Prod.ext_iff] at *; (casesm* _ ∧ _); subst_vars; simp; done) | (simp only [Prod.ext_iff, Option.some.injEq] at *; (casesm* _ ∧ _); subst_vars; simp; done) | (simp_all; done)))) | (refine (State.hide_foldl_snd (fun _ _ => ?_) _ _).trans ?_ <;> ((repeat' split) <;> (first | (simp; done) | (simp only [Prod.ext_iff] at *; (casesm* _ ∧ _); subst_vars; simp; done) | (simp only [Prod.ext_iff, Option.some.injEq] at *; (casesm* _ ∧ _); subst_vars; simp; done) | (simp_all; done))))))
  exact State.hide_mono key hM

@[simp] theorem sendRowReply_frame {M : Nat} (hM : 639648 &&& M = 639648) (k code elems valid overflow : Nat) (payload : Bytes) (poisonAll : Bool) (s : State) : (sendRowReply k code elems valid overflow payload poisonAll s).hide M = s.hide M := by
  have key : (sendRowReply k code elems valid overflow payload poisonAll s).hide 639648 = s.hide 639648 := by
    unfold sendRowReply; ((repeat' split) <;> (try dsimp only) <;> (repeat' split) <;> simp)
  exact State.hide_mono key hM

@[simp] theorem libServe_frame {M : Nat} (hM : 639648 &&& M = 639648) (k : Nat) (g : Group) (f : Bytes) (s : State) : (libServe k g f s).hide M = s.hide M := by
  have key : (libServe k g f s).hide 639648 = s.hide 639648 := by
    unfold libServe; ((repeat' split) <;> (try dsimp only) <;> (repeat' split) <;> simp)
  exact State.hide_mono key hM

@[simp] theorem attnResult_frame {M : Nat} (hM : 540800 &&& M = 540800) (k : Nat) (g : Group) (p : Nat) (s : State) : (attnResult k g p s).2.hide M = s.hide M := by
  have key : (attnResult k g p s).2.hide 540800 = s.hide 540800 := by
    unfold attnResult; simp
  exact State.hide_mono key hM

@[simp] theorem writeBlock_frame {M : Nat} (hM : 98944 &&& M = 98944) (k : Nat) (g : Group) (r : Region) (h b : Nat) (y0 : Nat) (y1 : Nat) (y2 : Bytes) (s : State) : (writeBlock k g r h b y0 y1 y2 s).hide M = s.hide M := by
  have key : (writeBlock k g r h b y0 y1 y2 s).hide 98944 = s.hide 98944 := by
    fun_induction writeBlock k g r h b y0 y1 y2 s <;> ((repeat' split) <;> simp_all)
  exact State.hide_mono key hM

@[simp] theorem readBlock_frame {M : Nat} (hM : 114688 &&& M = 114688) (r : Region) (h b n i : Nat) (s : State) : (readBlock r h b n i s).2.hide M = s.hide M := by
  refine State.hide_mono (m := 114688) ?_ hM
  induction n generalizing i s with
  | zero => rfl
  | succ n ih =>
    have h1 := readWord_frame (M := 114688) (by decide) ⟨r.addr b (r.mainCopy b) + 64 * i, some (h, b, 64 * i), r.mainCopy b⟩ s
    unfold readBlock
    split
    · rename_i x t e; rw [e] at h1
      have h2 := ih (i + 1) t
      split <;> (rename_i e2; rw [e2] at h2; exact h2.trans h1)
    · rename_i e; rw [e] at h1; exact h1

@[simp] theorem libUpdate_frame {M : Nat} (hM : 115328 &&& M = 115328) (k : Nat) (g : Group) (grad : List Word) (s : State) : (libUpdate k g grad s).2.hide M = s.hide M := by
  have key : (libUpdate k g grad s).2.hide 115328 = s.hide 115328 := by
    unfold libUpdate; ((repeat' split) <;> (try dsimp only) <;> (repeat' split) <;> (first | (simp; done) | (simp only [Prod.ext_iff] at *; (casesm* _ ∧ _); subst_vars; simp; done) | (simp only [Prod.ext_iff, Option.some.injEq] at *; (casesm* _ ∧ _); subst_vars; simp; done) | (simp_all; done)))
  exact State.hide_mono key hM

@[simp] theorem denseResult_frame {M : Nat} (hM : 647840 &&& M = 647840) (k : Nat) (g : Group) (vals : List Word) (s : State) : (denseResult k g vals s).hide M = s.hide M := by
  have key : (denseResult k g vals s).hide 647840 = s.hide 647840 := by
    unfold denseResult; ((repeat' split) <;> (first | (simp; done) | (simp only [Prod.ext_iff] at *; (casesm* _ ∧ _); subst_vars; simp; done) | (simp only [Prod.ext_iff, Option.some.injEq] at *; (casesm* _ ∧ _); subst_vars; simp; done) | (simp_all; done)))
  exact State.hide_mono key hM

@[simp] theorem libResult_frame {M : Nat} (hM : 647840 &&& M = 647840) (k tile : Nat) (g : Group) (s : State) : (libResult k tile g s).hide M = s.hide M := by
  refine State.hide_mono (m := 647840) ?_ hM
  unfold libResult
  dsimp only
  split
  · simp
  · split
    · split
      · have h1 := libUpdate_frame (M := 647840) (by decide) k g ((upTo (gElems g.record)).map (ctxValue g (s.coll.ctx.get k))) s
        split <;> (rename_i e; rw [e] at h1; refine Eq.trans (b := _) ?_ h1; simp)
      · simp
    · split
      · simp
      · split
        · simp
        · rw [finishChunk_frame (by decide)]
          refine (State.hide_foldl_snd (fun x a => ?_) _ _).trans rfl
          dsimp only; simp
      · simp
      · have hp : ∀ (q : Prop) [Decidable q], (if q then poisonChunk k none s else s).hide 647840 = s.hide 647840 := by
          intro q _; split <;> simp
        generalize he : (if (setPairs g (s.coll.ctx.get k)).1.any (fun x => poisons x.2) = true then poisonChunk k none s else s) = u
        have hu : u.hide 647840 = s.hide 647840 := by rw [← he]; exact hp _
        clear he
        split
        · rw [finishChunk_frame (by decide), hu]
        · rw [finishChunk_frame (by decide)]
          refine (State.hide_foldl_snd (fun x a => ?_) _ _).trans hu
          dsimp only; simp

@[simp] theorem progress_frame {M : Nat} (hM : 256 &&& M = 256) (die h : Nat) (s : State) : (progress die h s).hide M = s.hide M := by
  have key : (progress die h s).hide 256 = s.hide 256 := by
    unfold progress; simp
  exact State.hide_mono key hM

@[simp] theorem setSrc_frame {M : Nat} (hM : 256 &&& M = 256) (die tile row col code : Nat) (l : List Token) (s : State) : (setSrc die tile row col code l s).hide M = s.hide M := by
  have key : (setSrc die tile row col code l s).hide 256 = s.hide 256 := by
    unfold setSrc; simp
  exact State.hide_mono key hM

@[simp] theorem unitGive_frame {M : Nat} (hM : 256 &&& M = 256) (die tile unit : Nat) (routed : Bool) (t : Token) (s : State) : (unitGive die tile unit routed t s).hide M = s.hide M := by
  have key : (unitGive die tile unit routed t s).hide 256 = s.hide 256 := by
    unfold unitGive; ((repeat' split) <;> simp)
  exact State.hide_mono key hM

@[simp] theorem unitTake_frame {M : Nat} (hM : 256 &&& M = 256) (die tile unit : Nat) (s : State) : (unitTake die tile unit s).hide M = s.hide M := by
  have key : (unitTake die tile unit s).hide 256 = s.hide 256 := by
    unfold unitTake; simp
  exact State.hide_mono key hM

@[simp] theorem onWork_frame {M : Nat} (hM : 256 &&& M = 256) (die tile unit : Nat) (f : UnitWork → UnitWork) (s : State) : (onWork die tile unit f s).hide M = s.hide M := by
  have key : (onWork die tile unit f s).hide 256 = s.hide 256 := by
    unfold onWork; simp
  exact State.hide_mono key hM

@[simp] theorem unitDrain_frame {M : Nat} (hM : 256 &&& M = 256) (die tile unit h : Nat) (routed : Bool) (s : State) : (unitDrain die tile unit h routed s).hide M = s.hide M := by
  have key : (unitDrain die tile unit h routed s).hide 256 = s.hide 256 := by
    unfold unitDrain; ((repeat' split) <;> simp)
  exact State.hide_mono key hM

@[simp] theorem emptyTiles_frame {M : Nat} (hM : 256 &&& M = 256) (die : Nat) (tiles : List Nat) (s : State) : (emptyTiles die tiles s).hide M = s.hide M := by
  have key : (emptyTiles die tiles s).hide 256 = s.hide 256 := by
    unfold emptyTiles; simp
  exact State.hide_mono key hM

@[simp] theorem loadCells_frame {M : Nat} (hM : 256 &&& M = 256) (die h : Nat) (s : State) : (loadCells die h s).hide M = s.hide M := by
  have key : (loadCells die h s).hide 256 = s.hide 256 := by
    unfold loadCells; ((repeat' split) <;> simp)
  exact State.hide_mono key hM

@[simp] theorem threadsStop_frame {M : Nat} (hM : 128 &&& M = 128) (die h : Nat) (s : State) : (threadsStop die h s).hide M = s.hide M := by
  have key : (threadsStop die h s).hide 128 = s.hide 128 := by
    unfold threadsStop; (first | simp | (refine (State.hide_foldl (fun _ _ => ?_) _ _).trans ?_ <;> simp) | (refine (State.hide_foldl_snd (fun _ _ => ?_) _ _).trans ?_ <;> simp))
  exact State.hide_mono key hM

@[simp] theorem faultImage_frame {M : Nat} (hM : 582560 &&& M = 582560) (die h : Nat) (f : ImageFaultRec) (s : State) : (faultImage die h f s).hide M = s.hide M := by
  have key : (faultImage die h f s).hide 582560 = s.hide 582560 := by
    unfold faultImage; simp [State.hide_foldl, State.hide_foldl_snd]
  exact State.hide_mono key hM

@[simp] theorem unitFault_frame {M : Nat} (hM : 582560 &&& M = 582560) (die tile h cause : Nat) (s : State) : (unitFault die tile h cause s).hide M = s.hide M := by
  have key : (unitFault die tile h cause s).hide 582560 = s.hide 582560 := by
    unfold unitFault; simp
  exact State.hide_mono key hM

@[simp] theorem resumeImage_frame {M : Nat} (hM : 384 &&& M = 384) (die h : Nat) (s : State) : (resumeImage die h s).hide M = s.hide M := by
  have key : (resumeImage die h s).hide 384 = s.hide 384 := by
    unfold resumeImage; simp
  exact State.hide_mono key hM

@[simp] theorem drawWords_frame {M : Nat} (hM : 524288 &&& M = 524288) (die : Nat) (n : Nat) (s : State) : (drawWords die n s).2.hide M = s.hide M := by
  induction n generalizing s with
  | zero => rfl
  | succ n ih => simp [drawWords, ih, hM]

@[simp] theorem execInstr_frame {M : Nat} (hM : 524288 &&& M = 524288) (die : Nat) (heads : List (Option Token)) (inMask outMask w : Nat) (f : Firing) (s : State) : (execInstr die heads inMask outMask w f s).2.hide M = s.hide M := by
  refine State.hide_mono (m := 524288) ?_ hM
  generalize hp : execInstr die heads inMask outMask w f s = p
  unfold execInstr at hp
  extract_lets op imm r opd at hp
  split at hp
  · extract_lets g d wv wp lanesOf at hp
    by_cases h : op = 0x3A
    · have := drawWords_frame (M := 524288) (by decide) die 16 s
      rcases hd : drawWords die 16 s with ⟨l, t⟩
      rw [hd] at hp this
      simp [h] at hp
      subst hp; exact this
    · rw [if_neg h] at hp
      subst hp
      have ite : ∀ (q : Prop) [Decidable q] (x y : Firing × State), x.2.hide 524288 = s.hide 524288 →
          y.2.hide 524288 = s.hide 524288 → (if q then x else y).2.hide 524288 = s.hide 524288 := by
        intro q _ x y hx hy; split <;> assumption
      repeat' first | rfl | (apply ite) | (split)
  · subst hp; rfl

@[simp] theorem runBlock_frame {M : Nat} (hM : 524288 &&& M = 524288) (die : Nat) (r : Bytes) (heads : List (Option Token)) (i o n pc : Nat) (f : Firing) (s : State) : (runBlock die r heads i o n pc f s).2.2.hide M = s.hide M := by
  refine State.hide_mono (m := 524288) ?_ hM
  induction n generalizing pc f s with
  | zero => rfl
  | succ n ih =>
    unfold runBlock
    dsimp only
    split
    · rw [execInstr_frame (by decide)]
    · rw [ih, execInstr_frame (by decide)]

@[simp] theorem cellFire_frame {M : Nat} (hM : 582560 &&& M = 582560) (die tile row col : Nat) (s : State) : (cellFire die tile row col s).hide M = s.hide M := by
  have key : (cellFire die tile row col s).hide 582560 = s.hide 582560 := by
    unfold cellFire; ((repeat' split) <;> (try dsimp only) <;> (repeat' split) <;> simp)
  exact State.hide_mono key hM

@[simp] theorem hopPut_frame {M : Nat} (hM : 256 &&& M = 256) (die tile : Nat) (t : Token) (s : State) (h : Hop) : (hopPut die tile t s h).hide M = s.hide M := by
  cases h <;> simp [hopPut, hM]

@[simp] theorem tokenCross_frame {M : Nat} (hM : 256 &&& M = 256) (die tile row col output : Nat) (s : State) : (tokenCross die tile row col output s).hide M = s.hide M := by
  have key : (tokenCross die tile row col output s).hide 256 = s.hide 256 := by
    unfold tokenCross; ((repeat' split) <;> (try dsimp only) <;> (repeat' split) <;> (first | simp | (refine (State.hide_foldl (fun _ _ => ?_) _ _).trans ?_ <;> simp) | (refine (State.hide_foldl_snd (fun _ _ => ?_) _ _).trans ?_ <;> simp)))
  exact State.hide_mono key hM

@[simp] theorem contributionGone_frame {M : Nat} (hM : 64 &&& M = 64) (c : Contribution) (s : State) : (contributionGone c s).hide M = s.hide M := by
  have key : (contributionGone c s).hide 64 = s.hide 64 := by
    unfold contributionGone; simp
  exact State.hide_mono key hM

@[simp] theorem passThrough_frame {M : Nat} (hM : 573600 &&& M = 573600) (die : Nat) (g : Group) (f : Bytes) (o : Nat) (s : State) : (passThrough die g f o s).hide M = s.hide M := by
  have key : (passThrough die g f o s).hide 573600 = s.hide 573600 := by
    unfold passThrough; ((repeat' split) <;> (try dsimp only) <;> (repeat' split) <;> simp)
  exact State.hide_mono key hM

@[simp] theorem toReduction_frame {M : Nat} (hM : 311408 &&& M = 311408) (die home : Nat) (c : Contribution) (s : State) : (toReduction die home c s).hide M = s.hide M := by
  have key : (toReduction die home c s).hide 311408 = s.hide 311408 := by
    unfold toReduction; ((repeat' split) <;> (try dsimp only) <;> (repeat' split) <;> simp)
  exact State.hide_mono key hM

@[simp] theorem contributionIngress_frame {M : Nat} (hM : 835824 &&& M = 835824) (die : Nat) (s : State) : (contributionIngress die s).hide M = s.hide M := by
  have key : (contributionIngress die s).hide 835824 = s.hide 835824 := by
    unfold contributionIngress; ((repeat' split) <;> (try dsimp only) <;> (repeat' split) <;> simp)
  exact State.hide_mono key hM

@[simp] theorem poisonHere_frame {M : Nat} (hM : 582304 &&& M = 582304) (die : Nat) (g : Group) (inst : Nat) (offenders : List Nat) (s : State) : (poisonHere die g inst offenders s).hide M = s.hide M := by
  have key : (poisonHere die g inst offenders s).hide 582304 = s.hide 582304 := by
    unfold poisonHere; simp [State.hide_foldl, State.hide_foldl_snd]
  exact State.hide_mono key hM

@[simp] theorem poisonInstance_frame {M : Nat} (hM : 582304 &&& M = 582304) (die : Nat) (g : Group) (inst : Nat) (offenders : List Nat) (s : State) : (poisonInstance die g inst offenders s).hide M = s.hide M := by
  have key : (poisonInstance die g inst offenders s).hide 582304 = s.hide 582304 := by
    unfold poisonInstance; simp
  exact State.hide_mono key hM

@[simp] theorem poisonNotice_frame {M : Nat} (hM : 582304 &&& M = 582304) (die : Nat) (s : State) : (poisonNotice die s).hide M = s.hide M := by
  have key : (poisonNotice die s).hide 582304 = s.hide 582304 := by
    unfold poisonNotice; ((repeat' split) <;> (try dsimp only) <;> (repeat' split) <;> simp)
  exact State.hide_mono key hM

@[simp] theorem answerEnded_frame {M : Nat} (hM : 573600 &&& M = 573600) (die : Nat) (g : Group) (f : Bytes) (o time : Nat) (s : State) : (answerEnded die g f o time s).hide M = s.hide M := by
  have key : (answerEnded die g f o time s).hide 573600 = s.hide 573600 := by
    unfold answerEnded; ((repeat' split) <;> (try dsimp only) <;> (repeat' split) <;> simp)
  exact State.hide_mono key hM

@[simp] theorem takeUpdateLock_frame {M : Nat} (hM : 512 &&& M = 512) (k : Nat) (s : State) (x : Nat × Nat) : (takeUpdateLock k s x).hide M = s.hide M := by
  have key : (takeUpdateLock k s x).hide 512 = s.hide 512 := by
    unfold takeUpdateLock; ((repeat' split) <;> (try dsimp only) <;> (repeat' split) <;> simp)
  exact State.hide_mono key hM

@[simp] theorem enterComputing_frame {M : Nat} (hM : 574112 &&& M = 574112) (k : Nat) (g : Group) (s : State) : (enterComputing k g s).hide M = s.hide M := by
  have key : (enterComputing k g s).hide 574112 = s.hide 574112 := by
    unfold enterComputing; ((repeat' split) <;> (try dsimp only) <;> (repeat' split) <;> (first | ((repeat' split) <;> (first | (simp; done) | (simp only [Prod.ext_iff] at *; (casesm* _ ∧ _); subst_vars; simp; done) | (simp only [Prod.ext_iff, Option.some.injEq] at *; (casesm* _ ∧ _); subst_vars; simp; done) | (simp_all; done))) | (refine (State.hide_foldl (fun _ _ => ?_) _ _).trans ?_ <;> ((repeat' split) <;> (first | (simp; done) | (simp only [Prod.ext_iff] at *; (casesm* _ ∧ _); subst_vars; simp; done) | (simp only [Prod.ext_iff, Option.some.injEq] at *; (casesm* _ ∧ _); subst_vars; simp; done) | (simp_all; done)))) | (refine (State.hide_foldl_snd (fun _ _ => ?_) _ _).trans ?_ <;> ((repeat' split) <;> (first | (simp; done) | (simp only [Prod.ext_iff] at *; (casesm* _ ∧ _); subst_vars; simp; done) | (simp only [Prod.ext_iff, Option.some.injEq] at *; (casesm* _ ∧ _); subst_vars; simp; done) | (simp_all; done))))))
  exact State.hide_mono key hM

@[simp] theorem acceptInto_frame {M : Nat} (hM : 574368 &&& M = 574368) (k : Nat) (g : Group) (f : Bytes) (o t : Nat) (s : State) : (acceptInto k g f o t s).hide M = s.hide M := by
  refine State.hide_mono (m := 574368) ?_ hM
  unfold acceptInto
  extract_lets die j barrier s1 s2 s3 c h
  have h3 : s3.hide 574368 = s.hide 574368 := by
    unfold s3 s2 s1
    split <;> simp
  clear_value s3
  split
  · exact h3
  · split
    · rw [completeCtx_frame (by decide), h3]
    · rw [enterComputing_frame (by decide), h3]

@[simp] theorem unstage_frame {M : Nat} (hM : 128 &&& M = 128) (die id : Nat) (s : State) : (unstage die id s).hide M = s.hide M := by
  have key : (unstage die id s).hide 128 = s.hide 128 := by
    unfold unstage; simp
  exact State.hide_mono key hM

theorem takeCtx_frame {M : Nat} (hM : 540800 &&& M = 540800) {die : Nat} {g : Group} {i c k : Nat} {s t : State}
    (h : takeCtx die g i c s = some (k, t)) : t.hide M = s.hide M := by
  refine State.hide_mono (m := 540800) ?_ hM
  unfold takeCtx at h
  dsimp only at h
  (repeat' split at h) <;> (simp only [Option.some.injEq, Prod.mk.injEq, reduceCtorEq] at h) <;> (obtain ⟨_, rfl⟩ := h) <;> simp

@[simp] theorem acceptHome_frame {M : Nat} (hM : 582560 &&& M = 582560) (die : Nat) (g : Group) (f : Bytes) (o time t : Nat) (s : State) : (acceptHome die g f o time t s).hide M = s.hide M := by
  refine State.hide_mono (m := 582560) ?_ hM
  unfold acceptHome
  dsimp only
  split
  · simp
  · split
    · simp
    · split
      · simp
      · rename_i e
        have h1 := takeCtx_frame (M := 582560) (by decide) e
        (repeat' split) <;> simpa using h1

@[simp] theorem timeoutHere_frame {M : Nat} (hM : 574112 &&& M = 574112) (die : Nat) (g : Group) (inst : Nat) (s : State) : (timeoutHere die g inst s).hide M = s.hide M := by
  have key : (timeoutHere die g inst s).hide 574112 = s.hide 574112 := by
    unfold timeoutHere; ((repeat' split) <;> (try dsimp only) <;> (repeat' split) <;> (first | ((repeat' split) <;> (first | (simp; done) | (simp only [Prod.ext_iff] at *; (casesm* _ ∧ _); subst_vars; simp; done) | (simp only [Prod.ext_iff, Option.some.injEq] at *; (casesm* _ ∧ _); subst_vars; simp; done) | (simp_all; done))) | (refine (State.hide_foldl (fun _ _ => ?_) _ _).trans ?_ <;> ((repeat' split) <;> (first | (simp; done) | (simp only [Prod.ext_iff] at *; (casesm* _ ∧ _); subst_vars; simp; done) | (simp only [Prod.ext_iff, Option.some.injEq] at *; (casesm* _ ∧ _); subst_vars; simp; done) | (simp_all; done)))) | (refine (State.hide_foldl_snd (fun _ _ => ?_) _ _).trans ?_ <;> ((repeat' split) <;> (first | (simp; done) | (simp only [Prod.ext_iff] at *; (casesm* _ ∧ _); subst_vars; simp; done) | (simp only [Prod.ext_iff, Option.some.injEq] at *; (casesm* _ ∧ _); subst_vars; simp; done) | (simp_all; done))))))
  exact State.hide_mono key hM

@[simp] theorem atSlot_frame {M : Nat} (hM : 582560 &&& M = 582560) (die : Nat) (g : Group) (f : Bytes) (o time t : Nat) (s : State) : (atSlot die g f o time t s).hide M = s.hide M := by
  have key : (atSlot die g f o time t s).hide 582560 = s.hide 582560 := by
    unfold atSlot; ((repeat' split) <;> (try dsimp only) <;> (repeat' split) <;> simp)
  exact State.hide_mono key hM

@[simp] theorem contributionHome_frame {M : Nat} (hM : 582560 &&& M = 582560) (die : Nat) (s : State) : (contributionHome die s).hide M = s.hide M := by
  have key : (contributionHome die s).hide 582560 = s.hide 582560 := by
    unfold contributionHome; ((repeat' split) <;> (try dsimp only) <;> (repeat' split) <;> simp)
  exact State.hide_mono key hM

@[simp] theorem instanceTimeout_frame {M : Nat} (hM : 582560 &&& M = 582560) (die id inst : Nat) (s : State) : (instanceTimeout die id inst s).hide M = s.hide M := by
  have key : (instanceTimeout die id inst s).hide 582560 = s.hide 582560 := by
    unfold instanceTimeout; ((repeat' split) <;> (try dsimp only) <;> (repeat' split) <;> simp [State.hide_foldl, State.hide_foldl_snd])
  exact State.hide_mono key hM

@[simp] theorem dropTokens_frame {M : Nat} (hM : 256 &&& M = 256) (die : Nat) (gone : Nat → Bool) (s : State) : (dropTokens die gone s).hide M = s.hide M := by
  have key : (dropTokens die gone s).hide 256 = s.hide 256 := by
    unfold dropTokens; simp
  exact State.hide_mono key hM

@[simp] theorem deleteOn_frame {M : Nat} (hM : 648096 &&& M = 648096) (g : Group) (s : State) (d : Nat) : (deleteOn g s d).hide M = s.hide M := by
  refine State.hide_mono (m := 648096) ?_ hM
  unfold deleteOn
  dsimp only
  rw [State.hide_onColl (by decide), releaseOn_frame (by decide)]
  refine (State.hide_foldl (fun s k => ?_) _ _).trans ?_
  · rw [dropLocks_frame (by decide)]; split <;> simp
  · exact State.hide_foldl (fun s k => endContext_frame (by decide) ..) _ _

@[simp] theorem groupDelete_frame {M : Nat} (hM : 648096 &&& M = 648096) (id : Nat) (s : State) : (groupDelete id s).2.hide M = s.hide M := by
  have key : (groupDelete id s).2.hide 648096 = s.hide 648096 := by
    unfold groupDelete; ((repeat' split) <;> (try dsimp only) <;> (repeat' split) <;> (first | ((repeat' split) <;> (first | (simp; done) | (simp only [Prod.ext_iff] at *; (casesm* _ ∧ _); subst_vars; simp; done) | (simp only [Prod.ext_iff, Option.some.injEq] at *; (casesm* _ ∧ _); subst_vars; simp; done) | (simp_all; done))) | (refine (State.hide_foldl (fun _ _ => ?_) _ _).trans ?_ <;> ((repeat' split) <;> (first | (simp; done) | (simp only [Prod.ext_iff] at *; (casesm* _ ∧ _); subst_vars; simp; done) | (simp only [Prod.ext_iff, Option.some.injEq] at *; (casesm* _ ∧ _); subst_vars; simp; done) | (simp_all; done)))) | (refine (State.hide_foldl_snd (fun _ _ => ?_) _ _).trans ?_ <;> ((repeat' split) <;> (first | (simp; done) | (simp only [Prod.ext_iff] at *; (casesm* _ ∧ _); subst_vars; simp; done) | (simp only [Prod.ext_iff, Option.some.injEq] at *; (casesm* _ ∧ _); subst_vars; simp; done) | (simp_all; done))))))
  exact State.hide_mono key hM

@[simp] theorem lagClearWrite_frame {M : Nat} (hM : 8320 &&& M = 8320) (s : State) : (lagClearWrite s).hide M = s.hide M := by
  have key : (lagClearWrite s).hide 8320 = s.hide 8320 := by
    unfold lagClearWrite; simp
  exact State.hide_mono key hM

@[simp] theorem contextSpill_frame {M : Nat} (hM : 160 &&& M = 160) (die : Nat) (s : State) : (contextSpill die s).hide M = s.hide M := by
  have key : (contextSpill die s).hide 160 = s.hide 160 := by
    unfold contextSpill; ((repeat' split) <;> simp)
  exact State.hide_mono key hM

@[simp] theorem contextReadback_frame {M : Nat} (hM : 160 &&& M = 160) (die k : Nat) (s : State) : (contextReadback die k s).hide M = s.hide M := by
  have key : (contextReadback die k s).hide 160 = s.hide 160 := by
    unfold contextReadback; ((repeat' split) <;> simp)
  exact State.hide_mono key hM

@[simp] theorem popStaged_frame {M : Nat} (hM : 128 &&& M = 128) (die k : Nat) (rest : List (Nat × Bytes)) (s : State) : (popStaged die k rest s).hide M = s.hide M := by
  have key : (popStaged die k rest s).hide 128 = s.hide 128 := by
    unfold popStaged; simp
  exact State.hide_mono key hM

@[simp] theorem streamDeliver_frame {M : Nat} (hM : 582560 &&& M = 582560) (die tile port : Nat) (s : State) : (streamDeliver die tile port s).hide M = s.hide M := by
  have key : (streamDeliver die tile port s).hide 582560 = s.hide 582560 := by
    unfold streamDeliver; ((repeat' split) <;> (try dsimp only) <;> (repeat' split) <;> simp)
  exact State.hide_mono key hM

@[simp] theorem decodeToken_frame {M : Nat} (hM : 582560 &&& M = 582560) (die tile port : Nat) (s : State) : (decodeToken die tile port s).hide M = s.hide M := by
  have key : (decodeToken die tile port s).hide 582560 = s.hide 582560 := by
    unfold decodeToken; ((repeat' split) <;> (try dsimp only) <;> (repeat' split) <;> simp)
  exact State.hide_mono key hM

@[simp] theorem contextPort_frame {M : Nat} (hM : 582560 &&& M = 582560) (op die tile port : Nat) (s : State) : (contextPort op die tile port s).hide M = s.hide M := by
  have key : (contextPort op die tile port s).hide 582560 = s.hide 582560 := by
    unfold contextPort; ((repeat' split) <;> (try dsimp only) <;> (repeat' split) <;> simp)
  exact State.hide_mono key hM

@[simp] theorem euBlock_frame {M : Nat} (hM : 647296 &&& M = 647296) (k : Nat) (g : Group) (cmd : Token) (b : Nat) (vals : List Word) (s : State) : (euBlock k g cmd b vals s).2.hide M = s.hide M := by
  have key : (euBlock k g cmd b vals s).2.hide 647296 = s.hide 647296 := by
    unfold euBlock; ((repeat' split) <;> (try dsimp only) <;> (repeat' split) <;> simp)
  exact State.hide_mono key hM

@[simp] theorem encodeStep_frame {M : Nat} (hM : 648096 &&& M = 648096) (die tile port : Nat) (s : State) : (encodeStep die tile port s).hide M = s.hide M := by
  have key : (encodeStep die tile port s).hide 648096 = s.hide 648096 := by
    unfold encodeStep; ((repeat' split) <;> (try dsimp only) <;> (repeat' split) <;> (first | (simp; done) | (simp only [Prod.ext_iff] at *; (casesm* _ ∧ _); subst_vars; simp; done) | (simp only [Prod.ext_iff, Option.some.injEq] at *; (casesm* _ ∧ _); subst_vars; simp; done) | (simp_all; done)))
  exact State.hide_mono key hM

@[simp] theorem egressResult_frame {M : Nat} (hM : 639648 &&& M = 639648) (k : Nat) (g : Group) (cmd : Token) (payload : Bytes) (s : State) : (egressResult k g cmd payload s).hide M = s.hide M := by
  have key : (egressResult k g cmd payload s).hide 639648 = s.hide 639648 := by
    unfold egressResult; ((repeat' split) <;> (try dsimp only) <;> (repeat' split) <;> simp)
  exact State.hide_mono key hM

@[simp] theorem egressLast_frame {M : Nat} (hM : 648096 &&& M = 648096) (die tile port : Nat) (s : State) : (egressLast die tile port s).hide M = s.hide M := by
  have key : (egressLast die tile port s).hide 648096 = s.hide 648096 := by
    unfold egressLast; ((repeat' split) <;> (try dsimp only) <;> (repeat' split) <;> simp)
  exact State.hide_mono key hM

@[simp] theorem onThread_frame {M : Nat} (hM : 256 &&& M = 256) (die tile port n : Nat) (f : Thread → Thread) (s : State) : (onThread die tile port n f s).hide M = s.hide M := by
  have key : (onThread die tile port n f s).hide 256 = s.hide 256 := by
    unfold onThread; simp
  exact State.hide_mono key hM

@[simp] theorem freeWords_frame {M : Nat} (hM : 524288 &&& M = 524288) (y0 : Nat) (s : State) : (freeWords y0 s).2.hide M = s.hide M := by
  have key : (freeWords y0 s).2.hide 524288 = s.hide 524288 := by
    (induction y0 generalizing s with | zero => simp [freeWords] | succ n ih => simp only [freeWords]; ((repeat' split) <;> simp_all))
  exact State.hide_mono key hM

@[simp] theorem portDrain_frame {M : Nat} (hM : 256 &&& M = 256) (die tile port h : Nat) (routed : Bool) (s : State) : (portDrain die tile port h routed s).hide M = s.hide M := by
  have key : (portDrain die tile port h routed s).hide 256 = s.hide 256 := by
    unfold portDrain; ((repeat' split) <;> (try dsimp only) <;> (repeat' split) <;> simp)
  exact State.hide_mono key hM

/-- What a walk instruction leaves, by a mask. -/
def Walked.keeps (M : Nat) (s : State) : Walked → Prop
  | .on _ t => t.hide M = s.hide M
  | .memError _ t => t.hide M = s.hide M
  | _ => True

theorem Walked.keeps_trans {M : Nat} {s t : State} {w : Walked} (h : w.keeps M t) (e : t.hide M = s.hide M) : w.keeps M s := by
  cases w <;> first | trivial | exact Eq.trans h e

theorem readEmit_keeps (k : Nat) (g : Group) (a : Nat) (t : Thread) (s : State) : (readEmit k g a t s).keeps 648096 s := by
  unfold readEmit
  split
  · trivial
  · rfl
  · rename_i w _
    have h1 := readWord_frame (M := 648096) (by decide) w (noteSuspect k w s)
    split <;> (rename_i e; rw [e] at h1; refine Eq.trans (b := _) h1 ?_; simp)

theorem readTodo_keeps (k : Nat) (g : Group) (n : Nat) (t : Thread) (s : State) : (readTodo k g n t s).keeps 648096 s := by
  induction n generalizing t s with
  | zero => rfl
  | succ n ih =>
    unfold readTodo
    split
    · rfl
    · rename_i a m r _
      have h1 := readEmit_keeps k g a { t with todo := if m ≤ 1 then r else (a + 64, m - 1) :: r } s
      split
      · rename_i e; rw [e] at h1; exact Walked.keeps_trans (ih _ _) h1
      · exact h1

theorem writeOne_keeps (k : Nat) (g : Group) (add : Bool) (a : Nat) (d : List Word) (t : Thread) (s : State) : (writeOne k g add a d t s).keeps 648096 s := by
  unfold writeOne
  split
  · trivial
  · rfl
  · rename_i w _
    have h1 := readWord_frame (M := 648096) (by decide) w s
    (repeat' split) <;> first | trivial | (rename_i e; rw [e] at h1; exact h1) | (rename_i e; rw [e] at h1; refine Eq.trans (b := _) ?_ h1; simp) | simp [Walked.keeps]

theorem writeMany_keeps (k : Nat) (g : Group) (add : Bool) (l : List Token) (a : Nat) (t : Thread) (s : State) : (writeMany k g add l a t s).keeps 648096 s := by
  induction l generalizing a t s with
  | nil => rfl
  | cons d r ih =>
    have h1 := writeOne_keeps k g add a d.data t s
    unfold writeMany
    split
    · rename_i e; rw [e] at h1; exact Walked.keeps_trans (ih _ _ _) h1
    · exact h1

theorem addIndexed_keeps (k : Nat) (g : Group) (n : Nat) (l : List Nat) (d : List Token) (t : Thread) (s : State) : (addIndexed k g n l d t s).keeps 648096 s := by
  induction l generalizing d t s with
  | nil => rfl
  | cons a r ih =>
    have h1 := writeMany_keeps k g true (d.take n) a t s
    unfold addIndexed
    split
    · rename_i e; rw [e] at h1; exact Walked.keeps_trans (ih _ _ _) h1
    · exact h1

theorem probe_keeps (k : Nat) (g : Group) (i : Bool) (key v base mask n h : Nat) (t : Thread) (s : State) : (probe k g i key v base mask n h t s).keeps 648096 s := by
  induction n generalizing h t s with
  | zero => simp [probe, Walked.keeps]
  | succ n ih =>
    unfold probe
    dsimp only
    split
    · trivial
    · rfl
    · rename_i w _
      have h1 := readWord_frame (M := 648096) (by decide) w (noteSuspect k w s)
      have h2 : (noteSuspect k w s).hide 648096 = s.hide 648096 := by simp
      split
      · rename_i e; rw [e] at h1; exact h1.trans h2
      · rename_i e; rw [e] at h1
        split
        · exact Walked.keeps_trans (ih _ _ _) (h1.trans h2)
        · exact h1.trans h2
        · (repeat' split) <;> first | trivial | exact h1.trans h2 | (refine Eq.trans (b := _) ?_ (h1.trans h2); simp)

theorem walkStep_keeps (k : Nat) (g : Group) (i : Image) (w n : Nat) (t : Thread) (s : State) : (walkStep k g i w n t s).keeps 648096 s := by
  have iteK : ∀ (b : Prop) [Decidable b] (x y : Walked), x.keeps 648096 s → y.keeps 648096 s → (if b then x else y).keeps 648096 s := by
    intro b _ x y hx hy; split <;> assumption
  have needK : ∀ (m : Nat) (u : Thread) (f : List Token → Thread → Walked), (∀ d u, (f d u).keeps 648096 s) →
      (match takeData w u m with
        | (some (d, t), _) => f d t
        | (none, true) => .fault 10
        | (none, false) => .wait).keeps 648096 s := by
    intro m u f hf; split <;> first | exact hf _ _ | trivial
  unfold walkStep
  dsimp only
  split <;> (repeat' first | exact iteK _ _ _ (by trivial) (by trivial) | exact readTodo_keeps .. | exact writeMany_keeps .. | exact addIndexed_keeps .. | exact probe_keeps .. | rfl | trivial | (refine needK _ _ _ fun _ _ => ?_) | (refine iteK _ _ _ ?_ ?_))

@[simp] theorem threadRun_frame {M : Nat} (hM : 648096 &&& M = 648096) (die tile port n h : Nat) (i : Image) (s : State) : (threadRun die tile port n h i s).hide M = s.hide M := by
  refine State.hide_mono (m := 648096) ?_ hM
  unfold threadRun
  extract_lets t u w waiting k finish room
  split
  · rfl
  · split
    · simp
    · rename_i g _
      have hf : ∀ t st s, (finish t st s).hide 648096 = s.hide 648096 := by intro t st s; unfold finish; simp
      have h1 : (if t.todo.isEmpty then walkStep k g i waiting room t s else readTodo k g room t s).keeps 648096 s := by
        split
        · exact walkStep_keeps ..
        · exact readTodo_keeps ..
      clear_value finish room t waiting k
      split
      · rfl
      · split
        · rw [progress_frame (by decide), hf]
        · split <;> rename_i e
          · rfl
          · simp
          · rw [e] at h1; rw [progress_frame (by decide), hf]; exact h1
          · rw [e] at h1; rw [progress_frame (by decide)]; refine Eq.trans (b := _) ?_ h1
            split
            · simp
            · exact hf _ _ _

@[simp] theorem startThread_frame {M : Nat} (hM : 384 &&& M = 384) (die tile port n k : Nat) (t : Token) (s : State) : (startThread die tile port n k t s).hide M = s.hide M := by
  have key : (startThread die tile port n k t s).hide 384 = s.hide 384 := by
    unfold startThread; simp
  exact State.hide_mono key hM

@[simp] theorem walkRequest_frame {M : Nat} (hM : 648096 &&& M = 648096) (die tile port : Nat) (s : State) : (walkRequest die tile port s).hide M = s.hide M := by
  refine State.hide_mono (m := 648096) ?_ hM
  unfold walkRequest
  split
  · rfl
  · dsimp only
    (repeat' split) <;> simp

@[simp] theorem accessComplete_frame {M : Nat} (hM : 648096 &&& M = 648096) (die tile port n : Nat) (s : State) : (accessComplete die tile port n s).hide M = s.hide M := by
  have key : (accessComplete die tile port n s).hide 648096 = s.hide 648096 := by
    unfold accessComplete; ((repeat' split) <;> (try dsimp only) <;> (repeat' split) <;> simp)
  exact State.hide_mono key hM

@[simp] theorem measExtend_frame {M : Nat} (hM : 8 &&& M = 8) (i : Nat) (x : Bytes) (s : State) : (measExtend i x s).hide M = s.hide M := by
  have key : (measExtend i x s).hide 8 = s.hide 8 := by
    unfold measExtend; simp
  exact State.hide_mono key hM

@[simp] theorem measEvent_frame {M : Nat} (hM : 8 &&& M = 8) (code : Nat) (s : State) : (measEvent code s).hide M = s.hide M := by
  have key : (measEvent code s).hide 8 = s.hide 8 := by
    unfold measEvent; simp
  exact State.hide_mono key hM

@[simp] theorem setCommitResult_frame {M : Nat} (hM : 256 &&& M = 256) (st h : Nat) (s : State) : (setCommitResult st h s).hide M = s.hide M := by
  have key : (setCommitResult st h s).hide 256 = s.hide 256 := by
    unfold setCommitResult; simp
  exact State.hide_mono key hM

@[simp] theorem setPlaceResult_frame {M : Nat} (hM : 256 &&& M = 256) (st dies : Nat) (s : State) : (setPlaceResult st dies s).hide M = s.hide M := by
  have key : (setPlaceResult st dies s).hide 256 = s.hide 256 := by
    unfold setPlaceResult; simp
  exact State.hide_mono key hM

@[simp] theorem imageStage_frame {M : Nat} (hM : 90381 &&& M = 90381) (data : Bytes) (s : State) : (imageStage data s).hide M = s.hide M := by
  have key : (imageStage data s).hide 90381 = s.hide 90381 := by
    unfold imageStage; ((repeat' split) <;> simp)
  exact State.hide_mono key hM

@[simp] theorem admitImage_frame {M : Nat} (hM : 256 &&& M = 256) (h : Nat) (b : Bytes) (library : Option Nat) (s : State) : (admitImage h b library s).hide M = s.hide M := by
  have key : (admitImage h b library s).hide 256 = s.hide 256 := by
    unfold admitImage; simp
  exact State.hide_mono key hM

@[simp] theorem imageCommit_frame {M : Nat} (hM : 8456 &&& M = 8456) (s : State) : (imageCommit s).hide M = s.hide M := by
  have key : (imageCommit s).hide 8456 = s.hide 8456 := by
    unfold imageCommit; ((repeat' split) <;> (try dsimp only) <;> (repeat' split) <;> simp)
  exact State.hide_mono key hM

@[simp] theorem imageUnload_frame {M : Nat} (hM : 8448 &&& M = 8448) (h : Nat) (s : State) : (imageUnload h s).hide M = s.hide M := by
  have key : (imageUnload h s).hide 8448 = s.hide 8448 := by
    unfold imageUnload; ((repeat' split) <;> (try dsimp only) <;> (repeat' split) <;> simp)
  exact State.hide_mono key hM

@[simp] theorem placeOn_frame {M : Nat} (hM : 256 &&& M = 256) (h a : Nat) (i : Image) (s : State) (d : Nat) : (placeOn h a i s d).hide M = s.hide M := by
  have key : (placeOn h a i s d).hide 256 = s.hide 256 := by
    unfold placeOn; simp
  exact State.hide_mono key hM

@[simp] theorem imagePlace_frame {M : Nat} (hM : 8448 &&& M = 8448) (h dies a : Nat) (s : State) : (imagePlace h dies a s).hide M = s.hide M := by
  have key : (imagePlace h dies a s).hide 8448 = s.hide 8448 := by
    unfold imagePlace; ((repeat' split) <;> (try dsimp only) <;> (repeat' split) <;> (first | ((repeat' split) <;> (first | (simp; done) | (simp only [Prod.ext_iff] at *; (casesm* _ ∧ _); subst_vars; simp; done) | (simp only [Prod.ext_iff, Option.some.injEq] at *; (casesm* _ ∧ _); subst_vars; simp; done) | (simp_all; done))) | (refine (State.hide_foldl (fun _ _ => ?_) _ _).trans ?_ <;> ((repeat' split) <;> (first | (simp; done) | (simp only [Prod.ext_iff] at *; (casesm* _ ∧ _); subst_vars; simp; done) | (simp only [Prod.ext_iff, Option.some.injEq] at *; (casesm* _ ∧ _); subst_vars; simp; done) | (simp_all; done)))) | (refine (State.hide_foldl_snd (fun _ _ => ?_) _ _).trans ?_ <;> ((repeat' split) <;> (first | (simp; done) | (simp only [Prod.ext_iff] at *; (casesm* _ ∧ _); subst_vars; simp; done) | (simp only [Prod.ext_iff, Option.some.injEq] at *; (casesm* _ ∧ _); subst_vars; simp; done) | (simp_all; done))))))
  exact State.hide_mono key hM

@[simp] theorem unplaceOn_frame {M : Nat} (hM : 24845 &&& M = 24845) (h : Nat) (s : State) (d : Nat) : (unplaceOn h s d).hide M = s.hide M := by
  have key : (unplaceOn h s d).hide 24845 = s.hide 24845 := by
    unfold unplaceOn; ((repeat' split) <;> (try dsimp only) <;> (repeat' split) <;> simp)
  exact State.hide_mono key hM

@[simp] theorem imageUnplace_frame {M : Nat} (hM : 24845 &&& M = 24845) (h dies : Nat) (s : State) : (imageUnplace h dies s).hide M = s.hide M := by
  have key : (imageUnplace h dies s).hide 24845 = s.hide 24845 := by
    unfold imageUnplace; ((repeat' split) <;> (try dsimp only) <;> (repeat' split) <;> (first | ((repeat' split) <;> (first | (simp; done) | (simp only [Prod.ext_iff] at *; (casesm* _ ∧ _); subst_vars; simp; done) | (simp only [Prod.ext_iff, Option.some.injEq] at *; (casesm* _ ∧ _); subst_vars; simp; done) | (simp_all; done))) | (refine (State.hide_foldl (fun _ _ => ?_) _ _).trans ?_ <;> ((repeat' split) <;> (first | (simp; done) | (simp only [Prod.ext_iff] at *; (casesm* _ ∧ _); subst_vars; simp; done) | (simp only [Prod.ext_iff, Option.some.injEq] at *; (casesm* _ ∧ _); subst_vars; simp; done) | (simp_all; done)))) | (refine (State.hide_foldl_snd (fun _ _ => ?_) _ _).trans ?_ <;> ((repeat' split) <;> (first | (simp; done) | (simp only [Prod.ext_iff] at *; (casesm* _ ∧ _); subst_vars; simp; done) | (simp only [Prod.ext_iff, Option.some.injEq] at *; (casesm* _ ∧ _); subst_vars; simp; done) | (simp_all; done))))))
  exact State.hide_mono key hM

@[simp] theorem loadLibrary_frame {M : Nat} (hM : 24845 &&& M = 24845) (op : Nat) (s : State) : (loadLibrary op s).hide M = s.hide M := by
  have key : (loadLibrary op s).hide 24845 = s.hide 24845 := by
    unfold loadLibrary; ((repeat' split) <;> simp)
  exact State.hide_mono key hM

@[simp] theorem loadLibraries_frame {M : Nat} (hM : 24845 &&& M = 24845) (s : State) : (loadLibraries s).hide M = s.hide M := by
  have key : (loadLibraries s).hide 24845 = s.hide 24845 := by
    unfold loadLibraries; simp
  exact State.hide_mono key hM

@[simp] theorem imageRestart_frame {M : Nat} (hM : 8576 &&& M = 8576) (h : Nat) (s : State) : (imageRestart h s).hide M = s.hide M := by
  have key : (imageRestart h s).hide 8576 = s.hide 8576 := by
    unfold imageRestart; ((repeat' split) <;> (try dsimp only) <;> (repeat' split) <;> (first | ((repeat' split) <;> (first | (simp; done) | (simp only [Prod.ext_iff] at *; (casesm* _ ∧ _); subst_vars; simp; done) | (simp only [Prod.ext_iff, Option.some.injEq] at *; (casesm* _ ∧ _); subst_vars; simp; done) | (simp_all; done))) | (refine (State.hide_foldl (fun _ _ => ?_) _ _).trans ?_ <;> ((repeat' split) <;> (first | (simp; done) | (simp only [Prod.ext_iff] at *; (casesm* _ ∧ _); subst_vars; simp; done) | (simp only [Prod.ext_iff, Option.some.injEq] at *; (casesm* _ ∧ _); subst_vars; simp; done) | (simp_all; done)))) | (refine (State.hide_foldl_snd (fun _ _ => ?_) _ _).trans ?_ <;> ((repeat' split) <;> (first | (simp; done) | (simp only [Prod.ext_iff] at *; (casesm* _ ∧ _); subst_vars; simp; done) | (simp only [Prod.ext_iff, Option.some.injEq] at *; (casesm* _ ∧ _); subst_vars; simp; done) | (simp_all; done))))))
  exact State.hide_mono key hM

@[simp] theorem collRecoveryWrite_frame {M : Nat} (hM : 139648 &&& M = 139648) (v : Nat) (s : State) : (collRecoveryWrite v s).hide M = s.hide M := by
  refine State.hide_mono (m := 139648) ?_ hM
  unfold collRecoveryWrite
  dsimp only
  split
  · simp
  · split
    · simp
    · refine (State.hide_foldl (fun s i => ?_) _ _).trans ?_
      · split <;> simp
      · simp

@[simp] theorem tileLost_frame {M : Nat} (hM : 582564 &&& M = 582564) (die tile cause : Nat) (s : State) : (tileLost die tile cause s).hide M = s.hide M := by
  have key : (tileLost die tile cause s).hide 582564 = s.hide 582564 := by
    unfold tileLost; ((repeat' split) <;> (try dsimp only) <;> (repeat' split) <;> simp [State.hide_foldl, State.hide_foldl_snd])
  exact State.hide_mono key hM

@[simp] theorem remapRow_frame {M : Nat} (hM : 582560 &&& M = 582560) (die tile row pos : Nat) (quiet : Bool) (s : State) : (remapRow die tile row pos quiet s).hide M = s.hide M := by
  have key : (remapRow die tile row pos quiet s).hide 582560 = s.hide 582560 := by
    unfold remapRow; ((repeat' split) <;> (try dsimp only) <;> (repeat' split) <;> simp)
  exact State.hide_mono key hM

@[simp] theorem retireNow_frame {M : Nat} (hM : 582564 &&& M = 582564) (die tile row pos : Nat) (s : State) : (retireNow die tile row pos s).hide M = s.hide M := by
  have key : (retireNow die tile row pos s).hide 582564 = s.hide 582564 := by
    unfold retireNow; ((repeat' split) <;> (try dsimp only) <;> (repeat' split) <;> simp)
  exact State.hide_mono key hM

@[simp] theorem postSpare_frame {M : Nat} (hM : 24832 &&& M = 24832) (die tile row pos : Nat) (s : State) : (postSpare die tile row pos s).hide M = s.hide M := by
  have key : (postSpare die tile row pos s).hide 24832 = s.hide 24832 := by
    unfold postSpare; ((repeat' split) <;> simp)
  exact State.hide_mono key hM

@[simp] theorem retireCell_frame {M : Nat} (hM : 582564 &&& M = 582564) (die tile row pos : Nat) (s : State) : (retireCell die tile row pos s).hide M = s.hide M := by
  have key : (retireCell die tile row pos s).hide 582564 = s.hide 582564 := by
    unfold retireCell; ((repeat' split) <;> simp)
  exact State.hide_mono key hM

@[simp] theorem retireHeld_frame {M : Nat} (hM : 582560 &&& M = 582560) (die tile row pos deadline : Nat) (s : State) : (retireHeld die tile row pos deadline s).hide M = s.hide M := by
  have key : (retireHeld die tile row pos deadline s).hide 582560 = s.hide 582560 := by
    unfold retireHeld; ((repeat' split) <;> (try dsimp only) <;> (repeat' split) <;> simp)
  exact State.hide_mono key hM

@[simp] theorem spareSwitch_frame {M : Nat} (hM : 582564 &&& M = 582564) (die tile row pos : Nat) (s : State) : (spareSwitch die tile row pos s).hide M = s.hide M := by
  have key : (spareSwitch die tile row pos s).hide 582564 = s.hide 582564 := by
    unfold spareSwitch; ((repeat' split) <;> simp)
  exact State.hide_mono key hM

@[simp] theorem spareModeWrite_frame {M : Nat} (hM : 713636 &&& M = 713636) (v : Nat) (s : State) : (spareModeWrite v s).hide M = s.hide M := by
  have key : (spareModeWrite v s).hide 713636 = s.hide 713636 := by
    unfold spareModeWrite; ((repeat' split) <;> (try dsimp only) <;> (repeat' split) <;> (first | simp | (refine (State.hide_foldl (fun _ _ => ?_) _ _).trans ?_ <;> simp) | (refine (State.hide_foldl_snd (fun _ _ => ?_) _ _).trans ?_ <;> simp)))
  exact State.hide_mono key hM

@[simp] theorem meshDegraded_frame {M : Nat} (hM : 24576 &&& M = 24576) (a b : Nat) (s : State) : (meshDegraded a b s).hide M = s.hide M := by
  have key : (meshDegraded a b s).hide 24576 = s.hide 24576 := by
    unfold meshDegraded; ((repeat' split) <;> (try dsimp only) <;> (repeat' split) <;> simp)
  exact State.hide_mono key hM

@[simp] theorem meshCauses_frame {M : Nat} (hM : 24580 &&& M = 24580) (s : State) : (meshCauses s).hide M = s.hide M := by
  have key : (meshCauses s).hide 24580 = s.hide 24580 := by
    unfold meshCauses; simp
  exact State.hide_mono key hM

@[simp] theorem takeSpare_frame {M : Nat} (hM : 1024 &&& M = 1024) (a b c : Nat) (s : State) : (takeSpare a b c s).hide M = s.hide M := by
  have key : (takeSpare a b c s).hide 1024 = s.hide 1024 := by
    unfold takeSpare; ((repeat' split) <;> simp)
  exact State.hide_mono key hM

@[simp] theorem meshLoses_frame {M : Nat} (hM : 524832 &&& M = 524832) (a b n : Nat) (s : State) : (meshLoses a b n s).hide M = s.hide M := by
  have key : (meshLoses a b n s).hide 524832 = s.hide 524832 := by
    unfold meshLoses; ((repeat' split) <;> (first | (simp; done) | (simp only [Prod.ext_iff] at *; (casesm* _ ∧ _); subst_vars; simp; done) | (simp only [Prod.ext_iff, Option.some.injEq] at *; (casesm* _ ∧ _); subst_vars; simp; done) | (simp_all; done)))
  exact State.hide_mono key hM

@[simp] theorem meshSubstitute_frame {M : Nat} (hM : 550436 &&& M = 550436) (a b c : Nat) (abrupt : Bool) (s : State) : (meshSubstitute a b c abrupt s).hide M = s.hide M := by
  have key : (meshSubstitute a b c abrupt s).hide 550436 = s.hide 550436 := by
    unfold meshSubstitute; ((repeat' split) <;> (try dsimp only) <;> (repeat' split) <;> simp)
  exact State.hide_mono key hM

@[simp] theorem meshRingFault_frame {M : Nat} (hM : 550436 &&& M = 550436) (id : RingId) (s : State) : (meshRingFault id s).hide M = s.hide M := by
  have key : (meshRingFault id s).hide 550436 = s.hide 550436 := by
    unfold meshRingFault; ((repeat' split) <;> (try dsimp only) <;> (repeat' split) <;> simp)
  exact State.hide_mono key hM

@[simp] theorem ringFails_frame {M : Nat} (hM : 550436 &&& M = 550436) (id : RingId) (last : Nat) (s : State) : (ringFails id last s).hide M = s.hide M := by
  have key : (ringFails id last s).hide 550436 = s.hide 550436 := by
    unfold ringFails; simp
  exact State.hide_mono key hM

@[simp] theorem ringTick_frame {M : Nat} (hM : 812788 &&& M = 812788) (id : RingId) (v : RingSight) (s : State) : (ringTick id v s).hide M = s.hide M := by
  have key : (ringTick id v s).hide 812788 = s.hide 812788 := by
    unfold ringTick; ((repeat' split) <;> (try dsimp only) <;> (repeat' split) <;> (first | (simp; done) | (simp only [Prod.ext_iff] at *; (casesm* _ ∧ _); subst_vars; simp; done) | (simp only [Prod.ext_iff, Option.some.injEq] at *; (casesm* _ ∧ _); subst_vars; simp; done) | (simp_all; done)))
  exact State.hide_mono key hM

@[simp] theorem mismatchLane_frame {M : Nat} (hM : 806128 &&& M = 806128) (id : RingId) (s : State) : (mismatchLane id s).hide M = s.hide M := by
  have key : (mismatchLane id s).hide 806128 = s.hide 806128 := by
    unfold mismatchLane; ((repeat' split) <;> simp)
  exact State.hide_mono key hM

@[simp] theorem countMismatch_frame {M : Nat} (hM : 16384 &&& M = 16384) (id : RingId) (s : State) : (countMismatch id s).hide M = s.hide M := by
  have key : (countMismatch id s).hide 16384 = s.hide 16384 := by
    unfold countMismatch; ((repeat' split) <;> simp)
  exact State.hide_mono key hM

@[simp] theorem beaconComplete_frame {M : Nat} (hM : 814836 &&& M = 814836) (id : RingId) (tones : List Nat) (v : RingSight) (s : State) : (beaconComplete id tones v s).hide M = s.hide M := by
  have key : (beaconComplete id tones v s).hide 814836 = s.hide 814836 := by
    unfold beaconComplete; ((repeat' split) <;> (try dsimp only) <;> (repeat' split) <;> simp)
  exact State.hide_mono key hM

@[simp] theorem ringSeekWrite_frame {M : Nat} (hM : 812272 &&& M = 812272) (p : Nat) (receive : Bool) (slot : Fin 9) (start : Nat) (s : State) : (ringSeekWrite p receive slot start s).hide M = s.hide M := by
  have key : (ringSeekWrite p receive slot start s).hide 812272 = s.hide 812272 := by
    unfold ringSeekWrite; ((repeat' split) <;> (try dsimp only) <;> (repeat' split) <;> simp)
  exact State.hide_mono key hM

@[simp] theorem loopNow_frame {M : Nat} (hM : 787456 &&& M = 787456) (p l mode : Nat) (s : State) : (loopNow p l mode s).hide M = s.hide M := by
  have key : (loopNow p l mode s).hide 787456 = s.hide 787456 := by
    unfold loopNow; ((repeat' split) <;> (first | (simp; done) | (simp only [Prod.ext_iff] at *; (casesm* _ ∧ _); subst_vars; simp; done) | (simp only [Prod.ext_iff, Option.some.injEq] at *; (casesm* _ ∧ _); subst_vars; simp; done) | (simp_all; done)))
  exact State.hide_mono key hM

@[simp] theorem leaveDone_frame {M : Nat} (hM : 787456 &&& M = 787456) (p l : Nat) (s : State) : (leaveDone p l s).hide M = s.hide M := by
  have key : (leaveDone p l s).hide 787456 = s.hide 787456 := by
    unfold leaveDone; ((repeat' split) <;> (try dsimp only) <;> (repeat' split) <;> simp)
  exact State.hide_mono key hM

@[simp] theorem enterLoop_frame {M : Nat} (hM : 787552 &&& M = 787552) (p l mode : Nat) (s : State) : (enterLoop p l mode s).hide M = s.hide M := by
  have key : (enterLoop p l mode s).hide 787552 = s.hide 787552 := by
    unfold enterLoop; simp
  exact State.hide_mono key hM

@[simp] theorem leaveLoop_frame {M : Nat} (hM : 804080 &&& M = 804080) (p l : Nat) (s : State) : (leaveLoop p l s).hide M = s.hide M := by
  have key : (leaveLoop p l s).hide 804080 = s.hide 804080 := by
    unfold leaveLoop; ((repeat' split) <;> simp)
  exact State.hide_mono key hM

@[simp] theorem marginPass_frame {M : Nat} (hM : 1024 &&& M = 1024) (p : Nat) (s : State) : (marginPass p s).hide M = s.hide M := by
  have key : (marginPass p s).hide 1024 = s.hide 1024 := by
    unfold marginPass; ((repeat' split) <;> (try dsimp only) <;> (repeat' split) <;> simp [State.hide_foldl, State.hide_foldl_snd])
  exact State.hide_mono key hM

@[simp] theorem migrationDone_frame {M : Nat} (hM : 25600 &&& M = 25600) (m : Nat) (s : State) : (migrationDone m s).hide M = s.hide M := by
  have key : (migrationDone m s).hide 25600 = s.hide 25600 := by
    unfold migrationDone; ((repeat' split) <;> (try dsimp only) <;> (repeat' split) <;> simp)
  exact State.hide_mono key hM

@[simp] theorem enterService_frame {M : Nat} (hM : 25696 &&& M = 25696) (p l : Nat) (s : State) : (enterService p l s).hide M = s.hide M := by
  have key : (enterService p l s).hide 25696 = s.hide 25696 := by
    unfold enterService; simp
  exact State.hide_mono key hM

@[simp] theorem enterReady_frame {M : Nat} (hM : 1024 &&& M = 1024) (p l : Nat) (s : State) : (enterReady p l s).hide M = s.hide M := by
  have key : (enterReady p l s).hide 1024 = s.hide 1024 := by
    unfold enterReady; simp
  exact State.hide_mono key hM

@[simp] theorem trainAdvance_frame {M : Nat} (hM : 25696 &&& M = 25696) (p l : Nat) (s : State) : (trainAdvance p l s).hide M = s.hide M := by
  have key : (trainAdvance p l s).hide 25696 = s.hide 25696 := by
    unfold trainAdvance; ((repeat' split) <;> (try dsimp only) <;> (repeat' split) <;> simp)
  exact State.hide_mono key hM

@[simp] theorem peerMismatch_frame {M : Nat} (hM : 25600 &&& M = 25600) (p l : Nat) (w : BitVec 64) (s : State) : (peerMismatch p l w s).hide M = s.hide M := by
  have key : (peerMismatch p l w s).hide 25600 = s.hide 25600 := by
    unfold peerMismatch; ((repeat' split) <;> (try dsimp only) <;> (repeat' split) <;> simp)
  exact State.hide_mono key hM

@[simp] theorem markerSeen_frame {M : Nat} (hM : 25600 &&& M = 25600) (p l : Nat) (w : BitVec 64) (s : State) : (markerSeen p l w s).2.hide M = s.hide M := by
  have key : (markerSeen p l w s).2.hide 25600 = s.hide 25600 := by
    unfold markerSeen; ((repeat' split) <;> (try dsimp only) <;> (repeat' split) <;> simp)
  exact State.hide_mono key hM

@[simp] theorem peerRejoins_frame {M : Nat} (hM : 64 &&& M = 64) (p l : Nat) (w1 : BitVec 64) (s : State) : (peerRejoins p l w1 s).hide M = s.hide M := by
  have key : (peerRejoins p l w1 s).hide 64 = s.hide 64 := by
    unfold peerRejoins; ((repeat' split) <;> (try dsimp only) <;> (repeat' split) <;> (first | ((repeat' split) <;> (first | (simp; done) | (simp only [Prod.ext_iff] at *; (casesm* _ ∧ _); subst_vars; simp; done) | (simp only [Prod.ext_iff, Option.some.injEq] at *; (casesm* _ ∧ _); subst_vars; simp; done) | (simp_all; done))) | (refine (State.hide_foldl (fun _ _ => ?_) _ _).trans ?_ <;> ((repeat' split) <;> (first | (simp; done) | (simp only [Prod.ext_iff] at *; (casesm* _ ∧ _); subst_vars; simp; done) | (simp only [Prod.ext_iff, Option.some.injEq] at *; (casesm* _ ∧ _); subst_vars; simp; done) | (simp_all; done)))) | (refine (State.hide_foldl_snd (fun _ _ => ?_) _ _).trans ?_ <;> ((repeat' split) <;> (first | (simp; done) | (simp only [Prod.ext_iff] at *; (casesm* _ ∧ _); subst_vars; simp; done) | (simp only [Prod.ext_iff, Option.some.injEq] at *; (casesm* _ ∧ _); subst_vars; simp; done) | (simp_all; done))))))
  exact State.hide_mono key hM

@[simp] theorem readyFails_frame {M : Nat} (hM : 1024 &&& M = 1024) (p l : Nat) (ok : Bool) (s : State) : (readyFails p l ok s).hide M = s.hide M := by
  have key : (readyFails p l ok s).hide 1024 = s.hide 1024 := by
    unfold readyFails; ((repeat' split) <;> simp)
  exact State.hide_mono key hM

@[simp] theorem trainReceive_frame {M : Nat} (hM : 25696 &&& M = 25696) (p l : Nat) (w0 w1 : BitVec 64) (s : State) : (trainReceive p l w0 w1 s).hide M = s.hide M := by
  have key : (trainReceive p l w0 w1 s).hide 25696 = s.hide 25696 := by
    unfold trainReceive; simp
  exact State.hide_mono key hM

@[simp] theorem markerReceive_frame {M : Nat} (hM : 812272 &&& M = 812272) (p l : Nat) (w0 w1 : BitVec 64) (s : State) : (markerReceive p l w0 w1 s).hide M = s.hide M := by
  have key : (markerReceive p l w0 w1 s).hide 812272 = s.hide 812272 := by
    unfold markerReceive; ((repeat' split) <;> (try dsimp only) <;> (repeat' split) <;> (first | (simp; done) | (simp only [Prod.ext_iff] at *; (casesm* _ ∧ _); subst_vars; simp; done) | (simp only [Prod.ext_iff, Option.some.injEq] at *; (casesm* _ ∧ _); subst_vars; simp; done) | (simp_all; done)))
  exact State.hide_mono key hM

@[simp] theorem marginJudge_frame {M : Nat} (hM : 812272 &&& M = 812272) (p l : Nat) (s : State) : (marginJudge p l s).hide M = s.hide M := by
  have key : (marginJudge p l s).hide 812272 = s.hide 812272 := by
    unfold marginJudge; ((repeat' split) <;> (try dsimp only) <;> (repeat' split) <;> simp)
  exact State.hide_mono key hM

@[simp] theorem marginResult_frame {M : Nat} (hM : 812272 &&& M = 812272) (p l margin status : Nat) (s : State) : (marginResult p l margin status s).hide M = s.hide M := by
  have key : (marginResult p l margin status s).hide 812272 = s.hide 812272 := by
    unfold marginResult; simp
  exact State.hide_mono key hM

@[simp] theorem marginRunWrite_frame {M : Nat} (hM : 9216 &&& M = 9216) (p mask : Nat) (s : State) : (marginRunWrite p mask s).hide M = s.hide M := by
  have key : (marginRunWrite p mask s).hide 9216 = s.hide 9216 := by
    unfold marginRunWrite; simp [State.hide_foldl, State.hide_foldl_snd]
  exact State.hide_mono key hM

@[simp] theorem laneAdmitWrite_frame {M : Nat} (hM : 25696 &&& M = 25696) (p mask : Nat) (s : State) : (laneAdmitWrite p mask s).hide M = s.hide M := by
  have key : (laneAdmitWrite p mask s).hide 25696 = s.hide 25696 := by
    unfold laneAdmitWrite; ((repeat' split) <;> (try dsimp only) <;> (repeat' split) <;> (first | ((repeat' split) <;> (first | (simp; done) | (simp only [Prod.ext_iff] at *; (casesm* _ ∧ _); subst_vars; simp; done) | (simp only [Prod.ext_iff, Option.some.injEq] at *; (casesm* _ ∧ _); subst_vars; simp; done) | (simp_all; done))) | (refine (State.hide_foldl (fun _ _ => ?_) _ _).trans ?_ <;> ((repeat' split) <;> (first | (simp; done) | (simp only [Prod.ext_iff] at *; (casesm* _ ∧ _); subst_vars; simp; done) | (simp only [Prod.ext_iff, Option.some.injEq] at *; (casesm* _ ∧ _); subst_vars; simp; done) | (simp_all; done)))) | (refine (State.hide_foldl_snd (fun _ _ => ?_) _ _).trans ?_ <;> ((repeat' split) <;> (first | (simp; done) | (simp only [Prod.ext_iff] at *; (casesm* _ ∧ _); subst_vars; simp; done) | (simp only [Prod.ext_iff, Option.some.injEq] at *; (casesm* _ ∧ _); subst_vars; simp; done) | (simp_all; done))))))
  exact State.hide_mono key hM

end Sys2Proof.Machine
end

