-- ==== Sys2Proof/Laws/Frames4.lean ====
section
/-! SUPPORT. The parts of the state that the shared operations leave unchanged, one lemma per operation, in the order of the
model's files: part 4 of 5. -/

set_option maxRecDepth 4000
set_option linter.all false

namespace Sys2Proof.Machine

@[simp] theorem lossLocate_frame {M : Nat} (hM : 549888 &&& M = 549888) (p l : Nat) (s : State) : (lossLocate p l s).hide M = s.hide M := by
  have key : (lossLocate p l s).hide 549888 = s.hide 549888 := by
    unfold lossLocate; ((repeat' split) <;> (try dsimp only) <;> (repeat' split) <;> simp)
  exact State.hide_mono key hM

@[simp] theorem meshFade_frame {M : Nat} (hM : 550436 &&& M = 550436) (m : Nat) (s : State) : (meshFade m s).hide M = s.hide M := by
  refine State.hide_mono (m := 550436) ?_ hM
  unfold meshFade
  dsimp only
  refine State.hide_foldl (fun s k => State.hide_foldl (fun s ab => ?_) _ _) _ _
  split
  · refine State.hide_foldl (fun s w => ?_) _ _
    split <;> simp
  · split
    · rfl
    · rw [meshCauses_frame (by decide), meshDegraded_frame (by decide)]
      exact State.hide_foldl (fun s c => State.hide_onOptics (by decide) ..) _ _

@[simp] theorem sendMigrate_frame {M : Nat} (hM : 1024 &&& M = 1024) (p l src dst : Nat) (s : State) : (sendMigrate p l src dst s).hide M = s.hide M := by
  have key : (sendMigrate p l src dst s).hide 1024 = s.hide 1024 := by
    unfold sendMigrate; simp
  exact State.hide_mono key hM

@[simp] theorem retuneTx_frame {M : Nat} (hM : 1024 &&& M = 1024) (p l dst : Nat) (st : LaneState) (s : State) : (retuneTx p l dst st s).hide M = s.hide M := by
  have key : (retuneTx p l dst st s).hide 1024 = s.hide 1024 := by
    unfold retuneTx; simp
  exact State.hide_mono key hM

@[simp] theorem migrateLane_frame {M : Nat} (hM : 1120 &&& M = 1120) (p l src dst : Nat) (s : State) : (migrateLane p l src dst s).hide M = s.hide M := by
  have key : (migrateLane p l src dst s).hide 1120 = s.hide 1120 := by
    unfold migrateLane; ((repeat' split) <;> (try dsimp only) <;> (repeat' split) <;> simp)
  exact State.hide_mono key hM

@[simp] theorem migrateStep_frame {M : Nat} (hM : 25696 &&& M = 25696) (m : Nat) (s : State) : (migrateStep m s).hide M = s.hide M := by
  refine State.hide_mono (m := 25696) ?_ hM
  unfold migrateStep
  split
  · rfl
  · dsimp only
    rw [migrationDone_frame (by decide)]
    refine State.hide_foldl (fun s i => ?_) _ _
    split <;> simp

@[simp] theorem startMigration_frame {M : Nat} (hM : 25696 &&& M = 25696) (m slot : Nat) (s : State) : (startMigration m slot s).hide M = s.hide M := by
  have key : (startMigration m slot s).hide 25696 = s.hide 25696 := by
    unfold startMigration; simp
  exact State.hide_mono key hM

@[simp] theorem noSpare_frame {M : Nat} (hM : 25600 &&& M = 25600) (m slot : Nat) (s : State) : (noSpare m slot s).hide M = s.hide M := by
  have key : (noSpare m slot s).hide 25600 = s.hide 25600 := by
    unfold noSpare; ((repeat' split) <;> (try dsimp only) <;> (repeat' split) <;> simp)
  exact State.hide_mono key hM

@[simp] theorem fadeWarn_frame {M : Nat} (hM : 25600 &&& M = 25600) (m : Nat) (s : State) : (fadeWarn m s).hide M = s.hide M := by
  have key : (fadeWarn m s).hide 25600 = s.hide 25600 := by
    unfold fadeWarn; ((repeat' split) <;> (try dsimp only) <;> (repeat' split) <;> (first | ((repeat' split) <;> (first | (simp; done) | (simp only [Prod.ext_iff] at *; (casesm* _ ∧ _); subst_vars; simp; done) | (simp only [Prod.ext_iff, Option.some.injEq] at *; (casesm* _ ∧ _); subst_vars; simp; done) | (simp_all; done))) | (refine (State.hide_foldl (fun _ _ => ?_) _ _).trans ?_ <;> ((repeat' split) <;> (first | (simp; done) | (simp only [Prod.ext_iff] at *; (casesm* _ ∧ _); subst_vars; simp; done) | (simp only [Prod.ext_iff, Option.some.injEq] at *; (casesm* _ ∧ _); subst_vars; simp; done) | (simp_all; done)))) | (refine (State.hide_foldl_snd (fun _ _ => ?_) _ _).trans ?_ <;> ((repeat' split) <;> (first | (simp; done) | (simp only [Prod.ext_iff] at *; (casesm* _ ∧ _); subst_vars; simp; done) | (simp only [Prod.ext_iff, Option.some.injEq] at *; (casesm* _ ∧ _); subst_vars; simp; done) | (simp_all; done))))))
  exact State.hide_mono key hM

@[simp] theorem migrationNeeded_frame {M : Nat} (hM : 25600 &&& M = 25600) (m slot : Nat) (s : State) : (migrationNeeded m slot s).hide M = s.hide M := by
  have key : (migrationNeeded m slot s).hide 25600 = s.hide 25600 := by
    unfold migrationNeeded; ((repeat' split) <;> (try dsimp only) <;> (repeat' split) <;> simp)
  exact State.hide_mono key hM

@[simp] theorem fadeCheck_frame {M : Nat} (hM : 25696 &&& M = 25696) (m : Nat) (s : State) : (fadeCheck m s).hide M = s.hide M := by
  refine State.hide_mono (m := 25696) ?_ hM
  unfold fadeCheck
  split
  · simp
  extract_lets s1 lines s2
  have h2 : s2.hide 25696 = s.hide 25696 := by simp [s2, s1]
  clear_value s2 lines
  split
  · exact h2
  split
  · exact (State.hide_foldl (fun s a => noSpare_frame (by decide) ..) _ _).trans h2
  split
  · exact (State.hide_foldl (fun s a => migrationNeeded_frame (by decide) ..) _ _).trans h2
  · rw [startMigration_frame (by decide)]
    exact (State.hide_foldl (fun s a => noSpare_frame (by decide) ..) _ _).trans h2

@[simp] theorem laneThresholds_frame {M : Nat} (hM : 25696 &&& M = 25696) (p l : Nat) (s : State) : (laneThresholds p l s).hide M = s.hide M := by
  refine State.hide_mono (m := 25696) ?_ hM
  unfold laneThresholds
  extract_lets x m slot u1
  split
  · rfl
  · rename_i e _
    extract_lets u2 u3 y
    have h1 : u1.hide 25696 = s.hide 25696 := by unfold u1; split <;> simp
    clear_value u1
    have h2 : u2.hide 25696 = s.hide 25696 := by
      unfold u2
      split
      · (repeat' split) <;> simp [h1]
      · split <;> simp
    have h3 : u3.hide 25696 = u2.hide 25696 := by unfold u3; split <;> simp
    have k := h3.trans h2
    clear_value u3
    split
    · simp [k]
    · split
      · simp [k]
      · exact k

@[simp] theorem tapLines_frame {M : Nat} (hM : 25604 &&& M = 25604) (m : Nat) (v : List Int) (s : State) : (tapLines m v s).hide M = s.hide M := by
  have key : (tapLines m v s).hide 25604 = s.hide 25604 := by
    unfold tapLines; ((repeat' split) <;> (try dsimp only) <;> (repeat' split) <;> simp)
  exact State.hide_mono key hM

@[simp] theorem monitorRefresh_frame {M : Nat} (hM : 814692 &&& M = 814692) (p : Nat) (s1 s1i s2 s3 : List Int) (s4 s5 : Int) (s6 : List Int) (taps : List (Nat × Int × Int)) (s : State) : (monitorRefresh p s1 s1i s2 s3 s4 s5 s6 taps s).hide M = s.hide M := by
  refine State.hide_mono (m := 814692) ?_ hM
  unfold monitorRefresh
  extract_lets m i t1 t2 t3 t4 t5
  have h1 : t1.hide 814692 = s.hide 814692 := by unfold t1; rw [tapLines_frame (by decide), tapLines_frame (by decide)]
  have h2 : t2.hide 814692 = t1.hide 814692 := by unfold t2; rw [onFPort_frame (by decide)]
  have h3 : t3.hide 814692 = t2.hide 814692 := State.hide_foldl (fun s l => onLane_frame (by decide) ..) _ _
  have h4 : t4.hide 814692 = t3.hide 814692 := State.hide_foldl (fun s x => by split <;> simp) _ _
  have h5 : t5.hide 814692 = t4.hide 814692 := State.hide_foldl (fun s l => by rw [leaveDone_frame (by decide), lossLocate_frame (by decide)]) _ _
  have k := h5.trans (h4.trans (h3.trans (h2.trans h1)))
  clear_value t5
  split
  · refine (State.hide_foldl (fun s i => laneThresholds_frame (by decide) ..) _ _).trans ?_
    rw [meshFade_frame (by decide), fadeCheck_frame (by decide), fadeCheck_frame (by decide), k]
  · exact k

@[simp] theorem laneMigrateWrite_frame {M : Nat} (hM : 25696 &&& M = 25696) (m slot : Nat) (s : State) : (laneMigrateWrite m slot s).hide M = s.hide M := by
  have key : (laneMigrateWrite m slot s).hide 25696 = s.hide 25696 := by
    unfold laneMigrateWrite; ((repeat' split) <;> simp)
  exact State.hide_mono key hM

@[simp] theorem laneRestoreWrite_frame {M : Nat} (hM : 25696 &&& M = 25696) (m slot : Nat) (s : State) : (laneRestoreWrite m slot s).hide M = s.hide M := by
  have key : (laneRestoreWrite m slot s).hide 25696 = s.hide 25696 := by
    unfold laneRestoreWrite; ((repeat' split) <;> simp)
  exact State.hide_mono key hM

@[simp] theorem reportReceive_frame {M : Nat} (hM : 549984 &&& M = 549984) (p l : Nat) (arg : BitVec 64) (s : State) : (reportReceive p l arg s).hide M = s.hide M := by
  have key : (reportReceive p l arg s).hide 549984 = s.hide 549984 := by
    unfold reportReceive; simp
  exact State.hide_mono key hM

@[simp] theorem migrateReceive_frame {M : Nat} (hM : 804080 &&& M = 804080) (p l dst : Nat) (s : State) : (migrateReceive p l dst s).hide M = s.hide M := by
  have key : (migrateReceive p l dst s).hide 804080 = s.hide 804080 := by
    unfold migrateReceive; simp
  exact State.hide_mono key hM

@[simp] theorem marginStartReceive_frame {M : Nat} (hM : 1024 &&& M = 1024) (p : Nat) (arg : BitVec 64) (s : State) : (marginStartReceive p arg s).hide M = s.hide M := by
  have key : (marginStartReceive p arg s).hide 1024 = s.hide 1024 := by
    unfold marginStartReceive; ((repeat' split) <;> (try dsimp only) <;> (repeat' split) <;> (first | ((repeat' split) <;> (first | (simp; done) | (simp only [Prod.ext_iff] at *; (casesm* _ ∧ _); subst_vars; simp; done) | (simp only [Prod.ext_iff, Option.some.injEq] at *; (casesm* _ ∧ _); subst_vars; simp; done) | (simp_all; done))) | (refine (State.hide_foldl (fun _ _ => ?_) _ _).trans ?_ <;> ((repeat' split) <;> (first | (simp; done) | (simp only [Prod.ext_iff] at *; (casesm* _ ∧ _); subst_vars; simp; done) | (simp only [Prod.ext_iff, Option.some.injEq] at *; (casesm* _ ∧ _); subst_vars; simp; done) | (simp_all; done)))) | (refine (State.hide_foldl_snd (fun _ _ => ?_) _ _).trans ?_ <;> ((repeat' split) <;> (first | (simp; done) | (simp only [Prod.ext_iff] at *; (casesm* _ ∧ _); subst_vars; simp; done) | (simp only [Prod.ext_iff, Option.some.injEq] at *; (casesm* _ ∧ _); subst_vars; simp; done) | (simp_all; done))))))
  exact State.hide_mono key hM

@[simp] theorem lcmAct_frame {M : Nat} (hM : 812272 &&& M = 812272) (p msg lane slot2 : Nat) (arg : BitVec 64) (s : State) : (lcmAct p msg lane slot2 arg s).2.hide M = s.hide M := by
  have key : (lcmAct p msg lane slot2 arg s).2.hide 812272 = s.hide 812272 := by
    unfold lcmAct; ((repeat' split) <;> (try dsimp only) <;> (repeat' split) <;> simp)
  exact State.hide_mono key hM

@[simp] theorem ackReceive_frame {M : Nat} (hM : 27648 &&& M = 27648) (p : Nat) (arg : BitVec 64) (s : State) : (ackReceive p arg s).hide M = s.hide M := by
  have key : (ackReceive p arg s).hide 27648 = s.hide 27648 := by
    unfold ackReceive; ((repeat' split) <;> (try dsimp only) <;> (repeat' split) <;> (first | ((repeat' split) <;> (first | (simp; done) | (simp only [Prod.ext_iff] at *; (casesm* _ ∧ _); subst_vars; simp; done) | (simp only [Prod.ext_iff, Option.some.injEq] at *; (casesm* _ ∧ _); subst_vars; simp; done) | (simp_all; done))) | (refine (State.hide_foldl (fun _ _ => ?_) _ _).trans ?_ <;> ((repeat' split) <;> (first | (simp; done) | (simp only [Prod.ext_iff] at *; (casesm* _ ∧ _); subst_vars; simp; done) | (simp only [Prod.ext_iff, Option.some.injEq] at *; (casesm* _ ∧ _); subst_vars; simp; done) | (simp_all; done)))) | (refine (State.hide_foldl_snd (fun _ _ => ?_) _ _).trans ?_ <;> ((repeat' split) <;> (first | (simp; done) | (simp only [Prod.ext_iff] at *; (casesm* _ ∧ _); subst_vars; simp; done) | (simp only [Prod.ext_iff, Option.some.injEq] at *; (casesm* _ ∧ _); subst_vars; simp; done) | (simp_all; done))))))
  exact State.hide_mono key hM

@[simp] theorem lcmReceive_frame {M : Nat} (hM : 814320 &&& M = 814320) (p on : Nat) (w0 w1 : BitVec 64) (s : State) : (lcmReceive p on w0 w1 s).hide M = s.hide M := by
  have key : (lcmReceive p on w0 w1 s).hide 814320 = s.hide 814320 := by
    unfold lcmReceive; ((repeat' split) <;> (try dsimp only) <;> (repeat' split) <;> simp)
  exact State.hide_mono key hM

@[simp] theorem lcbReceive_frame {M : Nat} (hM : 814320 &&& M = 814320) (p l : Nat) (b : Lcb) (s : State) : (lcbReceive p l b s).hide M = s.hide M := by
  have key : (lcbReceive p l b s).hide 814320 = s.hide 814320 := by
    unfold lcbReceive; ((repeat' split) <;> simp)
  exact State.hide_mono key hM

@[simp] theorem loopModeWrite_frame {M : Nat} (hM : 943344 &&& M = 943344) (p mode : Nat) (s : State) : (loopModeWrite p mode s).hide M = s.hide M := by
  refine State.hide_mono (m := 943344) ?_ hM
  unfold loopModeWrite
  extract_lets named lanes old s1 s2 s3
  split
  · simp
  · split
    · simp
    · have h1 : s1.hide 943344 = s.hide 943344 := by unfold s1; simp
      have h2 : s2.hide 943344 = s1.hide 943344 := by
        unfold s2
        refine State.hide_foldl (fun s i => ?_) _ _
        split
        · rw [leaveLoop_frame (by decide)]; split <;> simp
        · rfl
      have h3 : s3.hide 943344 = s2.hide 943344 := by unfold s3; simp
      clear_value s1 s2 s3
      split
      · exact h3.trans (h2.trans h1)
      · refine (State.hide_foldl (fun s i => ?_) _ _).trans (h3.trans (h2.trans h1))
        split <;> simp

@[simp] theorem elsPoll_frame {M : Nat} (hM : 25700 &&& M = 25700) (m : Nat) (powers : List Int) (flags : Nat) (s : State) : (elsPoll m powers flags s).hide M = s.hide M := by
  have key : (elsPoll m powers flags s).hide 25700 = s.hide 25700 := by
    unfold elsPoll; ((repeat' split) <;> (try dsimp only) <;> (repeat' split) <;> simp)
  exact State.hide_mono key hM

@[simp] theorem modeWrite_frame {M : Nat} (hM : 139264 &&& M = 139264) (sub v : Nat) (act : State → State)
    (hk : ∀ s, (act s).hide M = s.hide M) (s : State) : (modeWrite sub v act s).hide M = s.hide M := by
  have h1 : 8192 &&& M = 8192 := by
    have := congrArg (8192 &&& ·) hM; simpa [← Nat.land_assoc] using this
  have h2 : 131072 &&& M = 131072 := by
    have := congrArg (131072 &&& ·) hM; simpa [← Nat.land_assoc] using this
  unfold modeWrite; (repeat' split) <;> (try dsimp only) <;> (repeat' split) <;> simp [h1, h2, hk]

@[simp] theorem releaseRings_frame {M : Nat} (hM : 1024 &&& M = 1024) (s : State) : (releaseRings s).hide M = s.hide M := by
  have key : (releaseRings s).hide 1024 = s.hide 1024 := by
    unfold releaseRings; simp
  exact State.hide_mono key hM

@[simp] theorem releaseMigrations_frame {M : Nat} (hM : 25696 &&& M = 25696) (s : State) : (releaseMigrations s).hide M = s.hide M := by
  have key : (releaseMigrations s).hide 25696 = s.hide 25696 := by
    unfold releaseMigrations; ((repeat' split) <;> (try dsimp only) <;> (repeat' split) <;> (first | ((repeat' split) <;> (first | (simp; done) | (simp only [Prod.ext_iff] at *; (casesm* _ ∧ _); subst_vars; simp; done) | (simp only [Prod.ext_iff, Option.some.injEq] at *; (casesm* _ ∧ _); subst_vars; simp; done) | (simp_all; done))) | (refine (State.hide_foldl (fun _ _ => ?_) _ _).trans ?_ <;> ((repeat' split) <;> (first | (simp; done) | (simp only [Prod.ext_iff] at *; (casesm* _ ∧ _); subst_vars; simp; done) | (simp only [Prod.ext_iff, Option.some.injEq] at *; (casesm* _ ∧ _); subst_vars; simp; done) | (simp_all; done)))) | (refine (State.hide_foldl_snd (fun _ _ => ?_) _ _).trans ?_ <;> ((repeat' split) <;> (first | (simp; done) | (simp only [Prod.ext_iff] at *; (casesm* _ ∧ _); subst_vars; simp; done) | (simp only [Prod.ext_iff, Option.some.injEq] at *; (casesm* _ ∧ _); subst_vars; simp; done) | (simp_all; done))))))
  exact State.hide_mono key hM

@[simp] theorem releaseLanes_frame {M : Nat} (hM : 1024 &&& M = 1024) (s : State) : (releaseLanes s).hide M = s.hide M := by
  have key : (releaseLanes s).hide 1024 = s.hide 1024 := by
    unfold releaseLanes; ((repeat' split) <;> (try dsimp only) <;> (repeat' split) <;> (first | simp | (refine (State.hide_foldl (fun _ _ => ?_) _ _).trans ?_ <;> simp) | (refine (State.hide_foldl_snd (fun _ _ => ?_) _ _).trans ?_ <;> simp)))
  exact State.hide_mono key hM

@[simp] theorem modesToHardware_frame {M : Nat} (hM : 714740 &&& M = 714740) (s : State) : (modesToHardware s).hide M = s.hide M := by
  have key : (modesToHardware s).hide 714740 = s.hide 714740 := by
    unfold modesToHardware; simp
  exact State.hide_mono key hM

@[simp] theorem onEp_frame {M : Nat} (hM : 4096 &&& M = 4096) (n : Nat) (f : EPort → EPort) (s : State) : (onEp n f s).hide M = s.hide M := by
  have key : (onEp n f s).hide 4096 = s.hide 4096 := by
    unfold onEp; simp
  exact State.hide_mono key hM

@[simp] theorem bringUp_frame {M : Nat} (hM : 4096 &&& M = 4096) (n : Nat) (which : List Nat) (s : State) : (bringUp n which s).hide M = s.hide M := by
  have key : (bringUp n which s).hide 4096 = s.hide 4096 := by
    unfold bringUp; simp
  exact State.hide_mono key hM

@[simp] theorem memberGoesDown_frame {M : Nat} (hM : 807152 &&& M = 807152) (n m : Nat) (s : State) : (memberGoesDown n m s).hide M = s.hide M := by
  have key : (memberGoesDown n m s).hide 807152 = s.hide 807152 := by
    unfold memberGoesDown; ((repeat' split) <;> (try dsimp only) <;> (repeat' split) <;> simp)
  exact State.hide_mono key hM

@[simp] theorem portDown_frame {M : Nat} (hM : 807152 &&& M = 807152) (n : Nat) (s : State) : (portDown n s).hide M = s.hide M := by
  have key : (portDown n s).hide 807152 = s.hide 807152 := by
    unfold portDown; ((repeat' split) <;> (try dsimp only) <;> (repeat' split) <;> (first | ((repeat' split) <;> (first | (simp; done) | (simp only [Prod.ext_iff] at *; (casesm* _ ∧ _); subst_vars; simp; done) | (simp only [Prod.ext_iff, Option.some.injEq] at *; (casesm* _ ∧ _); subst_vars; simp; done) | (simp_all; done))) | (refine (State.hide_foldl (fun _ _ => ?_) _ _).trans ?_ <;> ((repeat' split) <;> (first | (simp; done) | (simp only [Prod.ext_iff] at *; (casesm* _ ∧ _); subst_vars; simp; done) | (simp only [Prod.ext_iff, Option.some.injEq] at *; (casesm* _ ∧ _); subst_vars; simp; done) | (simp_all; done)))) | (refine (State.hide_foldl_snd (fun _ _ => ?_) _ _).trans ?_ <;> ((repeat' split) <;> (first | (simp; done) | (simp only [Prod.ext_iff] at *; (casesm* _ ∧ _); subst_vars; simp; done) | (simp only [Prod.ext_iff, Option.some.injEq] at *; (casesm* _ ∧ _); subst_vars; simp; done) | (simp_all; done))))))
  exact State.hide_mono key hM

@[simp] theorem epRefresh_frame {M : Nat} (hM : 807152 &&& M = 807152) (n : Nat) (s : State) : (epRefresh n s).hide M = s.hide M := by
  have key : (epRefresh n s).hide 807152 = s.hide 807152 := by
    unfold epRefresh; ((repeat' split) <;> simp)
  exact State.hide_mono key hM

@[simp] theorem moduleSettle_frame {M : Nat} (hM : 807152 &&& M = 807152) (n : Nat) (s : State) : (moduleSettle n s).hide M = s.hide M := by
  have key : (moduleSettle n s).hide 807152 = s.hide 807152 := by
    unfold moduleSettle; simp
  exact State.hide_mono key hM

@[simp] theorem epEnableWrite_frame {M : Nat} (hM : 946416 &&& M = 946416) (n v : Nat) (s : State) : (epEnableWrite n v s).hide M = s.hide M := by
  have key : (epEnableWrite n v s).hide 946416 = s.hide 946416 := by
    unfold epEnableWrite; ((repeat' split) <;> (try dsimp only) <;> (repeat' split) <;> simp)
  exact State.hide_mono key hM

@[simp] theorem applyMode_frame {M : Nat} (hM : 807152 &&& M = 807152) (n v : Nat) (s : State) : (applyMode n v s).hide M = s.hide M := by
  have key : (applyMode n v s).hide 807152 = s.hide 807152 := by
    unfold applyMode; simp
  exact State.hide_mono key hM

@[simp] theorem epModeWrite_frame {M : Nat} (hM : 946416 &&& M = 946416) (n : Nat) (media : Bool) (v : Nat) (s : State) : (epModeWrite n media v s).hide M = s.hide M := by
  have key : (epModeWrite n media v s).hide 946416 = s.hide 946416 := by
    unfold epModeWrite; ((repeat' split) <;> (try dsimp only) <;> (repeat' split) <;> simp)
  exact State.hide_mono key hM

@[simp] theorem askTap_frame {M : Nat} (hM : 786432 &&& M = 786432) (n lane : Nat) (s : State) : (askTap n lane s).hide M = s.hide M := by
  have key : (askTap n lane s).hide 786432 = s.hide 786432 := by
    unfold askTap; ((repeat' split) <;> (first | (simp; done) | (simp only [Prod.ext_iff] at *; (casesm* _ ∧ _); subst_vars; simp; done) | (simp only [Prod.ext_iff, Option.some.injEq] at *; (casesm* _ ∧ _); subst_vars; simp; done) | (simp_all; done)))
  exact State.hide_mono key hM

@[simp] theorem linkTraining_frame {M : Nat} (hM : 790528 &&& M = 790528) (n lane : Nat) (tap change : Int) (peerReady : Bool) (gain : Nat) (s : State) : (linkTraining n lane tap change peerReady gain s).hide M = s.hide M := by
  have key : (linkTraining n lane tap change peerReady gain s).hide 790528 = s.hide 790528 := by
    unfold linkTraining; ((repeat' split) <;> (try dsimp only) <;> (repeat' split) <;> simp)
  exact State.hide_mono key hM

@[simp] theorem loopCounts_frame {M : Nat} (hM : 528384 &&& M = 528384) (n : Nat) (s : State) : (loopCounts n s).hide M = s.hide M := by
  have key : (loopCounts n s).hide 528384 = s.hide 528384 := by
    unfold loopCounts; ((repeat' split) <;> (try dsimp only) <;> (repeat' split) <;> (first | simp | (refine (State.hide_foldl (fun _ _ => ?_) _ _).trans ?_ <;> simp) | (refine (State.hide_foldl_snd (fun _ _ => ?_) _ _).trans ?_ <;> simp)))
  exact State.hide_mono key hM

@[simp] theorem epLoopWrite_frame {M : Nat} (hM : 946416 &&& M = 946416) (n v : Nat) (s : State) : (epLoopWrite n v s).hide M = s.hide M := by
  have key : (epLoopWrite n v s).hide 946416 = s.hide 946416 := by
    unfold epLoopWrite; ((repeat' split) <;> (try dsimp only) <;> (repeat' split) <;> (first | simp | (refine (State.hide_foldl (fun _ _ => ?_) _ _).trans ?_ <;> simp) | (refine (State.hide_foldl_snd (fun _ _ => ?_) _ _).trans ?_ <;> simp)))
  exact State.hide_mono key hM

@[simp] theorem eqSettle_frame {M : Nat} (hM : 528384 &&& M = 528384) (n l : Nat) (s : State) : (eqSettle n l s).hide M = s.hide M := by
  have key : (eqSettle n l s).hide 528384 = s.hide 528384 := by
    unfold eqSettle; ((repeat' split) <;> (try dsimp only) <;> (repeat' split) <;> (first | ((repeat' split) <;> (first | (simp; done) | (simp only [Prod.ext_iff] at *; (casesm* _ ∧ _); subst_vars; simp; done) | (simp only [Prod.ext_iff, Option.some.injEq] at *; (casesm* _ ∧ _); subst_vars; simp; done) | (simp_all; done))) | (refine (State.hide_foldl (fun _ _ => ?_) _ _).trans ?_ <;> ((repeat' split) <;> (first | (simp; done) | (simp only [Prod.ext_iff] at *; (casesm* _ ∧ _); subst_vars; simp; done) | (simp only [Prod.ext_iff, Option.some.injEq] at *; (casesm* _ ∧ _); subst_vars; simp; done) | (simp_all; done)))) | (refine (State.hide_foldl_snd (fun _ _ => ?_) _ _).trans ?_ <;> ((repeat' split) <;> (first | (simp; done) | (simp only [Prod.ext_iff] at *; (casesm* _ ∧ _); subst_vars; simp; done) | (simp only [Prod.ext_iff, Option.some.injEq] at *; (casesm* _ ∧ _); subst_vars; simp; done) | (simp_all; done))))))
  exact State.hide_mono key hM

@[simp] theorem eqFreezeWrite_frame {M : Nat} (hM : 536576 &&& M = 536576) (n v : Nat) (s : State) : (eqFreezeWrite n v s).hide M = s.hide M := by
  have key : (eqFreezeWrite n v s).hide 536576 = s.hide 536576 := by
    unfold eqFreezeWrite; ((repeat' split) <;> (try dsimp only) <;> (repeat' split) <;> (first | ((repeat' split) <;> (first | (simp; done) | (simp only [Prod.ext_iff] at *; (casesm* _ ∧ _); subst_vars; simp; done) | (simp only [Prod.ext_iff, Option.some.injEq] at *; (casesm* _ ∧ _); subst_vars; simp; done) | (simp_all; done))) | (refine (State.hide_foldl (fun _ _ => ?_) _ _).trans ?_ <;> ((repeat' split) <;> (first | (simp; done) | (simp only [Prod.ext_iff] at *; (casesm* _ ∧ _); subst_vars; simp; done) | (simp only [Prod.ext_iff, Option.some.injEq] at *; (casesm* _ ∧ _); subst_vars; simp; done) | (simp_all; done)))) | (refine (State.hide_foldl_snd (fun _ _ => ?_) _ _).trans ?_ <;> ((repeat' split) <;> (first | (simp; done) | (simp only [Prod.ext_iff] at *; (casesm* _ ∧ _); subst_vars; simp; done) | (simp only [Prod.ext_iff, Option.some.injEq] at *; (casesm* _ ∧ _); subst_vars; simp; done) | (simp_all; done))))))
  exact State.hide_mono key hM

@[simp] theorem readIdentity_frame {M : Nat} (hM : 528384 &&& M = 528384) (n : Nat) (s : State) : (readIdentity n s).hide M = s.hide M := by
  have key : (readIdentity n s).hide 528384 = s.hide 528384 := by
    unfold readIdentity; simp
  exact State.hide_mono key hM

@[simp] theorem pendingWrites_frame {M : Nat} (hM : 807152 &&& M = 807152) (n : Nat) (s : State) : (pendingWrites n s).hide M = s.hide M := by
  have key : (pendingWrites n s).hide 807152 = s.hide 807152 := by
    unfold pendingWrites; ((repeat' split) <;> (try dsimp only) <;> (repeat' split) <;> simp)
  exact State.hide_mono key hM

@[simp] theorem moduleEnds_frame {M : Nat} (hM : 815344 &&& M = 815344) (n st : Nat) (s : State) : (moduleEnds n st s).hide M = s.hide M := by
  have key : (moduleEnds n st s).hide 815344 = s.hide 815344 := by
    unfold moduleEnds; ((repeat' split) <;> simp)
  exact State.hide_mono key hM

@[simp] theorem mpBudget_frame {M : Nat} (hM : 4096 &&& M = 4096) (mp : Nat) (s : State) : (mpBudget mp s).2.hide M = s.hide M := by
  have key : (mpBudget mp s).2.hide 4096 = s.hide 4096 := by
    unfold mpBudget; ((repeat' split) <;> (try dsimp only) <;> (repeat' split) <;> simp)
  exact State.hide_mono key hM

@[simp] theorem mpTake_frame {M : Nat} (hM : 20480 &&& M = 20480) (mp : Nat) (f : State → State)
    (hf : ∀ s, (f s).hide M = s.hide M) (s : State) : (mpTake mp f s).hide M = s.hide M := by
  have h1 : 4096 &&& M = 4096 := by
    have := congrArg (4096 &&& ·) hM; simpa [← Nat.land_assoc] using this
  have h2 : 16384 &&& M = 16384 := by
    have := congrArg (16384 &&& ·) hM; simpa [← Nat.land_assoc] using this
  unfold mpTake
  have h := mpBudget_frame h1 mp s
  dsimp only
  split <;> simp [h1, h2, hf]

@[simp] theorem sendBop_frame {M : Nat} (hM : 262144 &&& M = 262144) (mp source : Nat) (d : Bytes) (s : State) : (sendBop mp source d s).hide M = s.hide M := by
  have key : (sendBop mp source d s).hide 262144 = s.hide 262144 := by
    unfold sendBop; simp
  exact State.hide_mono key hM

@[simp] theorem mpStart_frame {M : Nat} (hM : 4096 &&& M = 4096) (s : State) : (mpStart s).hide M = s.hide M := by
  have key : (mpStart s).hide 4096 = s.hide 4096 := by
    unfold mpStart; simp
  exact State.hide_mono key hM

@[simp] theorem regionResult_frame {M : Nat} (hM : 8704 &&& M = 8704) (h st dies : Nat) (s : State) : (regionResult h st dies s).hide M = s.hide M := by
  have key : (regionResult h st dies s).hide 8704 = s.hide 8704 := by
    unfold regionResult; simp
  exact State.hide_mono key hM

@[simp] theorem regionCreate_frame {M : Nat} (hM : 8704 &&& M = 8704) (b : Bytes) (s : State) : (regionCreate b s).hide M = s.hide M := by
  have key : (regionCreate b s).hide 8704 = s.hide 8704 := by
    unfold regionCreate; ((repeat' split) <;> (try dsimp only) <;> (repeat' split) <;> simp)
  exact State.hide_mono key hM

@[simp] theorem zeroPart_frame {M : Nat} (hM : 98304 &&& M = 98304) (r : Region) (die copy : Nat) (s : State) : (zeroPart r die copy s).hide M = s.hide M := by
  have key : (zeroPart r die copy s).hide 98304 = s.hide 98304 := by
    unfold zeroPart; ((repeat' split) <;> (try dsimp only) <;> (repeat' split) <;> simp)
  exact State.hide_mono key hM

@[simp] theorem zeroMeta_frame {M : Nat} (hM : 98816 &&& M = 98816) (h : Nat) (r : Region) (s : State) : (zeroMeta h r s).hide M = s.hide M := by
  have key : (zeroMeta h r s).hide 98816 = s.hide 98816 := by
    unfold zeroMeta; ((repeat' split) <;> (try dsimp only) <;> (repeat' split) <;> (first | ((repeat' split) <;> (first | (simp; done) | (simp only [Prod.ext_iff] at *; (casesm* _ ∧ _); subst_vars; simp; done) | (simp only [Prod.ext_iff, Option.some.injEq] at *; (casesm* _ ∧ _); subst_vars; simp; done) | (simp_all; done))) | (refine (State.hide_foldl (fun _ _ => ?_) _ _).trans ?_ <;> ((repeat' split) <;> (first | (simp; done) | (simp only [Prod.ext_iff] at *; (casesm* _ ∧ _); subst_vars; simp; done) | (simp only [Prod.ext_iff, Option.some.injEq] at *; (casesm* _ ∧ _); subst_vars; simp; done) | (simp_all; done)))) | (refine (State.hide_foldl_snd (fun _ _ => ?_) _ _).trans ?_ <;> ((repeat' split) <;> (first | (simp; done) | (simp only [Prod.ext_iff] at *; (casesm* _ ∧ _); subst_vars; simp; done) | (simp only [Prod.ext_iff, Option.some.injEq] at *; (casesm* _ ∧ _); subst_vars; simp; done) | (simp_all; done))))))
  exact State.hide_mono key hM

@[simp] theorem regionReady_frame {M : Nat} (hM : 123392 &&& M = 123392) (h : Nat) (s : State) : (regionReady h s).hide M = s.hide M := by
  have key : (regionReady h s).hide 123392 = s.hide 123392 := by
    unfold regionReady; ((repeat' split) <;> (try dsimp only) <;> (repeat' split) <;> simp [State.hide_foldl, State.hide_foldl_snd])
  exact State.hide_mono key hM

@[simp] theorem regionDelete_frame {M : Nat} (hM : 8704 &&& M = 8704) (h : Nat) (s : State) : (regionDelete h s).hide M = s.hide M := by
  have key : (regionDelete h s).hide 8704 = s.hide 8704 := by
    unfold regionDelete; ((repeat' split) <;> simp)
  exact State.hide_mono key hM

@[simp] theorem regionControlData_frame {M : Nat} (hM : 106496 &&& M = 106496) (h : Nat) (data : Bytes) (s : State) : (regionControlData h data s).hide M = s.hide M := by
  have key : (regionControlData h data s).hide 106496 = s.hide 106496 := by
    unfold regionControlData; ((repeat' split) <;> (try dsimp only) <;> (repeat' split) <;> (first | ((repeat' split) <;> (first | (simp; done) | (simp only [Prod.ext_iff] at *; (casesm* _ ∧ _); subst_vars; simp; done) | (simp only [Prod.ext_iff, Option.some.injEq] at *; (casesm* _ ∧ _); subst_vars; simp; done) | (simp_all; done))) | (refine (State.hide_foldl (fun _ _ => ?_) _ _).trans ?_ <;> ((repeat' split) <;> (first | (simp; done) | (simp only [Prod.ext_iff] at *; (casesm* _ ∧ _); subst_vars; simp; done) | (simp only [Prod.ext_iff, Option.some.injEq] at *; (casesm* _ ∧ _); subst_vars; simp; done) | (simp_all; done)))) | (refine (State.hide_foldl_snd (fun _ _ => ?_) _ _).trans ?_ <;> ((repeat' split) <;> (first | (simp; done) | (simp only [Prod.ext_iff] at *; (casesm* _ ∧ _); subst_vars; simp; done) | (simp only [Prod.ext_iff, Option.some.injEq] at *; (casesm* _ ∧ _); subst_vars; simp; done) | (simp_all; done))))))
  exact State.hide_mono key hM

@[simp] theorem updateLockGrant_frame {M : Nat} (hM : 512 &&& M = 512) (key : Nat) (s : State) : (updateLockGrant key s).hide M = s.hide M := by
  have key : (updateLockGrant key s).hide 512 = s.hide 512 := by
    unfold updateLockGrant; ((repeat' split) <;> simp)
  exact State.hide_mono key hM

@[simp] theorem sendMirror_frame {M : Nat} (hM : 512 &&& M = 512) (die : Nat) (m : List MirrorMsg) (s : State) : (sendMirror die m s).hide M = s.hide M := by
  have key : (sendMirror die m s).hide 512 = s.hide 512 := by
    unfold sendMirror; simp
  exact State.hide_mono key hM

@[simp] theorem mirrorWordReceive_frame {M : Nat} (hM : 98816 &&& M = 98816) (die : Nat) (s : State) : (mirrorWordReceive die s).hide M = s.hide M := by
  refine State.hide_mono (m := 98816) ?_ hM
  unfold mirrorWordReceive
  split
  · rename_i e
    have h1 := takeMirror_frame (M := 98816) (by decide) e
    split
    · dsimp only; simpa using h1
    · exact h1
  · rfl

@[simp] theorem mirrorCommitReceive_frame {M : Nat} (hM : 98816 &&& M = 98816) (die : Nat) (s : State) : (mirrorCommitReceive die s).hide M = s.hide M := by
  refine State.hide_mono (m := 98816) ?_ hM
  unfold mirrorCommitReceive
  split
  · rename_i e
    have h1 := takeMirror_frame (M := 98816) (by decide) e
    split
    · dsimp only; split <;> simpa using h1
    · exact h1
  · rfl

@[simp] theorem mirrorAck_frame {M : Nat} (hM : 115200 &&& M = 115200) (die : Nat) (s : State) : (mirrorAck die s).hide M = s.hide M := by
  refine State.hide_mono (m := 115200) ?_ hM
  unfold mirrorAck
  split
  · rename_i e
    have h1 := takeMirror_frame (M := 115200) (by decide) e
    split
    · dsimp only; split <;> simpa using h1
    · exact h1
  · rfl

@[simp] theorem copyOver_frame {M : Nat} (hM : 98816 &&& M = 98816) (h : Nat) (r : Region) (b src : Nat) (m : Meta) (s : State) : (copyOver h r b src m s).hide M = s.hide M := by
  have key : (copyOver h r b src m s).hide 98816 = s.hide 98816 := by
    unfold copyOver; simp
  exact State.hide_mono key hM

@[simp] theorem compareCopies_frame {M : Nat} (hM : 123392 &&& M = 123392) (h : Nat) (r : Region) (b : Nat) (pv mv : Bool) (s : State) : (compareCopies h r b pv mv s).hide M = s.hide M := by
  have key : (compareCopies h r b pv mv s).hide 123392 = s.hide 123392 := by
    unfold compareCopies; ((repeat' split) <;> (try dsimp only) <;> (repeat' split) <;> simp)
  exact State.hide_mono key hM

@[simp] theorem mirrorAuditBlock_frame {M : Nat} (hM : 123392 &&& M = 123392) (h b : Nat) (primaryReads mirrorReads : Bool) (s : State) : (mirrorAuditBlock h b primaryReads mirrorReads s).hide M = s.hide M := by
  have key : (mirrorAuditBlock h b primaryReads mirrorReads s).hide 123392 = s.hide 123392 := by
    unfold mirrorAuditBlock; ((repeat' split) <;> simp)
  exact State.hide_mono key hM

@[simp] theorem mirrorResolve_frame {M : Nat} (hM : 107008 &&& M = 107008) (h b src : Nat) (s : State) : (mirrorResolve h b src s).hide M = s.hide M := by
  have key : (mirrorResolve h b src s).hide 107008 = s.hide 107008 := by
    unfold mirrorResolve; ((repeat' split) <;> (try dsimp only) <;> (repeat' split) <;> simp)
  exact State.hide_mono key hM

@[simp] theorem exportStart_frame {M : Nat} (hM : 8704 &&& M = 8704) (h first n dest cls : Nat) (s : State) : (exportStart h first n dest cls s).hide M = s.hide M := by
  have key : (exportStart h first n dest cls s).hide 8704 = s.hide 8704 := by
    unfold exportStart; ((repeat' split) <;> simp)
  exact State.hide_mono key hM

@[simp] theorem exportRead_frame {M : Nat} (hM : 114688 &&& M = 114688) (h : Nat) (r : Region) (b : Nat) (bad : Option Nat) (s : State) : (exportRead h r b bad s).2.2.hide M = s.hide M := by
  refine State.hide_mono (m := 114688) ?_ hM
  unfold exportRead
  dsimp only
  split
  · rfl
  · have k : ∀ (l : List Nat) (y : Bool × State), (l.foldl (exportWord h r b bad) y).2.hide 114688 = y.2.hide 114688 := by
      intro l
      induction l with
      | nil => intro y; rfl
      | cons a l ih => intro y; exact (ih _).trans (by
          have q : ∀ w, (if bad == some a then fallback w y.2 else readWord w y.2).2.hide 114688 = y.2.hide 114688 := by
            intro w; split <;> simp
          unfold exportWord
          dsimp only
          split <;> (rename_i e; exact (congrArg (fun z => z.2.hide 114688) e).symm.trans (q _)))
    dsimp only
    split
    · rw [count_frame (by decide), k]
    · rw [k]

@[simp] theorem exportBlock_frame {M : Nat} (hM : 639520 &&& M = 639520) (die : Nat) (bad : Option Nat) (s : State) : (exportBlock die bad s).hide M = s.hide M := by
  refine State.hide_mono (m := 639520) ?_ hM
  unfold exportBlock
  split
  · rfl
  · split
    · rfl
    · rename_i h first n dest cls _ _ r _
      extract_lets from_ t
      have h1 : t.hide 639520 = s.hide 639520 := by
        unfold t
        split
        · rfl
        · split
          · rfl
          · rename_i b _ _
            have h2 := exportRead_frame (M := 639520) (by decide) h r b bad s
            revert h2
            rcases exportRead h r b bad s with ⟨d, ecc, u⟩
            intro h2
            dsimp only at h2 ⊢
            rw [State.hide_onResident (by decide)]
            refine (State.hide_foldl (fun s p => sendDatagram_frame (by decide) ..) _ _).trans h2
      clear_value t
      split
      · rw [State.hide_onResident (by decide), h1]
      · exact h1

@[simp] theorem importOpen_frame {M : Nat} (hM : 8704 &&& M = 8704) (h : Nat) (s : State) : (importOpen h s).hide M = s.hide M := by
  have key : (importOpen h s).hide 8704 = s.hide 8704 := by
    unfold importOpen; ((repeat' split) <;> simp)
  exact State.hide_mono key hM

@[simp] theorem regionLoses_frame {M : Nat} (hM : 512 &&& M = 512) (d h : Nat) (s : State) : (regionLoses d h s).hide M = s.hide M := by
  have key : (regionLoses d h s).hide 512 = s.hide 512 := by
    unfold regionLoses; ((repeat' split) <;> (try dsimp only) <;> (repeat' split) <;> simp)
  exact State.hide_mono key hM

@[simp] theorem regionsLose_frame {M : Nat} (hM : 512 &&& M = 512) (d : Nat) (s : State) : (regionsLose d s).hide M = s.hide M := by
  have key : (regionsLose d s).hide 512 = s.hide 512 := by
    unfold regionsLose; ((repeat' split) <;> (try dsimp only) <;> (repeat' split) <;> (first | simp | (refine (State.hide_foldl (fun _ _ => ?_) _ _).trans ?_ <;> simp) | (refine (State.hide_foldl_snd (fun _ _ => ?_) _ _).trans ?_ <;> simp)))
  exact State.hide_mono key hM

@[simp] theorem takeoverBlock_frame {M : Nat} (hM : 123392 &&& M = 123392) (h : Nat) (s : State) (b : Nat) : (takeoverBlock h s b).hide M = s.hide M := by
  have key : (takeoverBlock h s b).hide 123392 = s.hide 123392 := by
    unfold takeoverBlock; ((repeat' split) <;> simp)
  exact State.hide_mono key hM

@[simp] theorem takeoverComplete_frame {M : Nat} (hM : 123392 &&& M = 123392) (h : Nat) (s : State) : (takeoverComplete h s).hide M = s.hide M := by
  have key : (takeoverComplete h s).hide 123392 = s.hide 123392 := by
    unfold takeoverComplete; ((repeat' split) <;> (try dsimp only) <;> (repeat' split) <;> simp [State.hide_foldl, State.hide_foldl_snd])
  exact State.hide_mono key hM

@[simp] theorem residentHeadless_frame {M : Nat} (hM : 123392 &&& M = 123392) (s : State) : (residentHeadless s).hide M = s.hide M := by
  have key : (residentHeadless s).hide 123392 = s.hide 123392 := by
    unfold residentHeadless; simp
  exact State.hide_mono key hM

@[simp] theorem halt_frame {M : Nat} (hM : 4 &&& M = 4) (cause : Nat) (s : State) : (halt cause s).hide M = s.hide M := by
  have key : (halt cause s).hide 4 = s.hide 4 := by
    unfold halt; ((repeat' split) <;> simp)
  exact State.hide_mono key hM

@[simp] theorem clearLatches_frame {M : Nat} (hM : 1028 &&& M = 1028) (d : Nat) (s : State) : (clearLatches d s).hide M = s.hide M := by
  have key : (clearLatches d s).hide 1028 = s.hide 1028 := by
    unfold clearLatches; ((repeat' split) <;> (try dsimp only) <;> (repeat' split) <;> (first | ((repeat' split) <;> (first | (simp; done) | (simp only [Prod.ext_iff] at *; (casesm* _ ∧ _); subst_vars; simp; done) | (simp only [Prod.ext_iff, Option.some.injEq] at *; (casesm* _ ∧ _); subst_vars; simp; done) | (simp_all; done))) | (refine (State.hide_foldl (fun _ _ => ?_) _ _).trans ?_ <;> ((repeat' split) <;> (first | (simp; done) | (simp only [Prod.ext_iff] at *; (casesm* _ ∧ _); subst_vars; simp; done) | (simp only [Prod.ext_iff, Option.some.injEq] at *; (casesm* _ ∧ _); subst_vars; simp; done) | (simp_all; done)))) | (refine (State.hide_foldl_snd (fun _ _ => ?_) _ _).trans ?_ <;> ((repeat' split) <;> (first | (simp; done) | (simp only [Prod.ext_iff] at *; (casesm* _ ∧ _); subst_vars; simp; done) | (simp only [Prod.ext_iff, Option.some.injEq] at *; (casesm* _ ∧ _); subst_vars; simp; done) | (simp_all; done))))))
  exact State.hide_mono key hM

@[simp] theorem clearDieState_frame {M : Nat} (hM : 279280 &&& M = 279280) (d : Nat) (s : State) : (clearDieState d s).hide M = s.hide M := by
  have key : (clearDieState d s).hide 279280 = s.hide 279280 := by
    unfold clearDieState; simp
  exact State.hide_mono key hM

@[simp] theorem serviceReached_frame {M : Nat} (hM : 24588 &&& M = 24588) (s : State) : (serviceReached s).hide M = s.hide M := by
  have key : (serviceReached s).hide 24588 = s.hide 24588 := by
    unfold serviceReached; ((repeat' split) <;> (try dsimp only) <;> (repeat' split) <;> (first | ((repeat' split) <;> (first | (simp; done) | (simp only [Prod.ext_iff] at *; (casesm* _ ∧ _); subst_vars; simp; done) | (simp only [Prod.ext_iff, Option.some.injEq] at *; (casesm* _ ∧ _); subst_vars; simp; done) | (simp_all; done))) | (refine (State.hide_foldl (fun _ _ => ?_) _ _).trans ?_ <;> ((repeat' split) <;> (first | (simp; done) | (simp only [Prod.ext_iff] at *; (casesm* _ ∧ _); subst_vars; simp; done) | (simp only [Prod.ext_iff, Option.some.injEq] at *; (casesm* _ ∧ _); subst_vars; simp; done) | (simp_all; done)))) | (refine (State.hide_foldl_snd (fun _ _ => ?_) _ _).trans ?_ <;> ((repeat' split) <;> (first | (simp; done) | (simp only [Prod.ext_iff] at *; (casesm* _ ∧ _); subst_vars; simp; done) | (simp only [Prod.ext_iff, Option.some.injEq] at *; (casesm* _ ∧ _); subst_vars; simp; done) | (simp_all; done))))))
  exact State.hide_mono key hM

@[simp] theorem serviceCheck_frame {M : Nat} (hM : 24588 &&& M = 24588) (s : State) : (serviceCheck s).hide M = s.hide M := by
  have key : (serviceCheck s).hide 24588 = s.hide 24588 := by
    unfold serviceCheck; ((repeat' split) <;> simp)
  exact State.hide_mono key hM

@[simp] theorem stagingLost_frame {M : Nat} (hM : 8 &&& M = 8) (s : State) : (stagingLost s).hide M = s.hide M :=
  State.hide_onKeeper hM s _

@[simp] theorem loseDie_frame {M : Nat} (hM : 290556 &&& M = 290556) (d cause : Nat) (s : State) : (loseDie d cause s).hide M = s.hide M := by
  have key : (loseDie d cause s).hide 290556 = s.hide 290556 := by
    unfold loseDie; ((repeat' split) <;> (try dsimp only) <;> (repeat' split) <;> simp)
  exact State.hide_mono key hM

@[simp] theorem loseTileless_frame {M : Nat} (hM : 290556 &&& M = 290556) (s : State) : (loseTileless s).hide M = s.hide M := by
  have key : (loseTileless s).hide 290556 = s.hide 290556 := by
    unfold loseTileless; (first | simp | (refine (State.hide_foldl (fun _ _ => ?_) _ _).trans ?_ <;> simp) | (refine (State.hide_foldl_snd (fun _ _ => ?_) _ _).trans ?_ <;> simp))
  exact State.hide_mono key hM

@[simp] theorem headlessEntry_frame {M : Nat} (hM : 1044476 &&& M = 1044476) (s : State) : (headlessEntry s).hide M = s.hide M := by
  have key : (headlessEntry s).hide 1044476 = s.hide 1044476 := by
    unfold headlessEntry; simp
  exact State.hide_mono key hM

@[simp] theorem darkPorts_frame {M : Nat} (hM : 808188 &&& M = 808188) (s : State) : (darkPorts s).hide M = s.hide M := by
  refine State.hide_mono (m := 808188) ?_ hM
  unfold darkPorts
  dsimp only
  rw [halt_frame (by decide), State.hide_onStart (by decide), State.hide_onKeeper (by decide)]
  refine (State.hide_foldl (fun s n => portDown_frame (by decide) ..) _ _).trans ?_
  rw [portsDark_frame (by decide)]
  exact State.hide_foldl (fun s d => by rw [dieDark_frame (by decide), clearLatches_frame (by decide)]) _ _

@[simp] theorem silentDies_frame {M : Nat} (hM : 290556 &&& M = 290556) (s : State) : (silentDies s).hide M = s.hide M := by
  have key : (silentDies s).hide 290556 = s.hide 290556 := by
    unfold silentDies; (first | simp | (refine (State.hide_foldl (fun _ _ => ?_) _ _).trans ?_ <;> simp) | (refine (State.hide_foldl_snd (fun _ _ => ?_) _ _).trans ?_ <;> simp))
  exact State.hide_mono key hM

@[simp] theorem keeperLoss_frame {M : Nat} (hM : 1048572 &&& M = 1048572) (s : State) : (keeperLoss s).hide M = s.hide M := by
  have key : (keeperLoss s).hide 1048572 = s.hide 1048572 := by
    unfold keeperLoss; ((repeat' split) <;> (try dsimp only) <;> (repeat' split) <;> simp)
  exact State.hide_mono key hM

@[simp] theorem batchMark_frame {M : Nat} (hM : 131168 &&& M = 131168) (d : Nat) (arrived : Bool) (x : Session) (s : State) : (batchMark d arrived x s).2.hide M = s.hide M := by
  have key : (batchMark d arrived x s).2.hide 131168 = s.hide 131168 := by
    unfold batchMark; ((repeat' split) <;> (try dsimp only) <;> (repeat' split) <;> (first | ((repeat' split) <;> (first | (simp; done) | (simp only [Prod.ext_iff] at *; (casesm* _ ∧ _); subst_vars; simp; done) | (simp only [Prod.ext_iff, Option.some.injEq] at *; (casesm* _ ∧ _); subst_vars; simp; done) | (simp_all; done))) | (refine (State.hide_foldl (fun _ _ => ?_) _ _).trans ?_ <;> ((repeat' split) <;> (first | (simp; done) | (simp only [Prod.ext_iff] at *; (casesm* _ ∧ _); subst_vars; simp; done) | (simp only [Prod.ext_iff, Option.some.injEq] at *; (casesm* _ ∧ _); subst_vars; simp; done) | (simp_all; done)))) | (refine (State.hide_foldl_snd (fun _ _ => ?_) _ _).trans ?_ <;> ((repeat' split) <;> (first | (simp; done) | (simp only [Prod.ext_iff] at *; (casesm* _ ∧ _); subst_vars; simp; done) | (simp only [Prod.ext_iff, Option.some.injEq] at *; (casesm* _ ∧ _); subst_vars; simp; done) | (simp_all; done))))))
  exact State.hide_mono key hM

@[simp] theorem configMark_frame {M : Nat} (hM : 139360 &&& M = 139360) (d : Nat) (arrived : Bool) (s : State) : (configMark d arrived s).hide M = s.hide M := by
  have key : (configMark d arrived s).hide 139360 = s.hide 139360 := by
    unfold configMark; ((repeat' split) <;> (try dsimp only) <;> (repeat' split) <;> simp)
  exact State.hide_mono key hM

@[simp] theorem resetTo_frame {M : Nat} (hM : 720895 &&& M = 720895) (st : DevState) (s : State) : (resetTo st s).hide M = s.hide M :=
  State.hide_mono (m := 720895) rfl hM

@[simp] theorem powerDown_frame {M : Nat} (hM : 786431 &&& M = 786431) (s : State) : (powerDown s).hide M = s.hide M := by
  have key : (powerDown s).hide 786431 = s.hide 786431 := by
    unfold powerDown; simp
  exact State.hide_mono key hM

@[simp] theorem powerOn_frame {M : Nat} (hM : 5 &&& M = 5) (v : Nat) (a b : Bool) (s : State) : (powerOn v a b s).hide M = s.hide M := by
  have key : (powerOn v a b s).hide 5 = s.hide 5 := by
    unfold powerOn; ((repeat' split) <;> simp)
  exact State.hide_mono key hM

@[simp] theorem resetAssert_frame {M : Nat} (hM : 720895 &&& M = 720895) (s : State) : (resetAssert s).hide M = s.hide M := by
  have key : (resetAssert s).hide 720895 = s.hide 720895 := by
    unfold resetAssert; ((repeat' split) <;> simp)
  exact State.hide_mono key hM

@[simp] theorem leaveReset_frame {M : Nat} (hM : 1048575 &&& M = 1048575) (s : State) : (leaveReset s).hide M = s.hide M := by
  have key : (leaveReset s).hide 1048575 = s.hide 1048575 := by
    unfold leaveReset; simp
  exact State.hide_mono key hM

@[simp] theorem resetRelease_frame {M : Nat} (hM : 1048575 &&& M = 1048575) (sel : Nat) (s : State) : (resetRelease sel s).hide M = s.hide M := by
  have key : (resetRelease sel s).hide 1048575 = s.hide 1048575 := by
    unfold resetRelease; ((repeat' split) <;> (try dsimp only) <;> (repeat' split) <;> simp)
  exact State.hide_mono key hM

@[simp] theorem freezeRecord_frame {M : Nat} (hM : 557056 &&& M = 557056) (cause unit d : Nat) (s : State) : (freezeRecord cause unit d s).hide M = s.hide M := by
  have key : (freezeRecord cause unit d s).hide 557056 = s.hide 557056 := by
    unfold freezeRecord; ((repeat' split) <;> (try dsimp only) <;> (repeat' split) <;> (first | ((repeat' split) <;> (first | (simp; done) | (simp only [Prod.ext_iff] at *; (casesm* _ ∧ _); subst_vars; simp; done) | (simp only [Prod.ext_iff, Option.some.injEq] at *; (casesm* _ ∧ _); subst_vars; simp; done) | (simp_all; done))) | (refine (State.hide_foldl (fun _ _ => ?_) _ _).trans ?_ <;> ((repeat' split) <;> (first | (simp; done) | (simp only [Prod.ext_iff] at *; (casesm* _ ∧ _); subst_vars; simp; done) | (simp only [Prod.ext_iff, Option.some.injEq] at *; (casesm* _ ∧ _); subst_vars; simp; done) | (simp_all; done)))) | (refine (State.hide_foldl_snd (fun _ _ => ?_) _ _).trans ?_ <;> ((repeat' split) <;> (first | (simp; done) | (simp only [Prod.ext_iff] at *; (casesm* _ ∧ _); subst_vars; simp; done) | (simp only [Prod.ext_iff, Option.some.injEq] at *; (casesm* _ ∧ _); subst_vars; simp; done) | (simp_all; done))))))
  exact State.hide_mono key hM

@[simp] theorem freezeLatch_frame {M : Nat} (hM : 559109 &&& M = 559109) (cause unit : Nat) (s : State) : (freezeLatch cause unit s).hide M = s.hide M := by
  have key : (freezeLatch cause unit s).hide 559109 = s.hide 559109 := by
    unfold freezeLatch; ((repeat' split) <;> (try dsimp only) <;> (repeat' split) <;> simp [State.hide_foldl, State.hide_foldl_snd])
  exact State.hide_mono key hM

@[simp] theorem hardwareTrip_frame {M : Nat} (hM : 720895 &&& M = 720895) (kind : TripKind) (die sensor : Nat) (reading : Int) (s : State) : (hardwareTrip kind die sensor reading s).hide M = s.hide M := by
  have key : (hardwareTrip kind die sensor reading s).hide 720895 = s.hide 720895 := by
    unfold hardwareTrip; ((repeat' split) <;> simp)
  exact State.hide_mono key hM

@[simp] theorem clockMoved_frame {M : Nat} (hM : 24576 &&& M = 24576) (s : State) : (clockMoved s).hide M = s.hide M := by
  have key : (clockMoved s).hide 24576 = s.hide 24576 := by
    unfold clockMoved; simp
  exact State.hide_mono key hM

@[simp] theorem refclkLoss_frame {M : Nat} (hM : 24581 &&& M = 24581) (b : Bool) (s : State) : (refclkLoss b s).hide M = s.hide M := by
  have key : (refclkLoss b s).hide 24581 = s.hide 24581 := by
    unfold refclkLoss; ((repeat' split) <;> (try dsimp only) <;> (repeat' split) <;> simp)
  exact State.hide_mono key hM

@[simp] theorem refclkReturn_frame {M : Nat} (hM : 24581 &&& M = 24581) (b : Bool) (s : State) : (refclkReturn b s).hide M = s.hide M := by
  have key : (refclkReturn b s).hide 24581 = s.hide 24581 := by
    unfold refclkReturn; ((repeat' split) <;> (try dsimp only) <;> (repeat' split) <;> simp)
  exact State.hide_mono key hM

@[simp] theorem refclkPrefer_frame {M : Nat} (hM : 139265 &&& M = 139265) (v : Nat) (s : State) : (refclkPrefer v s).hide M = s.hide M := by
  have key : (refclkPrefer v s).hide 139265 = s.hide 139265 := by
    unfold refclkPrefer; ((repeat' split) <;> (try dsimp only) <;> (repeat' split) <;> simp)
  exact State.hide_mono key hM

@[simp] theorem junctionCheck_frame {M : Nat} (hM : 24581 &&& M = 24581) (d : Nat) (s : State) : (junctionCheck d s).hide M = s.hide M := by
  have key : (junctionCheck d s).hide 24581 = s.hide 24581 := by
    unfold junctionCheck; ((repeat' split) <;> (try dsimp only) <;> (repeat' split) <;> simp)
  exact State.hide_mono key hM

@[simp] theorem baseCheck_frame {M : Nat} (hM : 356093 &&& M = 356093) (d : Nat) (s : State) : (baseCheck d s).hide M = s.hide M := by
  have key : (baseCheck d s).hide 356093 = s.hide 356093 := by
    unfold baseCheck; ((repeat' split) <;> (try dsimp only) <;> (repeat' split) <;> simp)
  exact State.hide_mono key hM

@[simp] theorem snapPut_frame {M : Nat} (hM : 1 &&& M = 1) (d w v : Nat) (s : State) : (snapPut d w v s).hide M = s.hide M := by
  have key : (snapPut d w v s).hide 1 = s.hide 1 := by
    unfold snapPut; simp
  exact State.hide_mono key hM

@[simp] theorem snapCopy_frame {M : Nat} (hM : 1 &&& M = 1) (d : Nat) (s : State) : (snapCopy d s).hide M = s.hide M := by
  refine State.hide_mono (m := 1) ?_ hM
  unfold snapCopy
  dsimp only
  rw [State.hide_onPower (by decide)]
  split
  · rw [snapPut_frame (by decide), snapPut_frame (by decide)]
    refine (State.hide_foldl (fun s i => snapPut_frame (by decide) ..) _ _).trans ?_
    rw [snapPut_frame (by decide), snapPut_frame (by decide), snapPut_frame (by decide)]
  · refine (State.hide_foldl (fun s i => snapPut_frame (by decide) ..) _ _).trans ?_
    refine (State.hide_foldl (fun s i => snapPut_frame (by decide) ..) _ _).trans ?_
    rw [snapPut_frame (by decide), snapPut_frame (by decide), snapPut_frame (by decide)]

@[simp] theorem snapshotRefresh_frame {M : Nat} (hM : 356093 &&& M = 356093) (d : Nat) (tj base : List Int) (vin iin : Nat) (s : State) : (snapshotRefresh d tj base vin iin s).hide M = s.hide M := by
  have key : (snapshotRefresh d tj base vin iin s).hide 356093 = s.hide 356093 := by
    unfold snapshotRefresh; ((repeat' split) <;> (try dsimp only) <;> (repeat' split) <;> simp)
  exact State.hide_mono key hM

@[simp] theorem enterState_frame {M : Nat} (hM : 4 &&& M = 4) (st : DevState) (s : State) : (enterState st s).hide M = s.hide M := by
  have key : (enterState st s).hide 4 = s.hide 4 := by
    unfold enterState; simp
  exact State.hide_mono key hM

@[simp] theorem fusesApply_frame {M : Nat} (hM : 260 &&& M = 260) (s : State) : (fusesApply s).hide M = s.hide M := by
  have key : (fusesApply s).hide 260 = s.hide 260 := by
    unfold fusesApply; simp
  exact State.hide_mono key hM

@[simp] theorem seedGens_frame {M : Nat} (hM : 524288 &&& M = 524288) (s : State) : (seedGens s).hide M = s.hide M := by
  have key : (seedGens s).hide 524288 = s.hide 524288 := by
    unfold seedGens; ((repeat' split) <;> (try dsimp only) <;> (repeat' split) <;> (first | simp | (refine (State.hide_foldl (fun _ _ => ?_) _ _).trans ?_ <;> simp) | (refine (State.hide_foldl_snd (fun _ _ => ?_) _ _).trans ?_ <;> simp)))
  exact State.hide_mono key hM

@[simp] theorem fuseLoad_frame {M : Nat} (hM : 917500 &&& M = 917500) (sensed : Bool) (s : State) : (fuseLoad sensed s).hide M = s.hide M := by
  have key : (fuseLoad sensed s).hide 917500 = s.hide 917500 := by
    unfold fuseLoad; ((repeat' split) <;> simp)
  exact State.hide_mono key hM

@[simp] theorem bootHalt_frame {M : Nat} (hM : 12 &&& M = 12) (cause : Nat) (s : State) : (bootHalt cause s).hide M = s.hide M := by
  have key : (bootHalt cause s).hide 12 = s.hide 12 := by
    unfold bootHalt; simp
  exact State.hide_mono key hM

@[simp] theorem restartTransfer_frame {M : Nat} (hM : 8 &&& M = 8) (s : State) : (restartTransfer s).hide M = s.hide M := by
  have key : (restartTransfer s).hide 8 = s.hide 8 := by
    unfold restartTransfer; simp
  exact State.hide_mono key hM

@[simp] theorem romBoot_frame {M : Nat} (hM : 392956 &&& M = 392956) (s : State) : (romBoot s).hide M = s.hide M := by
  have key : (romBoot s).hide 392956 = s.hide 392956 := by
    unfold romBoot; ((repeat' split) <;> (try dsimp only) <;> (repeat' split) <;> simp)
  exact State.hide_mono key hM

@[simp] theorem romCopy_frame {M : Nat} (hM : 65536 &&& M = 65536) (b : Bytes) (s : State) : (romCopy b s).hide M = s.hide M := by
  have key : (romCopy b s).hide 65536 = s.hide 65536 := by
    unfold romCopy; simp
  exact State.hide_mono key hM

@[simp] theorem fwStart_frame {M : Nat} (hM : 360188 &&& M = 360188) (b : Bytes) (s : State) : (fwStart b s).hide M = s.hide M := by
  have key : (fwStart b s).hide 360188 = s.hide 360188 := by
    unfold fwStart; simp
  exact State.hide_mono key hM

@[simp] theorem flashFails_frame {M : Nat} (hM : 69644 &&& M = 69644) (cause : Nat) (s : State) : (flashFails cause s).hide M = s.hide M := by
  have key : (flashFails cause s).hide 69644 = s.hide 69644 := by
    unfold flashFails; ((repeat' split) <;> (try dsimp only) <;> (repeat' split) <;> simp)
  exact State.hide_mono key hM

@[simp] theorem fwVerify_frame {M : Nat} (hM : 360188 &&& M = 360188) (flashAnswers : Bool) (s : State) : (fwVerify flashAnswers s).hide M = s.hide M := by
  have key : (fwVerify flashAnswers s).hide 360188 = s.hide 360188 := by
    unfold fwVerify; ((repeat' split) <;> (try dsimp only) <;> (repeat' split) <;> simp)
  exact State.hide_mono key hM

@[simp] theorem bootRequest_frame {M : Nat} (hM : 262152 &&& M = 262152) (s : State) : (bootRequest s).hide M = s.hide M := by
  have key : (bootRequest s).hide 262152 = s.hide 262152 := by
    unfold bootRequest; ((repeat' split) <;> (try dsimp only) <;> (repeat' split) <;> (first | ((repeat' split) <;> (first | (simp; done) | (simp only [Prod.ext_iff] at *; (casesm* _ ∧ _); subst_vars; simp; done) | (simp only [Prod.ext_iff, Option.some.injEq] at *; (casesm* _ ∧ _); subst_vars; simp; done) | (simp_all; done))) | (refine (State.hide_foldl (fun _ _ => ?_) _ _).trans ?_ <;> ((repeat' split) <;> (first | (simp; done) | (simp only [Prod.ext_iff] at *; (casesm* _ ∧ _); subst_vars; simp; done) | (simp only [Prod.ext_iff, Option.some.injEq] at *; (casesm* _ ∧ _); subst_vars; simp; done) | (simp_all; done)))) | (refine (State.hide_foldl_snd (fun _ _ => ?_) _ _).trans ?_ <;> ((repeat' split) <;> (first | (simp; done) | (simp only [Prod.ext_iff] at *; (casesm* _ ∧ _); subst_vars; simp; done) | (simp only [Prod.ext_iff, Option.some.injEq] at *; (casesm* _ ∧ _); subst_vars; simp; done) | (simp_all; done))))))
  exact State.hide_mono key hM

@[simp] theorem bootData_frame {M : Nat} (hM : 327688 &&& M = 327688) (mp host : Nat) (m : Bytes) (s : State) : (bootData mp host m s).hide M = s.hide M := by
  refine State.hide_mono (m := 327688) ?_ hM
  unfold bootData
  split
  · rfl
  · split
    · rfl
    · split
      · rfl
      · extract_lets take
        have ht : ∀ t, (take t).hide 327688 = t.hide 327688 := by
          intro t; unfold take; dsimp only
          rw [emitOut_frame (by decide)]
          split <;> simp
        clear_value take
        split
        · split
          · exact ht _
          · simp
        · split
          · rw [ht]; simp
          · rfl

@[simp] theorem freeBytes_frame {M : Nat} (hM : 524288 &&& M = 524288) (n : Nat) (s : State) : (freeBytes n s).2.hide M = s.hide M := by
  have key : (freeBytes n s).2.hide 524288 = s.hide 524288 := by
    unfold freeBytes; simp
  exact State.hide_mono key hM

@[simp] theorem flashWrite_frame {M : Nat} (hM : 589824 &&& M = 589824) (b : Bytes) (good : Bool) (s : State) : (flashWrite b good s).hide M = s.hide M := by
  have key : (flashWrite b good s).hide 589824 = s.hide 589824 := by
    unfold flashWrite; ((repeat' split) <;> (first | (simp; done) | (simp only [Prod.ext_iff] at *; (casesm* _ ∧ _); subst_vars; simp; done) | (simp only [Prod.ext_iff, Option.some.injEq] at *; (casesm* _ ∧ _); subst_vars; simp; done) | (simp_all; done)))
  exact State.hide_mono key hM

@[simp] theorem bootEnd_frame {M : Nat} (hM : 884476 &&& M = 884476) (mp host : Nat) (m : Bytes) (flashWriteGood : Bool) (s : State) : (bootEnd mp host m flashWriteGood s).hide M = s.hide M := by
  have key : (bootEnd mp host m flashWriteGood s).hide 884476 = s.hide 884476 := by
    unfold bootEnd; ((repeat' split) <;> (try dsimp only) <;> (repeat' split) <;> simp)
  exact State.hide_mono key hM

@[simp] theorem losePackage_frame {M : Nat} (hM : 24580 &&& M = 24580) (n : Nat) (s : State) : (losePackage n s).hide M = s.hide M := by
  have key : (losePackage n s).hide 24580 = s.hide 24580 := by
    unfold losePackage; ((repeat' split) <;> simp)
  exact State.hide_mono key hM

@[simp] theorem removeDie_frame {M : Nat} (hM : 290556 &&& M = 290556) (d unitCause recorded : Nat) (s : State) : (removeDie d unitCause recorded s).hide M = s.hide M := by
  have key : (removeDie d unitCause recorded s).hide 290556 = s.hide 290556 := by
    unfold removeDie; ((repeat' split) <;> simp)
  exact State.hide_mono key hM

end Sys2Proof.Machine
end

