-- ==== Sys2Proof/Laws/Frames5.lean ====
section
/-! SUPPORT. The parts of the state that the shared operations leave unchanged, one lemma per operation, in the order of the
model's files: part 5 of 5. -/

set_option maxRecDepth 4000
set_option linter.all false

namespace Sys2Proof.Machine

@[simp] theorem memTrain_frame {M : Nat} (hM : 356092 &&& M = 356092) (d : Nat) (failing : List Nat) (s : State) : (memTrain d failing s).hide M = s.hide M := by
  have key : (memTrain d failing s).hide 356092 = s.hide 356092 := by
    unfold memTrain; ((repeat' split) <;> (try dsimp only) <;> (repeat' split) <;> simp [State.hide_foldl, State.hide_foldl_snd])
  exact State.hide_mono key hM

@[simp] theorem libraryLoad_frame {M : Nat} (hM : 356349 &&& M = 356349) (s : State) : (libraryLoad s).hide M = s.hide M := by
  have key : (libraryLoad s).hide 356349 = s.hide 356349 := by
    unfold libraryLoad; ((repeat' split) <;> simp)
  exact State.hide_mono key hM

@[simp] theorem opticsCal_frame {M : Nat} (hM : 356092 &&& M = 356092) (answering : BitVec 20) (s : State) : (opticsCal answering s).hide M = s.hide M := by
  have key : (opticsCal answering s).hide 356092 = s.hide 356092 := by
    unfold opticsCal; ((repeat' split) <;> (try dsimp only) <;> (repeat' split) <;> (first | ((repeat' split) <;> (first | (simp; done) | (simp only [Prod.ext_iff] at *; (casesm* _ ∧ _); subst_vars; simp; done) | (simp only [Prod.ext_iff, Option.some.injEq] at *; (casesm* _ ∧ _); subst_vars; simp; done) | (simp_all; done))) | (refine (State.hide_foldl (fun _ _ => ?_) _ _).trans ?_ <;> ((repeat' split) <;> (first | (simp; done) | (simp only [Prod.ext_iff] at *; (casesm* _ ∧ _); subst_vars; simp; done) | (simp only [Prod.ext_iff, Option.some.injEq] at *; (casesm* _ ∧ _); subst_vars; simp; done) | (simp_all; done)))) | (refine (State.hide_foldl_snd (fun _ _ => ?_) _ _).trans ?_ <;> ((repeat' split) <;> (first | (simp; done) | (simp only [Prod.ext_iff] at *; (casesm* _ ∧ _); subst_vars; simp; done) | (simp only [Prod.ext_iff, Option.some.injEq] at *; (casesm* _ ∧ _); subst_vars; simp; done) | (simp_all; done))))))
  exact State.hide_mono key hM

@[simp] theorem pairAtStart_frame {M : Nat} (hM : 25600 &&& M = 25600) (a b : Nat) (s : State) : (pairAtStart a b s).hide M = s.hide M := by
  have key : (pairAtStart a b s).hide 25600 = s.hide 25600 := by
    unfold pairAtStart; simp [State.hide_foldl, State.hide_foldl_snd]
  exact State.hide_mono key hM

@[simp] theorem darkChannels_frame {M : Nat} (hM : 25600 &&& M = 25600) (s : State) : (darkChannels s).hide M = s.hide M := by
  refine State.hide_mono (m := 25600) ?_ hM
  unfold darkChannels
  exact State.hide_foldl (fun s a => State.hide_foldl (fun s b => pairAtStart_frame (by decide) ..) _ _) _ _

@[simp] theorem takeBaselines_frame {M : Nat} (hM : 1024 &&& M = 1024) (s : State) : (takeBaselines s).hide M = s.hide M := by
  have key : (takeBaselines s).hide 1024 = s.hide 1024 := by
    unfold takeBaselines; ((repeat' split) <;> (try dsimp only) <;> (repeat' split) <;> (first | ((repeat' split) <;> (first | (simp; done) | (simp only [Prod.ext_iff] at *; (casesm* _ ∧ _); subst_vars; simp; done) | (simp only [Prod.ext_iff, Option.some.injEq] at *; (casesm* _ ∧ _); subst_vars; simp; done) | (simp_all; done))) | (refine (State.hide_foldl (fun _ _ => ?_) _ _).trans ?_ <;> ((repeat' split) <;> (first | (simp; done) | (simp only [Prod.ext_iff] at *; (casesm* _ ∧ _); subst_vars; simp; done) | (simp only [Prod.ext_iff, Option.some.injEq] at *; (casesm* _ ∧ _); subst_vars; simp; done) | (simp_all; done)))) | (refine (State.hide_foldl_snd (fun _ _ => ?_) _ _).trans ?_ <;> ((repeat' split) <;> (first | (simp; done) | (simp only [Prod.ext_iff] at *; (casesm* _ ∧ _); subst_vars; simp; done) | (simp only [Prod.ext_iff, Option.some.injEq] at *; (casesm* _ ∧ _); subst_vars; simp; done) | (simp_all; done))))))
  exact State.hide_mono key hM

@[simp] theorem assignSpare_frame {M : Nat} (hM : 1024 &&& M = 1024) (m : Nat) (s : State) : (assignSpare m s).hide M = s.hide M := by
  have key : (assignSpare m s).hide 1024 = s.hide 1024 := by
    unfold assignSpare; ((repeat' split) <;> (try dsimp only) <;> (repeat' split) <;> (first | simp | (refine (State.hide_foldl (fun _ _ => ?_) _ _).trans ?_ <;> simp) | (refine (State.hide_foldl_snd (fun _ _ => ?_) _ _).trans ?_ <;> simp)))
  exact State.hide_mono key hM

@[simp] theorem faultRest_frame {M : Nat} (hM : 25600 &&& M = 25600) (s : State) : (faultRest s).hide M = s.hide M := by
  have key : (faultRest s).hide 25600 = s.hide 25600 := by
    unfold faultRest; ((repeat' split) <;> (try dsimp only) <;> (repeat' split) <;> (first | ((repeat' split) <;> (first | (simp; done) | (simp only [Prod.ext_iff] at *; (casesm* _ ∧ _); subst_vars; simp; done) | (simp only [Prod.ext_iff, Option.some.injEq] at *; (casesm* _ ∧ _); subst_vars; simp; done) | (simp_all; done))) | (refine (State.hide_foldl (fun _ _ => ?_) _ _).trans ?_ <;> ((repeat' split) <;> (first | (simp; done) | (simp only [Prod.ext_iff] at *; (casesm* _ ∧ _); subst_vars; simp; done) | (simp only [Prod.ext_iff, Option.some.injEq] at *; (casesm* _ ∧ _); subst_vars; simp; done) | (simp_all; done)))) | (refine (State.hide_foldl_snd (fun _ _ => ?_) _ _).trans ?_ <;> ((repeat' split) <;> (first | (simp; done) | (simp only [Prod.ext_iff] at *; (casesm* _ ∧ _); subst_vars; simp; done) | (simp only [Prod.ext_iff, Option.some.injEq] at *; (casesm* _ ∧ _); subst_vars; simp; done) | (simp_all; done))))))
  exact State.hide_mono key hM

@[simp] theorem opticsCalEnd_frame {M : Nat} (hM : 356092 &&& M = 356092) (s : State) : (opticsCalEnd s).hide M = s.hide M := by
  refine State.hide_mono (m := 356092) ?_ hM
  unfold opticsCalEnd
  dsimp only
  split
  · rfl
  · rw [enterState_frame (by decide)]
    refine (State.hide_foldl (fun s i => assignSpare_frame (by decide) ..) _ _).trans ?_
    rw [meshCauses_frame (by decide), darkChannels_frame (by decide), takeBaselines_frame (by decide)]
    split
    · rw [faultRest_frame (by decide)]
    · rfl

@[simp] theorem meshDeadLinks_frame {M : Nat} (hM : 290556 &&& M = 290556) (y0 : Nat) (s : State) : (meshDeadLinks y0 s).hide M = s.hide M := by
  have key : (meshDeadLinks y0 s).hide 290556 = s.hide 290556 := by
    fun_induction meshDeadLinks y0 s <;> ((repeat' split) <;> simp_all)
  exact State.hide_mono key hM

@[simp] theorem linksChecked_frame {M : Nat} (hM : 290556 &&& M = 290556) (s : State) : (linksChecked s).hide M = s.hide M := by
  have key : (linksChecked s).hide 290556 = s.hide 290556 := by
    unfold linksChecked; ((repeat' split) <;> simp)
  exact State.hide_mono key hM

@[simp] theorem marginTestEnd_frame {M : Nat} (hM : 290556 &&& M = 290556) (s : State) : (marginTestEnd s).hide M = s.hide M := by
  have key : (marginTestEnd s).hide 290556 = s.hide 290556 := by
    unfold marginTestEnd; ((repeat' split) <;> (try dsimp only) <;> (repeat' split) <;> (first | simp | (refine (State.hide_foldl (fun _ _ => ?_) _ _).trans ?_ <;> simp) | (refine (State.hide_foldl_snd (fun _ _ => ?_) _ _).trans ?_ <;> simp)))
  exact State.hide_mono key hM

@[simp] theorem serviceEnter_frame {M : Nat} (hM : 8196 &&& M = 8196) (s : State) : (serviceEnter s).hide M = s.hide M := by
  have key : (serviceEnter s).hide 8196 = s.hide 8196 := by
    unfold serviceEnter; ((repeat' split) <;> simp)
  exact State.hide_mono key hM

@[simp] theorem serviceMark_frame {M : Nat} (hM : 24588 &&& M = 24588) (d : Nat) (s : State) : (serviceMark d s).hide M = s.hide M := by
  have key : (serviceMark d s).hide 24588 = s.hide 24588 := by
    unfold serviceMark; ((repeat' split) <;> simp)
  exact State.hide_mono key hM

@[simp] theorem setFuse_frame {M : Nat} (hM : 8 &&& M = 8) (f c v : Nat) (s : State) : (setFuse f c v s).hide M = s.hide M := by
  have key : (setFuse f c v s).hide 8 = s.hide 8 := by
    unfold setFuse; simp
  exact State.hide_mono key hM

@[simp] theorem programCopies_frame {M : Nat} (hM : 524296 &&& M = 524296) (f v : Nat) (bad : Option Nat) (s : State) : (programCopies f v bad s).hide M = s.hide M := by
  have key : (programCopies f v bad s).hide 524296 = s.hide 524296 := by
    unfold programCopies; ((repeat' split) <;> (try dsimp only) <;> (repeat' split) <;> (first | ((repeat' split) <;> (first | (simp; done) | (simp only [Prod.ext_iff] at *; (casesm* _ ∧ _); subst_vars; simp; done) | (simp only [Prod.ext_iff, Option.some.injEq] at *; (casesm* _ ∧ _); subst_vars; simp; done) | (simp_all; done))) | (refine (State.hide_foldl (fun _ _ => ?_) _ _).trans ?_ <;> ((repeat' split) <;> (first | (simp; done) | (simp only [Prod.ext_iff] at *; (casesm* _ ∧ _); subst_vars; simp; done) | (simp only [Prod.ext_iff, Option.some.injEq] at *; (casesm* _ ∧ _); subst_vars; simp; done) | (simp_all; done)))) | (refine (State.hide_foldl_snd (fun _ _ => ?_) _ _).trans ?_ <;> ((repeat' split) <;> (first | (simp; done) | (simp only [Prod.ext_iff] at *; (casesm* _ ∧ _); subst_vars; simp; done) | (simp only [Prod.ext_iff, Option.some.injEq] at *; (casesm* _ ∧ _); subst_vars; simp; done) | (simp_all; done))))))
  exact State.hide_mono key hM

@[simp] theorem setFuseResult_frame {M : Nat} (hM : 8 &&& M = 8) (r : Nat) (s : State) : (setFuseResult r s).hide M = s.hide M := by
  have key : (setFuseResult r s).hide 8 = s.hide 8 := by
    unfold setFuseResult; simp
  exact State.hide_mono key hM

@[simp] theorem fuseField_frame {M : Nat} (hM : 524296 &&& M = 524296) (f v : Nat) (bad : Option Nat) (s : State) : (fuseField f v bad s).hide M = s.hide M := by
  have key : (fuseField f v bad s).hide 524296 = s.hide 524296 := by
    unfold fuseField; ((repeat' split) <;> (try dsimp only) <;> (repeat' split) <;> simp)
  exact State.hide_mono key hM

@[simp] theorem fuseProgram_frame {M : Nat} (hM : 532488 &&& M = 532488) (f v : Nat) (bad : Option Nat) (s : State) : (fuseProgram f v bad s).hide M = s.hide M := by
  have key : (fuseProgram f v bad s).hide 532488 = s.hide 532488 := by
    unfold fuseProgram; ((repeat' split) <;> (try dsimp only) <;> (repeat' split) <;> simp)
  exact State.hide_mono key hM

@[simp] theorem fwStageOffsetWrite_frame {M : Nat} (hM : 8200 &&& M = 8200) (v : Nat) (s : State) : (fwStageOffsetWrite v s).hide M = s.hide M := by
  have key : (fwStageOffsetWrite v s).hide 8200 = s.hide 8200 := by
    unfold fwStageOffsetWrite; ((repeat' split) <;> simp)
  exact State.hide_mono key hM

@[simp] theorem fwStageData_frame {M : Nat} (hM : 73736 &&& M = 73736) (data : Bytes) (s : State) : (fwStageData data s).hide M = s.hide M := by
  have key : (fwStageData data s).hide 73736 = s.hide 73736 := by
    unfold fwStageData; ((repeat' split) <;> (try dsimp only) <;> (repeat' split) <;> simp)
  exact State.hide_mono key hM

@[simp] theorem fwCommit_frame {M : Nat} (hM : 73736 &&& M = 73736) (s : State) : (fwCommit s).hide M = s.hide M := by
  have key : (fwCommit s).hide 73736 = s.hide 73736 := by
    unfold fwCommit; ((repeat' split) <;> (try dsimp only) <;> (repeat' split) <;> simp)
  exact State.hide_mono key hM

@[simp] theorem fwFlashWriteDone_frame {M : Nat} (hM : 589832 &&& M = 589832) (good : Bool) (s : State) : (fwFlashWriteDone good s).hide M = s.hide M := by
  have key : (fwFlashWriteDone good s).hide 589832 = s.hide 589832 := by
    unfold fwFlashWriteDone; ((repeat' split) <;> simp)
  exact State.hide_mono key hM

@[simp] theorem blowSteps_frame {M : Nat} (hM : 524296 &&& M = 524296) (y0 : List Nat) (s : State) : (blowSteps y0 s).hide M = s.hide M := by
  have key : (blowSteps y0 s).hide 524296 = s.hide 524296 := by
    (induction y0 generalizing s with | nil => simp [blowSteps] | cons a l ih => simp only [blowSteps]; ((repeat' split) <;> simp_all))
  exact State.hide_mono key hM

@[simp] theorem badStep_frame {M : Nat} (hM : 524296 &&& M = 524296) (steps : List Nat) (n : StepsBlown) (s : State) : (badStep steps n s).hide M = s.hide M := by
  have key : (badStep steps n s).hide 524296 = s.hide 524296 := by
    unfold badStep; ((repeat' split) <;> simp)
  exact State.hide_mono key hM

@[simp] theorem rollbackAdvance_frame {M : Nat} (hM : 532488 &&& M = 532488) (v : Nat) (n : StepsBlown) (s : State) : (rollbackAdvance v n s).hide M = s.hide M := by
  have key : (rollbackAdvance v n s).hide 532488 = s.hide 532488 := by
    unfold rollbackAdvance; ((repeat' split) <;> (try dsimp only) <;> (repeat' split) <;> simp)
  exact State.hide_mono key hM

@[simp] theorem attestRequest_frame {M : Nat} (hM : 8200 &&& M = 8200) (nonce : Bytes) (s : State) : (attestRequest nonce s).hide M = s.hide M := by
  have key : (attestRequest nonce s).hide 8200 = s.hide 8200 := by
    unfold attestRequest; ((repeat' split) <;> simp)
  exact State.hide_mono key hM

@[simp] theorem attestReportDone_frame {M : Nat} (hM : 524296 &&& M = 524296) (s : State) : (attestReportDone s).hide M = s.hide M := by
  have key : (attestReportDone s).hide 524296 = s.hide 524296 := by
    unfold attestReportDone; ((repeat' split) <;> simp)
  exact State.hide_mono key hM

@[simp] theorem measExtendWrite_frame {M : Nat} (hM : 8200 &&& M = 8200) (index : Nat) (digest : Bytes) (s : State) : (measExtendWrite index digest s).hide M = s.hide M := by
  have key : (measExtendWrite index digest s).hide 8200 = s.hide 8200 := by
    unfold measExtendWrite; ((repeat' split) <;> simp)
  exact State.hide_mono key hM

@[simp] theorem logOne_frame {M : Nat} (hM : 524296 &&& M = 524296) (s : State) : (logOne s).hide M = s.hide M := by
  have key : (logOne s).hide 524296 = s.hide 524296 := by
    unfold logOne; ((repeat' split) <;> (try dsimp only) <;> (repeat' split) <;> (first | (simp; done) | (simp only [Prod.ext_iff] at *; (casesm* _ ∧ _); subst_vars; simp; done) | (simp only [Prod.ext_iff, Option.some.injEq] at *; (casesm* _ ∧ _); subst_vars; simp; done) | (simp_all; done)))
  exact State.hide_mono key hM

@[simp] theorem logSome_frame {M : Nat} (hM : 524296 &&& M = 524296) (y0 : Nat) (s : State) : (logSome y0 s).hide M = s.hide M := by
  have key : (logSome y0 s).hide 524296 = s.hide 524296 := by
    fun_induction logSome y0 s <;> ((repeat' split) <;> simp_all)
  exact State.hide_mono key hM

@[simp] theorem logRead_frame {M : Nat} (hM : 532488 &&& M = 532488) (i : Nat) (s : State) : (logRead i s).hide M = s.hide M := by
  have key : (logRead i s).hide 532488 = s.hide 532488 := by
    unfold logRead; ((repeat' split) <;> (first | (simp; done) | (simp only [Prod.ext_iff] at *; (casesm* _ ∧ _); subst_vars; simp; done) | (simp only [Prod.ext_iff, Option.some.injEq] at *; (casesm* _ ∧ _); subst_vars; simp; done) | (simp_all; done)))
  exact State.hide_mono key hM

@[simp] theorem cfgRefSet_frame {M : Nat} (hM : 24576 &&& M = 24576) (die : Nat) (v : Word) (s : State) : (cfgRefSet die v s).hide M = s.hide M := by
  have key : (cfgRefSet die v s).hide 24576 = s.hide 24576 := by
    unfold cfgRefSet; simp
  exact State.hide_mono key hM

@[simp] theorem cfgCommitGo_frame {M : Nat} (hM : 24576 &&& M = 24576) (die : Nat) (s : State) : (cfgCommitGo die s).hide M = s.hide M := by
  have key : (cfgCommitGo die s).hide 24576 = s.hide 24576 := by
    unfold cfgCommitGo; simp
  exact State.hide_mono key hM

@[simp] theorem cfgRecompute_frame {M : Nat} (hM : 24576 &&& M = 24576) (die : Nat) (v : Word) (s : State) : (cfgRecompute die v s).hide M = s.hide M := by
  have key : (cfgRecompute die v s).hide 24576 = s.hide 24576 := by
    unfold cfgRecompute; ((repeat' split) <;> simp)
  exact State.hide_mono key hM

@[simp] theorem regRead_frame {M : Nat} (hM : 2 &&& M = 2) (m die block word : Nat) (s : State) : (regRead m die block word s).2.hide M = s.hide M := by
  have key : (regRead m die block word s).2.hide 2 = s.hide 2 := by
    unfold regRead; ((repeat' split) <;> simp)
  exact State.hide_mono key hM

@[simp] theorem tblCmdWrite_frame {M : Nat} (hM : 540688 &&& M = 540688) (die set : Nat) (v : Word) (s : State) : (tblCmdWrite die set v s).hide M = s.hide M := by
  have key : (tblCmdWrite die set v s).hide 540688 = s.hide 540688 := by
    unfold tblCmdWrite; simp
  exact State.hide_mono key hM

@[simp] theorem tblRegWrite_frame {M : Nat} (hM : 540688 &&& M = 540688) (die w : Nat) (v : Word) (s : State) : (tblRegWrite die w v s).hide M = s.hide M := by
  have key : (tblRegWrite die w v s).hide 540688 = s.hide 540688 := by
    unfold tblRegWrite; ((repeat' split) <;> (try dsimp only) <;> (repeat' split) <;> simp)
  exact State.hide_mono key hM

@[simp] theorem timeRegWrite_frame {M : Nat} (hM : 24578 &&& M = 24578) (w : Nat) (v : Word) (s : State) : (timeRegWrite w v s).hide M = s.hide M := by
  have key : (timeRegWrite w v s).hide 24578 = s.hide 24578 := by
    unfold timeRegWrite; ((repeat' split) <;> simp)
  exact State.hide_mono key hM

@[simp] theorem cntRegWrite_frame {M : Nat} (hM : 16384 &&& M = 16384) (m die w : Nat) (v : Word) (s : State) : (cntRegWrite m die w v s).hide M = s.hide M := by
  have key : (cntRegWrite m die w v s).hide 16384 = s.hide 16384 := by
    unfold cntRegWrite; ((repeat' split) <;> (try dsimp only) <;> (repeat' split) <;> simp)
  exact State.hide_mono key hM

@[simp] theorem cfgRegWrite_frame {M : Nat} (hM : 24576 &&& M = 24576) (die w : Nat) (v : Word) (s : State) : (cfgRegWrite die w v s).hide M = s.hide M := by
  have key : (cfgRegWrite die w v s).hide 24576 = s.hide 24576 := by
    unfold cfgRegWrite; ((repeat' split) <;> simp)
  exact State.hide_mono key hM

@[simp] theorem regStore_frame {M : Nat} (hM : 548882 &&& M = 548882) (m die block word : Nat) (v : Word) (s : State) : (regStore m die block word v s).hide M = s.hide M := by
  have key : (regStore m die block word v s).hide 548882 = s.hide 548882 := by
    unfold regStore; ((repeat' split) <;> simp)
  exact State.hide_mono key hM

@[simp] theorem onMailbox_frame {M : Nat} (hM : 16384 &&& M = 16384) (m die : Nat) (f : Mailbox → Mailbox) (s : State) : (onMailbox m die f s).hide M = s.hide M := by
  have key : (onMailbox m die f s).hide 16384 = s.hide 16384 := by
    unfold onMailbox; simp
  exact State.hide_mono key hM

@[simp] theorem mbReads_frame {M : Nat} (hM : 16386 &&& M = 16386) (m die block : Nat) (y0 : Nat) (y1 : Nat) (y2 : Nat) (s : State) : (mbReads m die block y0 y1 y2 s).hide M = s.hide M := by
  have key : (mbReads m die block y0 y1 y2 s).hide 16386 = s.hide 16386 := by
    (induction y0 generalizing y1 y2 s with | zero => simp [mbReads] | succ n ih => simp only [mbReads]; ((repeat' split) <;> simp_all))
  exact State.hide_mono key hM

@[simp] theorem mbWrites_frame {M : Nat} (hM : 548882 &&& M = 548882) (m die block : Nat) (data : Tab Word) (y0 : Nat) (y1 : Nat) (y2 : Nat) (s : State) : (mbWrites m die block data y0 y1 y2 s).hide M = s.hide M := by
  have key : (mbWrites m die block data y0 y1 y2 s).hide 548882 = s.hide 548882 := by
    fun_induction mbWrites m die block data y0 y1 y2 s <;> ((repeat' split) <;> simp_all)
  exact State.hide_mono key hM

@[simp] theorem mbTransfer_frame {M : Nat} (hM : 548882 &&& M = 548882) (m die : Nat) (s : State) : (mbTransfer m die s).hide M = s.hide M := by
  have key : (mbTransfer m die s).hide 548882 = s.hide 548882 := by
    unfold mbTransfer; ((repeat' split) <;> (try dsimp only) <;> (repeat' split) <;> simp)
  exact State.hide_mono key hM

@[simp] theorem mbCtlWrite_frame {M : Nat} (hM : 548882 &&& M = 548882) (m die : Nat) (v : Word) (s : State) : (mbCtlWrite m die v s).hide M = s.hide M := by
  have key : (mbCtlWrite m die v s).hide 548882 = s.hide 548882 := by
    unfold mbCtlWrite; ((repeat' split) <;> simp)
  exact State.hide_mono key hM

@[simp] theorem mbRegWrite_frame {M : Nat} (hM : 548882 &&& M = 548882) (m die w : Nat) (v : Word) (s : State) : (mbRegWrite m die w v s).hide M = s.hide M := by
  have key : (mbRegWrite m die w v s).hide 548882 = s.hide 548882 := by
    unfold mbRegWrite; ((repeat' split) <;> simp)
  exact State.hide_mono key hM

@[simp] theorem bitWrite_frame {M : Nat} (hM : 548882 &&& M = 548882) (m die block word b : Nat) (value : Bool) (s : State) : (bitWrite m die block word b value s).hide M = s.hide M := by
  have key : (bitWrite m die block word b value s).hide 548882 = s.hide 548882 := by
    unfold bitWrite; ((repeat' split) <;> simp)
  exact State.hide_mono key hM

@[simp] theorem aliasWrite_frame {M : Nat} (hM : 548882 &&& M = 548882) (m die w : Nat) (value : Bool) (s : State) : (aliasWrite m die w value s).hide M = s.hide M := by
  have key : (aliasWrite m die w value s).hide 548882 = s.hide 548882 := by
    unfold aliasWrite; ((repeat' split) <;> simp)
  exact State.hide_mono key hM

@[simp] theorem readOn_frame {M : Nat} (hM : 16386 &&& M = 16386) (m die block word : Nat) (s : State) : (readOn m die block word s).2.2.hide M = s.hide M := by
  have key : (readOn m die block word s).2.2.hide 16386 = s.hide 16386 := by
    unfold readOn; ((repeat' split) <;> (try dsimp only) <;> (repeat' split) <;> (first | (simp; done) | (simp only [Prod.ext_iff] at *; (casesm* _ ∧ _); subst_vars; simp; done) | (simp only [Prod.ext_iff, Option.some.injEq] at *; (casesm* _ ∧ _); subst_vars; simp; done) | (simp_all; done)))
  exact State.hide_mono key hM

@[simp] theorem writeOn_frame {M : Nat} (hM : 548882 &&& M = 548882) (m die block word : Nat) (v : Word) (s : State) : (writeOn m die block word v s).hide M = s.hide M := by
  have key : (writeOn m die block word v s).hide 548882 = s.hide 548882 := by
    unfold writeOn; ((repeat' split) <;> simp)
  exact State.hide_mono key hM

@[simp] theorem tblBroadcast_frame {M : Nat} (hM : 540688 &&& M = 540688) (m set : Nat) (cmd : Word) (keeperAlive dieLeft : Bool) (s : State) : (tblBroadcast m set cmd keeperAlive dieLeft s).hide M = s.hide M := by
  have key : (tblBroadcast m set cmd keeperAlive dieLeft s).hide 540688 = s.hide 540688 := by
    unfold tblBroadcast; simp [State.hide_foldl]
  exact State.hide_mono key hM

@[simp] theorem broadcastWrite_frame {M : Nat} (hM : 548882 &&& M = 548882) (m block word : Nat) (v : Word) (s : State) : (broadcastWrite m block word v s).hide M = s.hide M := by
  have key : (broadcastWrite m block word v s).hide 548882 = s.hide 548882 := by
    unfold broadcastWrite; ((repeat' split) <;> (try dsimp only) <;> (repeat' split) <;> simp [State.hide_foldl, State.hide_foldl_snd])
  exact State.hide_mono key hM

@[simp] theorem regWrite_frame {M : Nat} (hM : 548882 &&& M = 548882) (m : Nat) (a v : Word) (s : State) : (regWrite m a v s).hide M = s.hide M := by
  have key : (regWrite m a v s).hide 548882 = s.hide 548882 := by
    unfold regWrite; ((repeat' split) <;> simp)
  exact State.hide_mono key hM

@[simp] theorem regReadAt_frame {M : Nat} (hM : 16386 &&& M = 16386) (m : Nat) (a : Word) (s : State) : (regReadAt m a s).2.hide M = s.hide M := by
  have key : (regReadAt m a s).2.hide 16386 = s.hide 16386 := by
    unfold regReadAt; ((repeat' split) <;> (first | (simp; done) | (simp only [Prod.ext_iff] at *; (casesm* _ ∧ _); subst_vars; simp; done) | (simp only [Prod.ext_iff, Option.some.injEq] at *; (casesm* _ ∧ _); subst_vars; simp; done) | (simp_all; done)))
  exact State.hide_mono key hM

@[simp] theorem burstRead_frame {M : Nat} (hM : 16386 &&& M = 16386) (m : Nat) (a : Word) (n : Nat) (s : State) : (burstRead m a n s).2.2.hide M = s.hide M := by
  refine State.hide_mono (m := 16386) ?_ hM
  induction n generalizing a s with
  | zero => rfl
  | succ n ih =>
    have h1 := regReadAt_frame (M := 16386) (by decide) m a s
    unfold burstRead
    split
    · rename_i e; rw [e] at h1; exact h1
    · rename_i v t e; rw [e] at h1; exact (ih (a + 4) t).trans h1

@[simp] theorem burstWrite_frame {M : Nat} (hM : 548882 &&& M = 548882) (m : Nat) (a : Word) (l : List Word) (s : State) : (burstWrite m a l s).2.2.hide M = s.hide M := by
  refine State.hide_mono (m := 548882) ?_ hM
  induction l generalizing a s with
  | nil => rfl
  | cons v r ih =>
    unfold burstWrite
    dsimp only
    split
    · simp
    · exact (ih _ _).trans (by simp)

@[simp] theorem windowAccess_frame {M : Nat} (hM : 548882 &&& M = 548882) (role : Role) (a : Word) (count : Nat) (write : Option (List Word)) (s : State) : (windowAccess role a count write s).2.hide M = s.hide M := by
  have key : (windowAccess role a count write s).2.hide 548882 = s.hide 548882 := by
    unfold windowAccess; ((repeat' split) <;> (first | (simp; done) | (simp only [Prod.ext_iff] at *; (casesm* _ ∧ _); subst_vars; simp; done) | (simp only [Prod.ext_iff, Option.some.injEq] at *; (casesm* _ ∧ _); subst_vars; simp; done) | (simp_all; done)))
  exact State.hide_mono key hM

@[simp] theorem windowCommand_frame {M : Nat} (hM : 548882 &&& M = 548882) (role : Role) (i sub count : Nat) (write : Option (List Word)) (s : State) : (windowCommand role i sub count write s).hide M = s.hide M := by
  have key : (windowCommand role i sub count write s).hide 548882 = s.hide 548882 := by
    unfold windowCommand; ((repeat' split) <;> (first | (simp; done) | (simp only [Prod.ext_iff] at *; (casesm* _ ∧ _); subst_vars; simp; done) | (simp only [Prod.ext_iff, Option.some.injEq] at *; (casesm* _ ∧ _); subst_vars; simp; done) | (simp_all; done)))
  exact State.hide_mono key hM

@[simp] theorem jtagMark_frame {M : Nat} (hM : 32776 &&& M = 32776) (write : Bool) (s : State) : (jtagMark write s).hide M = s.hide M := by
  have key : (jtagMark write s).hide 32776 = s.hide 32776 := by
    unfold jtagMark; ((repeat' split) <;> simp)
  exact State.hide_mono key hM

@[simp] theorem jtagGives_frame {M : Nat} (hM : 16384 &&& M = 16384) (error : Bool) (v : Word) (s : State) : (jtagGives error v s).hide M = s.hide M := by
  have key : (jtagGives error v s).hide 16384 = s.hide 16384 := by
    unfold jtagGives; simp
  exact State.hide_mono key hM

@[simp] theorem frzRead_frame {M : Nat} (hM : 49152 &&& M = 49152) (die space array : Nat) (a : Word) (s : State) : (frzRead die space array a s).hide M = s.hide M := by
  have key : (frzRead die space array a s).hide 49152 = s.hide 49152 := by
    unfold frzRead; ((repeat' split) <;> (try dsimp only) <;> (repeat' split) <;> simp)
  exact State.hide_mono key hM

@[simp] theorem jtagScan_frame {M : Nat} (hM : 49152 &&& M = 49152) (die : Nat) (scan : JtagScan) (array : Nat) (a : Word) (s : State) : (jtagScan die scan array a s).hide M = s.hide M := by
  have key : (jtagScan die scan array a s).hide 49152 = s.hide 49152 := by
    unfold jtagScan; ((repeat' split) <;> simp)
  exact State.hide_mono key hM

@[simp] theorem noteCe_frame {M : Nat} (hM : 49152 &&& M = 49152) (die ch : Nat) (s : State) : (noteCe die ch s).hide M = s.hide M := by
  have key : (noteCe die ch s).hide 49152 = s.hide 49152 := by
    unfold noteCe; simp
  exact State.hide_mono key hM

@[simp] theorem memCeHigh_frame {M : Nat} (hM : 57344 &&& M = 57344) (die ch : Nat) (s : State) : (memCeHigh die ch s).hide M = s.hide M := by
  have key : (memCeHigh die ch s).hide 57344 = s.hide 57344 := by
    unfold memCeHigh; ((repeat' split) <;> (try dsimp only) <;> (repeat' split) <;> simp)
  exact State.hide_mono key hM

@[simp] theorem granuleRead_frame {M : Nat} (hM : 581632 &&& M = 581632) (die ch granule bad : Nat) (s : State) : (granuleRead die ch granule bad s).hide M = s.hide M := by
  have key : (granuleRead die ch granule bad s).hide 581632 = s.hide 581632 := by
    unfold granuleRead; ((repeat' split) <;> (first | (simp; done) | (simp only [Prod.ext_iff] at *; (casesm* _ ∧ _); subst_vars; simp; done) | (simp only [Prod.ext_iff, Option.some.injEq] at *; (casesm* _ ∧ _); subst_vars; simp; done) | (simp_all; done)))
  exact State.hide_mono key hM

@[simp] theorem scrubOn_frame {M : Nat} (hM : 32768 &&& M = 32768) (die granule : Nat) (s : State) : (scrubOn die granule s).hide M = s.hide M := by
  have key : (scrubOn die granule s).hide 32768 = s.hide 32768 := by
    unfold scrubOn; ((repeat' split) <;> simp)
  exact State.hide_mono key hM

@[simp] theorem scrubBehind_frame {M : Nat} (hM : 57344 &&& M = 57344) (die : Nat) (s : State) : (scrubBehind die s).hide M = s.hide M := by
  have key : (scrubBehind die s).hide 57344 = s.hide 57344 := by
    unfold scrubBehind; ((repeat' split) <;> (try dsimp only) <;> (repeat' split) <;> simp)
  exact State.hide_mono key hM

@[simp] theorem sramScrub_frame {M : Nat} (hM : 57344 &&& M = 57344) (die ce ue array word : Nat) (s : State) : (sramScrub die ce ue array word s).hide M = s.hide M := by
  have key : (sramScrub die ce ue array word s).hide 57344 = s.hide 57344 := by
    unfold sramScrub; ((repeat' split) <;> simp)
  exact State.hide_mono key hM

@[simp] theorem cellFails_frame {M : Nat} (hM : 582564 &&& M = 582564) (die tile row pos opcode : Nat) (s : State) : (cellFails die tile row pos opcode s).hide M = s.hide M := by
  have key : (cellFails die tile row pos opcode s).hide 582564 = s.hide 582564 := by
    unfold cellFails; simp
  exact State.hide_mono key hM

@[simp] theorem testOutcome_frame {M : Nat} (hM : 582564 &&& M = 582564) (die tile row pos opcode : Nat) (cell partner store reference : Bool) (s : State) : (testOutcome die tile row pos opcode cell partner store reference s).hide M = s.hide M := by
  have key : (testOutcome die tile row pos opcode cell partner store reference s).hide 582564 = s.hide 582564 := by
    unfold testOutcome; ((repeat' split) <;> (try dsimp only) <;> (repeat' split) <;> simp)
  exact State.hide_mono key hM

@[simp] theorem passEnds_frame {M : Nat} (hM : 32768 &&& M = 32768) (die tile : Nat) (s : State) : (passEnds die tile s).hide M = s.hide M := by
  have key : (passEnds die tile s).hide 32768 = s.hide 32768 := by
    unfold passEnds; simp
  exact State.hide_mono key hM

@[simp] theorem cellSelftest_frame {M : Nat} (hM : 847868 &&& M = 847868) (die tile row pos opcode : Nat) (cell partner store reference : Bool) (s : State) : (cellSelftest die tile row pos opcode cell partner store reference s).hide M = s.hide M := by
  have key : (cellSelftest die tile row pos opcode cell partner store reference s).hide 847868 = s.hide 847868 := by
    unfold cellSelftest; ((repeat' split) <;> (try dsimp only) <;> (repeat' split) <;> simp)
  exact State.hide_mono key hM

@[simp] theorem crosscheckRetest_frame {M : Nat} (hM : 847868 &&& M = 847868) (die tile : Nat) (fails : Bool) (s : State) : (crosscheckRetest die tile fails s).hide M = s.hide M := by
  have key : (crosscheckRetest die tile fails s).hide 847868 = s.hide 847868 := by
    unfold crosscheckRetest; ((repeat' split) <;> (try dsimp only) <;> (repeat' split) <;> simp)
  exact State.hide_mono key hM

@[simp] theorem counterFlagsClear_frame {M : Nat} (hM : 24576 &&& M = 24576) (ev die inst flags : Nat) (s : State) : (counterFlagsClear ev die inst flags s).hide M = s.hide M := by
  have key : (counterFlagsClear ev die inst flags s).hide 24576 = s.hide 24576 := by
    unfold counterFlagsClear; ((repeat' split) <;> simp)
  exact State.hide_mono key hM

@[simp] theorem readClears_frame {M : Nat} (hM : 4104 &&& M = 4104) (idx sub : Nat) (s : State) : (readClears idx sub s).hide M = s.hide M := by
  have key : (readClears idx sub s).hide 4104 = s.hide 4104 := by
    unfold readClears; ((repeat' split) <;> simp)
  exact State.hide_mono key hM

@[simp] theorem readFresh_frame {M : Nat} (hM : 529416 &&& M = 529416) (idx sub : Nat) (s : State) : (readFresh idx sub s).hide M = s.hide M := by
  have key : (readFresh idx sub s).hide 529416 = s.hide 529416 := by
    unfold readFresh; ((repeat' split) <;> (try dsimp only) <;> (repeat' split) <;> (first | ((repeat' split) <;> (first | (simp; done) | (simp only [Prod.ext_iff] at *; (casesm* _ ∧ _); subst_vars; simp; done) | (simp only [Prod.ext_iff, Option.some.injEq] at *; (casesm* _ ∧ _); subst_vars; simp; done) | (simp_all; done))) | (refine (State.hide_foldl (fun _ _ => ?_) _ _).trans ?_ <;> ((repeat' split) <;> (first | (simp; done) | (simp only [Prod.ext_iff] at *; (casesm* _ ∧ _); subst_vars; simp; done) | (simp only [Prod.ext_iff, Option.some.injEq] at *; (casesm* _ ∧ _); subst_vars; simp; done) | (simp_all; done)))) | (refine (State.hide_foldl_snd (fun _ _ => ?_) _ _).trans ?_ <;> ((repeat' split) <;> (first | (simp; done) | (simp only [Prod.ext_iff] at *; (casesm* _ ∧ _); subst_vars; simp; done) | (simp only [Prod.ext_iff, Option.some.injEq] at *; (casesm* _ ∧ _); subst_vars; simp; done) | (simp_all; done))))))
  exact State.hide_mono key hM

@[simp] theorem sessPut_frame {M : Nat} (hM : 8192 &&& M = 8192) (k : Nat) (v : Option Session) (s : State) : (sessPut k v s).hide M = s.hide M := by
  have key : (sessPut k v s).hide 8192 = s.hide 8192 := by
    unfold sessPut; ((repeat' split) <;> simp)
  exact State.hide_mono key hM

@[simp] theorem onSess_frame {M : Nat} (hM : 8192 &&& M = 8192) (k : Nat) (f : Session → Session) (s : State) : (onSess k f s).hide M = s.hide M := by
  have key : (onSess k f s).hide 8192 = s.hide 8192 := by
    unfold onSess; ((repeat' split) <;> simp)
  exact State.hide_mono key hM

@[simp] theorem sessionCloseWrite_frame {M : Nat} (hM : 8192 &&& M = 8192) (n : Nat) (s : State) : (sessionCloseWrite n s).hide M = s.hide M := by
  have key : (sessionCloseWrite n s).hide 8192 = s.hide 8192 := by
    unfold sessionCloseWrite; ((repeat' split) <;> simp)
  exact State.hide_mono key hM

@[simp] theorem roleKeyWrite_frame {M : Nat} (hM : 8192 &&& M = 8192) (code : Nat) (key : Bytes) (s : State) : (roleKeyWrite code key s).hide M = s.hide M := by
  have key : (roleKeyWrite code key s).hide 8192 = s.hide 8192 := by
    unfold roleKeyWrite; ((repeat' split) <;> (try dsimp only) <;> (repeat' split) <;> simp)
  exact State.hide_mono key hM

@[simp] theorem foghornKeyWrite_frame {M : Nat} (hM : 8192 &&& M = 8192) (key : Bytes) (s : State) : (foghornKeyWrite key s).hide M = s.hide M := by
  have key : (foghornKeyWrite key s).hide 8192 = s.hide 8192 := by
    unfold foghornKeyWrite; ((repeat' split) <;> simp)
  exact State.hide_mono key hM

@[simp] theorem mldReports_frame {M : Nat} (hM : 262144 &&& M = 262144) (kind : Nat) (group : Bytes) (s : State) : (mldReports kind group s).hide M = s.hide M := by
  have key : (mldReports kind group s).hide 262144 = s.hide 262144 := by
    unfold mldReports; ((repeat' split) <;> (try dsimp only) <;> (repeat' split) <;> (first | ((repeat' split) <;> (first | (simp; done) | (simp only [Prod.ext_iff] at *; (casesm* _ ∧ _); subst_vars; simp; done) | (simp only [Prod.ext_iff, Option.some.injEq] at *; (casesm* _ ∧ _); subst_vars; simp; done) | (simp_all; done))) | (refine (State.hide_foldl (fun _ _ => ?_) _ _).trans ?_ <;> ((repeat' split) <;> (first | (simp; done) | (simp only [Prod.ext_iff] at *; (casesm* _ ∧ _); subst_vars; simp; done) | (simp only [Prod.ext_iff, Option.some.injEq] at *; (casesm* _ ∧ _); subst_vars; simp; done) | (simp_all; done)))) | (refine (State.hide_foldl_snd (fun _ _ => ?_) _ _).trans ?_ <;> ((repeat' split) <;> (first | (simp; done) | (simp only [Prod.ext_iff] at *; (casesm* _ ∧ _); subst_vars; simp; done) | (simp only [Prod.ext_iff, Option.some.injEq] at *; (casesm* _ ∧ _); subst_vars; simp; done) | (simp_all; done))))))
  exact State.hide_mono key hM

@[simp] theorem domainIdWrite_frame {M : Nat} (hM : 401408 &&& M = 401408) (v : Nat) (s : State) : (domainIdWrite v s).hide M = s.hide M := by
  have key : (domainIdWrite v s).hide 401408 = s.hide 401408 := by
    unfold domainIdWrite; ((repeat' split) <;> (try dsimp only) <;> (repeat' split) <;> simp)
  exact State.hide_mono key hM

@[simp] theorem collectorWrite_frame {M : Nat} (hM : 8192 &&& M = 8192) (c : Nat) (address : Bytes) (s : State) : (collectorWrite c address s).hide M = s.hide M := by
  have key : (collectorWrite c address s).hide 8192 = s.hide 8192 := by
    unfold collectorWrite; ((repeat' split) <;> simp)
  exact State.hide_mono key hM

@[simp] theorem plainWrite_frame {M : Nat} (hM : 139360 &&& M = 139360) (idx sub n : Nat) (lo hi : Int) (isSigned : Bool) (v : Nat) (s : State) : (plainWrite idx sub n lo hi isSigned v s).hide M = s.hide M := by
  have key : (plainWrite idx sub n lo hi isSigned v s).hide 139360 = s.hide 139360 := by
    unfold plainWrite; ((repeat' split) <;> (try dsimp only) <;> (repeat' split) <;> simp)
  exact State.hide_mono key hM

@[simp] theorem baselineWrite_frame {M : Nat} (hM : 9216 &&& M = 9216) (m k : Nat) (v : Int) (s : State) : (baselineWrite m k v s).hide M = s.hide M := by
  have key : (baselineWrite m k v s).hide 9216 = s.hide 9216 := by
    unfold baselineWrite; ((repeat' split) <;> simp)
  exact State.hide_mono key hM

@[simp] theorem emtSeedsWrite_frame {M : Nat} (hM : 8208 &&& M = 8208) (d : Nat) (v : Bytes) (s : State) : (emtSeedsWrite d v s).hide M = s.hide M := by
  have key : (emtSeedsWrite d v s).hide 8208 = s.hide 8208 := by
    unfold emtSeedsWrite; ((repeat' split) <;> simp)
  exact State.hide_mono key hM

@[simp] theorem peerExpectWrite_frame {M : Nat} (hM : 139264 &&& M = 139264) (p : Nat) (v : Bytes) (s : State) : (peerExpectWrite p v s).hide M = s.hide M := by
  have key : (peerExpectWrite p v s).hide 139264 = s.hide 139264 := by
    unfold peerExpectWrite; ((repeat' split) <;> simp)
  exact State.hide_mono key hM

@[simp] theorem loopLanesWrite_frame {M : Nat} (hM : 943344 &&& M = 943344) (p v : Nat) (s : State) : (loopLanesWrite p v s).hide M = s.hide M := by
  have key : (loopLanesWrite p v s).hide 943344 = s.hide 943344 := by
    unfold loopLanesWrite; ((repeat' split) <;> (try dsimp only) <;> (repeat' split) <;> simp)
  exact State.hide_mono key hM

@[simp] theorem localAddrWrite_frame {M : Nat} (hM : 139264 &&& M = 139264) (n : Nat) (v : Bytes) (s : State) : (localAddrWrite n v s).hide M = s.hide M := by
  have key : (localAddrWrite n v s).hide 139264 = s.hide 139264 := by
    unfold localAddrWrite; ((repeat' split) <;> (try dsimp only) <;> (repeat' split) <;> simp)
  exact State.hide_mono key hM

@[simp] theorem groupCreateList_frame {M : Nat} (hM : 8320 &&& M = 8320) (l : List Bytes) (s : State) : (groupCreateList l s).2.hide M = s.hide M := by
  have key : (groupCreateList l s).2.hide 8320 = s.hide 8320 := by
    unfold groupCreateList; ((repeat' split) <;> (try dsimp only) <;> (repeat' split) <;> (first | ((repeat' split) <;> (first | (simp; done) | (simp only [Prod.ext_iff] at *; (casesm* _ ∧ _); subst_vars; simp; done) | (simp only [Prod.ext_iff, Option.some.injEq] at *; (casesm* _ ∧ _); subst_vars; simp; done) | (simp_all; done))) | (refine (State.hide_foldl (fun _ _ => ?_) _ _).trans ?_ <;> ((repeat' split) <;> (first | (simp; done) | (simp only [Prod.ext_iff] at *; (casesm* _ ∧ _); subst_vars; simp; done) | (simp only [Prod.ext_iff, Option.some.injEq] at *; (casesm* _ ∧ _); subst_vars; simp; done) | (simp_all; done)))) | (refine (State.hide_foldl_snd (fun _ _ => ?_) _ _).trans ?_ <;> ((repeat' split) <;> (first | (simp; done) | (simp only [Prod.ext_iff] at *; (casesm* _ ∧ _); subst_vars; simp; done) | (simp only [Prod.ext_iff, Option.some.injEq] at *; (casesm* _ ∧ _); subst_vars; simp; done) | (simp_all; done))))))
  exact State.hide_mono key hM

@[simp] theorem groupDeleteList_frame {M : Nat} (hM : 648096 &&& M = 648096) (l : List Nat) (s : State) : (groupDeleteList l s).2.hide M = s.hide M := by
  have key : (groupDeleteList l s).2.hide 648096 = s.hide 648096 := by
    unfold groupDeleteList; ((repeat' split) <;> (try dsimp only) <;> (repeat' split) <;> (first | ((repeat' split) <;> (first | (simp; done) | (simp only [Prod.ext_iff] at *; (casesm* _ ∧ _); subst_vars; simp; done) | (simp only [Prod.ext_iff, Option.some.injEq] at *; (casesm* _ ∧ _); subst_vars; simp; done) | (simp_all; done))) | (refine (State.hide_foldl (fun _ _ => ?_) _ _).trans ?_ <;> ((repeat' split) <;> (first | (simp; done) | (simp only [Prod.ext_iff] at *; (casesm* _ ∧ _); subst_vars; simp; done) | (simp only [Prod.ext_iff, Option.some.injEq] at *; (casesm* _ ∧ _); subst_vars; simp; done) | (simp_all; done)))) | (refine (State.hide_foldl_snd (fun _ _ => ?_) _ _).trans ?_ <;> ((repeat' split) <;> (first | (simp; done) | (simp only [Prod.ext_iff] at *; (casesm* _ ∧ _); subst_vars; simp; done) | (simp only [Prod.ext_iff, Option.some.injEq] at *; (casesm* _ ∧ _); subst_vars; simp; done) | (simp_all; done))))))
  exact State.hide_mono key hM

@[simp] theorem write00_frame {M : Nat} (hM : 8196 &&& M = 8196) (idx sub : Nat) (s : State) : (write00 idx sub s).hide M = s.hide M := by
  have key : (write00 idx sub s).hide 8196 = s.hide 8196 := by
    unfold write00; ((repeat' split) <;> simp)
  exact State.hide_mono key hM

@[simp] theorem write01_frame {M : Nat} (hM : 991240 &&& M = 991240) (sk idx sub : Nat) (v : Bytes) (s : State) : (write01 sk idx sub v s).hide M = s.hide M := by
  have key : (write01 sk idx sub v s).hide 991240 = s.hide 991240 := by
    unfold write01; ((repeat' split) <;> simp)
  exact State.hide_mono key hM

@[simp] theorem write04_frame {M : Nat} (hM : 943344 &&& M = 943344) (idx sub : Nat) (v : Bytes) (s : State) : (write04 idx sub v s).hide M = s.hide M := by
  refine State.hide_mono (m := 943344) ?_ hM
  unfold write04
  dsimp only
  (repeat' split) <;> first | (simp; done) | (rw [modeWrite_frame (by decide)]; intro s; simp; done)

@[simp] theorem write06_frame {M : Nat} (hM : 946416 &&& M = 946416) (idx sub : Nat) (v : Bytes) (s : State) : (write06 idx sub v s).hide M = s.hide M := by
  have key : (write06 idx sub v s).hide 946416 = s.hide 946416 := by
    unfold write06; ((repeat' split) <;> (try dsimp only) <;> (repeat' split) <;> simp)
  exact State.hide_mono key hM

@[simp] theorem write08_frame {M : Nat} (hM : 155664 &&& M = 155664) (idx sub : Nat) (v : Bytes) (s : State) : (write08 idx sub v s).hide M = s.hide M := by
  have key : (write08 idx sub v s).hide 155664 = s.hide 155664 := by
    unfold write08; ((repeat' split) <;> (try dsimp only) <;> (repeat' split) <;> simp)
  exact State.hide_mono key hM

@[simp] theorem write09_frame {M : Nat} (hM : 418032 &&& M = 418032) (idx sub : Nat) (v : Bytes) (s : State) : (write09 idx sub v s).hide M = s.hide M := by
  have key : (write09 idx sub v s).hide 418032 = s.hide 418032 := by
    unfold write09; ((repeat' split) <;> (try dsimp only) <;> (repeat' split) <;> simp)
  exact State.hide_mono key hM

@[simp] theorem write0A_frame {M : Nat} (hM : 779168 &&& M = 779168) (idx sub : Nat) (v : Bytes) (s : State) : (write0A idx sub v s).hide M = s.hide M := by
  have key : (write0A idx sub v s).hide 779168 = s.hide 779168 := by
    unfold write0A; ((repeat' split) <;> (first | simp | (refine (State.hide_foldl (fun _ _ => ?_) _ _).trans ?_ <;> simp) | (refine (State.hide_foldl_snd (fun _ _ => ?_) _ _).trans ?_ <;> simp)))
  exact State.hide_mono key hM

@[simp] theorem write0B_frame {M : Nat} (hM : 1044477 &&& M = 1044477) (idx sub : Nat) (v : Bytes) (s : State) : (write0B idx sub v s).hide M = s.hide M := by
  have key : (write0B idx sub v s).hide 1044477 = s.hide 1044477 := by
    unfold write0B; ((repeat' split) <;> (try dsimp only) <;> (repeat' split) <;> simp)
  exact State.hide_mono key hM

@[simp] theorem write0C_frame {M : Nat} (hM : 254464 &&& M = 254464) (idx sub : Nat) (v : Bytes) (s : State) : (write0C idx sub v s).hide M = s.hide M := by
  have key : (write0C idx sub v s).hide 254464 = s.hide 254464 := by
    unfold write0C; ((repeat' split) <;> (try dsimp only) <;> (repeat' split) <;> simp)
  exact State.hide_mono key hM

@[simp] theorem write0D_frame {M : Nat} (hM : 155650 &&& M = 155650) (idx sub : Nat) (v : Bytes) (s : State) : (write0D idx sub v s).hide M = s.hide M := by
  have key : (write0D idx sub v s).hide 155650 = s.hide 155650 := by
    unfold write0D; ((repeat' split) <;> simp)
  exact State.hide_mono key hM

@[simp] theorem write10_frame {M : Nat} (hM : 583685 &&& M = 583685) (idx sub : Nat) (v : Bytes) (s : State) : (write10 idx sub v s).hide M = s.hide M := by
  have key : (write10 idx sub v s).hide 583685 = s.hide 583685 := by
    unfold write10; ((repeat' split) <;> simp)
  exact State.hide_mono key hM

@[simp] theorem write1F_frame {M : Nat} (hM : 548882 &&& M = 548882) (r : Role) (sk sub : Nat) (v : Bytes) (s : State) : (write1F r sk sub v s).hide M = s.hide M := by
  have key : (write1F r sk sub v s).hide 548882 = s.hide 548882 := by
    unfold write1F; ((repeat' split) <;> simp)
  exact State.hide_mono key hM

@[simp] theorem objEffect_frame {M : Nat} (hM : 1048575 &&& M = 1048575) (r : Role) (sk idx sub : Nat) (v : Bytes) (s : State) : (objEffect r sk idx sub v s).hide M = s.hide M := by
  have key : (objEffect r sk idx sub v s).hide 1048575 = s.hide 1048575 := by
    unfold objEffect; ((repeat' split) <;> simp)
  exact State.hide_mono key hM

@[simp] theorem objWrite_frame {M : Nat} (hM : 1048575 &&& M = 1048575) (r : Role) (sk idx sub : Nat) (v : Bytes) (s : State) : (objWrite r sk idx sub v s).hide M = s.hide M := by
  have key : (objWrite r sk idx sub v s).hide 1048575 = s.hide 1048575 := by
    unfold objWrite; ((repeat' split) <;> (try dsimp only) <;> (repeat' split) <;> simp)
  exact State.hide_mono key hM

@[simp] theorem bopDrop_frame {M : Nat} (hM : 16384 &&& M = 16384) (s : State) : (bopDrop s).hide M = s.hide M := by
  have key : (bopDrop s).hide 16384 = s.hide 16384 := by
    unfold bopDrop; simp
  exact State.hide_mono key hM

@[simp] theorem keyReply_frame {M : Nat} (hM : 262144 &&& M = 262144) (mp source seq status : Nat) (key : Bytes) (s : State) : (keyReply mp source seq status key s).hide M = s.hide M := by
  have key : (keyReply mp source seq status key s).hide 262144 = s.hide 262144 := by
    unfold keyReply; simp
  exact State.hide_mono key hM

@[simp] theorem keyInstall_frame {M : Nat} (hM : 286720 &&& M = 286720) (mp source : Nat) (d : Bytes) (s : State) : (keyInstall mp source d s).hide M = s.hide M := by
  have key : (keyInstall mp source d s).hide 286720 = s.hide 286720 := by
    unfold keyInstall; ((repeat' split) <;> (try dsimp only) <;> (repeat' split) <;> simp)
  exact State.hide_mono key hM

@[simp] theorem openReply_frame {M : Nat} (hM : 262144 &&& M = 262144) (mp source seq status session : Nat) (nonce key : Bytes) (s : State) : (openReply mp source seq status session nonce key s).hide M = s.hide M := by
  have key : (openReply mp source seq status session nonce key s).hide 262144 = s.hide 262144 := by
    unfold openReply; simp
  exact State.hide_mono key hM

@[simp] theorem openMessage_frame {M : Nat} (hM : 811008 &&& M = 811008) (mp source : Nat) (d : Bytes) (s : State) : (openMessage mp source d s).hide M = s.hide M := by
  refine State.hide_mono (m := 811008) ?_ hM
  unfold openMessage
  (repeat' split) <;> (try dsimp only) <;> (repeat' split) <;> first | (simp; done) | (have := takeNumber_frame (M := 811008) (by decide) (by assumption); simp_all; done)

@[simp] theorem closeMessage_frame {M : Nat} (hM : 24576 &&& M = 24576) (d : Bytes) (s : State) : (closeMessage d s).hide M = s.hide M := by
  have key : (closeMessage d s).hide 24576 = s.hide 24576 := by
    unfold closeMessage; ((repeat' split) <;> simp)
  exact State.hide_mono key hM

@[simp] theorem opRead_frame {M : Nat} (hM : 554010 &&& M = 554010) (r : Role) (sk : Nat) (o : BopOp) (isList : Bool) (room : Nat) (s : State) : (opRead r sk o isList room s).2.hide M = s.hide M := by
  have key : (opRead r sk o isList room s).2.hide 554010 = s.hide 554010 := by
    unfold opRead; ((repeat' split) <;> (try dsimp only) <;> (repeat' split) <;> (first | (simp; done) | (simp only [Prod.ext_iff] at *; (casesm* _ ∧ _); subst_vars; simp; done) | (simp only [Prod.ext_iff, Option.some.injEq] at *; (casesm* _ ∧ _); subst_vars; simp; done) | (simp_all; done)))
  exact State.hide_mono key hM

@[simp] theorem opRun_frame {M : Nat} (hM : 1048575 &&& M = 1048575) (r : Role) (sk : Nat) (o : BopOp) (room : Nat) (s : State) : (opRun r sk o room s).2.hide M = s.hide M := by
  refine State.hide_mono (m := 1048575) ?_ hM
  unfold opRun
  dsimp only
  split <;> (try dsimp only) <;> (repeat' split) <;> simp

@[simp] theorem withBatch_frame {M : Nat} (hM : 131168 &&& M = 131168) (l : List (Nat × Nat × Nat)) (s : State) : (withBatch l s).hide M = s.hide M := by
  have key : (withBatch l s).hide 131168 = s.hide 131168 := by
    unfold withBatch; (first | simp | (refine (State.hide_foldl (fun _ _ => ?_) _ _).trans ?_ <;> simp) | (refine (State.hide_foldl_snd (fun _ _ => ?_) _ _).trans ?_ <;> simp))
  exact State.hide_mono key hM

@[simp] theorem takeRecords_frame {M : Nat} (hM : 648096 &&& M = 648096) (o : BopOp) (l : List Bytes) (s : State) : (takeRecords o l s).2.hide M = s.hide M := by
  have key : (takeRecords o l s).2.hide 648096 = s.hide 648096 := by
    unfold takeRecords; ((repeat' split) <;> simp)
  exact State.hide_mono key hM

@[simp] theorem recordTurn_frame {M : Nat} (hM : 648096 &&& M = 648096) (role : Role) (stop : Bool) (room : Nat) (o : BopOp) (r : Run) (s : State) : (recordTurn role stop room o r s).2.hide M = s.hide M := by
  have key : (recordTurn role stop room o r s).2.hide 648096 = s.hide 648096 := by
    unfold recordTurn; ((repeat' split) <;> (try dsimp only) <;> (repeat' split) <;> (first | (simp; done) | (simp only [Prod.ext_iff] at *; (casesm* _ ∧ _); subst_vars; simp; done) | (simp only [Prod.ext_iff, Option.some.injEq] at *; (casesm* _ ∧ _); subst_vars; simp; done) | (simp_all; done)))
  exact State.hide_mono key hM

@[simp] theorem runTurn_frame {M : Nat} (hM : 1048575 &&& M = 1048575) (role : Role) (sk : Nat) (stop : Bool) (o : BopOp) (r : Run) (s : State) : (runTurn role sk stop o r s).2.hide M = s.hide M := by
  have key : (runTurn role sk stop o r s).2.hide 1048575 = s.hide 1048575 := by
    unfold runTurn; ((repeat' split) <;> simp)
  exact State.hide_mono key hM

@[simp] theorem sendReply_frame {M : Nat} (hM : 262144 &&& M = 262144) (mp source sk seq : Nat) (x : Session) (key body : Bytes) (s : State) : (sendReply mp source sk seq x key body s).hide M = s.hide M := by
  have key : (sendReply mp source sk seq x key body s).hide 262144 = s.hide 262144 := by
    unfold sendReply; ((repeat' split) <;> (try dsimp only) <;> (repeat' split) <;> (first | ((repeat' split) <;> (first | (simp; done) | (simp only [Prod.ext_iff] at *; (casesm* _ ∧ _); subst_vars; simp; done) | (simp only [Prod.ext_iff, Option.some.injEq] at *; (casesm* _ ∧ _); subst_vars; simp; done) | (simp_all; done))) | (refine (State.hide_foldl (fun _ _ => ?_) _ _).trans ?_ <;> ((repeat' split) <;> (first | (simp; done) | (simp only [Prod.ext_iff] at *; (casesm* _ ∧ _); subst_vars; simp; done) | (simp only [Prod.ext_iff, Option.some.injEq] at *; (casesm* _ ∧ _); subst_vars; simp; done) | (simp_all; done)))) | (refine (State.hide_foldl_snd (fun _ _ => ?_) _ _).trans ?_ <;> ((repeat' split) <;> (first | (simp; done) | (simp only [Prod.ext_iff] at *; (casesm* _ ∧ _); subst_vars; simp; done) | (simp only [Prod.ext_iff, Option.some.injEq] at *; (casesm* _ ∧ _); subst_vars; simp; done) | (simp_all; done))))))
  exact State.hide_mono key hM

@[simp] theorem requestIn_frame {M : Nat} (hM : 286720 &&& M = 286720) (mp source sk : Nat) (key d : Bytes) (s : State) : (requestIn mp source sk key d s).hide M = s.hide M := by
  refine State.hide_mono (m := 286720) ?_ hM
  generalize hp : requestIn mp source sk key d s = t
  unfold requestIn at hp
  split at hp
  · subst hp; simp
  · extract_lets q now x at hp
    (repeat' split at hp) <;> (try extract_lets at hp) <;> (repeat' split at hp) <;> (try extract_lets at hp) <;> (repeat' split at hp) <;> (try extract_lets at hp) <;> (repeat' split at hp) <;> subst hp <;> simp

@[simp] theorem requestFragment_frame {M : Nat} (hM : 286720 &&& M = 286720) (mp source : Nat) (d : Bytes) (s : State) : (requestFragment mp source d s).hide M = s.hide M := by
  have key : (requestFragment mp source d s).hide 286720 = s.hide 286720 := by
    unfold requestFragment; ((repeat' split) <;> simp)
  exact State.hide_mono key hM

@[simp] theorem completeRequest_frame {M : Nat} (hM : 401504 &&& M = 401504) (sk : Nat) (q : Request) (r : Run) (s : State) : (completeRequest sk q r s).hide M = s.hide M := by
  have key : (completeRequest sk q r s).hide 401504 = s.hide 401504 := by
    unfold completeRequest; ((repeat' split) <;> (try dsimp only) <;> (repeat' split) <;> simp)
  exact State.hide_mono key hM

@[simp] theorem sessionTurn_frame {M : Nat} (hM : 1048575 &&& M = 1048575) (sk : Nat) (s : State) : (sessionTurn sk s).hide M = s.hide M := by
  have key : (sessionTurn sk s).hide 1048575 = s.hide 1048575 := by
    unfold sessionTurn; ((repeat' split) <;> (try dsimp only) <;> (repeat' split) <;> simp)
  exact State.hide_mono key hM

@[simp] theorem roundTurn_frame {M : Nat} (hM : 1048575 &&& M = 1048575) (s : State) : (roundTurn s).hide M = s.hide M := by
  have key : (roundTurn s).hide 1048575 = s.hide 1048575 := by
    unfold roundTurn; ((repeat' split) <;> simp)
  exact State.hide_mono key hM

@[simp] theorem serveUntil_frame {M : Nat} (hM : 1048575 &&& M = 1048575) (sk seq : Nat) (y0 : Nat) (s : State) : (serveUntil sk seq y0 s).hide M = s.hide M := by
  have key : (serveUntil sk seq y0 s).hide 1048575 = s.hide 1048575 := by
    fun_induction serveUntil sk seq y0 s <;> ((repeat' split) <;> simp_all)
  exact State.hide_mono key hM

@[simp] theorem serveRequest_frame {M : Nat} (hM : 1048575 &&& M = 1048575) (sk : Nat) (s : State) : (serveRequest sk s).hide M = s.hide M := by
  have key : (serveRequest sk s).hide 1048575 = s.hide 1048575 := by
    unfold serveRequest; ((repeat' split) <;> simp)
  exact State.hide_mono key hM

@[simp] theorem requestExecute_frame {M : Nat} (hM : 1048575 &&& M = 1048575) (k : Nat) (s : State) : (requestExecute k s).hide M = s.hide M := by
  have key : (requestExecute k s).hide 1048575 = s.hide 1048575 := by
    unfold requestExecute; ((repeat' split) <;> simp)
  exact State.hide_mono key hM

@[simp] theorem domainRequest_frame {M : Nat} (hM : 1048575 &&& M = 1048575) (mp source : Nat) (d : Bytes) (s : State) : (domainRequest mp source d s).hide M = s.hide M := by
  have key : (domainRequest mp source d s).hide 1048575 = s.hide 1048575 := by
    unfold domainRequest; ((repeat' split) <;> (try dsimp only) <;> (repeat' split) <;> simp)
  exact State.hide_mono key hM

@[simp] theorem onCollector_frame {M : Nat} (hM : 8192 &&& M = 8192) (c : Nat) (f : Collector → Collector) (s : State) : (onCollector c f s).hide M = s.hide M := by
  have key : (onCollector c f s).hide 8192 = s.hide 8192 := by
    unfold onCollector; simp
  exact State.hide_mono key hM

@[simp] theorem sendEvents_frame {M : Nat} (hM : 262144 &&& M = 262144) (c : Nat) (y0 : Nat) (y1 : List Event) (s : State) : (sendEvents c y0 y1 s).hide M = s.hide M := by
  have key : (sendEvents c y0 y1 s).hide 262144 = s.hide 262144 := by
    fun_induction sendEvents c y0 y1 s <;> ((repeat' split) <;> simp_all)
  exact State.hide_mono key hM

@[simp] theorem foghornSend_frame {M : Nat} (hM : 270336 &&& M = 270336) (c : Nat) (s : State) : (foghornSend c s).hide M = s.hide M := by
  have key : (foghornSend c s).hide 270336 = s.hide 270336 := by
    unfold foghornSend; ((repeat' split) <;> (try dsimp only) <;> (repeat' split) <;> simp)
  exact State.hide_mono key hM

@[simp] theorem foghornAck_frame {M : Nat} (hM : 8192 &&& M = 8192) (c : Nat) (d : Bytes) (s : State) : (foghornAck c d s).hide M = s.hide M := by
  have key : (foghornAck c d s).hide 8192 = s.hide 8192 := by
    unfold foghornAck; ((repeat' split) <;> simp)
  exact State.hide_mono key hM

@[simp] theorem tick_frame {M : Nat} (hM : 1048575 &&& M = 1048575) (s : State) : (tick s).hide M = s.hide M := by
  have key : (tick s).hide 1048575 = s.hide 1048575 := by
    unfold tick; ((repeat' split) <;> (try dsimp only) <;> (repeat' split) <;> simp)
  exact State.hide_mono key hM

@[simp] theorem State_withFetchWord_frame {M : Nat} (hM : 1048576 &&& M = 1048576) (s : State) (nbits w : Nat) : (State.withFetchWord s nbits w).hide M = s.hide M := by
  have key : (State.withFetchWord s nbits w).hide 1048576 = s.hide 1048576 := by
    unfold State.withFetchWord; ((repeat' split) <;> simp)
  exact State.hide_mono key hM

end Sys2Proof.Machine
end

