-- ==== Sys2Proof/Laws/State.lean ====
section
/-! SUPPORT. One lemma per field of the state per update, true by definition, so that no proof unfolds a record update; and what
the shared reads of the clocks, of presence and of plain objects give after an update of another part. -/

namespace Sys2Proof.Machine

section
variable (s : State) (f : Power → Power)
@[simp] theorem State.onPower_power : (s.onPower f).power = f s.power := rfl
@[simp] theorem State.onPower_time : (s.onPower f).time = s.time := rfl
@[simp] theorem State.onPower_start : (s.onPower f).start = s.start := rfl
@[simp] theorem State.onPower_keeper : (s.onPower f).keeper = s.keeper := rfl
@[simp] theorem State.onPower_tables : (s.onPower f).tables = s.tables := rfl
@[simp] theorem State.onPower_switch : (s.onPower f).switch = s.switch := rfl
@[simp] theorem State.onPower_flow : (s.onPower f).flow = s.flow := rfl
@[simp] theorem State.onPower_coll : (s.onPower f).coll = s.coll := rfl
@[simp] theorem State.onPower_fabric : (s.onPower f).fabric = s.fabric := rfl
@[simp] theorem State.onPower_resident : (s.onPower f).resident = s.resident := rfl
@[simp] theorem State.onPower_optics : (s.onPower f).optics = s.optics := rfl
@[simp] theorem State.onPower_express : (s.onPower f).express = s.express := rfl
@[simp] theorem State.onPower_mgmt : (s.onPower f).mgmt = s.mgmt := rfl
@[simp] theorem State.onPower_bop : (s.onPower f).bop = s.bop := rfl
@[simp] theorem State.onPower_regs : (s.onPower f).regs = s.regs := rfl
@[simp] theorem State.onPower_ras : (s.onPower f).ras = s.ras := rfl
@[simp] theorem State.onPower_mem : (s.onPower f).mem = s.mem := rfl
@[simp] theorem State.onPower_obj : (s.onPower f).obj = s.obj := rfl
@[simp] theorem State.onPower_out : (s.onPower f).out = s.out := rfl
@[simp] theorem State.onPower_free : (s.onPower f).free = s.free := rfl
@[simp] theorem State.onPower_gens : (s.onPower f).gens = s.gens := rfl
@[simp] theorem State.onPower_pending : (s.onPower f).pending = s.pending := rfl
@[simp] theorem State.onPower_nowNs : nowNs (s.onPower f) = nowNs s := rfl
@[simp] theorem State.onPower_wallNs : wallNs (s.onPower f) = wallNs s := rfl
@[simp] theorem State.onPower_tmuNs : tmuNs (s.onPower f) = tmuNs s := rfl
@[simp] theorem State.onPower_tmuFrac : tmuFrac (s.onPower f) = tmuFrac s := rfl
@[simp] theorem State.onPower_clocksRun : clocksRun (s.onPower f) = clocksRun s := rfl
@[simp] theorem State.onPower_isS : isS (s.onPower f) = isS s := rfl
@[simp] theorem State.onPower_keeperUp : keeperUp (s.onPower f) = keeperUp s := rfl
@[simp] theorem State.onPower_isUp : isUp (s.onPower f) = isUp s := rfl
@[simp] theorem State.onPower_diesUp : diesUp (s.onPower f) = diesUp s := rfl
@[simp] theorem State.onPower_folFixed (d : Nat) : folFixed (s.onPower f) d = folFixed s d := rfl
@[simp] theorem State.onPower_folNs (d : Nat) : folNs (s.onPower f) d = folNs s d := rfl
@[simp] theorem State.onPower_dieUp (d : Nat) : dieUp (s.onPower f) d = dieUp s d := rfl
@[simp] theorem State.onPower_tileUp (d t : Nat) : tileUp (s.onPower f) d t = tileUp s d t := rfl
@[simp] theorem State.onPower_objGet (i j d : Nat) : objGet (s.onPower f) i j d = objGet s i j d := rfl
end

section
variable (s : State) (f : Time → Time)
@[simp] theorem State.onTime_power : (s.onTime f).power = s.power := rfl
@[simp] theorem State.onTime_time : (s.onTime f).time = f s.time := rfl
@[simp] theorem State.onTime_start : (s.onTime f).start = s.start := rfl
@[simp] theorem State.onTime_keeper : (s.onTime f).keeper = s.keeper := rfl
@[simp] theorem State.onTime_tables : (s.onTime f).tables = s.tables := rfl
@[simp] theorem State.onTime_switch : (s.onTime f).switch = s.switch := rfl
@[simp] theorem State.onTime_flow : (s.onTime f).flow = s.flow := rfl
@[simp] theorem State.onTime_coll : (s.onTime f).coll = s.coll := rfl
@[simp] theorem State.onTime_fabric : (s.onTime f).fabric = s.fabric := rfl
@[simp] theorem State.onTime_resident : (s.onTime f).resident = s.resident := rfl
@[simp] theorem State.onTime_optics : (s.onTime f).optics = s.optics := rfl
@[simp] theorem State.onTime_express : (s.onTime f).express = s.express := rfl
@[simp] theorem State.onTime_mgmt : (s.onTime f).mgmt = s.mgmt := rfl
@[simp] theorem State.onTime_bop : (s.onTime f).bop = s.bop := rfl
@[simp] theorem State.onTime_regs : (s.onTime f).regs = s.regs := rfl
@[simp] theorem State.onTime_ras : (s.onTime f).ras = s.ras := rfl
@[simp] theorem State.onTime_mem : (s.onTime f).mem = s.mem := rfl
@[simp] theorem State.onTime_obj : (s.onTime f).obj = s.obj := rfl
@[simp] theorem State.onTime_out : (s.onTime f).out = s.out := rfl
@[simp] theorem State.onTime_free : (s.onTime f).free = s.free := rfl
@[simp] theorem State.onTime_gens : (s.onTime f).gens = s.gens := rfl
@[simp] theorem State.onTime_pending : (s.onTime f).pending = s.pending := rfl
@[simp] theorem State.onTime_clocksRun : clocksRun (s.onTime f) = clocksRun s := rfl
@[simp] theorem State.onTime_isS : isS (s.onTime f) = isS s := rfl
@[simp] theorem State.onTime_keeperUp : keeperUp (s.onTime f) = keeperUp s := rfl
@[simp] theorem State.onTime_isUp : isUp (s.onTime f) = isUp s := rfl
@[simp] theorem State.onTime_diesUp : diesUp (s.onTime f) = diesUp s := rfl
@[simp] theorem State.onTime_dieUp (d : Nat) : dieUp (s.onTime f) d = dieUp s d := rfl
@[simp] theorem State.onTime_tileUp (d t : Nat) : tileUp (s.onTime f) d t = tileUp s d t := rfl
@[simp] theorem State.onTime_objGet (i j d : Nat) : objGet (s.onTime f) i j d = objGet s i j d := rfl
end

section
variable (s : State) (f : Start → Start)
@[simp] theorem State.onStart_power : (s.onStart f).power = s.power := rfl
@[simp] theorem State.onStart_time : (s.onStart f).time = s.time := rfl
@[simp] theorem State.onStart_start : (s.onStart f).start = f s.start := rfl
@[simp] theorem State.onStart_keeper : (s.onStart f).keeper = s.keeper := rfl
@[simp] theorem State.onStart_tables : (s.onStart f).tables = s.tables := rfl
@[simp] theorem State.onStart_switch : (s.onStart f).switch = s.switch := rfl
@[simp] theorem State.onStart_flow : (s.onStart f).flow = s.flow := rfl
@[simp] theorem State.onStart_coll : (s.onStart f).coll = s.coll := rfl
@[simp] theorem State.onStart_fabric : (s.onStart f).fabric = s.fabric := rfl
@[simp] theorem State.onStart_resident : (s.onStart f).resident = s.resident := rfl
@[simp] theorem State.onStart_optics : (s.onStart f).optics = s.optics := rfl
@[simp] theorem State.onStart_express : (s.onStart f).express = s.express := rfl
@[simp] theorem State.onStart_mgmt : (s.onStart f).mgmt = s.mgmt := rfl
@[simp] theorem State.onStart_bop : (s.onStart f).bop = s.bop := rfl
@[simp] theorem State.onStart_regs : (s.onStart f).regs = s.regs := rfl
@[simp] theorem State.onStart_ras : (s.onStart f).ras = s.ras := rfl
@[simp] theorem State.onStart_mem : (s.onStart f).mem = s.mem := rfl
@[simp] theorem State.onStart_obj : (s.onStart f).obj = s.obj := rfl
@[simp] theorem State.onStart_out : (s.onStart f).out = s.out := rfl
@[simp] theorem State.onStart_free : (s.onStart f).free = s.free := rfl
@[simp] theorem State.onStart_gens : (s.onStart f).gens = s.gens := rfl
@[simp] theorem State.onStart_pending : (s.onStart f).pending = s.pending := rfl
@[simp] theorem State.onStart_nowNs : nowNs (s.onStart f) = nowNs s := rfl
@[simp] theorem State.onStart_wallNs : wallNs (s.onStart f) = wallNs s := rfl
@[simp] theorem State.onStart_tmuNs : tmuNs (s.onStart f) = tmuNs s := rfl
@[simp] theorem State.onStart_tmuFrac : tmuFrac (s.onStart f) = tmuFrac s := rfl
@[simp] theorem State.onStart_folFixed (d : Nat) : folFixed (s.onStart f) d = folFixed s d := rfl
@[simp] theorem State.onStart_folNs (d : Nat) : folNs (s.onStart f) d = folNs s d := rfl

@[simp] theorem State.onStart_objGet (i j d : Nat) : objGet (s.onStart f) i j d = objGet s i j d := rfl
end

section
variable (s : State) (f : Keeper → Keeper)
@[simp] theorem State.onKeeper_power : (s.onKeeper f).power = s.power := rfl
@[simp] theorem State.onKeeper_time : (s.onKeeper f).time = s.time := rfl
@[simp] theorem State.onKeeper_start : (s.onKeeper f).start = s.start := rfl
@[simp] theorem State.onKeeper_keeper : (s.onKeeper f).keeper = f s.keeper := rfl
@[simp] theorem State.onKeeper_tables : (s.onKeeper f).tables = s.tables := rfl
@[simp] theorem State.onKeeper_switch : (s.onKeeper f).switch = s.switch := rfl
@[simp] theorem State.onKeeper_flow : (s.onKeeper f).flow = s.flow := rfl
@[simp] theorem State.onKeeper_coll : (s.onKeeper f).coll = s.coll := rfl
@[simp] theorem State.onKeeper_fabric : (s.onKeeper f).fabric = s.fabric := rfl
@[simp] theorem State.onKeeper_resident : (s.onKeeper f).resident = s.resident := rfl
@[simp] theorem State.onKeeper_optics : (s.onKeeper f).optics = s.optics := rfl
@[simp] theorem State.onKeeper_express : (s.onKeeper f).express = s.express := rfl
@[simp] theorem State.onKeeper_mgmt : (s.onKeeper f).mgmt = s.mgmt := rfl
@[simp] theorem State.onKeeper_bop : (s.onKeeper f).bop = s.bop := rfl
@[simp] theorem State.onKeeper_regs : (s.onKeeper f).regs = s.regs := rfl
@[simp] theorem State.onKeeper_ras : (s.onKeeper f).ras = s.ras := rfl
@[simp] theorem State.onKeeper_mem : (s.onKeeper f).mem = s.mem := rfl
@[simp] theorem State.onKeeper_obj : (s.onKeeper f).obj = s.obj := rfl
@[simp] theorem State.onKeeper_out : (s.onKeeper f).out = s.out := rfl
@[simp] theorem State.onKeeper_free : (s.onKeeper f).free = s.free := rfl
@[simp] theorem State.onKeeper_gens : (s.onKeeper f).gens = s.gens := rfl
@[simp] theorem State.onKeeper_pending : (s.onKeeper f).pending = s.pending := rfl
@[simp] theorem State.onKeeper_nowNs : nowNs (s.onKeeper f) = nowNs s := rfl
@[simp] theorem State.onKeeper_wallNs : wallNs (s.onKeeper f) = wallNs s := rfl
@[simp] theorem State.onKeeper_tmuNs : tmuNs (s.onKeeper f) = tmuNs s := rfl
@[simp] theorem State.onKeeper_tmuFrac : tmuFrac (s.onKeeper f) = tmuFrac s := rfl
@[simp] theorem State.onKeeper_clocksRun : clocksRun (s.onKeeper f) = clocksRun s := rfl
@[simp] theorem State.onKeeper_isS : isS (s.onKeeper f) = isS s := rfl
@[simp] theorem State.onKeeper_keeperUp : keeperUp (s.onKeeper f) = keeperUp s := rfl
@[simp] theorem State.onKeeper_isUp : isUp (s.onKeeper f) = isUp s := rfl
@[simp] theorem State.onKeeper_diesUp : diesUp (s.onKeeper f) = diesUp s := rfl
@[simp] theorem State.onKeeper_folFixed (d : Nat) : folFixed (s.onKeeper f) d = folFixed s d := rfl
@[simp] theorem State.onKeeper_folNs (d : Nat) : folNs (s.onKeeper f) d = folNs s d := rfl
@[simp] theorem State.onKeeper_dieUp (d : Nat) : dieUp (s.onKeeper f) d = dieUp s d := rfl
@[simp] theorem State.onKeeper_tileUp (d t : Nat) : tileUp (s.onKeeper f) d t = tileUp s d t := rfl
@[simp] theorem State.onKeeper_objGet (i j d : Nat) : objGet (s.onKeeper f) i j d = objGet s i j d := rfl
end

section
variable (s : State) (f : Tables → Tables)
@[simp] theorem State.onTables_power : (s.onTables f).power = s.power := rfl
@[simp] theorem State.onTables_time : (s.onTables f).time = s.time := rfl
@[simp] theorem State.onTables_start : (s.onTables f).start = s.start := rfl
@[simp] theorem State.onTables_keeper : (s.onTables f).keeper = s.keeper := rfl
@[simp] theorem State.onTables_tables : (s.onTables f).tables = f s.tables := rfl
@[simp] theorem State.onTables_switch : (s.onTables f).switch = s.switch := rfl
@[simp] theorem State.onTables_flow : (s.onTables f).flow = s.flow := rfl
@[simp] theorem State.onTables_coll : (s.onTables f).coll = s.coll := rfl
@[simp] theorem State.onTables_fabric : (s.onTables f).fabric = s.fabric := rfl
@[simp] theorem State.onTables_resident : (s.onTables f).resident = s.resident := rfl
@[simp] theorem State.onTables_optics : (s.onTables f).optics = s.optics := rfl
@[simp] theorem State.onTables_express : (s.onTables f).express = s.express := rfl
@[simp] theorem State.onTables_mgmt : (s.onTables f).mgmt = s.mgmt := rfl
@[simp] theorem State.onTables_bop : (s.onTables f).bop = s.bop := rfl
@[simp] theorem State.onTables_regs : (s.onTables f).regs = s.regs := rfl
@[simp] theorem State.onTables_ras : (s.onTables f).ras = s.ras := rfl
@[simp] theorem State.onTables_mem : (s.onTables f).mem = s.mem := rfl
@[simp] theorem State.onTables_obj : (s.onTables f).obj = s.obj := rfl
@[simp] theorem State.onTables_out : (s.onTables f).out = s.out := rfl
@[simp] theorem State.onTables_free : (s.onTables f).free = s.free := rfl
@[simp] theorem State.onTables_gens : (s.onTables f).gens = s.gens := rfl
@[simp] theorem State.onTables_pending : (s.onTables f).pending = s.pending := rfl
@[simp] theorem State.onTables_nowNs : nowNs (s.onTables f) = nowNs s := rfl
@[simp] theorem State.onTables_wallNs : wallNs (s.onTables f) = wallNs s := rfl
@[simp] theorem State.onTables_tmuNs : tmuNs (s.onTables f) = tmuNs s := rfl
@[simp] theorem State.onTables_tmuFrac : tmuFrac (s.onTables f) = tmuFrac s := rfl
@[simp] theorem State.onTables_clocksRun : clocksRun (s.onTables f) = clocksRun s := rfl
@[simp] theorem State.onTables_isS : isS (s.onTables f) = isS s := rfl
@[simp] theorem State.onTables_keeperUp : keeperUp (s.onTables f) = keeperUp s := rfl
@[simp] theorem State.onTables_isUp : isUp (s.onTables f) = isUp s := rfl
@[simp] theorem State.onTables_diesUp : diesUp (s.onTables f) = diesUp s := rfl
@[simp] theorem State.onTables_folFixed (d : Nat) : folFixed (s.onTables f) d = folFixed s d := rfl
@[simp] theorem State.onTables_folNs (d : Nat) : folNs (s.onTables f) d = folNs s d := rfl
@[simp] theorem State.onTables_dieUp (d : Nat) : dieUp (s.onTables f) d = dieUp s d := rfl
@[simp] theorem State.onTables_tileUp (d t : Nat) : tileUp (s.onTables f) d t = tileUp s d t := rfl
@[simp] theorem State.onTables_objGet (i j d : Nat) : objGet (s.onTables f) i j d = objGet s i j d := rfl
end

section
variable (s : State) (f : Switch → Switch)
@[simp] theorem State.onSwitch_power : (s.onSwitch f).power = s.power := rfl
@[simp] theorem State.onSwitch_time : (s.onSwitch f).time = s.time := rfl
@[simp] theorem State.onSwitch_start : (s.onSwitch f).start = s.start := rfl
@[simp] theorem State.onSwitch_keeper : (s.onSwitch f).keeper = s.keeper := rfl
@[simp] theorem State.onSwitch_tables : (s.onSwitch f).tables = s.tables := rfl
@[simp] theorem State.onSwitch_switch : (s.onSwitch f).switch = f s.switch := rfl
@[simp] theorem State.onSwitch_flow : (s.onSwitch f).flow = s.flow := rfl
@[simp] theorem State.onSwitch_coll : (s.onSwitch f).coll = s.coll := rfl
@[simp] theorem State.onSwitch_fabric : (s.onSwitch f).fabric = s.fabric := rfl
@[simp] theorem State.onSwitch_resident : (s.onSwitch f).resident = s.resident := rfl
@[simp] theorem State.onSwitch_optics : (s.onSwitch f).optics = s.optics := rfl
@[simp] theorem State.onSwitch_express : (s.onSwitch f).express = s.express := rfl
@[simp] theorem State.onSwitch_mgmt : (s.onSwitch f).mgmt = s.mgmt := rfl
@[simp] theorem State.onSwitch_bop : (s.onSwitch f).bop = s.bop := rfl
@[simp] theorem State.onSwitch_regs : (s.onSwitch f).regs = s.regs := rfl
@[simp] theorem State.onSwitch_ras : (s.onSwitch f).ras = s.ras := rfl
@[simp] theorem State.onSwitch_mem : (s.onSwitch f).mem = s.mem := rfl
@[simp] theorem State.onSwitch_obj : (s.onSwitch f).obj = s.obj := rfl
@[simp] theorem State.onSwitch_out : (s.onSwitch f).out = s.out := rfl
@[simp] theorem State.onSwitch_free : (s.onSwitch f).free = s.free := rfl
@[simp] theorem State.onSwitch_gens : (s.onSwitch f).gens = s.gens := rfl
@[simp] theorem State.onSwitch_pending : (s.onSwitch f).pending = s.pending := rfl
@[simp] theorem State.onSwitch_nowNs : nowNs (s.onSwitch f) = nowNs s := rfl
@[simp] theorem State.onSwitch_wallNs : wallNs (s.onSwitch f) = wallNs s := rfl
@[simp] theorem State.onSwitch_tmuNs : tmuNs (s.onSwitch f) = tmuNs s := rfl
@[simp] theorem State.onSwitch_tmuFrac : tmuFrac (s.onSwitch f) = tmuFrac s := rfl
@[simp] theorem State.onSwitch_clocksRun : clocksRun (s.onSwitch f) = clocksRun s := rfl
@[simp] theorem State.onSwitch_isS : isS (s.onSwitch f) = isS s := rfl
@[simp] theorem State.onSwitch_keeperUp : keeperUp (s.onSwitch f) = keeperUp s := rfl
@[simp] theorem State.onSwitch_isUp : isUp (s.onSwitch f) = isUp s := rfl
@[simp] theorem State.onSwitch_diesUp : diesUp (s.onSwitch f) = diesUp s := rfl
@[simp] theorem State.onSwitch_folFixed (d : Nat) : folFixed (s.onSwitch f) d = folFixed s d := rfl
@[simp] theorem State.onSwitch_folNs (d : Nat) : folNs (s.onSwitch f) d = folNs s d := rfl
@[simp] theorem State.onSwitch_dieUp (d : Nat) : dieUp (s.onSwitch f) d = dieUp s d := rfl
@[simp] theorem State.onSwitch_tileUp (d t : Nat) : tileUp (s.onSwitch f) d t = tileUp s d t := rfl
@[simp] theorem State.onSwitch_objGet (i j d : Nat) : objGet (s.onSwitch f) i j d = objGet s i j d := rfl
end

section
variable (s : State) (f : Flow → Flow)
@[simp] theorem State.onFlow_power : (s.onFlow f).power = s.power := rfl
@[simp] theorem State.onFlow_time : (s.onFlow f).time = s.time := rfl
@[simp] theorem State.onFlow_start : (s.onFlow f).start = s.start := rfl
@[simp] theorem State.onFlow_keeper : (s.onFlow f).keeper = s.keeper := rfl
@[simp] theorem State.onFlow_tables : (s.onFlow f).tables = s.tables := rfl
@[simp] theorem State.onFlow_switch : (s.onFlow f).switch = s.switch := rfl
@[simp] theorem State.onFlow_flow : (s.onFlow f).flow = f s.flow := rfl
@[simp] theorem State.onFlow_coll : (s.onFlow f).coll = s.coll := rfl
@[simp] theorem State.onFlow_fabric : (s.onFlow f).fabric = s.fabric := rfl
@[simp] theorem State.onFlow_resident : (s.onFlow f).resident = s.resident := rfl
@[simp] theorem State.onFlow_optics : (s.onFlow f).optics = s.optics := rfl
@[simp] theorem State.onFlow_express : (s.onFlow f).express = s.express := rfl
@[simp] theorem State.onFlow_mgmt : (s.onFlow f).mgmt = s.mgmt := rfl
@[simp] theorem State.onFlow_bop : (s.onFlow f).bop = s.bop := rfl
@[simp] theorem State.onFlow_regs : (s.onFlow f).regs = s.regs := rfl
@[simp] theorem State.onFlow_ras : (s.onFlow f).ras = s.ras := rfl
@[simp] theorem State.onFlow_mem : (s.onFlow f).mem = s.mem := rfl
@[simp] theorem State.onFlow_obj : (s.onFlow f).obj = s.obj := rfl
@[simp] theorem State.onFlow_out : (s.onFlow f).out = s.out := rfl
@[simp] theorem State.onFlow_free : (s.onFlow f).free = s.free := rfl
@[simp] theorem State.onFlow_gens : (s.onFlow f).gens = s.gens := rfl
@[simp] theorem State.onFlow_pending : (s.onFlow f).pending = s.pending := rfl
@[simp] theorem State.onFlow_nowNs : nowNs (s.onFlow f) = nowNs s := rfl
@[simp] theorem State.onFlow_wallNs : wallNs (s.onFlow f) = wallNs s := rfl
@[simp] theorem State.onFlow_tmuNs : tmuNs (s.onFlow f) = tmuNs s := rfl
@[simp] theorem State.onFlow_tmuFrac : tmuFrac (s.onFlow f) = tmuFrac s := rfl
@[simp] theorem State.onFlow_clocksRun : clocksRun (s.onFlow f) = clocksRun s := rfl
@[simp] theorem State.onFlow_isS : isS (s.onFlow f) = isS s := rfl
@[simp] theorem State.onFlow_keeperUp : keeperUp (s.onFlow f) = keeperUp s := rfl
@[simp] theorem State.onFlow_isUp : isUp (s.onFlow f) = isUp s := rfl
@[simp] theorem State.onFlow_diesUp : diesUp (s.onFlow f) = diesUp s := rfl
@[simp] theorem State.onFlow_folFixed (d : Nat) : folFixed (s.onFlow f) d = folFixed s d := rfl
@[simp] theorem State.onFlow_folNs (d : Nat) : folNs (s.onFlow f) d = folNs s d := rfl
@[simp] theorem State.onFlow_dieUp (d : Nat) : dieUp (s.onFlow f) d = dieUp s d := rfl
@[simp] theorem State.onFlow_tileUp (d t : Nat) : tileUp (s.onFlow f) d t = tileUp s d t := rfl
@[simp] theorem State.onFlow_objGet (i j d : Nat) : objGet (s.onFlow f) i j d = objGet s i j d := rfl
end

section
variable (s : State) (f : Coll → Coll)
@[simp] theorem State.onColl_power : (s.onColl f).power = s.power := rfl
@[simp] theorem State.onColl_time : (s.onColl f).time = s.time := rfl
@[simp] theorem State.onColl_start : (s.onColl f).start = s.start := rfl
@[simp] theorem State.onColl_keeper : (s.onColl f).keeper = s.keeper := rfl
@[simp] theorem State.onColl_tables : (s.onColl f).tables = s.tables := rfl
@[simp] theorem State.onColl_switch : (s.onColl f).switch = s.switch := rfl
@[simp] theorem State.onColl_flow : (s.onColl f).flow = s.flow := rfl
@[simp] theorem State.onColl_coll : (s.onColl f).coll = f s.coll := rfl
@[simp] theorem State.onColl_fabric : (s.onColl f).fabric = s.fabric := rfl
@[simp] theorem State.onColl_resident : (s.onColl f).resident = s.resident := rfl
@[simp] theorem State.onColl_optics : (s.onColl f).optics = s.optics := rfl
@[simp] theorem State.onColl_express : (s.onColl f).express = s.express := rfl
@[simp] theorem State.onColl_mgmt : (s.onColl f).mgmt = s.mgmt := rfl
@[simp] theorem State.onColl_bop : (s.onColl f).bop = s.bop := rfl
@[simp] theorem State.onColl_regs : (s.onColl f).regs = s.regs := rfl
@[simp] theorem State.onColl_ras : (s.onColl f).ras = s.ras := rfl
@[simp] theorem State.onColl_mem : (s.onColl f).mem = s.mem := rfl
@[simp] theorem State.onColl_obj : (s.onColl f).obj = s.obj := rfl
@[simp] theorem State.onColl_out : (s.onColl f).out = s.out := rfl
@[simp] theorem State.onColl_free : (s.onColl f).free = s.free := rfl
@[simp] theorem State.onColl_gens : (s.onColl f).gens = s.gens := rfl
@[simp] theorem State.onColl_pending : (s.onColl f).pending = s.pending := rfl
@[simp] theorem State.onColl_nowNs : nowNs (s.onColl f) = nowNs s := rfl
@[simp] theorem State.onColl_wallNs : wallNs (s.onColl f) = wallNs s := rfl
@[simp] theorem State.onColl_tmuNs : tmuNs (s.onColl f) = tmuNs s := rfl
@[simp] theorem State.onColl_tmuFrac : tmuFrac (s.onColl f) = tmuFrac s := rfl
@[simp] theorem State.onColl_clocksRun : clocksRun (s.onColl f) = clocksRun s := rfl
@[simp] theorem State.onColl_isS : isS (s.onColl f) = isS s := rfl
@[simp] theorem State.onColl_keeperUp : keeperUp (s.onColl f) = keeperUp s := rfl
@[simp] theorem State.onColl_isUp : isUp (s.onColl f) = isUp s := rfl
@[simp] theorem State.onColl_diesUp : diesUp (s.onColl f) = diesUp s := rfl
@[simp] theorem State.onColl_folFixed (d : Nat) : folFixed (s.onColl f) d = folFixed s d := rfl
@[simp] theorem State.onColl_folNs (d : Nat) : folNs (s.onColl f) d = folNs s d := rfl
@[simp] theorem State.onColl_dieUp (d : Nat) : dieUp (s.onColl f) d = dieUp s d := rfl
@[simp] theorem State.onColl_tileUp (d t : Nat) : tileUp (s.onColl f) d t = tileUp s d t := rfl
@[simp] theorem State.onColl_objGet (i j d : Nat) : objGet (s.onColl f) i j d = objGet s i j d := rfl
end

section
variable (s : State) (f : Fabric → Fabric)
@[simp] theorem State.onFabric_power : (s.onFabric f).power = s.power := rfl
@[simp] theorem State.onFabric_time : (s.onFabric f).time = s.time := rfl
@[simp] theorem State.onFabric_start : (s.onFabric f).start = s.start := rfl
@[simp] theorem State.onFabric_keeper : (s.onFabric f).keeper = s.keeper := rfl
@[simp] theorem State.onFabric_tables : (s.onFabric f).tables = s.tables := rfl
@[simp] theorem State.onFabric_switch : (s.onFabric f).switch = s.switch := rfl
@[simp] theorem State.onFabric_flow : (s.onFabric f).flow = s.flow := rfl
@[simp] theorem State.onFabric_coll : (s.onFabric f).coll = s.coll := rfl
@[simp] theorem State.onFabric_fabric : (s.onFabric f).fabric = f s.fabric := rfl
@[simp] theorem State.onFabric_resident : (s.onFabric f).resident = s.resident := rfl
@[simp] theorem State.onFabric_optics : (s.onFabric f).optics = s.optics := rfl
@[simp] theorem State.onFabric_express : (s.onFabric f).express = s.express := rfl
@[simp] theorem State.onFabric_mgmt : (s.onFabric f).mgmt = s.mgmt := rfl
@[simp] theorem State.onFabric_bop : (s.onFabric f).bop = s.bop := rfl
@[simp] theorem State.onFabric_regs : (s.onFabric f).regs = s.regs := rfl
@[simp] theorem State.onFabric_ras : (s.onFabric f).ras = s.ras := rfl
@[simp] theorem State.onFabric_mem : (s.onFabric f).mem = s.mem := rfl
@[simp] theorem State.onFabric_obj : (s.onFabric f).obj = s.obj := rfl
@[simp] theorem State.onFabric_out : (s.onFabric f).out = s.out := rfl
@[simp] theorem State.onFabric_free : (s.onFabric f).free = s.free := rfl
@[simp] theorem State.onFabric_gens : (s.onFabric f).gens = s.gens := rfl
@[simp] theorem State.onFabric_pending : (s.onFabric f).pending = s.pending := rfl
@[simp] theorem State.onFabric_nowNs : nowNs (s.onFabric f) = nowNs s := rfl
@[simp] theorem State.onFabric_wallNs : wallNs (s.onFabric f) = wallNs s := rfl
@[simp] theorem State.onFabric_tmuNs : tmuNs (s.onFabric f) = tmuNs s := rfl
@[simp] theorem State.onFabric_tmuFrac : tmuFrac (s.onFabric f) = tmuFrac s := rfl
@[simp] theorem State.onFabric_clocksRun : clocksRun (s.onFabric f) = clocksRun s := rfl
@[simp] theorem State.onFabric_isS : isS (s.onFabric f) = isS s := rfl
@[simp] theorem State.onFabric_keeperUp : keeperUp (s.onFabric f) = keeperUp s := rfl
@[simp] theorem State.onFabric_isUp : isUp (s.onFabric f) = isUp s := rfl
@[simp] theorem State.onFabric_diesUp : diesUp (s.onFabric f) = diesUp s := rfl
@[simp] theorem State.onFabric_folFixed (d : Nat) : folFixed (s.onFabric f) d = folFixed s d := rfl
@[simp] theorem State.onFabric_folNs (d : Nat) : folNs (s.onFabric f) d = folNs s d := rfl
@[simp] theorem State.onFabric_dieUp (d : Nat) : dieUp (s.onFabric f) d = dieUp s d := rfl
@[simp] theorem State.onFabric_tileUp (d t : Nat) : tileUp (s.onFabric f) d t = tileUp s d t := rfl
@[simp] theorem State.onFabric_objGet (i j d : Nat) : objGet (s.onFabric f) i j d = objGet s i j d := rfl
end

section
variable (s : State) (f : Resident → Resident)
@[simp] theorem State.onResident_power : (s.onResident f).power = s.power := rfl
@[simp] theorem State.onResident_time : (s.onResident f).time = s.time := rfl
@[simp] theorem State.onResident_start : (s.onResident f).start = s.start := rfl
@[simp] theorem State.onResident_keeper : (s.onResident f).keeper = s.keeper := rfl
@[simp] theorem State.onResident_tables : (s.onResident f).tables = s.tables := rfl
@[simp] theorem State.onResident_switch : (s.onResident f).switch = s.switch := rfl
@[simp] theorem State.onResident_flow : (s.onResident f).flow = s.flow := rfl
@[simp] theorem State.onResident_coll : (s.onResident f).coll = s.coll := rfl
@[simp] theorem State.onResident_fabric : (s.onResident f).fabric = s.fabric := rfl
@[simp] theorem State.onResident_resident : (s.onResident f).resident = f s.resident := rfl
@[simp] theorem State.onResident_optics : (s.onResident f).optics = s.optics := rfl
@[simp] theorem State.onResident_express : (s.onResident f).express = s.express := rfl
@[simp] theorem State.onResident_mgmt : (s.onResident f).mgmt = s.mgmt := rfl
@[simp] theorem State.onResident_bop : (s.onResident f).bop = s.bop := rfl
@[simp] theorem State.onResident_regs : (s.onResident f).regs = s.regs := rfl
@[simp] theorem State.onResident_ras : (s.onResident f).ras = s.ras := rfl
@[simp] theorem State.onResident_mem : (s.onResident f).mem = s.mem := rfl
@[simp] theorem State.onResident_obj : (s.onResident f).obj = s.obj := rfl
@[simp] theorem State.onResident_out : (s.onResident f).out = s.out := rfl
@[simp] theorem State.onResident_free : (s.onResident f).free = s.free := rfl
@[simp] theorem State.onResident_gens : (s.onResident f).gens = s.gens := rfl
@[simp] theorem State.onResident_pending : (s.onResident f).pending = s.pending := rfl
@[simp] theorem State.onResident_nowNs : nowNs (s.onResident f) = nowNs s := rfl
@[simp] theorem State.onResident_wallNs : wallNs (s.onResident f) = wallNs s := rfl
@[simp] theorem State.onResident_tmuNs : tmuNs (s.onResident f) = tmuNs s := rfl
@[simp] theorem State.onResident_tmuFrac : tmuFrac (s.onResident f) = tmuFrac s := rfl
@[simp] theorem State.onResident_clocksRun : clocksRun (s.onResident f) = clocksRun s := rfl
@[simp] theorem State.onResident_isS : isS (s.onResident f) = isS s := rfl
@[simp] theorem State.onResident_keeperUp : keeperUp (s.onResident f) = keeperUp s := rfl
@[simp] theorem State.onResident_isUp : isUp (s.onResident f) = isUp s := rfl
@[simp] theorem State.onResident_diesUp : diesUp (s.onResident f) = diesUp s := rfl
@[simp] theorem State.onResident_folFixed (d : Nat) : folFixed (s.onResident f) d = folFixed s d := rfl
@[simp] theorem State.onResident_folNs (d : Nat) : folNs (s.onResident f) d = folNs s d := rfl
@[simp] theorem State.onResident_dieUp (d : Nat) : dieUp (s.onResident f) d = dieUp s d := rfl
@[simp] theorem State.onResident_tileUp (d t : Nat) : tileUp (s.onResident f) d t = tileUp s d t := rfl
@[simp] theorem State.onResident_objGet (i j d : Nat) : objGet (s.onResident f) i j d = objGet s i j d := rfl
end

section
variable (s : State) (f : Optics → Optics)
@[simp] theorem State.onOptics_power : (s.onOptics f).power = s.power := rfl
@[simp] theorem State.onOptics_time : (s.onOptics f).time = s.time := rfl
@[simp] theorem State.onOptics_start : (s.onOptics f).start = s.start := rfl
@[simp] theorem State.onOptics_keeper : (s.onOptics f).keeper = s.keeper := rfl
@[simp] theorem State.onOptics_tables : (s.onOptics f).tables = s.tables := rfl
@[simp] theorem State.onOptics_switch : (s.onOptics f).switch = s.switch := rfl
@[simp] theorem State.onOptics_flow : (s.onOptics f).flow = s.flow := rfl
@[simp] theorem State.onOptics_coll : (s.onOptics f).coll = s.coll := rfl
@[simp] theorem State.onOptics_fabric : (s.onOptics f).fabric = s.fabric := rfl
@[simp] theorem State.onOptics_resident : (s.onOptics f).resident = s.resident := rfl
@[simp] theorem State.onOptics_optics : (s.onOptics f).optics = f s.optics := rfl
@[simp] theorem State.onOptics_express : (s.onOptics f).express = s.express := rfl
@[simp] theorem State.onOptics_mgmt : (s.onOptics f).mgmt = s.mgmt := rfl
@[simp] theorem State.onOptics_bop : (s.onOptics f).bop = s.bop := rfl
@[simp] theorem State.onOptics_regs : (s.onOptics f).regs = s.regs := rfl
@[simp] theorem State.onOptics_ras : (s.onOptics f).ras = s.ras := rfl
@[simp] theorem State.onOptics_mem : (s.onOptics f).mem = s.mem := rfl
@[simp] theorem State.onOptics_obj : (s.onOptics f).obj = s.obj := rfl
@[simp] theorem State.onOptics_out : (s.onOptics f).out = s.out := rfl
@[simp] theorem State.onOptics_free : (s.onOptics f).free = s.free := rfl
@[simp] theorem State.onOptics_gens : (s.onOptics f).gens = s.gens := rfl
@[simp] theorem State.onOptics_pending : (s.onOptics f).pending = s.pending := rfl
@[simp] theorem State.onOptics_nowNs : nowNs (s.onOptics f) = nowNs s := rfl
@[simp] theorem State.onOptics_wallNs : wallNs (s.onOptics f) = wallNs s := rfl
@[simp] theorem State.onOptics_tmuNs : tmuNs (s.onOptics f) = tmuNs s := rfl
@[simp] theorem State.onOptics_tmuFrac : tmuFrac (s.onOptics f) = tmuFrac s := rfl
@[simp] theorem State.onOptics_clocksRun : clocksRun (s.onOptics f) = clocksRun s := rfl
@[simp] theorem State.onOptics_isS : isS (s.onOptics f) = isS s := rfl
@[simp] theorem State.onOptics_keeperUp : keeperUp (s.onOptics f) = keeperUp s := rfl
@[simp] theorem State.onOptics_isUp : isUp (s.onOptics f) = isUp s := rfl
@[simp] theorem State.onOptics_diesUp : diesUp (s.onOptics f) = diesUp s := rfl
@[simp] theorem State.onOptics_folFixed (d : Nat) : folFixed (s.onOptics f) d = folFixed s d := rfl
@[simp] theorem State.onOptics_folNs (d : Nat) : folNs (s.onOptics f) d = folNs s d := rfl
@[simp] theorem State.onOptics_dieUp (d : Nat) : dieUp (s.onOptics f) d = dieUp s d := rfl
@[simp] theorem State.onOptics_tileUp (d t : Nat) : tileUp (s.onOptics f) d t = tileUp s d t := rfl
@[simp] theorem State.onOptics_objGet (i j d : Nat) : objGet (s.onOptics f) i j d = objGet s i j d := rfl
end

section
variable (s : State) (f : Express → Express)
@[simp] theorem State.onExpress_power : (s.onExpress f).power = s.power := rfl
@[simp] theorem State.onExpress_time : (s.onExpress f).time = s.time := rfl
@[simp] theorem State.onExpress_start : (s.onExpress f).start = s.start := rfl
@[simp] theorem State.onExpress_keeper : (s.onExpress f).keeper = s.keeper := rfl
@[simp] theorem State.onExpress_tables : (s.onExpress f).tables = s.tables := rfl
@[simp] theorem State.onExpress_switch : (s.onExpress f).switch = s.switch := rfl
@[simp] theorem State.onExpress_flow : (s.onExpress f).flow = s.flow := rfl
@[simp] theorem State.onExpress_coll : (s.onExpress f).coll = s.coll := rfl
@[simp] theorem State.onExpress_fabric : (s.onExpress f).fabric = s.fabric := rfl
@[simp] theorem State.onExpress_resident : (s.onExpress f).resident = s.resident := rfl
@[simp] theorem State.onExpress_optics : (s.onExpress f).optics = s.optics := rfl
@[simp] theorem State.onExpress_express : (s.onExpress f).express = f s.express := rfl
@[simp] theorem State.onExpress_mgmt : (s.onExpress f).mgmt = s.mgmt := rfl
@[simp] theorem State.onExpress_bop : (s.onExpress f).bop = s.bop := rfl
@[simp] theorem State.onExpress_regs : (s.onExpress f).regs = s.regs := rfl
@[simp] theorem State.onExpress_ras : (s.onExpress f).ras = s.ras := rfl
@[simp] theorem State.onExpress_mem : (s.onExpress f).mem = s.mem := rfl
@[simp] theorem State.onExpress_obj : (s.onExpress f).obj = s.obj := rfl
@[simp] theorem State.onExpress_out : (s.onExpress f).out = s.out := rfl
@[simp] theorem State.onExpress_free : (s.onExpress f).free = s.free := rfl
@[simp] theorem State.onExpress_gens : (s.onExpress f).gens = s.gens := rfl
@[simp] theorem State.onExpress_pending : (s.onExpress f).pending = s.pending := rfl
@[simp] theorem State.onExpress_nowNs : nowNs (s.onExpress f) = nowNs s := rfl
@[simp] theorem State.onExpress_wallNs : wallNs (s.onExpress f) = wallNs s := rfl
@[simp] theorem State.onExpress_tmuNs : tmuNs (s.onExpress f) = tmuNs s := rfl
@[simp] theorem State.onExpress_tmuFrac : tmuFrac (s.onExpress f) = tmuFrac s := rfl
@[simp] theorem State.onExpress_clocksRun : clocksRun (s.onExpress f) = clocksRun s := rfl
@[simp] theorem State.onExpress_isS : isS (s.onExpress f) = isS s := rfl
@[simp] theorem State.onExpress_keeperUp : keeperUp (s.onExpress f) = keeperUp s := rfl
@[simp] theorem State.onExpress_isUp : isUp (s.onExpress f) = isUp s := rfl
@[simp] theorem State.onExpress_diesUp : diesUp (s.onExpress f) = diesUp s := rfl
@[simp] theorem State.onExpress_folFixed (d : Nat) : folFixed (s.onExpress f) d = folFixed s d := rfl
@[simp] theorem State.onExpress_folNs (d : Nat) : folNs (s.onExpress f) d = folNs s d := rfl
@[simp] theorem State.onExpress_dieUp (d : Nat) : dieUp (s.onExpress f) d = dieUp s d := rfl
@[simp] theorem State.onExpress_tileUp (d t : Nat) : tileUp (s.onExpress f) d t = tileUp s d t := rfl
@[simp] theorem State.onExpress_objGet (i j d : Nat) : objGet (s.onExpress f) i j d = objGet s i j d := rfl
end

section
variable (s : State) (f : Mgmt → Mgmt)
@[simp] theorem State.onMgmt_power : (s.onMgmt f).power = s.power := rfl
@[simp] theorem State.onMgmt_time : (s.onMgmt f).time = s.time := rfl
@[simp] theorem State.onMgmt_start : (s.onMgmt f).start = s.start := rfl
@[simp] theorem State.onMgmt_keeper : (s.onMgmt f).keeper = s.keeper := rfl
@[simp] theorem State.onMgmt_tables : (s.onMgmt f).tables = s.tables := rfl
@[simp] theorem State.onMgmt_switch : (s.onMgmt f).switch = s.switch := rfl
@[simp] theorem State.onMgmt_flow : (s.onMgmt f).flow = s.flow := rfl
@[simp] theorem State.onMgmt_coll : (s.onMgmt f).coll = s.coll := rfl
@[simp] theorem State.onMgmt_fabric : (s.onMgmt f).fabric = s.fabric := rfl
@[simp] theorem State.onMgmt_resident : (s.onMgmt f).resident = s.resident := rfl
@[simp] theorem State.onMgmt_optics : (s.onMgmt f).optics = s.optics := rfl
@[simp] theorem State.onMgmt_express : (s.onMgmt f).express = s.express := rfl
@[simp] theorem State.onMgmt_mgmt : (s.onMgmt f).mgmt = f s.mgmt := rfl
@[simp] theorem State.onMgmt_bop : (s.onMgmt f).bop = s.bop := rfl
@[simp] theorem State.onMgmt_regs : (s.onMgmt f).regs = s.regs := rfl
@[simp] theorem State.onMgmt_ras : (s.onMgmt f).ras = s.ras := rfl
@[simp] theorem State.onMgmt_mem : (s.onMgmt f).mem = s.mem := rfl
@[simp] theorem State.onMgmt_obj : (s.onMgmt f).obj = s.obj := rfl
@[simp] theorem State.onMgmt_out : (s.onMgmt f).out = s.out := rfl
@[simp] theorem State.onMgmt_free : (s.onMgmt f).free = s.free := rfl
@[simp] theorem State.onMgmt_gens : (s.onMgmt f).gens = s.gens := rfl
@[simp] theorem State.onMgmt_pending : (s.onMgmt f).pending = s.pending := rfl
@[simp] theorem State.onMgmt_nowNs : nowNs (s.onMgmt f) = nowNs s := rfl
@[simp] theorem State.onMgmt_wallNs : wallNs (s.onMgmt f) = wallNs s := rfl
@[simp] theorem State.onMgmt_tmuNs : tmuNs (s.onMgmt f) = tmuNs s := rfl
@[simp] theorem State.onMgmt_tmuFrac : tmuFrac (s.onMgmt f) = tmuFrac s := rfl
@[simp] theorem State.onMgmt_clocksRun : clocksRun (s.onMgmt f) = clocksRun s := rfl
@[simp] theorem State.onMgmt_isS : isS (s.onMgmt f) = isS s := rfl
@[simp] theorem State.onMgmt_keeperUp : keeperUp (s.onMgmt f) = keeperUp s := rfl
@[simp] theorem State.onMgmt_isUp : isUp (s.onMgmt f) = isUp s := rfl
@[simp] theorem State.onMgmt_diesUp : diesUp (s.onMgmt f) = diesUp s := rfl
@[simp] theorem State.onMgmt_folFixed (d : Nat) : folFixed (s.onMgmt f) d = folFixed s d := rfl
@[simp] theorem State.onMgmt_folNs (d : Nat) : folNs (s.onMgmt f) d = folNs s d := rfl
@[simp] theorem State.onMgmt_dieUp (d : Nat) : dieUp (s.onMgmt f) d = dieUp s d := rfl
@[simp] theorem State.onMgmt_tileUp (d t : Nat) : tileUp (s.onMgmt f) d t = tileUp s d t := rfl
@[simp] theorem State.onMgmt_objGet (i j d : Nat) : objGet (s.onMgmt f) i j d = objGet s i j d := rfl
end

section
variable (s : State) (f : Bop → Bop)
@[simp] theorem State.onBop_power : (s.onBop f).power = s.power := rfl
@[simp] theorem State.onBop_time : (s.onBop f).time = s.time := rfl
@[simp] theorem State.onBop_start : (s.onBop f).start = s.start := rfl
@[simp] theorem State.onBop_keeper : (s.onBop f).keeper = s.keeper := rfl
@[simp] theorem State.onBop_tables : (s.onBop f).tables = s.tables := rfl
@[simp] theorem State.onBop_switch : (s.onBop f).switch = s.switch := rfl
@[simp] theorem State.onBop_flow : (s.onBop f).flow = s.flow := rfl
@[simp] theorem State.onBop_coll : (s.onBop f).coll = s.coll := rfl
@[simp] theorem State.onBop_fabric : (s.onBop f).fabric = s.fabric := rfl
@[simp] theorem State.onBop_resident : (s.onBop f).resident = s.resident := rfl
@[simp] theorem State.onBop_optics : (s.onBop f).optics = s.optics := rfl
@[simp] theorem State.onBop_express : (s.onBop f).express = s.express := rfl
@[simp] theorem State.onBop_mgmt : (s.onBop f).mgmt = s.mgmt := rfl
@[simp] theorem State.onBop_bop : (s.onBop f).bop = f s.bop := rfl
@[simp] theorem State.onBop_regs : (s.onBop f).regs = s.regs := rfl
@[simp] theorem State.onBop_ras : (s.onBop f).ras = s.ras := rfl
@[simp] theorem State.onBop_mem : (s.onBop f).mem = s.mem := rfl
@[simp] theorem State.onBop_obj : (s.onBop f).obj = s.obj := rfl
@[simp] theorem State.onBop_out : (s.onBop f).out = s.out := rfl
@[simp] theorem State.onBop_free : (s.onBop f).free = s.free := rfl
@[simp] theorem State.onBop_gens : (s.onBop f).gens = s.gens := rfl
@[simp] theorem State.onBop_pending : (s.onBop f).pending = s.pending := rfl
@[simp] theorem State.onBop_nowNs : nowNs (s.onBop f) = nowNs s := rfl
@[simp] theorem State.onBop_wallNs : wallNs (s.onBop f) = wallNs s := rfl
@[simp] theorem State.onBop_tmuNs : tmuNs (s.onBop f) = tmuNs s := rfl
@[simp] theorem State.onBop_tmuFrac : tmuFrac (s.onBop f) = tmuFrac s := rfl
@[simp] theorem State.onBop_clocksRun : clocksRun (s.onBop f) = clocksRun s := rfl
@[simp] theorem State.onBop_isS : isS (s.onBop f) = isS s := rfl
@[simp] theorem State.onBop_keeperUp : keeperUp (s.onBop f) = keeperUp s := rfl
@[simp] theorem State.onBop_isUp : isUp (s.onBop f) = isUp s := rfl
@[simp] theorem State.onBop_diesUp : diesUp (s.onBop f) = diesUp s := rfl
@[simp] theorem State.onBop_folFixed (d : Nat) : folFixed (s.onBop f) d = folFixed s d := rfl
@[simp] theorem State.onBop_folNs (d : Nat) : folNs (s.onBop f) d = folNs s d := rfl
@[simp] theorem State.onBop_dieUp (d : Nat) : dieUp (s.onBop f) d = dieUp s d := rfl
@[simp] theorem State.onBop_tileUp (d t : Nat) : tileUp (s.onBop f) d t = tileUp s d t := rfl
@[simp] theorem State.onBop_objGet (i j d : Nat) : objGet (s.onBop f) i j d = objGet s i j d := rfl
end

section
variable (s : State) (f : Regs → Regs)
@[simp] theorem State.onRegs_power : (s.onRegs f).power = s.power := rfl
@[simp] theorem State.onRegs_time : (s.onRegs f).time = s.time := rfl
@[simp] theorem State.onRegs_start : (s.onRegs f).start = s.start := rfl
@[simp] theorem State.onRegs_keeper : (s.onRegs f).keeper = s.keeper := rfl
@[simp] theorem State.onRegs_tables : (s.onRegs f).tables = s.tables := rfl
@[simp] theorem State.onRegs_switch : (s.onRegs f).switch = s.switch := rfl
@[simp] theorem State.onRegs_flow : (s.onRegs f).flow = s.flow := rfl
@[simp] theorem State.onRegs_coll : (s.onRegs f).coll = s.coll := rfl
@[simp] theorem State.onRegs_fabric : (s.onRegs f).fabric = s.fabric := rfl
@[simp] theorem State.onRegs_resident : (s.onRegs f).resident = s.resident := rfl
@[simp] theorem State.onRegs_optics : (s.onRegs f).optics = s.optics := rfl
@[simp] theorem State.onRegs_express : (s.onRegs f).express = s.express := rfl
@[simp] theorem State.onRegs_mgmt : (s.onRegs f).mgmt = s.mgmt := rfl
@[simp] theorem State.onRegs_bop : (s.onRegs f).bop = s.bop := rfl
@[simp] theorem State.onRegs_regs : (s.onRegs f).regs = f s.regs := rfl
@[simp] theorem State.onRegs_ras : (s.onRegs f).ras = s.ras := rfl
@[simp] theorem State.onRegs_mem : (s.onRegs f).mem = s.mem := rfl
@[simp] theorem State.onRegs_obj : (s.onRegs f).obj = s.obj := rfl
@[simp] theorem State.onRegs_out : (s.onRegs f).out = s.out := rfl
@[simp] theorem State.onRegs_free : (s.onRegs f).free = s.free := rfl
@[simp] theorem State.onRegs_gens : (s.onRegs f).gens = s.gens := rfl
@[simp] theorem State.onRegs_pending : (s.onRegs f).pending = s.pending := rfl
@[simp] theorem State.onRegs_nowNs : nowNs (s.onRegs f) = nowNs s := rfl
@[simp] theorem State.onRegs_wallNs : wallNs (s.onRegs f) = wallNs s := rfl
@[simp] theorem State.onRegs_tmuNs : tmuNs (s.onRegs f) = tmuNs s := rfl
@[simp] theorem State.onRegs_tmuFrac : tmuFrac (s.onRegs f) = tmuFrac s := rfl
@[simp] theorem State.onRegs_clocksRun : clocksRun (s.onRegs f) = clocksRun s := rfl
@[simp] theorem State.onRegs_isS : isS (s.onRegs f) = isS s := rfl
@[simp] theorem State.onRegs_keeperUp : keeperUp (s.onRegs f) = keeperUp s := rfl
@[simp] theorem State.onRegs_isUp : isUp (s.onRegs f) = isUp s := rfl
@[simp] theorem State.onRegs_diesUp : diesUp (s.onRegs f) = diesUp s := rfl
@[simp] theorem State.onRegs_folFixed (d : Nat) : folFixed (s.onRegs f) d = folFixed s d := rfl
@[simp] theorem State.onRegs_folNs (d : Nat) : folNs (s.onRegs f) d = folNs s d := rfl
@[simp] theorem State.onRegs_dieUp (d : Nat) : dieUp (s.onRegs f) d = dieUp s d := rfl
@[simp] theorem State.onRegs_tileUp (d t : Nat) : tileUp (s.onRegs f) d t = tileUp s d t := rfl
@[simp] theorem State.onRegs_objGet (i j d : Nat) : objGet (s.onRegs f) i j d = objGet s i j d := rfl
end

section
variable (s : State) (f : Ras → Ras)
@[simp] theorem State.onRas_power : (s.onRas f).power = s.power := rfl
@[simp] theorem State.onRas_time : (s.onRas f).time = s.time := rfl
@[simp] theorem State.onRas_start : (s.onRas f).start = s.start := rfl
@[simp] theorem State.onRas_keeper : (s.onRas f).keeper = s.keeper := rfl
@[simp] theorem State.onRas_tables : (s.onRas f).tables = s.tables := rfl
@[simp] theorem State.onRas_switch : (s.onRas f).switch = s.switch := rfl
@[simp] theorem State.onRas_flow : (s.onRas f).flow = s.flow := rfl
@[simp] theorem State.onRas_coll : (s.onRas f).coll = s.coll := rfl
@[simp] theorem State.onRas_fabric : (s.onRas f).fabric = s.fabric := rfl
@[simp] theorem State.onRas_resident : (s.onRas f).resident = s.resident := rfl
@[simp] theorem State.onRas_optics : (s.onRas f).optics = s.optics := rfl
@[simp] theorem State.onRas_express : (s.onRas f).express = s.express := rfl
@[simp] theorem State.onRas_mgmt : (s.onRas f).mgmt = s.mgmt := rfl
@[simp] theorem State.onRas_bop : (s.onRas f).bop = s.bop := rfl
@[simp] theorem State.onRas_regs : (s.onRas f).regs = s.regs := rfl
@[simp] theorem State.onRas_ras : (s.onRas f).ras = f s.ras := rfl
@[simp] theorem State.onRas_mem : (s.onRas f).mem = s.mem := rfl
@[simp] theorem State.onRas_obj : (s.onRas f).obj = s.obj := rfl
@[simp] theorem State.onRas_out : (s.onRas f).out = s.out := rfl
@[simp] theorem State.onRas_free : (s.onRas f).free = s.free := rfl
@[simp] theorem State.onRas_gens : (s.onRas f).gens = s.gens := rfl
@[simp] theorem State.onRas_pending : (s.onRas f).pending = s.pending := rfl
@[simp] theorem State.onRas_nowNs : nowNs (s.onRas f) = nowNs s := rfl
@[simp] theorem State.onRas_wallNs : wallNs (s.onRas f) = wallNs s := rfl
@[simp] theorem State.onRas_tmuNs : tmuNs (s.onRas f) = tmuNs s := rfl
@[simp] theorem State.onRas_tmuFrac : tmuFrac (s.onRas f) = tmuFrac s := rfl
@[simp] theorem State.onRas_clocksRun : clocksRun (s.onRas f) = clocksRun s := rfl
@[simp] theorem State.onRas_isS : isS (s.onRas f) = isS s := rfl
@[simp] theorem State.onRas_keeperUp : keeperUp (s.onRas f) = keeperUp s := rfl
@[simp] theorem State.onRas_isUp : isUp (s.onRas f) = isUp s := rfl
@[simp] theorem State.onRas_diesUp : diesUp (s.onRas f) = diesUp s := rfl
@[simp] theorem State.onRas_folFixed (d : Nat) : folFixed (s.onRas f) d = folFixed s d := rfl
@[simp] theorem State.onRas_folNs (d : Nat) : folNs (s.onRas f) d = folNs s d := rfl
@[simp] theorem State.onRas_dieUp (d : Nat) : dieUp (s.onRas f) d = dieUp s d := rfl
@[simp] theorem State.onRas_tileUp (d t : Nat) : tileUp (s.onRas f) d t = tileUp s d t := rfl
@[simp] theorem State.onRas_objGet (i j d : Nat) : objGet (s.onRas f) i j d = objGet s i j d := rfl
end

section
variable (s : State) (a : Nat) (b : Bytes)
@[simp] theorem State.putMem_power : (s.putMem a b).power = s.power := rfl
@[simp] theorem State.putMem_time : (s.putMem a b).time = s.time := rfl
@[simp] theorem State.putMem_start : (s.putMem a b).start = s.start := rfl
@[simp] theorem State.putMem_keeper : (s.putMem a b).keeper = s.keeper := rfl
@[simp] theorem State.putMem_tables : (s.putMem a b).tables = s.tables := rfl
@[simp] theorem State.putMem_switch : (s.putMem a b).switch = s.switch := rfl
@[simp] theorem State.putMem_flow : (s.putMem a b).flow = s.flow := rfl
@[simp] theorem State.putMem_coll : (s.putMem a b).coll = s.coll := rfl
@[simp] theorem State.putMem_fabric : (s.putMem a b).fabric = s.fabric := rfl
@[simp] theorem State.putMem_resident : (s.putMem a b).resident = s.resident := rfl
@[simp] theorem State.putMem_optics : (s.putMem a b).optics = s.optics := rfl
@[simp] theorem State.putMem_express : (s.putMem a b).express = s.express := rfl
@[simp] theorem State.putMem_mgmt : (s.putMem a b).mgmt = s.mgmt := rfl
@[simp] theorem State.putMem_bop : (s.putMem a b).bop = s.bop := rfl
@[simp] theorem State.putMem_regs : (s.putMem a b).regs = s.regs := rfl
@[simp] theorem State.putMem_ras : (s.putMem a b).ras = s.ras := rfl
@[simp] theorem State.putMem_obj : (s.putMem a b).obj = s.obj := rfl
@[simp] theorem State.putMem_out : (s.putMem a b).out = s.out := rfl
@[simp] theorem State.putMem_free : (s.putMem a b).free = s.free := rfl
@[simp] theorem State.putMem_gens : (s.putMem a b).gens = s.gens := rfl
@[simp] theorem State.putMem_pending : (s.putMem a b).pending = s.pending := rfl
@[simp] theorem State.putMem_nowNs : nowNs (s.putMem a b) = nowNs s := rfl
@[simp] theorem State.putMem_wallNs : wallNs (s.putMem a b) = wallNs s := rfl
@[simp] theorem State.putMem_tmuNs : tmuNs (s.putMem a b) = tmuNs s := rfl
@[simp] theorem State.putMem_tmuFrac : tmuFrac (s.putMem a b) = tmuFrac s := rfl
@[simp] theorem State.putMem_clocksRun : clocksRun (s.putMem a b) = clocksRun s := rfl
@[simp] theorem State.putMem_isS : isS (s.putMem a b) = isS s := rfl
@[simp] theorem State.putMem_keeperUp : keeperUp (s.putMem a b) = keeperUp s := rfl
@[simp] theorem State.putMem_isUp : isUp (s.putMem a b) = isUp s := rfl
@[simp] theorem State.putMem_diesUp : diesUp (s.putMem a b) = diesUp s := rfl
@[simp] theorem State.putMem_folFixed (d : Nat) : folFixed (s.putMem a b) d = folFixed s d := rfl
@[simp] theorem State.putMem_folNs (d : Nat) : folNs (s.putMem a b) d = folNs s d := rfl
@[simp] theorem State.putMem_dieUp (d : Nat) : dieUp (s.putMem a b) d = dieUp s d := rfl
@[simp] theorem State.putMem_objGet (i j d : Nat) : objGet (s.putMem a b) i j d = objGet s i j d := rfl
end

section
variable (s : State) (a : Nat)
@[simp] theorem answer_power : (answer a s).power = s.power := rfl
@[simp] theorem answer_time : (answer a s).time = s.time := rfl
@[simp] theorem answer_start : (answer a s).start = s.start := rfl
@[simp] theorem answer_keeper : (answer a s).keeper = s.keeper := rfl
@[simp] theorem answer_tables : (answer a s).tables = s.tables := rfl
@[simp] theorem answer_switch : (answer a s).switch = s.switch := rfl
@[simp] theorem answer_flow : (answer a s).flow = s.flow := rfl
@[simp] theorem answer_coll : (answer a s).coll = s.coll := rfl
@[simp] theorem answer_fabric : (answer a s).fabric = s.fabric := rfl
@[simp] theorem answer_resident : (answer a s).resident = s.resident := rfl
@[simp] theorem answer_optics : (answer a s).optics = s.optics := rfl
@[simp] theorem answer_express : (answer a s).express = s.express := rfl
@[simp] theorem answer_mgmt : (answer a s).mgmt = s.mgmt := rfl
@[simp] theorem answer_regs : (answer a s).regs = s.regs := rfl
@[simp] theorem answer_ras : (answer a s).ras = s.ras := rfl
@[simp] theorem answer_mem : (answer a s).mem = s.mem := rfl
@[simp] theorem answer_obj : (answer a s).obj = s.obj := rfl
@[simp] theorem answer_out : (answer a s).out = s.out := rfl
@[simp] theorem answer_free : (answer a s).free = s.free := rfl
@[simp] theorem answer_gens : (answer a s).gens = s.gens := rfl
@[simp] theorem answer_pending : (answer a s).pending = s.pending := rfl
@[simp] theorem answer_nowNs : nowNs (answer a s) = nowNs s := rfl
@[simp] theorem answer_wallNs : wallNs (answer a s) = wallNs s := rfl
@[simp] theorem answer_tmuNs : tmuNs (answer a s) = tmuNs s := rfl
@[simp] theorem answer_tmuFrac : tmuFrac (answer a s) = tmuFrac s := rfl
@[simp] theorem answer_clocksRun : clocksRun (answer a s) = clocksRun s := rfl
@[simp] theorem answer_isS : isS (answer a s) = isS s := rfl
@[simp] theorem answer_keeperUp : keeperUp (answer a s) = keeperUp s := rfl
@[simp] theorem answer_isUp : isUp (answer a s) = isUp s := rfl
@[simp] theorem answer_diesUp : diesUp (answer a s) = diesUp s := rfl
@[simp] theorem answer_folFixed (d : Nat) : folFixed (answer a s) d = folFixed s d := rfl
@[simp] theorem answer_folNs (d : Nat) : folNs (answer a s) d = folNs s d := rfl
@[simp] theorem answer_dieUp (d : Nat) : dieUp (answer a s) d = dieUp s d := rfl
@[simp] theorem answer_objGet (i j d : Nat) : objGet (answer a s) i j d = objGet s i j d := rfl
end

section
variable (s : State) (a b c : Nat)
@[simp] theorem objSet_power : (objSet a b c s).power = s.power := rfl
@[simp] theorem objSet_time : (objSet a b c s).time = s.time := rfl
@[simp] theorem objSet_start : (objSet a b c s).start = s.start := rfl
@[simp] theorem objSet_keeper : (objSet a b c s).keeper = s.keeper := rfl
@[simp] theorem objSet_tables : (objSet a b c s).tables = s.tables := rfl
@[simp] theorem objSet_switch : (objSet a b c s).switch = s.switch := rfl
@[simp] theorem objSet_flow : (objSet a b c s).flow = s.flow := rfl
@[simp] theorem objSet_coll : (objSet a b c s).coll = s.coll := rfl
@[simp] theorem objSet_fabric : (objSet a b c s).fabric = s.fabric := rfl
@[simp] theorem objSet_resident : (objSet a b c s).resident = s.resident := rfl
@[simp] theorem objSet_optics : (objSet a b c s).optics = s.optics := rfl
@[simp] theorem objSet_express : (objSet a b c s).express = s.express := rfl
@[simp] theorem objSet_mgmt : (objSet a b c s).mgmt = s.mgmt := rfl
@[simp] theorem objSet_bop : (objSet a b c s).bop = s.bop := rfl
@[simp] theorem objSet_regs : (objSet a b c s).regs = s.regs := rfl
@[simp] theorem objSet_ras : (objSet a b c s).ras = s.ras := rfl
@[simp] theorem objSet_mem : (objSet a b c s).mem = s.mem := rfl
@[simp] theorem objSet_out : (objSet a b c s).out = s.out := rfl
@[simp] theorem objSet_free : (objSet a b c s).free = s.free := rfl
@[simp] theorem objSet_gens : (objSet a b c s).gens = s.gens := rfl
@[simp] theorem objSet_pending : (objSet a b c s).pending = s.pending := rfl
@[simp] theorem objSet_nowNs : nowNs (objSet a b c s) = nowNs s := rfl
@[simp] theorem objSet_wallNs : wallNs (objSet a b c s) = wallNs s := rfl
@[simp] theorem objSet_tmuNs : tmuNs (objSet a b c s) = tmuNs s := rfl
@[simp] theorem objSet_tmuFrac : tmuFrac (objSet a b c s) = tmuFrac s := rfl
@[simp] theorem objSet_clocksRun : clocksRun (objSet a b c s) = clocksRun s := rfl
@[simp] theorem objSet_isS : isS (objSet a b c s) = isS s := rfl
@[simp] theorem objSet_keeperUp : keeperUp (objSet a b c s) = keeperUp s := rfl
@[simp] theorem objSet_isUp : isUp (objSet a b c s) = isUp s := rfl
@[simp] theorem objSet_diesUp : diesUp (objSet a b c s) = diesUp s := rfl
@[simp] theorem objSet_folFixed (d : Nat) : folFixed (objSet a b c s) d = folFixed s d := rfl
@[simp] theorem objSet_folNs (d : Nat) : folNs (objSet a b c s) d = folNs s d := rfl
@[simp] theorem objSet_dieUp (d : Nat) : dieUp (objSet a b c s) d = dieUp s d := rfl
end

section
variable (s : State) (a : Out)
@[simp] theorem emitOut_power : (emitOut a s).power = s.power := rfl
@[simp] theorem emitOut_time : (emitOut a s).time = s.time := rfl
@[simp] theorem emitOut_start : (emitOut a s).start = s.start := rfl
@[simp] theorem emitOut_keeper : (emitOut a s).keeper = s.keeper := rfl
@[simp] theorem emitOut_tables : (emitOut a s).tables = s.tables := rfl
@[simp] theorem emitOut_switch : (emitOut a s).switch = s.switch := rfl
@[simp] theorem emitOut_flow : (emitOut a s).flow = s.flow := rfl
@[simp] theorem emitOut_coll : (emitOut a s).coll = s.coll := rfl
@[simp] theorem emitOut_fabric : (emitOut a s).fabric = s.fabric := rfl
@[simp] theorem emitOut_resident : (emitOut a s).resident = s.resident := rfl
@[simp] theorem emitOut_optics : (emitOut a s).optics = s.optics := rfl
@[simp] theorem emitOut_express : (emitOut a s).express = s.express := rfl
@[simp] theorem emitOut_mgmt : (emitOut a s).mgmt = s.mgmt := rfl
@[simp] theorem emitOut_bop : (emitOut a s).bop = s.bop := rfl
@[simp] theorem emitOut_regs : (emitOut a s).regs = s.regs := rfl
@[simp] theorem emitOut_ras : (emitOut a s).ras = s.ras := rfl
@[simp] theorem emitOut_mem : (emitOut a s).mem = s.mem := rfl
@[simp] theorem emitOut_obj : (emitOut a s).obj = s.obj := rfl
@[simp] theorem emitOut_free : (emitOut a s).free = s.free := rfl
@[simp] theorem emitOut_gens : (emitOut a s).gens = s.gens := rfl
@[simp] theorem emitOut_pending : (emitOut a s).pending = s.pending := rfl
@[simp] theorem emitOut_nowNs : nowNs (emitOut a s) = nowNs s := rfl
@[simp] theorem emitOut_wallNs : wallNs (emitOut a s) = wallNs s := rfl
@[simp] theorem emitOut_tmuNs : tmuNs (emitOut a s) = tmuNs s := rfl
@[simp] theorem emitOut_tmuFrac : tmuFrac (emitOut a s) = tmuFrac s := rfl
@[simp] theorem emitOut_clocksRun : clocksRun (emitOut a s) = clocksRun s := rfl
@[simp] theorem emitOut_isS : isS (emitOut a s) = isS s := rfl
@[simp] theorem emitOut_keeperUp : keeperUp (emitOut a s) = keeperUp s := rfl
@[simp] theorem emitOut_isUp : isUp (emitOut a s) = isUp s := rfl
@[simp] theorem emitOut_diesUp : diesUp (emitOut a s) = diesUp s := rfl
@[simp] theorem emitOut_folFixed (d : Nat) : folFixed (emitOut a s) d = folFixed s d := rfl
@[simp] theorem emitOut_folNs (d : Nat) : folNs (emitOut a s) d = folNs s d := rfl
@[simp] theorem emitOut_dieUp (d : Nat) : dieUp (emitOut a s) d = dieUp s d := rfl
@[simp] theorem emitOut_objGet (i j d : Nat) : objGet (emitOut a s) i j d = objGet s i j d := rfl
end

@[simp] theorem State.putMem_mem (s : State) (a : Nat) (b : Bytes) : (s.putMem a b).mem = memPut s.mem a b := rfl
@[simp] theorem answer_answer (s : State) (a : Nat) : (answer a s).bop.answer = a := rfl
@[simp] theorem answer_answerValue (s : State) (a : Nat) : (answer a s).bop.answerValue = [] := rfl
@[simp] theorem objSet_obj (s : State) (i j v : Nat) : (objSet i j v s).obj = cellPut (objKey i j) v s.obj := rfl
@[simp] theorem emitOut_out (s : State) (o : Out) : (emitOut o s).out = o :: s.out := rfl
@[simp] theorem draw_fst (s : State) : (draw s).1 = Config.freeValue s.free := rfl
@[simp] theorem setGen_gens (d : Nat) (g : BitVec 128) (s : State) : (setGen d g s).gens = s.gens.set d g := rfl
@[simp] theorem draw_snd (s : State) : (draw s).2 = { s with free := s.free + 1 } := rfl

end Sys2Proof.Machine
end

