-- ==== Sys2Proof/Laws/Tab.lean ====
section
/-! SUPPORT. The laws of keyed tables and of memory: a read after a write gives the value written, a write leaves every other key
alone, and every operation keeps the canonical form. -/

namespace Sys2Proof

variable {α : Type}

theorem cellFind_cellPut (k j : Nat) (v : α) (l : List (Nat × α)) :
    cellFind j (cellPut k v l) = if k = j then some v else cellFind j l := by
  induction l with
  | nil => simp [cellPut, cellFind]
  | cons c r ih =>
    obtain ⟨i, w⟩ := c
    by_cases h1 : i < k
    · by_cases h2 : i = j
      · subst h2; simp [cellPut, cellFind, h1, show k ≠ i by omega]
      · simp [cellPut, cellFind, h1, h2, ih]
    · by_cases h2 : i = k
      · subst h2; by_cases h3 : i = j <;> simp [cellPut, cellFind, h3]
      · by_cases h3 : k = j
        · subst h3; simp [cellPut, cellFind, h1, h2]
        · simp [cellPut, cellFind, h1, h2, h3]

/-- A lower bound of the keys of a list. -/
def above (lo : Nat) (l : List (Nat × α)) : Prop := ∀ c ∈ l, lo < c.1

theorem risingFrom_some (lo : Nat) (l : List (Nat × α)) :
    risingFrom (some lo) l = true ↔ above lo l ∧ risingFrom none l = true := by
  induction l generalizing lo with
  | nil => simp [risingFrom, above]
  | cons c r ih =>
    obtain ⟨i, w⟩ := c
    simp only [risingFrom, Bool.and_eq_true, decide_eq_true_eq, above, List.mem_cons, forall_eq_or_imp]
    constructor
    · rintro ⟨h1, h2⟩
      exact ⟨⟨h1, fun c hc => by have := (ih i).1 h2; exact lt_trans h1 (this.1 c hc)⟩, h2⟩
    · rintro ⟨⟨h1, _⟩, h2⟩
      exact ⟨h1, h2⟩

theorem risingFrom_cons (i : Nat) (w : α) (r : List (Nat × α)) :
    risingFrom none ((i, w) :: r) = true ↔ above i r ∧ risingFrom none r = true := by
  simpa [risingFrom] using risingFrom_some i r

theorem cellFind_above {lo j : Nat} {l : List (Nat × α)} (h : above lo l) (hj : j ≤ lo) : cellFind j l = none := by
  induction l with
  | nil => rfl
  | cons c r ih =>
    obtain ⟨i, w⟩ := c
    have h1 : lo < i := h (i, w) (by simp)
    simp [cellFind, show i ≠ j by omega, ih fun c hc => h c (by simp [hc])]

theorem cellFind_cellDrop {k j : Nat} {l : List (Nat × α)} (h : risingFrom none l = true) :
    cellFind j (cellDrop k l) = if k = j then none else cellFind j l := by
  induction l with
  | nil => simp [cellDrop, cellFind]
  | cons c r ih =>
    obtain ⟨i, w⟩ := c
    have h' := (risingFrom_cons i w r).1 h
    by_cases h1 : i = k
    · subst h1
      by_cases h2 : i = j
      · subst h2; simp [cellDrop, cellFind_above h'.1 le_rfl]
      · simp [cellDrop, cellFind, h2]
    · by_cases h2 : i = j
      · subst h2; simp [cellDrop, cellFind, h1, Ne.symm h1]
      · simp [cellDrop, cellFind, h1, h2, ih h'.2]

theorem above_cellPut {lo k : Nat} {v : α} {l : List (Nat × α)} (h : above lo l) (hk : lo < k) : above lo (cellPut k v l) := by
  induction l with
  | nil => intro c hc; simp [cellPut] at hc; subst hc; exact hk
  | cons c r ih =>
    obtain ⟨i, w⟩ := c
    have hi : lo < i := h (i, w) (by simp)
    have hr : above lo r := fun c hc => h c (by simp [hc])
    intro c hc
    by_cases h1 : i < k
    · simp [cellPut, h1] at hc
      rcases hc with rfl | hc
      · exact hi
      · exact ih hr c hc
    · by_cases h2 : i = k
      · simp [cellPut, h2] at hc
        rcases hc with rfl | hc
        · exact hk
        · exact hr c hc
      · simp [cellPut, h1, h2] at hc
        rcases hc with rfl | rfl | hc
        · exact hk
        · exact hi
        · exact hr c hc

theorem rising_cellPut {k : Nat} {v : α} {l : List (Nat × α)} (h : risingFrom none l = true) :
    risingFrom none (cellPut k v l) = true := by
  induction l with
  | nil => rfl
  | cons c r ih =>
    obtain ⟨i, w⟩ := c
    have h' := (risingFrom_cons i w r).1 h
    by_cases h1 : i < k
    · simp only [cellPut, h1, if_true]
      exact (risingFrom_cons _ _ _).2 ⟨above_cellPut h'.1 h1, ih h'.2⟩
    · by_cases h2 : i = k
      · subst h2; simp only [cellPut, lt_irrefl, if_false, if_true]
        exact (risingFrom_cons _ _ _).2 h'
      · simp only [cellPut, h1, h2, if_false]
        refine (risingFrom_cons _ _ _).2 ⟨?_, h⟩
        intro c hc
        simp only [List.mem_cons] at hc
        rcases hc with rfl | hc
        · simp; omega
        · exact lt_trans (by omega) (h'.1 c hc)

theorem mem_cellDrop {k : Nat} {l : List (Nat × α)} {c : Nat × α} (h : c ∈ cellDrop k l) : c ∈ l := by
  induction l with
  | nil => simp [cellDrop] at h
  | cons d r ih =>
    obtain ⟨i, w⟩ := d
    by_cases h1 : i = k
    · simp [cellDrop, h1] at h; simp [h]
    · simp [cellDrop, h1] at h
      rcases h with rfl | h
      · simp
      · simp [ih h]

theorem rising_cellDrop {k : Nat} {l : List (Nat × α)} (h : risingFrom none l = true) :
    risingFrom none (cellDrop k l) = true := by
  induction l with
  | nil => rfl
  | cons c r ih =>
    obtain ⟨i, w⟩ := c
    have h' := (risingFrom_cons i w r).1 h
    by_cases h1 : i = k
    · simpa [cellDrop, h1] using h'.2
    · simp only [cellDrop, h1, if_false]
      exact (risingFrom_cons _ _ _).2 ⟨fun c hc => h'.1 c (mem_cellDrop hc), ih h'.2⟩

theorem mem_cellPut {k : Nat} {v : α} {l : List (Nat × α)} {c : Nat × α} (h : c ∈ cellPut k v l) : c = (k, v) ∨ c ∈ l := by
  induction l with
  | nil => simpa [cellPut] using h
  | cons d r ih =>
    obtain ⟨i, w⟩ := d
    by_cases h1 : i < k
    · simp [cellPut, h1] at h
      rcases h with rfl | h
      · simp
      · rcases ih h with h | h <;> simp [h]
    · by_cases h2 : i = k <;> simp [cellPut, h1, h2] at h ⊢ <;> tauto

/-! ### Tables -/

variable [DecidableEq α]

theorem Tab.get_set {t : Tab α} (h : t.wf = true) (k j : Nat) (v : α) : (t.set k v).get j = if k = j then v else t.get j := by
  simp only [Tab.wf, Bool.and_eq_true] at h
  by_cases hv : v = t.dflt
  · simp only [Tab.set, Tab.get, hv, if_true, cellFind_cellDrop h.1]
    split <;> simp
  · simp only [Tab.set, Tab.get, hv, if_false, cellFind_cellPut]
    split <;> simp

theorem Tab.wf_set {t : Tab α} (h : t.wf = true) (k : Nat) (v : α) : (t.set k v).wf = true := by
  simp only [Tab.wf, Bool.and_eq_true, List.all_eq_true, decide_eq_true_eq] at h ⊢
  by_cases hv : v = t.dflt
  · simp only [Tab.set, hv, if_true]
    exact ⟨rising_cellDrop h.1, fun c hc => h.2 c (mem_cellDrop hc)⟩
  · simp only [Tab.set, hv, if_false]
    refine ⟨rising_cellPut h.1, fun c hc => ?_⟩
    rcases mem_cellPut hc with rfl | hc
    · exact hv
    · exact h.2 c hc

theorem Tab.wf_empty (d : α) : (Tab.empty d).wf = true := by simp [Tab.empty, Tab.wf, risingFrom]

omit [DecidableEq α] in
@[simp] theorem Tab.get_empty (d : α) (k : Nat) : (Tab.empty d).get k = d := rfl

namespace Machine

/-! ### Memory -/

theorem Memory.wf_write {m : List Host.Cell} (h : Memory.wf m = true) (a : Nat) (v : Byte) : Memory.wf (memWrite m a v) = true := by
  simp only [Memory.wf, Bool.and_eq_true, List.all_eq_true, decide_eq_true_eq] at h ⊢
  by_cases hv : v = memDefault
  · simp only [memWrite, hv, if_true]
    exact ⟨rising_cellDrop h.1, fun c hc => h.2 c (mem_cellDrop hc)⟩
  · simp only [memWrite, hv, if_false]
    refine ⟨rising_cellPut h.1, fun c hc => ?_⟩
    rcases mem_cellPut hc with rfl | hc
    · exact hv
    · exact h.2 c hc

theorem memRead_write {m : List Host.Cell} (h : Memory.wf m = true) (a b : Nat) (v : Byte) :
    memRead (memWrite m a v) b = if a = b then v else memRead m b := by
  simp only [Memory.wf, Bool.and_eq_true] at h
  by_cases hv : v = memDefault
  · simp only [memWrite, memRead, hv, if_true, cellFind_cellDrop h.1]
    split <;> simp
  · simp only [memWrite, memRead, hv, if_false, cellFind_cellPut]
    split <;> simp

theorem Memory.wf_put {m : List Host.Cell} (h : Memory.wf m = true) (a : Nat) (b : Bytes) : Memory.wf (memPut m a b) = true := by
  induction b generalizing m a with
  | nil => exact h
  | cons v r ih => exact ih (Memory.wf_write h a v) (a + 1)

/-- A byte after a byte string has been written. -/
theorem memRead_put {m : List Host.Cell} (h : Memory.wf m = true) (a b : Nat) (d : Bytes) :
    memRead (memPut m a d) b = if a ≤ b ∧ b < a + d.length then d.getD (b - a) 0 else memRead m b := by
  induction d generalizing m a with
  | nil => simp [memPut]
  | cons v r ih =>
    simp only [memPut, ih (Memory.wf_write h a v), memRead_write h, List.length_cons]
    by_cases h1 : a = b
    · subst h1; simp
    · by_cases h2 : a + 1 ≤ b ∧ b < a + 1 + r.length
      · rw [if_pos h2, if_pos ⟨by omega, by omega⟩, show b - a = (b - (a + 1)) + 1 by omega]; simp
      · rw [if_neg h2, if_neg h1, if_neg (by omega)]

theorem rising_filter {l : List Host.Cell} {p : Host.Cell → Bool} (h : risingFrom none l = true) :
    risingFrom none (l.filter p) = true := by
  induction l with
  | nil => rfl
  | cons c r ih =>
    obtain ⟨i, w⟩ := c
    have h' := (risingFrom_cons i w r).1 h
    by_cases hp : p (i, w) = true
    · rw [List.filter_cons_of_pos hp]
      exact (risingFrom_cons _ _ _).2 ⟨fun c hc => h'.1 c (List.mem_of_mem_filter hc), ih h'.2⟩
    · rw [List.filter_cons_of_neg hp]; exact ih h'.2

theorem Memory.wf_filter {m : List Host.Cell} (h : Memory.wf m = true) (p : Host.Cell → Bool) : Memory.wf (m.filter p) = true := by
  simp only [Memory.wf, Bool.and_eq_true, List.all_eq_true] at h ⊢
  exact ⟨rising_filter h.1, fun c hc => h.2 c (List.mem_of_mem_filter hc)⟩

end Machine
end Sys2Proof
end

