-- ==== Sys2Proof/Laws/Effects.lean ====
section
/-! SUPPORT. What shared operations leave, stated once: the parts that counting, raising an event and drawing a free value keep, a
credit word sent, causes settled, measurements extended, a sensor snapshot copied, a freeze record written. -/

set_option linter.all false
set_option maxRecDepth 4000

namespace Sys2Proof.Machine

/-! ### Parts that an operation keeps -/

@[simp] theorem raise_power (code sev unit : Nat) (args : Bytes) (s : State) : (raise code sev unit args s).power = s.power :=
  State.hide_power (raise_frame (M := 24576) (by decide) ..) (by decide)
@[simp] theorem raise_time (code sev unit : Nat) (args : Bytes) (s : State) : (raise code sev unit args s).time = s.time :=
  State.hide_time (raise_frame (M := 24576) (by decide) ..) (by decide)
@[simp] theorem raise_start (code sev unit : Nat) (args : Bytes) (s : State) : (raise code sev unit args s).start = s.start :=
  State.hide_start (raise_frame (M := 24576) (by decide) ..) (by decide)
@[simp] theorem raise_keeper (code sev unit : Nat) (args : Bytes) (s : State) : (raise code sev unit args s).keeper = s.keeper :=
  State.hide_keeper (raise_frame (M := 24576) (by decide) ..) (by decide)
@[simp] theorem raise_tables (code sev unit : Nat) (args : Bytes) (s : State) : (raise code sev unit args s).tables = s.tables :=
  State.hide_tables (raise_frame (M := 24576) (by decide) ..) (by decide)
@[simp] theorem raise_switch (code sev unit : Nat) (args : Bytes) (s : State) : (raise code sev unit args s).switch = s.switch :=
  State.hide_switch (raise_frame (M := 24576) (by decide) ..) (by decide)
@[simp] theorem raise_flow (code sev unit : Nat) (args : Bytes) (s : State) : (raise code sev unit args s).flow = s.flow :=
  State.hide_flow (raise_frame (M := 24576) (by decide) ..) (by decide)
@[simp] theorem raise_coll (code sev unit : Nat) (args : Bytes) (s : State) : (raise code sev unit args s).coll = s.coll :=
  State.hide_coll (raise_frame (M := 24576) (by decide) ..) (by decide)
@[simp] theorem raise_fabric (code sev unit : Nat) (args : Bytes) (s : State) : (raise code sev unit args s).fabric = s.fabric :=
  State.hide_fabric (raise_frame (M := 24576) (by decide) ..) (by decide)
@[simp] theorem raise_resident (code sev unit : Nat) (args : Bytes) (s : State) : (raise code sev unit args s).resident = s.resident :=
  State.hide_resident (raise_frame (M := 24576) (by decide) ..) (by decide)
@[simp] theorem raise_optics (code sev unit : Nat) (args : Bytes) (s : State) : (raise code sev unit args s).optics = s.optics :=
  State.hide_optics (raise_frame (M := 24576) (by decide) ..) (by decide)
@[simp] theorem raise_express (code sev unit : Nat) (args : Bytes) (s : State) : (raise code sev unit args s).express = s.express :=
  State.hide_express (raise_frame (M := 24576) (by decide) ..) (by decide)
@[simp] theorem raise_mgmt (code sev unit : Nat) (args : Bytes) (s : State) : (raise code sev unit args s).mgmt = s.mgmt :=
  State.hide_mgmt (raise_frame (M := 24576) (by decide) ..) (by decide)
@[simp] theorem raise_ras (code sev unit : Nat) (args : Bytes) (s : State) : (raise code sev unit args s).ras = s.ras :=
  State.hide_ras (raise_frame (M := 24576) (by decide) ..) (by decide)
@[simp] theorem raise_mem (code sev unit : Nat) (args : Bytes) (s : State) : (raise code sev unit args s).mem = s.mem :=
  State.hide_mem (raise_frame (M := 24576) (by decide) ..) (by decide)
@[simp] theorem raise_obj (code sev unit : Nat) (args : Bytes) (s : State) : (raise code sev unit args s).obj = s.obj :=
  State.hide_obj (raise_frame (M := 24576) (by decide) ..) (by decide)
@[simp] theorem raise_out (code sev unit : Nat) (args : Bytes) (s : State) : (raise code sev unit args s).out = s.out :=
  State.hide_out (raise_frame (M := 24576) (by decide) ..) (by decide)
@[simp] theorem raise_free (code sev unit : Nat) (args : Bytes) (s : State) : (raise code sev unit args s).free = s.free :=
  State.hide_free (raise_frame (M := 24576) (by decide) ..) (by decide)
@[simp] theorem raise_pending (code sev unit : Nat) (args : Bytes) (s : State) : (raise code sev unit args s).pending = s.pending :=
  State.hide_pending (raise_frame (M := 24576) (by decide) ..) (by decide)
@[simp] theorem count_power (die ev inst n : Nat) (s : State) : (count die ev inst n s).power = s.power :=
  State.hide_power (count_frame (M := 16384) (by decide) ..) (by decide)
@[simp] theorem count_time (die ev inst n : Nat) (s : State) : (count die ev inst n s).time = s.time :=
  State.hide_time (count_frame (M := 16384) (by decide) ..) (by decide)
@[simp] theorem count_start (die ev inst n : Nat) (s : State) : (count die ev inst n s).start = s.start :=
  State.hide_start (count_frame (M := 16384) (by decide) ..) (by decide)
@[simp] theorem count_keeper (die ev inst n : Nat) (s : State) : (count die ev inst n s).keeper = s.keeper :=
  State.hide_keeper (count_frame (M := 16384) (by decide) ..) (by decide)
@[simp] theorem count_tables (die ev inst n : Nat) (s : State) : (count die ev inst n s).tables = s.tables :=
  State.hide_tables (count_frame (M := 16384) (by decide) ..) (by decide)
@[simp] theorem count_switch (die ev inst n : Nat) (s : State) : (count die ev inst n s).switch = s.switch :=
  State.hide_switch (count_frame (M := 16384) (by decide) ..) (by decide)
@[simp] theorem count_flow (die ev inst n : Nat) (s : State) : (count die ev inst n s).flow = s.flow :=
  State.hide_flow (count_frame (M := 16384) (by decide) ..) (by decide)
@[simp] theorem count_coll (die ev inst n : Nat) (s : State) : (count die ev inst n s).coll = s.coll :=
  State.hide_coll (count_frame (M := 16384) (by decide) ..) (by decide)
@[simp] theorem count_fabric (die ev inst n : Nat) (s : State) : (count die ev inst n s).fabric = s.fabric :=
  State.hide_fabric (count_frame (M := 16384) (by decide) ..) (by decide)
@[simp] theorem count_resident (die ev inst n : Nat) (s : State) : (count die ev inst n s).resident = s.resident :=
  State.hide_resident (count_frame (M := 16384) (by decide) ..) (by decide)
@[simp] theorem count_optics (die ev inst n : Nat) (s : State) : (count die ev inst n s).optics = s.optics :=
  State.hide_optics (count_frame (M := 16384) (by decide) ..) (by decide)
@[simp] theorem count_express (die ev inst n : Nat) (s : State) : (count die ev inst n s).express = s.express :=
  State.hide_express (count_frame (M := 16384) (by decide) ..) (by decide)
@[simp] theorem count_mgmt (die ev inst n : Nat) (s : State) : (count die ev inst n s).mgmt = s.mgmt :=
  State.hide_mgmt (count_frame (M := 16384) (by decide) ..) (by decide)
@[simp] theorem count_bop (die ev inst n : Nat) (s : State) : (count die ev inst n s).bop = s.bop :=
  State.hide_bop (count_frame (M := 16384) (by decide) ..) (by decide)
@[simp] theorem count_ras (die ev inst n : Nat) (s : State) : (count die ev inst n s).ras = s.ras :=
  State.hide_ras (count_frame (M := 16384) (by decide) ..) (by decide)
@[simp] theorem count_mem (die ev inst n : Nat) (s : State) : (count die ev inst n s).mem = s.mem :=
  State.hide_mem (count_frame (M := 16384) (by decide) ..) (by decide)
@[simp] theorem count_obj (die ev inst n : Nat) (s : State) : (count die ev inst n s).obj = s.obj :=
  State.hide_obj (count_frame (M := 16384) (by decide) ..) (by decide)
@[simp] theorem count_out (die ev inst n : Nat) (s : State) : (count die ev inst n s).out = s.out :=
  State.hide_out (count_frame (M := 16384) (by decide) ..) (by decide)
@[simp] theorem count_free (die ev inst n : Nat) (s : State) : (count die ev inst n s).free = s.free :=
  State.hide_free (count_frame (M := 16384) (by decide) ..) (by decide)
@[simp] theorem count_pending (die ev inst n : Nat) (s : State) : (count die ev inst n s).pending = s.pending :=
  State.hide_pending (count_frame (M := 16384) (by decide) ..) (by decide)

/-! ### Effects -/

theorem settleCauses_causes (s : State) : (settleCauses s).start.causes = s.start.causes := by
  unfold settleCauses; split <;> (try split) <;> simp
@[simp] theorem measExtend_keeper (i x s) : (measExtend i x s).keeper = { s.keeper with meas := s.keeper.meas.set i (sha256 (s.keeper.meas.get i ++ x)) } := rfl
@[simp] theorem measEvent_keeper (c s) : (measEvent c s).keeper = { s.keeper with meas := s.keeper.meas.set 5 (sha256 (s.keeper.meas.get 5 ++ sha256 (beBytes 4 c))) } := rfl
@[simp] theorem bootSel_keeper (s f) : bootSel (State.onKeeper s f) = bootSel s := rfl
theorem foldl_eq {α β : Type} (g : State → β) (f : State → α → State) (h : ∀ s a, g (f s a) = g s) (l : List α) : ∀ s, g (l.foldl f s) = g s := by
  induction l with
  | nil => intro s; rfl
  | cons a l ih => intro s; exact (ih _).trans (h s a)
theorem wall_of (s g : State) (h : g.time = s.time) : wallNs g = wallNs s := by simp only [wallNs, h]
theorem now_of (s g : State) (h : g.time = s.time) : nowNs g = nowNs s := by simp only [nowNs, h]

theorem creditSent (s : State) (p c l : Nat) (a : Word) :
    (let s := s.onFlow fun x => { x with
        advertised := x.advertised.set (pcKey p c) a
        creditAt := x.creditAt.set (pcKey p c) (nowNs s) };
      s.onOptics fun x => { x with ports := x.ports.modify p fun q =>
        { q with due := q.due ++ [(l, 1, creditWord 1 c 0 a, 0, 0)] } }) = { s with
        flow := { s.flow with advertised := s.flow.advertised.set (pcKey p c) a
                              creditAt := s.flow.creditAt.set (pcKey p c) (nowNs s) }
        optics := { s.optics with ports := s.optics.ports.modify p fun q =>
          { q with due := q.due ++ [(l, 1, creditWord 1 c 0 a, 0, 0)] } } } := rfl
theorem foldl_inv {α : Type} (P : State → State → Prop) (f : State → α → State) (hr : ∀ s, P s s) (ht : ∀ a b c, P a b → P b c → P a c)
  (h : ∀ s a, P s (f s a)) (l : List α) : ∀ s, P s (l.foldl f s) := by
  induction l with
  | nil => intro s; exact hr s
  | cons a l ih => intro s; exact ht _ _ _ (h s a) (ih _)
abbrev snapSame (s t : State) : Prop := t.power.vinMv = s.power.vinMv ∧ t.power.iinMa = s.power.iinMa ∧ t.power.base = s.power.base ∧ t.power.snapAt = s.power.snapAt ∧ t.time = s.time
theorem snapFold (g : Int × Nat → Nat) (w : Int × Nat → Nat) (d) (l : List (Int × Nat)) (s : State) : snapSame s (l.foldl (fun s x => snapPut d (g x) (w x) s) s) :=
  foldl_inv snapSame _ (by simp [snapSame]) (by simp [snapSame]; intros; simp_all) (by simp [snapSame, snapPut]) l s
theorem snapCopy_all (d s) : (snapCopy d s).power.vinMv = s.power.vinMv ∧ (snapCopy d s).power.iinMa = s.power.iinMa ∧ (snapCopy d s).power.base = s.power.base ∧ (snapCopy d s).power.snapAt = s.power.snapAt.set d (wallNs s) := by
  have P1 := fun s : State => snapFold (fun x => 0x100 + x.2) (fun x => unsigned 16 x.1) d ((tjOf s d).zipIdx) s
  have P2 := fun s : State => snapFold (fun x => 0x110 + x.2) (fun x => unsigned 16 x.1) d ((baseOf s d).zipIdx) s
  unfold snapCopy; simp only [snapSame] at P1 P2
  by_cases h : d = 8 <;> simp [h, snapPut, wallNs] at P1 P2 ⊢ <;> simp_all [snapPut, wallNs]
theorem snapCopy_vinMv (d s) : (snapCopy d s).power.vinMv = s.power.vinMv := (snapCopy_all d s).1
theorem snapCopy_iinMa (d s) : (snapCopy d s).power.iinMa = s.power.iinMa := (snapCopy_all d s).2.1
theorem snapCopy_base (d s) : (snapCopy d s).power.base = s.power.base := (snapCopy_all d s).2.2.1
theorem snapCopy_snapAt (d s) : (snapCopy d s).power.snapAt = s.power.snapAt.set d (wallNs s) := (snapCopy_all d s).2.2.2
/-- Two states agree on everything that the freeze latch reads or writes but the records. -/
def SameF (s t : State) : Prop := t.start = s.start ∧ t.power = s.power ∧ t.express = s.express ∧ t.time = s.time ∧ t.regs = s.regs ∧ t.switch = s.switch ∧ t.optics = s.optics ∧ t.mem = s.mem ∧ t.obj = s.obj ∧ t.bop = s.bop
theorem SameF.trans {a b c} (h : SameF a b) (g : SameF b c) : SameF a c := by simp only [SameF] at *; simp_all
/-- A free value in the two words of one island of a freeze record (18 R548). -/
def isl (d : Nat) (s : State) (i : Nat) : State :=
    let (lo, s) := draw s
    let (hi, s) := draw s
    (s.onRas fun x => { x with frz := x.frz.set (d * 64 + (17+2*i)) (BitVec.ofNat 32 hi) }).onRas fun x => { x with frz := x.frz.set (d * 64 + (16 + 2*i)) (BitVec.ofNat 32 lo) }
theorem isl_ok (d : Nat) (s : State) (i : Nat) (hi : i < 7) (hw : s.ras.frz.wf = true) :
    SameF s (isl d s i) ∧ (isl d s i).ras.frz.wf = true ∧ ∀ e, (isl d s i).ras.frz.get (e*64+1) = s.ras.frz.get (e*64+1) := by
  refine ⟨by simp [SameF, isl, draw], ?_, ?_⟩
  · simp [isl, draw]; exact Tab.wf_set (Tab.wf_set hw _ _) _ _
  · intro e; simp [isl, draw]
    rw [Tab.get_set (Tab.wf_set hw _ _), Tab.get_set hw, if_neg (by omega), if_neg (by omega)]
theorem isl_fold (d : Nat) (l : List Nat) : (∀ i ∈ l, i < 7) → ∀ s : State, s.ras.frz.wf = true →
    SameF s (l.foldl (isl d) s) ∧ (l.foldl (isl d) s).ras.frz.wf = true ∧ ∀ e, (l.foldl (isl d) s).ras.frz.get (e*64+1) = s.ras.frz.get (e*64+1) := by
  induction l with
  | nil => intro _ s hs; simp [SameF, hs]
  | cons i l ih =>
    intro hl s hs
    have a := isl_ok d s i (hl i (by simp)) hs
    have b := ih (fun j hj => hl j (by simp [hj])) _ a.2.1
    exact ⟨a.1.trans b.1, b.2.1, fun e => (b.2.2 e).trans (a.2.2 e)⟩
/-- state before islands -/
def rec0 (c u d : Nat) (s : State) : State := (((s.onRas fun x => { x with frz := x.frz.set (d * 64 + 2) (BitVec.ofNat 32 (if d = 8 then u else 0)) }).onRas fun x => { x with frz := x.frz.set (d * 64 + 1) (BitVec.ofNat 32 c) }).onRas fun x => { x with frz := x.frz.set (d * 64 + 0) (BitVec.ofNat 32 (if d = 8 then tmuNs s else folNs s d)) })
theorem rec0_frz (c u d s) : (rec0 c u d s).ras.frz = ((s.ras.frz.set (d * 64 + 2) (BitVec.ofNat 32 (if d = 8 then u else 0))).set (d * 64 + 1) (BitVec.ofNat 32 c)).set (d * 64 + 0) (BitVec.ofNat 32 (if d = 8 then tmuNs s else folNs s d)) := rfl
theorem rec0_same (c u d s) : SameF s (rec0 c u d s) := by simp [SameF, rec0]
theorem rec0_eq (c u d : Nat) (s : State) : freezeRecord c u d s = (islandsOf s d).foldl (isl d) (rec0 c u d s) := by
  unfold freezeRecord
  have e : ∀ f g h : Ras → Ras, islandsOf (((s.onRas f).onRas g).onRas h) d = islandsOf s d := fun _ _ _ => rfl
  simp only [e]
  rfl
theorem record_ok (c u d : Nat) (s : State) (hw : s.ras.frz.wf = true) :
    SameF s (freezeRecord c u d s) ∧ (freezeRecord c u d s).ras.frz.wf = true ∧ ∀ e, (freezeRecord c u d s).ras.frz.get (e*64+1) = if d = e then BitVec.ofNat 32 c else s.ras.frz.get (e*64+1) := by
  have hl : ∀ i ∈ islandsOf s d, i < 7 := by
    unfold islandsOf; split
    · decide
    · split <;> decide
  rw [rec0_eq]
  have hw2 := Tab.wf_set hw (d * 64 + 2) (BitVec.ofNat 32 (if d = 8 then u else 0))
  have hw3 := Tab.wf_set hw2 (d * 64 + 1) (BitVec.ofNat 32 c)
  have hw4 := Tab.wf_set hw3 (d * 64 + 0) (BitVec.ofNat 32 (if d = 8 then tmuNs s else folNs s d))
  have := isl_fold d (islandsOf s d) hl (rec0 c u d s) (by rw [rec0_frz]; exact hw4)
  refine ⟨(rec0_same c u d s).trans this.1, this.2.1, ?_⟩
  intro e
  rw [this.2.2 e, rec0_frz, Tab.get_set hw3, Tab.get_set hw2, Tab.get_set hw]
  by_cases hde : d = e
  · subst hde; rw [if_neg (by omega), if_pos (by omega)]; simp
  · rw [if_neg (by omega), if_neg (by omega), if_neg (by omega), if_neg hde]
theorem record_fold (c u : Nat) (l : List Nat) : ∀ s : State, s.ras.frz.wf = true →
    SameF s (l.foldl (fun s d => freezeRecord c u d s) s) ∧ ∀ e, (e ∈ l ∨ s.ras.frz.get (e*64+1) = BitVec.ofNat 32 c) → (l.foldl (fun s d => freezeRecord c u d s) s).ras.frz.get (e*64+1) = BitVec.ofNat 32 c := by
  induction l with
  | nil => intro s hs; simp [SameF]
  | cons d l ih =>
    intro s hs
    have a := record_ok c u d s hs
    have b := ih _ a.2.1
    refine ⟨a.1.trans b.1, ?_⟩
    intro e he
    apply b.2 e
    rw [a.2.2 e]
    by_cases hde : d = e
    · simp [hde]
    · simp only [List.mem_cons] at he; simp [hde]; tauto
theorem freezeLatch_frozen (cause u : Nat) (s : State) (h1 : s.power.armed = true) (h2 : s.power.frozen = false) (h3 : s.start.state ≠ .off) (h4 : s.start.state ≠ .reset) : Frozen cause s (freezeLatch cause u s) := by
  unfold freezeLatch gatesDark
  simp only [h1, h2, h3, h4]
  simp only [Bool.not_true, decide_false, Bool.or_self, Bool.false_eq_true, if_false]
  have := fun s => record_fold cause u (diesUp s ++ [8])
  generalize hq : State.onRas (State.onStart (State.onExpress s _) _) _ = q
  have hd : diesUp q = diesUp s := by subst hq; rfl
  have hr := record_fold cause u (diesUp q ++ [8]) q (by subst hq; rfl)
  generalize (diesUp q ++ [8]).foldl (fun s d => freezeRecord cause u d s) q = t at hr ⊢
  obtain ⟨⟨a1,a2,a3,a4,a5,a6,a7,a8,a9,a10⟩, b⟩ := hr
  subst hq
  have b' : ∀ d ∈ 8 :: diesUp s, t.ras.frz.get (d * 64 + 1) = BitVec.ofNat 32 cause := by
    intro d hd'; apply b; left; rw [hd]; simp at hd' ⊢; tauto
  refine ⟨?_, ?_, ?_, b', ?_, ?_, ?_, ?_, ?_, ?_, ?_⟩ <;> simp [State.onStart, State.onPower] <;> simp_all

end Sys2Proof.Machine
end

