-- ==== Sys2Proof/Machine/Pins.lean ====
section
/-! DEFINITION. What the pins and the optical outputs of the package show, read from the state (13 R412, R414, R417 to R419; 11
R366, R371, R374). The cages' interrupt pins are inputs of which the firmware takes no notice of its own: it polls (11 R372). -/

namespace Sys2Proof.Machine

/-- What a pin does. -/
inductive PinState where
  | highZ
  | released
  | low
  | high
  | idle
  | driven
  | dark
  deriving DecidableEq, Repr

/-- The columns of R417. -/
inductive PinColumn where
  | off
  | reset
  | running
  | frozen
  deriving DecidableEq, Repr

/-- The column in force: a latched trip and HALTED keep the states of RESET. -/
def pinColumn (s : State) : PinColumn :=
  if s.start.state == .off then .off
  else if s.start.state == .frozen then .frozen
  else if s.start.state == .reset || s.start.state == .halted || s.power.trip then .reset
  else .running

/-- An input that is driven while its bit is set. -/
def levelOf (b : Bool) : PinState := if b then .high else .low

/-- ELSE_EN: the enable latches (R18). -/
def pinElseEn (s : State) (m : Nat) : PinState := match pinColumn s with
  | .off | .reset => .highZ
  | .running => levelOf (s.start.elsE.getLsbD m)
  | .frozen => .low

/-- ELSI_EN. -/
def pinElsiEn (s : State) (m : Nat) : PinState := match pinColumn s with
  | .off | .reset => .highZ
  | .running => levelOf (s.start.elsI.getLsbD m)
  | .frozen => .low

/-- EP_HS transmitters of a port. -/
def pinEpHs (s : State) (n : Nat) : PinState := match pinColumn s with
  | .off => .highZ
  | .reset | .frozen => .idle
  | .running => if portLit s (256 + n) && epTransmits (epOf s n) then .driven else .idle

/-- MP_HS transmitters of a port: with the firmware, and while it serves management in HALTED (15 R463). -/
def pinMpHs (s : State) (mp : Nat) : PinState := match pinColumn s with
  | .off => .highZ
  | .frozen => .idle
  | .reset => if bopServes s && (s.mgmt.mpBegun.get mp).isSome then .driven else .idle
  | .running => if keeperUp s && (s.mgmt.mpBegun.get mp).isSome then .driven else .idle

/-- EPn_RST_N. The manual names no occasion on which the firmware resets a module. -/
def pinEpRst (s : State) : PinState := match pinColumn s with
  | .off => .highZ
  | .reset => .low
  | .running | .frozen => .high

/-- EPn_LPW_N: low power until the port is enabled (R371). -/
def pinEpLpw (s : State) (n : Nat) : PinState := match pinColumn s with
  | .off => .highZ
  | .reset => .low
  | .running | .frozen => levelOf ((epOf s n).enable && (epOf s n).present)

/-- EPn_PRS_N, an input, low while a module is seated (R419). -/
def pinEpPrs (s : State) (n : Nat) : PinState := levelOf !(epOf s n).present

/-- Two-wire clock and data. -/
def pinTwoWire (s : State) : PinState := if pinColumn s = .running then .driven else .released

/-- FAULT_N (R414). -/
def pinFault (s : State) : PinState := if faultLow s then .low else .released

/-- QSPI_CS_N. -/
def pinQspiCs (s : State) : PinState := match pinColumn s with
  | .off => .highZ
  | .reset => .high
  | .running | .frozen => .driven

/-- QSPI_RST_N. -/
def pinQspiRst (s : State) : PinState := match pinColumn s with
  | .off => .highZ
  | .reset => .low
  | .running | .frozen => .driven

/-- TDO; `shifting` is a shift state of the test access port. -/
def pinTdo (s : State) (shifting : Bool) : PinState := match pinColumn s with
  | .off | .reset => .highZ
  | .running | .frozen => if shifting then .driven else .highZ

end Sys2Proof.Machine
end

