-- ==== Sys2Proof/WellFormed.lean ====
section
/-! DEFINITION. Which commands are well formed: the ranges the manual gives a command's inputs where the operand's type does not
bound it already. The meanings are total: a command that is not well formed has a meaning too, but no input of the hardware has
its shape. -/

namespace Sys2Proof

/-- A control word is 8 bytes and block A of an LCB is 120 bytes (09 R302). -/
def Lcb.wf (b : Lcb) : Bool := b.blockA.length == 120

/-- An event: a 16-bit code, severity 0 to 3, a 32-bit unit and at most 32 bytes of arguments (16 R489). -/
def EventArgs.wf (e : EventArgs) : Bool :=
  decide (e.code < 65536) && decide (e.severity < 4) && decide (e.unit < 2 ^ 32) && decide (e.args.length ≤ 32)

/-- Handles of resident regions run from 1 to 4,096 (08 R267). -/
def regionHandleOk (h : Nat) : Bool := 1 ≤ h && h ≤ 4096

/-- Handles of images run from 1 to 64 (07 R257). -/
def imageHandleOk (h : Nat) : Bool := 1 ≤ h && h ≤ 64

/-- A frame, from the destination MAC address through the FCS: at most 9,216 bytes (03 R78). -/
def frameOk (b : Bytes) : Bool := b.length ≤ 9216

/-- The operand ranges of a command. -/
def Instr.wf : Instr → Bool
  -- 16 junction and 16 base-layer sensors on a sector die, 4 junction sensors on the keeper die (13 R425)
  | .snapshotRefresh die tj base _ _ =>
    if die = 8 then tj.length == 4 && base.length == 0 else tj.length == 16 && base.length == 16
  | .refclkPrefer _ value => value < 256
  | .bootData _ _ msg => msg.length ≤ 9216
  | .bootEnd _ _ msg _ => msg.length ≤ 9216
  -- 524,288 buckets and 64 stash places (02 R47, R61)
  | .sweeperVisit _ position => position < 524288 + 64
  | .frameIngress _ _ frame => frameOk frame.bytes
  | .mpFrameReceive _ bytes => frameOk bytes
  | .lcbReceive _ _ block => block.wf
  | .stallWatch _ handle => imageHandleOk handle
  | .imageResume _ handle => imageHandleOk handle
  | .regionReady handle => regionHandleOk handle
  | .regionControlData _ handle _ => regionHandleOk handle
  | .updateLockGrant handle _ => regionHandleOk handle
  | .mirrorAuditBlock handle _ _ _ => regionHandleOk handle
  | .takeoverComplete handle => regionHandleOk handle
  -- nine lines of a module (09 R306)
  | .elsPoll _ powers _ => powers.length == 9
  -- taps of a port: nine lines at S1 and S2, eight lanes at S3 and S6 (09 R314)
  | .monitorRefresh _ s1 s2 s3 _ _ received =>
    s1.elsE.length == 9 && s1.elsI.length == 9 && s2.length == 9 && s3.length == 8 && received.s6.length == 8
  -- four role keys and FOGHORN_KEY (16 R491)
  | .keyWrite _ sub key => 1 ≤ sub && sub ≤ 5 && key.length ≤ 32
  | .collectorAddr _ _ address => address.length ≤ 16
  -- an object index of 24 bits, a sub-index of 8, a length of 32 bits (16 R473)
  | .objectWrite _ index sub value => index < 2 ^ 24 && sub < 256 && value.length < 2 ^ 32
  | .foghornRaise event => event.wf
  -- a granule of 256 data bytes and 8 check bytes (18 R531)
  | .scrubRead _ _ _ badBytes => badBytes ≤ 264
  | _ => true

end Sys2Proof
end

