-- ==== Sys2Proof/Tests/Slice0.lean ====
section
/-! SUPPORT. Tests: an ill-formed command for every check of WellFormed, the manual's own worked examples, and, for every clause
of every statement that has hypotheses, a state and operands that meet them together. -/

set_option maxRecDepth 4000
set_option linter.all false
set_option Elab.async false

namespace Sys2Proof.Tests

open Sys2Proof Sys2Proof.Machine

/-! ### Small states and operands -/

/-- a state in service -/
def inService : State := { State.reset with start := { Start.reset with state := .service, sectorDies := 0xFF, partCode := 1, serviceAsked := true, serviceEntered := true, serviceMark := 0xFF, aihornTiles := 0xFFFFFFFFFFFFFFFF, memPackages := 0xFFFFFF }, power := { Power.reset with vinMv := 43000, refA := true, refB := true, selected := true } }
/-- a cell, a frame of one cell -/
def aCell : Cell := { destType := 0, dest := 256, lane := 0, cls := 0, sub := 0, ingressDie := 0, frameId := 0, index := 0, last := true, bad := false, orderSeq := 0, lenM1 := 63, ingressTime := 0, data := List.replicate 64 0, port := 256, cut := false, routed := true, stamp := none, stepSum := 0, dests := [], drainIndex := none, cells := 1, frameLen := 64, pool := 0, group := 0, stage2 := false, emit := none, flags := 0, good := true }
def aFrame : EFrame := { head := aCell, got := [aCell], openedAt := 0, copy := false, result := false, launch := none, skip := 0 }
/-- a port whose four members are up -/
def upPort : EPort := { EPort.reset with enable := true, membersUp := 0xF }
/-- an image of one tile: a cell that fires on every turn and ends at once, one route, one pair, walk programs of END -/
def aImage : Image := { header := [], digest := [], tiles := 1, pairs := 1, opMask := 0, inMask := 0, outMask := 0, caps := 0, scratchMb := 0, library := none, bytes := List.replicate 42 0 ++ [4, 0, 48, 0, 0, 0] ++ [1, 0, 0, 0, 112, 0, 0, 0, 40, 1, 0, 0, 1, 0, 0, 0] ++ [2, 0, 0, 0, 152, 1, 0, 0, 20, 0, 0, 0, 1, 0, 0, 0] ++ [3, 0, 0, 0, 172, 1, 0, 0, 0, 4, 0, 0, 1, 0, 0, 0] ++ [4, 0, 0, 0, 172, 5, 0, 0, 8, 0, 0, 0, 1, 0, 0, 0] ++ ([0, 0, 0, 0, 0, 0, 0, 128] ++ List.replicate 39 0 ++ [2] ++ List.replicate 248 0) ++ ([0, 0, 0, 0, 0x10, 0xFC] ++ List.replicate 10 0xFF ++ [0x0F, 0, 0, 0]) ++ List.replicate 1024 0 ++ List.replicate 8 0 }
/-- a dense group of two members whose image is 1 -/
def aGroup : Machine.Group := ⟨[0, 0, 0, 1, 0, 0x31, 0x31, 0, 0, 2, 1, 0, 0, 0, 0, 1, 0, 32] ++ List.replicate 46 0, 0, [3], 1⟩
/-- image 1 on tile 0 of die 3; context 7 of the group collects -/
def onFabric : State := { inService with fabric := { Fabric.reset with images := ⟨none, [(1, some aImage)]⟩, placed := ⟨0, [(imgKey 3 1, 1)]⟩ }, coll := { Coll.reset with groups := ⟨none, [(groupKey 3 0, some aGroup)]⟩, ctx := ⟨Ctx.reset, [(ctxKey 3 7, { Ctx.reset with state := .collecting, group := 1 })]⟩ } }
/-- the record of region 9: mirrored, one block of 256 bytes on die 3 -/
def aRecord : Bytes := [0, 9, 1, 1, 8, 0, 0, 0, 0, 0, 1, 0, 0, 0, 0, 1, 0, 0, 0, 0, 0, 0, 0, 0]
def aRegion : Region := { regionOf aRecord with state := .ready, parts := ⟨0, [(3, 1), (15, 1)]⟩, sizes := ⟨0, [(3, 4368), (15, 4368)]⟩ }
/-- region 9 resident -/
def withRegion : State := { inService with resident := { Resident.reset with regions := ⟨none, [(9, some aRegion)]⟩ } }
/-- an Epolong datagram of class 0 to DEST_INDEX 5, as a fibre port carries it: KIND 0 DATA, 1 CONTRIB -/
def aDatagram (kind : Nat) : Bytes := withFcs (List.replicate 12 0 ++ [0x86, 0xDD, 0x60, 0, 0, 0, 0, 0, 17, 64] ++ List.replicate 34 0 ++ beBytes 2 epolongPort ++ [0, 0, 0, 0] ++ [BitVec.ofNat 8 (16 + kind), 0, 0, 5] ++ List.replicate 12 0)
/-- an ARP request for 10.0.0.1 -/
def anArp : Bytes := padTo 64 (List.replicate 12 0 ++ [8, 6, 0, 1, 8, 0, 6, 4, 0, 1] ++ List.replicate 16 0 ++ [10, 0, 0, 1])
/-- EP0 up with the address 10.0.0.1, an ARP request on the keeper's link -/
def withArp : State := { inService with mgmt := { Mgmt.reset with eports := ⟨EPort.reset, [(0, upPort)]⟩ }, obj := [(objKey 0x060100 5, varNat [0, 4, 10, 0, 0, 1])], switch := { Switch.reset with keeperIn := ⟨[], [(0, [(256, anArp)])]⟩ } }
/-- the key of the witnesses, and a message of a type with a body, tagged with it -/
def aKey : Bytes := List.replicate 32 1
def aMessage (ty session flags seq : Nat) (body : Bytes) : Bytes := bopMessage State.reset ty session flags seq 0 0 aKey body
/-- session 0 of the ADMIN key -/
def withSession : State := { inService with bop := { inService.bop with keys := ⟨[], [(1, aKey)]⟩, sessions := ⟨none, [(0, some (newSession .admin aKey 1024 0 0 0))]⟩ } }

/-! ### Well-formed commands: for each check an ill-formed command that it refuses -/

theorem test_wf_lcb : (Instr.lcbReceive 0 0 ⟨List.replicate 119 0, 0, 0, true⟩).wf = false := by decide +kernel
theorem test_wf_lcb_good : (Instr.lcbReceive 0 0 ⟨List.replicate 120 0, 0, 0, true⟩).wf = true := by decide +kernel
theorem test_wf_event : (Instr.foghornRaise ⟨0x0101, 4, 0, []⟩).wf = false := by decide +kernel
theorem test_wf_sensors : (Instr.snapshotRefresh 8 [250, 250, 250] [] 43000 0).wf = false := by decide +kernel
theorem test_wf_prefer : (Instr.refclkPrefer .admin 256).wf = false := by decide +kernel
theorem test_wf_boot_data : (Instr.bootData 0 0 (List.replicate 9217 0)).wf = false := by decide +kernel
theorem test_wf_boot_end : (Instr.bootEnd 0 0 (List.replicate 9217 0) true).wf = false := by decide +kernel
theorem test_wf_sweeper : (Instr.sweeperVisit 0 524352).wf = false := by decide +kernel
theorem test_wf_frame : (Instr.frameIngress 0 0 ⟨List.replicate 9217 0, none⟩).wf = false := by decide +kernel
theorem test_wf_mp_frame : (Instr.mpFrameReceive 0 (List.replicate 9217 0)).wf = false := by decide +kernel
theorem test_wf_stall : (Instr.stallWatch 0 65).wf = false := by decide +kernel
theorem test_wf_resume : (Instr.imageResume 0 0).wf = false := by decide +kernel
theorem test_wf_region : (Instr.regionReady 4097).wf = false := by decide +kernel
theorem test_wf_control : (Instr.regionControlData .fabric 0 []).wf = false := by decide +kernel
theorem test_wf_lock : (Instr.updateLockGrant 0 0).wf = false := by decide +kernel
theorem test_wf_audit : (Instr.mirrorAuditBlock 4097 0 true true).wf = false := by decide +kernel
theorem test_wf_takeover : (Instr.takeoverComplete 0).wf = false := by decide +kernel
theorem test_wf_els : (Instr.elsPoll 0 [2000] 0).wf = false := by decide +kernel
theorem test_wf_monitor : (Instr.monitorRefresh 0 ⟨[], []⟩ [] [] 0 0 ⟨[], []⟩).wf = false := by decide +kernel
theorem test_wf_key : (Instr.keyWrite .admin 6 []).wf = false := by decide +kernel
theorem test_wf_collector : (Instr.collectorAddr .admin 0 (List.replicate 17 0)).wf = false := by decide +kernel
theorem test_wf_object : (Instr.objectWrite .admin 0x1000000 0 []).wf = false := by decide +kernel
theorem test_wf_scrub : (Instr.scrubRead 0 0 0 265).wf = false := by decide +kernel

/-! ### The manual's own examples -/

/-- 01 R15, example: FP77 lies on SD2, EP13 on SD3. -/
theorem test_port_geometry : portDie 77 = 2 ∧ portDie (256 + 13) = 3 := by decide

/-- 06, example after R197: the 17 bytes 0x7F, 0x39, 0x47 and zeros are 1.5, -0.5, 2.0, 6.0 and zeros. -/
theorem test_mxfp4_block : decodeBlock 0x14 ([0x7F, 0x39, 0x47] ++ List.replicate 14 0) =
    [0x3FC00000, 0xBF000000, 0x40000000, 0x40C00000] ++ List.replicate 28 0 := by decide +kernel

/-- The contributions of the example after R220 to block 0, in the order of acceptance. -/
def exampleSum : List Word :=
  let m1 := decodeBlock 0x14 ([0x7E, 0x52, 0x6A] ++ List.replicate 14 0)
  let m0 := decodeBlock 0x14 ([0x7F, 0x39, 0x47] ++ List.replicate 14 0)
  let m2 := decodeBlock 0x14 ([0x80, 0x10, 0x93] ++ List.replicate 14 0)
  (((m1.zip m0).map fun x => fAdd x.1 x.2).zip m2).map fun x => fAdd x.1 x.2

/-- 06, first example after R220: the exact sums are 4.0, 0, 3.0, 8.5. -/
theorem test_example_sum : exampleSum = [0x40800000, 0, 0x40400000, 0x41080000] ++ List.replicate 28 0 := by decide +kernel

/-- The same example: the result block is 0x80, 0x40, 0x36 and fourteen zeros, and it does not escape. -/
theorem test_example_block :
    let e := scaleExp 0x14 exampleSum
    let q := quantBlock 0x14 e (List.replicate 32 none) exampleSum
    packBlock 0x14 e q.1 = [0x80, 0x40, 0x36] ++ List.replicate 14 0 ∧
      escapes 48 4 (scaledBlock e exampleSum) q.2.1 q.2.2 = false := by decide +kernel

/-- 06, second example after R220: block 5 escapes, and its MXFP8 E4M3 bytes are those of step 9. -/
theorem test_example_escape :
    let a := [0x42200000] ++ List.replicate 8 0x3F800000 ++ List.replicate 8 0xBF800000 ++ List.replicate 15 (0 : Word)
    let e := scaleExp 0x14 a
    let q := quantBlock 0x14 e (List.replicate 32 none) a
    escapes 48 4 (scaledBlock e a) q.2.1 q.2.2 = true ∧ scaleExp 0x10 a = -3 ∧
      packBlock 0x10 (-3) (quantBlock 0x10 (-3) (List.replicate 32 none) a).1 =
        [0x7C, 0x7A] ++ List.replicate 8 0x50 ++ List.replicate 8 0xD0 ++ List.replicate 15 0 := by decide +kernel

/-- 06, example after R206: a mean magnitude of 0.3 gives E = -2, and an element of 0.125 is zero, one above it is not. -/
theorem test_tern2_scale : scaleExp 0x18 (List.replicate 32 0x3E99999A) = -2 ∧
    (quantElem 0x18 (-2) none 0x3E000000).1 = 0 ∧ (quantElem 0x18 (-2) none 0x3E000001).1 = 1 := by decide +kernel

/-- 07 R234, example: OP 0x38, END, SA 0x10, IMM 0 is 0xE200_8000_0000_0000. -/
theorem test_send_instruction : iOp 0xE200800000000000 = 0x38 ∧ iDst 0xE200800000000000 = 0 ∧ iA 0xE200800000000000 = 0x10 ∧
    iImm 0xE200800000000000 = 0 ∧ iEnd 0xE200800000000000 = true ∧ iImm 0xE000800000000004 = 4 ∧
    iEnd 0xE000800000000004 = false ∧ instrOk 0xE200800000000000 = true := by decide

/-- 03 R87, example: with SD5 out of service the cells of a queue on SD2 go to SD2, SD3, SD4, SD6, SD7, SD0, SD1, SD2, and cell
41 to SD1. -/
theorem test_spread_order :
    let s (n : Nat) : State := { inService with
      start := { inService.start with sectorDies := 0xDF }, switch := { Switch.reset with rotation := ⟨0, [((queueCode (.voq 2 0 0 0)).getD 0, n)]⟩ } }
    ([0, 1, 2, 3, 4, 5, 6, 7].map fun n => nextIntermediate (s n) ((queueCode (.voq 2 0 0 0)).getD 0)) =
      [2, 3, 4, 6, 7, 0, 1, 2].map some ∧ nextIntermediate (s 41) ((queueCode (.voq 2 0 0 0)).getD 0) = some 1 := by decide +kernel

/-- 03 R100, example: a frame of INGRESS_TIME 0xFFF0_0000 reaches the limit of 2,000,000 ns at 0x000E_8480 and not 1 ns before. -/
theorem test_frame_age :
    let s (n : Nat) : State := { inService with time := { Time.reset with queue4 := 4 * n } }
    frameAge (s 951424) { aCell with ingressTime := 0xFFF00000 } = 2000000 ∧
      frameAge (s 951423) { aCell with ingressTime := 0xFFF00000 } = 1999999 := by decide +kernel

/-- 02 R60, example: TS 0xFF80 at AGE_NOW 0x0012 has age 146; TS 0x2000 expires at 0x65D9 and not before. -/
theorem test_entry_age :
    let s (n : BitVec 16) : State := { inService with tables := { Tables.reset with ageNow := ⟨0, [(3, n)]⟩ } }
    emtAge (s 0x0012) 3 ⟨[], [], 0xFF80, false, true, 3, 0⟩ = 146 ∧
      emtExpired (s 0x65D9) 3 ⟨[], [], 0x2000, false, true, 3, 0⟩ = true ∧
      emtExpired (s 0x65D8) 3 ⟨[], [], 0x2000, false, true, 3, 0⟩ = false := by decide +kernel

/-- 12 R382, example: TMU_INC 0x1400_0347 is accepted and waits for the next mark. -/
theorem test_increment : (match exec (.tmuIncWrite 0 0x14000347)
      { inService with obj := [(objKey 0x0D0001 1, 1)] } with
    | .next t => t.time.pendingInc
    | _ => none) = some 0x14000347 := by decide +kernel

/-- 09 R309, example: from 23.40 mW at 41.0 degrees C with -0.40 mW a degree, the seek at 56.5 degrees C starts at 17.20 mW. -/
theorem test_set_point : setPoint { Ring.reset with sp := 2340, spTemp := 410, tcoef := -40, first := false } 565 = 1720 := by
  decide +kernel

/-- 08 R283, example: with 256 bytes a row and blocks of 1,048,576 bytes a block holds 4,096 rows. -/
theorem test_rows : ({ aRegion with rowBytes := 256, blockBytes := 1048576 } : Region).rowsPerBlock = 4096 := by decide +kernel

/-- 17 R503, example: the alias of bit 23 of TBL_CMD on SD4 is 0x4FE8_005C. -/
theorem test_alias_address : addrDie 0x4FE8005C = 4 ∧ addrBlock 0x4FE8005C = 0xFE ∧
    addrWord 0x4FE8005C = 0x20017 := by decide

/-! ### Witnesses -/

theorem ok_of {e : Except Nat Nat} {k : Nat} (h : e.toOption = some k) : e = .ok k := by
  cases e <;> simp_all [Except.toOption]

theorem witness_StepRunsFront : ∃ (s : State) (c : Instr) (rest : List Instr), s.pending = c :: rest :=
  ⟨{ State.reset with pending := [.ppsLost] }, .ppsLost, [], rfl⟩

theorem witness_EmptyQueueTicks_1 : ∃ s : State, s.pending = [] ∧ clocksRun s = true ∧ s.time.followers.wf = true :=
  ⟨inService, rfl, by decide, by decide⟩

theorem witness_EmptyQueueTicks_2 : ∃ s : State, s.pending = [] ∧ clocksRun s = false :=
  ⟨State.reset, rfl, by decide⟩

theorem witness_MemoryKeepsItsForm : ∃ s t : State, Memory.wf s.mem = true ∧ step s = .next t :=
  ⟨State.reset, _, by decide, rfl⟩

theorem witness_TimeIncrementsStayInRange : ∃ s t : State, incOk s.time.inc = true ∧
    (∀ v, s.time.pendingInc = some v → incOk v = true) ∧ step s = .next t :=
  ⟨State.reset, _, by decide, (fun _ h => nomatch h), rfl⟩

theorem witness_BlownFusesStayBlown : ∃ (s t : State) (k b : Nat), s.keeper.fuses.wf = true ∧ step s = .next t ∧
    (s.keeper.fuses.get k).testBit b = true :=
  ⟨{ State.reset with keeper := { Keeper.reset with fuses := ⟨0, [(0, 1)]⟩ } }, _, 0, 0, by decide, rfl, by decide⟩

theorem witness_FrozenAndOffHold_1 : ∃ (c : Instr) (s : State), s.start.state = .frozen ∧ s.power.frozen = true ∧
    alwaysOn c = false :=
  ⟨.ppsLost, { State.reset with start := { Start.reset with state := .frozen }, power := { Power.reset with frozen := true } },
    rfl, rfl, rfl⟩

theorem witness_FrozenAndOffHold_2 : ∃ (c : Instr) (s : State), s.start.state = .off ∧ alwaysOn c = false :=
  ⟨.ppsLost, { State.reset with start := { Start.reset with state := .off } }, rfl, rfl⟩

theorem witness_RefusedWritesChangeNothing_1 : ∃ (r : Role) (i b : Nat) (v : Bytes) (s : State), keeperUp s = true ∧
    writeStatus r i b v.length s ≠ stDone :=
  ⟨.observer, 0x020004, 1, [80], inService, by decide, by decide⟩

theorem witness_RefusedWritesChangeNothing_2 : ∃ (c : Instr) (r : Role) (i b : Nat) (s : State),
    objectOf c = some (r, i, b) ∧ keeperUp s = true ∧ writeCheck r i b s ≠ stDone :=
  ⟨.freezeNow .operator 0, .operator, 0x10F001, 6, inService, rfl, by decide, by decide⟩

theorem witness_ServiceIsAcceptedOnce_1 : ∃ (s : State) (r : Role), keeperUp s = true ∧ (r = .admin ∨ r = .operator) ∧
    (s.start.state = .linkUp ∨ s.start.state = .degraded) ∧ s.start.serviceAsked = false :=
  ⟨{ inService with start := { inService.start with state := .linkUp, serviceAsked := false } }, .operator, by decide⟩

theorem witness_ServiceIsAcceptedOnce_2 : ∃ (s : State) (_ : Role), keeperUp s = true ∧
    stateCode s.start.state < stateCode .linkUp :=
  ⟨{ inService with start := { inService.start with state := .marginTest } }, .fabric, by decide⟩

theorem witness_ServiceIsAcceptedOnce_3 : ∃ (s : State) (r : Role), keeperUp s = true ∧ isUp s = true ∧
    (r = .fabric ∨ r = .observer) :=
  ⟨inService, .observer, by decide⟩

theorem witness_ServiceIsAcceptedOnce_4 : ∃ (s : State) (r : Role), keeperUp s = true ∧ isUp s = true ∧
    (r = .admin ∨ r = .operator) ∧ s.start.serviceAsked = true :=
  ⟨inService, .admin, by decide⟩

theorem witness_BlockPlacement : ∃ r : Region, r.dies ≠ [] ∧ r.mirrored = true :=
  ⟨aRegion, by decide +kernel, by decide +kernel⟩

theorem witness_FramesOfPowerAndStart : ∃ (c : Instr) (s t : State), (family c = .power ∨ family c = .startUp) ∧ exec c s = .next t :=
  ⟨.powerOn 43000 true true, State.reset, _, by decide, rfl⟩

theorem witness_FramesOfTimeAndTables : ∃ (c : Instr) (s t : State), (family c = .time ∨ family c = .tables) ∧ exec c s = .next t :=
  ⟨.ppsLost, State.reset, _, by decide, rfl⟩

theorem witness_FramesOfSwitching : ∃ (c : Instr) (s t : State), family c = .switching ∧ exec c s = .next t :=
  ⟨.drainEmpty 0, State.reset, _, by decide, rfl⟩

theorem witness_FramesOfCollectives : ∃ (c : Instr) (s t : State), (family c = .collectives ∨ family c = .fabric) ∧ exec c s = .next t :=
  ⟨.quarantineEnd 0, State.reset, _, by decide, rfl⟩

theorem witness_FramesOfResidents : ∃ (c : Instr) (s t : State), family c = .resident ∧ exec c s = .next t :=
  ⟨.importFrame [], State.reset, _, by decide, rfl⟩

theorem witness_FramesOfLanesAndPaths : ∃ (c : Instr) (s t : State), (family c = .lanes ∨ family c = .express) ∧ exec c s = .next t :=
  ⟨.lineMigration 0 0, State.reset, _, by decide, rfl⟩

theorem witness_FramesOfManagement : ∃ (c : Instr) (s t : State), (family c = .ports ∨ family c = .keeper ∨ family c = .protocol) ∧ exec c s = .next t :=
  ⟨.mpFailover 0 true, State.reset, _, by decide, rfl⟩

theorem witness_FramesOfRegisters : ∃ (c : Instr) (s t : State), (family c = .registers ∨ family c = .reliability) ∧ exec c s = .next t :=
  ⟨.scrubBehind 0, State.reset, _, by decide, rfl⟩

theorem witness_PowerAndReset_1 : ∃ (s : State) (v : Nat) (a b : Bool), 
    s.start.state = .off ∧ 39000 ≤ v ∧ v < 48500 :=
  ⟨resetTo .off State.reset, 39000, true, false, by decide⟩

theorem witness_PowerAndReset_2 : ∃ (s : State) (v : Nat), 
    s.start.state ≠ .off ∧ (v ≤ 37500 ∨ 50000 ≤ v) :=
  ⟨State.reset, 37500, by decide⟩

theorem witness_PowerAndReset_3 : ∃ (s : State), 
    s.start.state ≠ .off ∧ s.start.state ≠ .reset ∧ s.power.trip = false :=
  ⟨inService, by decide⟩

theorem witness_PowerAndReset_4 : ∃ (s : State) (sel : Fin 4), 
    s.start.state = .reset ∧ s.power.trip = false ∧ s.power.selected = true ∧ (s.power.refA || s.power.refB) = true ∧ s.power.onAt + 10000000 ≤ wallNs s :=
  ⟨{ State.reset with power := { State.reset.power with refB := true } }, 0, by decide⟩

theorem witness_PowerAndReset_5 : ∃ (s : State) (kind : TripKind) (die : AnyDie) (sensor : Fin 16) (reading : Int), 
    s.start.state ≠ .off ∧ s.power.trip = false ∧ tripSensor kind die.val sensor.val = true ∧ tripLimit kind reading = true :=
  ⟨inService, .current, 0, 0, 72001, by decide⟩

theorem witness_PowerAndReset_6 : ∃ (s : State) (kind : TripKind) (die : AnyDie) (sensor : Fin 16) (reading : Int), 
    tripLimit kind reading = false :=
  ⟨inService, .baseLayer, 0, 0, 899, by decide⟩

theorem witness_ClocksAndSensors_1 : ∃ (s : State) (v : Nat), 
    clocksRun s = true ∧ 37500 < v ∧ v < 40000 ∧ s.power.vinLowSent = false :=
  ⟨inService, 37501, by decide⟩

theorem witness_ClocksAndSensors_2 : ∃ (s : State), 
    s.start.state ≠ .off ∧ s.start.state ≠ .reset ∧ s.power.selected = true ∧ s.power.selB = false ∧ s.power.holdover = false ∧ s.power.refB = true :=
  ⟨inService, by decide⟩

theorem witness_ClocksAndSensors_3 : ∃ (s : State), 
    s.start.state ≠ .off ∧ s.start.state ≠ .reset ∧ s.power.selected = true ∧ s.power.selB = true ∧ s.power.holdover = false ∧ s.power.refA = false :=
  ⟨{ inService with power := { inService.power with refA := false, selB := true } }, by decide⟩

theorem witness_ClocksAndSensors_4 : ∃ (s : State) (b : Bool), 
    s.start.state ≠ .off ∧ s.power.selected = true ∧ s.power.holdover = true :=
  ⟨{ inService with power := { inService.power with holdover := true } }, false, by decide⟩

theorem witness_ClocksAndSensors_5 : ∃ (s : State) (r : Role) (v : Nat), 
    Permitted r 0x020005 2 s ∧ v ≤ 1 ∧ (if v = 1 then s.power.refB else s.power.refA) = true :=
  ⟨inService, .admin, 1, by decide⟩

theorem witness_ClocksAndSensors_6 : ∃ (s : State) (tj base : List Int) (v i : Nat), 
    clocksRun s = true ∧ s.start.keeperLost = false :=
  ⟨inService, [300], [], 42000, 30000, by decide⟩

theorem witness_ClocksAndSensors_7 : ∃ (s : State) (die : AnyDie), 
    clocksRun s = true ∧ s.power.snapAt.get die.val + 5000000 ≤ wallNs s :=
  ⟨inService, 3, by decide⟩

theorem witness_FreezeLatch_1 : ∃ (s : State), 
    s.power.armed = true ∧ s.power.frozen = false ∧ s.start.state ≠ .off ∧ s.start.state ≠ .reset :=
  ⟨{ inService with power := { inService.power with armed := true } }, by decide⟩

theorem witness_FreezeLatch_2 : ∃ (s : State) (r : Role) (v : Byte), 
    s.power.armed = true ∧ s.power.frozen = false ∧ s.start.state ≠ .off ∧ s.start.state ≠ .reset ∧ Permitted r 0x10F001 6 s :=
  ⟨{ inService with power := { inService.power with armed := true } }, .admin, 1, by decide⟩

theorem witness_FreezeLatch_3 : ∃ (s : State) (b : Fin 5) (die : AnyDie) (u : Word), 
    s.power.armed = true ∧ s.power.frozen = false ∧ bit (cfgFreezeOn s) b.val = true ∧ (if die.val = 8 then !s.start.keeperLost else dieUp s die.val) = true ∧ clocksRun s = true :=
  ⟨{ inService with power := { inService.power with armed := true }, obj := [(objKey 0x10F001 5, 2)] }, 1, 7, 0, by decide⟩

theorem witness_BootStages_1 : ∃ (s : State) (v : Tab Nat) (m : List Nat), 
    s.start.state = .fuseLoad ∧ pastLimit s 5000000 = false ∧ voteAll s.keeper.fuses = some (v, m) ∧ v.get 0 < 256 ∧ (v.get 0 = 2 ∨ ∀ d : Fin 8, v.get 5 / 2 ^ (8 * d.val) % 256 ≠ 255) :=
  ⟨{ State.reset with start := { Start.reset with state := .fuseLoad, enteredAt := 10000000 }, keeper := { Keeper.reset with fuses := .empty 0 } }, .empty 0, [], by decide⟩

theorem witness_BootStages_2 : ∃ (s : State), 
    s.start.state = .fuseLoad ∧ voteAll s.keeper.fuses = none :=
  ⟨{ State.reset with start := { Start.reset with state := .fuseLoad }, keeper := { Keeper.reset with fuses := ⟨0, [(0, 1), (1, 2), (2, 3)]⟩ } }, by decide⟩

theorem witness_BootStages_3 : ∃ (s : State), 
    s.start.state = .romBoot ∧ pastLimit s 10000000 = false ∧ (2 ≤ bootSel s → hostBootDisabled s = false) :=
  ⟨{ State.reset with start := { Start.reset with state := .romBoot, enteredAt := 10000000 } }, by decide⟩

theorem witness_BootStages_4 : ∃ (s : State), 
    s.start.state = .fwVerify ∧ s.keeper.bootSource = 0 ∧ pastLimit s 200000000 = false :=
  ⟨{ State.reset with start := { Start.reset with state := .fwVerify } }, by decide⟩

theorem witness_BootStages_5 : ∃ (s : State), 
    s.start.state = .fwVerify ∧ s.keeper.bootSource = 0 ∧ failureHalts s = true :=
  ⟨{ State.reset with start := { Start.reset with state := .fwVerify } }, by decide⟩

theorem witness_BootTransfer_1 : ∃ (s : State), 
    transferOpen s = true ∧ s.keeper.requestAt = none ∧ s.mgmt.mpUp = 3 :=
  ⟨{ State.reset with start := { Start.reset with state := .fwVerify }, keeper := { Keeper.reset with bootSource := 1 }, mgmt := { Mgmt.reset with mpUp := 3 } }, by decide⟩

theorem witness_BootTransfer_2 : ∃ (s0 s : State) (mp : Fin 2) (host off : Nat) (m d : Bytes), 
    transferOpen s0 = true ∧ mpBudget mp.val s0 = (true, s) ∧ bootParse 2 m = some (off, d) ∧ 4 ≤ d.length ∧ d.length ≤ 1024 ∧ d.length % 4 = 0 ∧ s.keeper.hostOwner = some host ∧ off = s.keeper.hostOffset :=
  ⟨{ State.reset with start := { Start.reset with state := .fwVerify }, keeper := { Keeper.reset with bootSource := 1, hostOwner := some 7 } }, _, 0, 7, 0, bootMessage 2 0 0 [1, 2, 3, 4], [1, 2, 3, 4], by exact ⟨rfl, rfl, by decide +kernel, by decide, by decide, by decide, rfl, rfl⟩⟩

theorem witness_BootTransfer_3 : ∃ (s0 s : State) (mp : Fin 2) (host total : Nat) (m d b : Bytes), 
    transferOpen s0 = true ∧ mpBudget mp.val s0 = (true, s) ∧ bootParse 4 m = some (total, d) ∧ s.keeper.hostOwner = some host ∧ bootSel s ≠ 3 ∧ s.keeper.hostOffset = total ∧ 128 ≤ total ∧ total ≤ 5242880 ∧ b = memBytes s.mem (ksramAddr 0) total :=
  ⟨{ State.reset with start := { Start.reset with state := .fwVerify }, keeper := { Keeper.reset with bootSource := 1, hostOwner := some 7, hostOffset := 128 } }, _, 0, 7, 128, bootMessage 4 0 128 [], [], _, by exact ⟨rfl, rfl, by decide +kernel, rfl, by decide, rfl, by decide, by decide, rfl⟩⟩

theorem witness_BootTransfer_4 : ∃ (s : State), 
    transferOpen s = true ∧ s.keeper.hostOwner.isSome = true ∧ s.keeper.hostLast + 10000000000 ≤ wallNs s :=
  ⟨{ State.reset with start := { Start.reset with state := .fwVerify }, keeper := { Keeper.reset with bootSource := 1, hostOwner := some 7 }, time := { Time.reset with wall4 := 40000000000 } }, by decide⟩

theorem witness_MemoryAndOptics_1 : ∃ (s : State) (d : DieIx), 
    s.start.state = .memTrain ∧ dieUp s d.val = true ∧ s.start.trained.getLsbD d.val = false ∧ (packagesOf s d.val).isEmpty = false ∧ pastLimit s 3000000000 = false :=
  ⟨{ inService with start := { inService.start with state := .memTrain } }, 3, by decide⟩

theorem witness_MemoryAndOptics_2 : ∃ (s : State) (d : DieIx), 
    s.start.state = .memTrain ∧ dieUp s d.val = true ∧ s.start.trained.getLsbD d.val = false ∧ s.start.enteredAt + 3000000000 ≤ wallNs s :=
  ⟨{ inService with start := { inService.start with state := .memTrain }, time := { Time.reset with wall4 := 12000000000 } }, 3, by decide⟩

theorem witness_MemoryAndOptics_3 : ∃ (s : State), 
    s.start.state = .memTrain ∧ s.start.libraryDone = false ∧ untested s = false ∧ ((diesUp s).all (fun d => s.start.trained.getLsbD d) = true) :=
  ⟨{ inService with start := { inService.start with state := .memTrain, trained := 0xFF }, ras := { Ras.reset with tested := 0xFFFFFFFFFFFFFFFF } }, by decide⟩

theorem witness_MemoryAndOptics_4 : ∃ (s : State), 
    untested s = true :=
  ⟨inService, by decide⟩

theorem witness_MemoryAndOptics_5 : ∃ (s : State) (a : BitVec 20), 
    s.start.state = .memTrain ∧ s.start.libraryDone = true ∧ ((diesUp s).all (fun d => s.start.trained.getLsbD d) = true) ∧ ((diesUp s).all (fun d => (baseOf s d).all (250 ≤ ·)) = true) :=
  ⟨{ inService with start := { inService.start with state := .memTrain, trained := 0xFF, libraryDone := true } }, 0xFFFFF, by decide⟩

theorem witness_MemoryAndOptics_6 : ∃ (s : State), 
    s.start.state = .opticsCal ∧ s.start.enteredAt + 1000000000 ≤ wallNs s :=
  ⟨{ inService with start := { inService.start with state := .opticsCal }, time := { Time.reset with wall4 := 12000000000 } }, by decide⟩

theorem witness_MemoryAndOptics_7 : ∃ (s : State), 
    s.start.state = .marginTest ∧ (∀ d ∈ diesUp s, deadLinks s d = 0) :=
  ⟨{ inService with start := { inService.start with state := .marginTest } }, by decide⟩

theorem witness_MemoryAndOptics_8 : ∃ (s : State) (d : Nat), 
    s.start.state = .marginTest ∧ d ∈ diesUp s ∧ deadLinks s d ≠ 0 ∧ (∀ e ∈ diesUp s, deadLinks s e < deadLinks s d ∨ deadLinks s e = deadLinks s d ∧ e ≤ d) :=
  ⟨{ inService with start := { inService.start with state := .marginTest }, optics := { Optics.reset with channels := ⟨3, []⟩ } }, 7, by decide⟩

theorem witness_MemoryAndOptics_9 : ∃ (s : State), 
    s.start.state = .marginTest ∧ s.start.enteredAt + 2000000000 ≤ wallNs s ∧ ((diesUp s).all (fun d => deadLinks s d == 0) = true) :=
  ⟨{ inService with start := { inService.start with state := .marginTest }, time := { Time.reset with wall4 := 12000000000 } }, by decide⟩

theorem witness_ServiceAndLoss_1 : ∃ (s : State) (r : Role), 
    Permitted r 2 4 s ∧ (s.start.state = .linkUp ∨ s.start.state = .degraded) ∧ s.start.serviceAsked = false :=
  ⟨{ inService with start := { inService.start with state := .linkUp, serviceAsked := false } }, .admin, by decide⟩

theorem witness_ServiceAndLoss_2 : ∃ (s : State) (d : DieIx), 
    s.start.serviceAsked = true ∧ dieUp s d.val = true ∧ isUp s = true ∧ s.start.darkHold = false ∧ s.start.serviceEntered = false ∧ (∀ e ∈ diesUp s, e ≠ d.val → s.start.serviceMark.getLsbD e = true) ∧ s.keeper.minority = [] :=
  ⟨{ inService with start := { inService.start with state := .linkUp, serviceEntered := false, serviceMark := 0x7F } }, 7, by decide⟩

theorem witness_ServiceAndLoss_3 : ∃ (s : State), 
    clocksRun s = true ∧ isUp s = true ∧ s.power.holdover = true :=
  ⟨{ inService with power := { inService.power with holdover := true } }, by decide⟩

theorem witness_ServiceAndLoss_4 : ∃ (s : State) (d : AnyDie), 
    clocksRun s = true ∧ (if d.val = 8 then !s.start.keeperLost else dieUp s d.val) = true :=
  ⟨inService, 8, by decide⟩

theorem witness_ServiceAndLoss_5 : ∃ (s : State) (d : DieIx), 
    clocksRun s = true ∧ dieUp s d.val = true :=
  ⟨inService, 3, by decide⟩

theorem witness_ServiceAndLoss_6 : ∃ (s : State) (d : DieIx), 
    started s = true ∧ heartbeatMissing s 8 = true ∧ s.start.keeperLost = false ∧ dieUp s d.val = true ∧ heartbeatMissing s d.val = true :=
  ⟨{ inService with time := { Time.reset with wall4 := 8000000 } }, 3, by decide⟩

theorem witness_ServiceAndLoss_7 : ∃ (s : State), 
    started s = true ∧ heartbeatMissing s 8 = true ∧ s.start.keeperLost = false ∧ s.start.state ≠ .halted ∧ (diesUp s).any (heartbeatMissing s) = false ∧ (diesUp s).any s.start.serviceMark.getLsbD = true :=
  ⟨{ inService with time := { Time.reset with wall4 := 8000000 }, start := { inService.start with heartbeat := ⟨1500000, [(8, 0)]⟩ } }, by decide⟩

theorem witness_ServiceAndLoss_8 : ∃ (s : State) (c : Fin 5), 
    started s = true ∧ s.keeper.coresRun = true ∧ s.start.keeperLost = false ∧ s.start.state ≠ .halted ∧ (diesUp s).any (heartbeatMissing s) = false ∧ (diesUp s).any s.start.serviceMark.getLsbD = false :=
  ⟨{ inService with time := { Time.reset with wall4 := 0 }, start := { inService.start with serviceMark := 0 }, keeper := { Keeper.reset with coresRun := true } }, 2, by decide⟩

theorem witness_ServiceAndLoss_9 : ∃ (s : State) (d : DieIx) (b : Bool), 
    clocksRun s = true ∧ dieUp s d.val = true ∧ ((s.coll.prepared.any fun p => !s.coll.marked.contains (p.1, d.val)) = true) :=
  ⟨{ inService with coll := { Coll.reset with prepared := [(0, aGroup)] } }, 5, true, by decide⟩

theorem witness_ServiceAndLoss_10 : ∃ (s : State) (d : DieIx) (k : Nat) (x : Session) (r : Run), 
    clocksRun s = true ∧ dieUp s d.val = true ∧ s.coll.prepared = [] ∧ ((s.bop.sessions.cells.find? fun c => c.2.any (·.inFlight)) = some (k, some x)) ∧ x.run = some r ∧ (diesUp s).all (r.marked ++ [d.val]).contains = true :=
  ⟨{ inService with bop := { inService.bop with sessions := ⟨none, [(0, some { newSession .admin (List.replicate 32 1) 1024 0 0 0 with run := some { seq := 0, left := [], total := 1, results := [], batch := [(0x090010, 1, 1)], marked := [0, 1, 2, 3, 4, 6, 7], taken := 0, items := [], records := 0 } })]⟩ } }, 5, 0, { newSession .admin (List.replicate 32 1) 1024 0 0 0 with run := some { seq := 0, left := [], total := 1, results := [], batch := [(0x090010, 1, 1)], marked := [0, 1, 2, 3, 4, 6, 7], taken := 0, items := [], records := 0 } }, { seq := 0, left := [], total := 1, results := [], batch := [(0x090010, 1, 1)], marked := [0, 1, 2, 3, 4, 6, 7], taken := 0, items := [], records := 0 }, by decide⟩

theorem witness_ServiceAndLoss_11 : ∃ (s : State) (d : DieIx), 
    clocksRun s = true ∧ dieUp s d.val = true ∧ s.start.keeperLost = false ∧ s.coll.prepared = [] :=
  ⟨inService, 5, by decide⟩

theorem witness_TimeUnit_1 : ∃ (s : State), 
    tmuRuns s = true ∧ s.time.pendingStep = none :=
  ⟨inService, by decide⟩

theorem witness_TimeUnit_2 : ∃ (s : State) (step : Int), 
    tmuRuns s = true ∧ s.time.pendingStep = some step :=
  ⟨{ inService with time := { Time.reset with pendingStep := some 65536 } }, 65536, by decide⟩

theorem witness_TimeUnit_3 : ∃ (s : State) (m : Fin 16) (v : Word), 
    Granted s m.val 8 0x0D 2 true ∧ cfgServoMode s = 1 ∧ 335208776 ≤ v.toNat ∧ v.toNat ≤ 335879864 :=
  ⟨{ inService with obj := [(objKey 0x0D0001 1, 1)] }, 0, 335208776, by decide⟩

theorem witness_TimeUnit_4 : ∃ (s : State) (m : Fin 16) (v : Word), 
    Granted s m.val 8 0x0D 2 true ∧ (cfgServoMode s = 0 ∨ v.toNat < 335208776 ∨ 335879864 < v.toNat) :=
  ⟨inService, 0, 335544320, by decide⟩

theorem witness_TimeUnit_5 : ∃ (s : State) (m : Fin 16) (v : Word), 
    Granted s m.val 8 0x0D 4 true ∧ v.getLsbD 31 = true ∧ s.time.pendingStep = none ∧ ((s.time.stepNs.toInt * 65536 + ((v.setWidth 16).toNat : Int)).natAbs : Int) ≤ stepLimit s :=
  ⟨inService, 0, 0x80000001, by decide⟩

theorem witness_TimeUnit_6 : ∃ (s : State) (m : Fin 16) (v : Word), 
    Granted s m.val 8 0x0D 4 true ∧ v.getLsbD 31 = true ∧ s.time.pendingStep.isSome = true :=
  ⟨{ inService with time := { Time.reset with pendingStep := some 5 } }, 0, 0x80000001, by decide⟩

theorem witness_TimeUnit_7 : ∃ (s : State) (r : Role) (ns : Word) (frac : BitVec 16) (force : Bool), 
    Permitted r 0x0D0001 9 s ∧ tmuRuns s = true ∧ s.time.pendingStep = none ∧ (((ns.toInt * 65536 + (frac.toNat : Int)).natAbs : Int) ≤ stepLimit s ∨ force = true) :=
  ⟨inService, .admin, 1000, 0, false, by decide⟩

theorem witness_TimeUnit_8 : ∃ (s : State) (r : Role) (ns : Word) (frac : BitVec 16), 
    Permitted r 0x0D0001 9 s ∧ tmuRuns s = true ∧ s.time.pendingStep = none ∧ stepLimit s < ((ns.toInt * 65536 + (frac.toNat : Int)).natAbs : Int) :=
  ⟨inService, .admin, 2000, 0, by decide⟩

theorem witness_TimeUnit_9 : ∃ (s : State) (m : Fin 16) (d : AnyDie), 
    Granted s m.val d.val 0x0D 0 false :=
  ⟨inService, 0, 8, by decide⟩

theorem witness_HallTime_1 : ∃ (s : State), 
    tmuRuns s = true ∧ s.time.ppsSeen = true ∧ s.time.ppsTicks < 400000000 :=
  ⟨{ inService with time := { Time.reset with ppsSeen := true, ppsTicks := 399999999 } }, by decide⟩

theorem witness_HallTime_2 : ∃ (s : State), 
    tmuRuns s = true ∧ (s.time.ppsSeen = false ∨ 400000000 ≤ s.time.ppsTicks) :=
  ⟨inService, by decide⟩

theorem witness_HallTime_3 : ∃ (s : State), 
    tmuRuns s = true ∧ s.time.ppsLost = false ∧ 1600000000 ≤ s.time.ppsTicks :=
  ⟨{ inService with time := { Time.reset with ppsTicks := 1600000000 } }, by decide⟩

theorem witness_HallTime_4 : ∃ (s : State) (n : Nat) (ppb : Int), 
    tmuRuns s = true ∧ ppb.natAbs ≤ 100000 ∧ ppb = clk10Error n :=
  ⟨inService, 799920000, -100000, by decide⟩

theorem witness_HallTime_5 : ∃ (s : State) (n : Nat) (ppb : Int), 
    tmuRuns s = true ∧ 100000 < ppb.natAbs ∧ ppb = clk10Error n :=
  ⟨inService, 799919999, -100001, by decide⟩

theorem witness_HallTime_6 : ∃ (s : State), 
    tmuRuns s = true :=
  ⟨inService, by decide⟩

theorem witness_HallTime_7 : ∃ (s : State) (r : Role) (v : Word), 
    Permitted r 0x0D0001 5 s :=
  ⟨inService, .operator, 7, by decide⟩

theorem witness_HallTime_8 : ∃ (s : State) (r : Role) (v : Byte), 
    Permitted r 0x0D0001 1 s ∧ v.toNat ≤ 1 :=
  ⟨inService, .operator, 1, by decide⟩

theorem witness_HallTime_9 : ∃ (s : State) (d : DieIx) (x : Timed) (l : List Timed), 
    dieUp s d.val = true ∧ clocksRun s = true ∧ s.regs.timed.get d.val = x :: l ∧ atOrAfter (folNs s d.val) x.launch.toNat = true ∧ isFibre x.port = false ∧ (membersUp s x.port).isEmpty = false :=
  ⟨{ inService with regs := { Regs.reset with timed := ⟨[], [(0, [⟨0, aFrame, 256, 0⟩])]⟩ }, mgmt := { Mgmt.reset with eports := ⟨EPort.reset, [(0, upPort)]⟩ } }, 0, ⟨0, aFrame, 256, 0⟩, [], by decide⟩

theorem witness_TableCommands_1 : ∃ (s : State) (d : DieIx) (g : Fin 4) (i : BitVec 16), 
    dieUp s d.val = true ∧ clocksRun s = true ∧ setBusy s d.val g.val = false ∧ s.tables.sets.wf = true ∧ (s.tables.sets.get (setKey d.val g.val)).data.wf = true :=
  ⟨inService, 3, 0, 5, by decide⟩

theorem witness_TableCommands_2 : ∃ (s : State) (d : DieIx) (g : Fin 4) (i : BitVec 16) (w : Word) (force : Bool), 
    dieUp s d.val = true ∧ clocksRun s = true ∧ setBusy s d.val g.val = false ∧ s.tables.sets.wf = true ∧ w = resultWord ((s.tables.sets.get (setKey d.val g.val)).data.get 0) ∧ resultOk w = true ∧ (force = true ∨ resAction (s.tables.dit.get (tblKey d.val i.toNat)) = 0 ∨ s.tables.dit.get (tblKey d.val i.toNat) = w ∨ drainEmptyFor s d.val i.toNat = true) :=
  ⟨inService, 3, 0, 5, 0, false, by decide⟩

theorem witness_TableCommands_3 : ∃ (s : State) (d : DieIx) (g : Fin 4) (i : BitVec 16), 
    dieUp s d.val = true ∧ clocksRun s = true ∧ setBusy s d.val g.val = false ∧ s.tables.sets.wf = true ∧ resultOk (resultWord ((s.tables.sets.get (setKey d.val g.val)).data.get 0)) = true ∧ resAction (s.tables.dit.get (tblKey d.val i.toNat)) ≠ 0 ∧ s.tables.dit.get (tblKey d.val i.toNat) ≠ resultWord ((s.tables.sets.get (setKey d.val g.val)).data.get 0) ∧ drainEmptyFor s d.val i.toNat = false :=
  ⟨{ inService with tables := { Tables.reset with dit := ⟨0, [(tblKey 3 5, 0x40000001)]⟩, drainZero := .empty none } }, 3, 0, 5, by decide⟩

theorem witness_TableCommands_4 : ∃ (s : State) (d : DieIx) (g : Fin 4) (i : BitVec 16) (len a : Nat), 
    dieUp s d.val = true ∧ clocksRun s = true ∧ setBusy s d.val g.val = false ∧ s.tables.sets.wf = true ∧ stagedPrefix (s.tables.sets.get (setKey d.val g.val)) 4 i.toNat = some (0, len, a) ∧ s.tables.lpm.get (lpmKey d.val 0 len a) = none ∧ s.tables.lpmUnits.get d.val + 2 ≤ 524288 :=
  ⟨inService, 3, 0, 0, 0, 0, by decide⟩

theorem witness_TableCommands_5 : ∃ (s : State) (d : DieIx) (g : Fin 4) (i : BitVec 16) (c : CmdSet) (x : Bytes) (p : Nat) (static : Bool), 
    dieUp s d.val = true ∧ clocksRun s = true ∧ setBusy s d.val g.val = false ∧ s.tables.sets.wf = true ∧ c = s.tables.sets.get (setKey d.val g.val) ∧ emtKeyOk (stagedKey c) = true ∧ emtData (stagedKey c) (stagedData c 4) = some x ∧ emtFind s d.val (stagedKey c) = none ∧ (emtPlace s d.val (stagedKey c)).1 = some [p] :=
  ⟨{ inService with tables := { Tables.reset with sets := ⟨CmdSet.reset, [(setKey 3 0, { CmdSet.reset with key := ⟨0, [(0, 0x01000000)]⟩ })]⟩ } }, 3, 0, 0, { CmdSet.reset with key := ⟨0, [(0, 0x01000000)]⟩ }, List.replicate 16 0, 689676, true, by decide +kernel⟩

theorem witness_TableCommands_6 : ∃ (s : State) (d : DieIx) (g : Fin 4) (i : BitVec 16) (len a n : Nat), 
    dieUp s d.val = true ∧ clocksRun s = true ∧ setBusy s d.val g.val = false ∧ s.tables.sets.wf = true ∧ stagedPrefix (s.tables.sets.get (setKey d.val g.val)) 4 i.toNat = some (0, len, a) ∧ s.tables.lpm.get (lpmKey d.val 0 len a) = some n :=
  ⟨{ inService with tables := { Tables.reset with lpm := ⟨none, [(lpmKey 3 0 0 0, some 7)]⟩ } }, 3, 0, 0, 0, 0, 7, by decide⟩

theorem witness_TableCommands_7 : ∃ (s : State) (d : DieIx) (g : Fin 4) (i : BitVec 16) (c : CmdSet) (p : Nat) (e : EmtEntry), 
    dieUp s d.val = true ∧ clocksRun s = true ∧ setBusy s d.val g.val = false ∧ s.tables.sets.wf = true ∧ c = s.tables.sets.get (setKey d.val g.val) ∧ emtKeyOk (stagedKey c) = true ∧ emtFind s d.val (stagedKey c) = some p ∧ emtAt s d.val p = some e :=
  ⟨{ inService with tables := { Tables.reset with sets := ⟨CmdSet.reset, [(setKey 3 0, { CmdSet.reset with key := ⟨0, [(0, 0x01000000)]⟩ })]⟩, emt := ⟨none, [(emtKey 3 (2 ^ 21), some ⟨beBytes 4 0x01000000 ++ List.replicate 16 0, [], 0, true, false, 3, 0⟩)]⟩ } }, 3, 0, 0, { CmdSet.reset with key := ⟨0, [(0, 0x01000000)]⟩ }, 2 ^ 21, ⟨beBytes 4 0x01000000 ++ List.replicate 16 0, [], 0, true, false, 3, 0⟩, by decide +kernel⟩

theorem witness_TableCommands_8 : ∃ (s : State) (d : DieIx) (g : Fin 4) (i : BitVec 16) (c : CmdSet) (p : Nat) (e : EmtEntry), 
    dieUp s d.val = true ∧ clocksRun s = true ∧ setBusy s d.val g.val = false ∧ s.tables.sets.wf = true ∧ c = s.tables.sets.get (setKey d.val g.val) ∧ posOk c i.toNat = true ∧ (s.tables.emt.cells.any (fun x => x.1 / 2 ^ 22 == d.val && stagedPos c i.toNat ≤ x.1 % 2 ^ 22) = true) ∧ nextValid s d.val (stagedPos c i.toNat) = some p ∧ emtAt s d.val p = some e :=
  ⟨{ inService with tables := { Tables.reset with emt := ⟨none, [(emtKey 3 (2 ^ 21), some ⟨[], [], 0, true, false, 3, 0⟩)]⟩ } }, 3, 0, 0, CmdSet.reset, 2 ^ 21, ⟨[], [], 0, true, false, 3, 0⟩, by decide +kernel⟩

theorem witness_TableCommands_9 : ∃ (s : State) (d : DieIx) (g : Fin 4) (table : Fin 16) (force static : Bool) (i : BitVec 16), 
    dieUp s d.val = true ∧ clocksRun s = true ∧ setBusy s d.val g.val = true :=
  ⟨{ inService with tables := { Tables.reset with sets := ⟨CmdSet.reset, [(setKey 3 0, { CmdSet.reset with busyUntil := 2000 })]⟩ } }, 3, 0, 6, false, false, 0, by decide⟩

theorem witness_TablesOfEveryDie_1 : ∃ (s : State) (g : Fin 4) (cmd : Word) (m : Fin 16), 
    clocksRun s = true ∧ s.start.keeperLost = false ∧ (diesUp s).any (refuses s g.val cmd) = true ∧ (∀ d ∈ diesUp s, Granted s m.val d 0x20 (0x40 * g.val) true) :=
  ⟨inService, 0, 0xF0000000, 0, by decide⟩

theorem witness_TablesOfEveryDie_2 : ∃ (s : State) (g : Fin 4) (cmd : Word) (m : Fin 16) (keeperAlive dieLeft : Bool), 
    clocksRun s = true ∧ (keeperAlive = false ∨ dieLeft = true ∨ s.start.keeperLost = true) :=
  ⟨inService, 0, 0x20000000, 0, false, true, by decide⟩

theorem witness_TablesOfEveryDie_3 : ∃ (s : State) (g : Fin 4) (i : BitVec 16) (m : Fin 16), 
    clocksRun s = true ∧ (∀ d ∈ diesUp s, Granted s m.val d 0x20 (0x40 * g.val) true) ∧ s.start.keeperLost = false ∧ s.tables.sets.wf = true ∧ s.tables.dit.wf = true ∧ (∀ d ∈ diesUp s, setBusy s d g.val = false) ∧ (∀ d ∈ diesUp s, resultOk (resultWord ((s.tables.sets.get (setKey d g.val)).data.get 0)) = true) :=
  ⟨inService, 0, 9, 0, by decide⟩

theorem witness_TablesOfEveryDie_4 : ∃ (s : State) (d : DieIx) (r : LearnRec) (l : List LearnRec) (p : Nat) (e : EmtEntry), 
    clocksRun s = true ∧ dieUp s d.val = true ∧ s.tables.learnRecs.get d.val = r :: l ∧ emtFind s d.val r.key = some p ∧ emtAt s d.val p = some e ∧ e.static = false ∧ r.delete = false :=
  ⟨{ inService with tables := { Tables.reset with learnRecs := ⟨[], [(3, [⟨1, false, [4], []⟩])]⟩, emt := ⟨none, [(emtKey 3 (2 ^ 21), some ⟨[4], [], 0, false, true, 1, 0⟩)]⟩ } }, 3, ⟨1, false, [4], []⟩, [], 2 ^ 21, ⟨[4], [], 0, false, true, 1, 0⟩, by decide +kernel⟩

theorem witness_TablesOfEveryDie_5 : ∃ (s : State) (d : DieIx), 
    dieUp s d.val = true ∧ clocksRun s = true :=
  ⟨inService, 3, by decide⟩

theorem witness_TablesOfEveryDie_6 : ∃ (s : State) (d : DieIx) (j : Nat) (e : EmtEntry), 
    dieUp s d.val = true ∧ clocksRun s = true ∧ j < 64 ∧ emtAt s d.val (2 ^ 21 + j) = some e ∧ (e.learned = true → e.owner = d.val) ∧ emtExpired s d.val e = true ∧ (cfgAgingMode s ≠ 1 ∨ s.start.headless = true) :=
  ⟨{ inService with tables := { Tables.reset with ageNow := ⟨0, [(3, 17881)]⟩, emt := ⟨none, [(emtKey 3 (2 ^ 21), some ⟨[4], [], 0, false, true, 3, 0⟩)]⟩ } }, 3, 0, ⟨[4], [], 0, false, true, 3, 0⟩, by decide +kernel⟩

theorem witness_TablesOfEveryDie_7 : ∃ (s : State) (d : DieIx) (w : Fin 2) (v : Word), 
    dieUp s d.val = true ∧ clocksRun s = true ∧ emtEmpty s d.val = true :=
  ⟨inService, 3, 1, 5, by decide⟩

theorem witness_TablesOfEveryDie_8 : ∃ (s : State) (d : DieIx) (w : Fin 2) (v : Word), 
    dieUp s d.val = true ∧ clocksRun s = true ∧ emtEmpty s d.val = false :=
  ⟨{ inService with tables := { Tables.reset with emt := ⟨none, [(emtKey 3 (2 ^ 21), some ⟨[4], [], 0, false, true, 3, 0⟩)]⟩ } }, 3, 1, 5, by decide⟩

theorem witness_TablesOfEveryDie_9 : ∃ (s : State) (r : Role) (n : Fin 7) (d : DieIx) (v : BitVec 64), 
    Permitted r (0x080200 + n.val) (d.val + 1) s ∧ s.tables.reference.wf = true :=
  ⟨inService, .operator, 4, 3, 1, by decide⟩

theorem witness_TablesOfEveryDie_10 : ∃ (s : State) (d : DieIx), 
    dieUp s d.val = true ∧ clocksRun s = true ∧ (∀ k, k < 7 → s.tables.reference.get (digKey d.val k) = none) :=
  ⟨inService, 3, by decide⟩

theorem witness_TablesOfEveryDie_11 : ∃ (s : State) (d : DieIx) (v : BitVec 64), 
    dieUp s d.val = true ∧ clocksRun s = true ∧ s.tables.reference.get (digKey d.val 6) = some v ∧ (∀ k, k < 6 → s.tables.reference.get (digKey d.val k) = none) :=
  ⟨{ inService with tables := { Tables.reset with reference := ⟨none, [(digKey 3 6, some 1)]⟩ } }, 3, 1, by decide⟩

theorem witness_TablesOfEveryDie_12 : ∃ (s : State) (r : Role) (v : Byte), 
    Permitted r 0x080001 1 s ∧ v.toNat = 1 :=
  ⟨inService, .fabric, 1, by decide⟩

theorem witness_TablesOfEveryDie_13 : ∃ (s : State) (r : Role), 
    Permitted r 0x080001 1 s :=
  ⟨inService, .fabric, by decide⟩

theorem witness_CellsOverTheMesh_1 : ∃ (s : State) (d : DieIx) (id : BitVec 24) (f : IFrame) (c : Cell) (r : List Cell), 
    dieUp s d.val = true ∧ clocksRun s = true ∧ s.switch.ingress.get (frameKey d.val id.toNat) = some f ∧ f.cells = c :: r ∧ c.pool ≠ 3 :=
  ⟨{ inService with switch := { Switch.reset with ingress := ⟨none, [(frameKey 3 5, some ⟨[aCell, aCell], 4, false⟩)]⟩ } }, 3, 5, ⟨[aCell, aCell], 4, false⟩, aCell, [aCell], by decide⟩

theorem witness_CellsOverTheMesh_2 : ∃ (s : State) (d : DieIx) (id : BitVec 24) (f : IFrame) (c : Cell) (r : List Cell), 
    dieUp s d.val = true ∧ clocksRun s = true ∧ s.switch.ingress.get (frameKey d.val id.toNat) = some f ∧ f.cells = c :: r ∧ c.pool = 3 :=
  ⟨{ inService with switch := { Switch.reset with ingress := ⟨none, [(frameKey 3 5, some ⟨[{ aCell with pool := 3, last := false }, { aCell with pool := 3 }], 4, false⟩)]⟩ } }, 3, 5, ⟨[{ aCell with pool := 3, last := false }, { aCell with pool := 3 }], 4, false⟩, { aCell with pool := 3, last := false }, [{ aCell with pool := 3 }], by decide⟩

theorem witness_CellsOverTheMesh_3 : ∃ (s : State) (d : DieIx) (id : BitVec 24) (f : IFrame), 
    dieUp s d.val = true ∧ clocksRun s = true ∧ s.switch.ingress.get (frameKey d.val id.toNat) = some f ∧ f.cells = [] :=
  ⟨{ inService with switch := { Switch.reset with ingress := ⟨none, [(frameKey 3 5, some ⟨[], 1, true⟩)]⟩ } }, 3, 5, ⟨[], 1, true⟩, by decide⟩

theorem witness_CellsOverTheMesh_4 : ∃ (s : State) (i : QueueId) (q mid : Nat) (c : Cell), 
    queueCode i = some q ∧ dieUp s (qDie q) = true ∧ clocksRun s = true ∧ spreadNext s q = some c ∧ nextIntermediate s q = some mid ∧ (c.index ≠ 0 ∨ tooOld s c = false) ∧ transitRoom s mid c = true ∧ mid ≠ qDie q :=
  ⟨{ inService with switch := { Switch.reset with voq := ⟨[], [(voqKey 0 256 0 0, [aCell])]⟩, released := ⟨[], [(qVoq 0 256 0 0, [0])]⟩, rotation := ⟨0, [(qVoq 0 256 0 0, 3)]⟩ } }, .voq 0 256 0 0, qVoq 0 256 0 0, 3, aCell, by decide⟩

theorem witness_CellsOverTheMesh_5 : ∃ (s : State) (i : QueueId) (q : Nat) (c : Cell), 
    queueCode i = some q ∧ dieUp s (qDie q) = true ∧ clocksRun s = true ∧ spreadNext s q = some c ∧ nextIntermediate s q = some (qDie q) ∧ (c.index ≠ 0 ∨ tooOld s c = false) ∧ transitRoom s (qDie q) c = true :=
  ⟨{ inService with switch := { Switch.reset with voq := ⟨[], [(voqKey 0 256 0 0, [aCell])]⟩, released := ⟨[], [(qVoq 0 256 0 0, [0])]⟩ } }, .voq 0 256 0 0, qVoq 0 256 0 0, aCell, by decide⟩

theorem witness_CellsOverTheMesh_6 : ∃ (s : State) (i : QueueId) (q mid : Nat) (c : Cell), 
    queueCode i = some q ∧ dieUp s (qDie q) = true ∧ clocksRun s = true ∧ spreadNext s q = some c ∧ nextIntermediate s q = some mid ∧ c.index = 0 ∧ tooOld s c = true :=
  ⟨{ inService with time := { Time.reset with queue4 := 4000000000 }, switch := { Switch.reset with voq := ⟨[], [(voqKey 0 256 0 0, [aCell])]⟩, released := ⟨[], [(qVoq 0 256 0 0, [0])]⟩, rotation := ⟨0, [(qVoq 0 256 0 0, 3)]⟩ } }, .voq 0 256 0 0, qVoq 0 256 0 0, 3, aCell, by decide⟩

theorem witness_CellsOverTheMesh_7 : ∃ (s : State) (d e : DieIx) (k : ClassIx) (c : Cell) (r : List Cell), 
    dieUp s d.val = true ∧ dieUp s e.val = true ∧ clocksRun s = true ∧ d ≠ e ∧ s.switch.transit.get (transitKey d.val e.val k.val) = c :: r ∧ (∀ j : ClassIx, k < j → s.switch.transit.get (transitKey d.val e.val j.val) = []) ∧ (c.index ≠ 0 ∨ tooOld s c = false) ∧ egressRoom s e.val = true :=
  ⟨{ inService with switch := { Switch.reset with transit := ⟨[], [(transitKey 3 5 6, [aCell])]⟩ } }, 3, 5, 6, aCell, [], by decide⟩

theorem witness_CellsOverTheMesh_8 : ∃ (s : State) (d : DieIx) (k : ClassIx) (c : Cell) (r : List Cell), 
    dieUp s d.val = true ∧ clocksRun s = true ∧ s.switch.transit.get (transitKey d.val d.val k.val) = c :: r ∧ (∀ j : ClassIx, k < j → s.switch.transit.get (transitKey d.val d.val j.val) = []) ∧ (c.index ≠ 0 ∨ tooOld s c = false) ∧ egressRoom s d.val = true :=
  ⟨{ inService with switch := { Switch.reset with transit := ⟨[], [(transitKey 3 3 6, [aCell])]⟩ } }, 3, 6, aCell, [], by decide⟩

theorem witness_CellsOverTheMesh_9 : ∃ (s : State) (d e : DieIx) (k : ClassIx) (c : Cell) (r : List Cell), 
    dieUp s d.val = true ∧ clocksRun s = true ∧ s.switch.transit.get (transitKey d.val e.val k.val) = c :: r ∧ (∀ j : ClassIx, k < j → s.switch.transit.get (transitKey d.val e.val j.val) = []) ∧ c.index = 0 ∧ tooOld s c = true :=
  ⟨{ inService with time := { Time.reset with queue4 := 4000000000 }, switch := { Switch.reset with transit := ⟨[], [(transitKey 3 5 6, [aCell])]⟩ } }, 3, 5, 6, aCell, [], by decide⟩

theorem witness_CellsOverTheMesh_10 : ∃ (s : State) (a b : DieIx) (c : Cell) (r : List Cell), 
    clocksRun s = true ∧ dieUp s b.val = true ∧ s.switch.mesh.get (meshKey a.val b.val) = c :: r ∧ c.stage2 = false :=
  ⟨{ inService with switch := { Switch.reset with mesh := ⟨[], [(meshKey 3 5, [aCell])]⟩ } }, 3, 5, aCell, [], by decide⟩

theorem witness_CellsOverTheMesh_11 : ∃ (s : State) (a b : DieIx) (c : Cell) (r : List Cell), 
    clocksRun s = true ∧ dieUp s b.val = true ∧ s.switch.mesh.get (meshKey a.val b.val) = c :: r ∧ c.stage2 = true :=
  ⟨{ inService with switch := { Switch.reset with mesh := ⟨[], [(meshKey 3 5, [{ aCell with stage2 := true }])]⟩ } }, 3, 5, { aCell with stage2 := true }, [], by decide⟩

theorem witness_CellsOverTheMesh_12 : ∃ (s : State) (a b : DieIx) (c : Cell) (r : List Cell), 
    clocksRun s = true ∧ dieUp s b.val = true ∧ s.switch.mesh.get (meshKey a.val b.val) = c :: r ∧ c.stage2 = true ∧ c.destType = 2 ∧ s.switch.reasm.get (reasmKey b.val c.ingressDie c.frameId) = none ∧ c.index = 0 ∧ c.cells = 1 :=
  ⟨{ inService with switch := { Switch.reset with mesh := ⟨[], [(meshKey 3 5, [{ aCell with stage2 := true, destType := 2 }])]⟩ } }, 3, 5, { aCell with stage2 := true, destType := 2 }, [], by decide⟩

theorem witness_CellsOverTheMesh_13 : ∃ (s : State) (a b : DieIx) (c : Cell) (r : List Cell), 
    clocksRun s = true ∧ dieUp s b.val = true ∧ s.switch.mesh.get (meshKey a.val b.val) = c :: r :=
  ⟨{ inService with switch := { Switch.reset with mesh := ⟨[], [(meshKey 3 5, [aCell])]⟩ } }, 3, 5, aCell, [], by decide⟩

theorem witness_CellsOverTheMesh_14 : ∃ (s : State) (d i : DieIx) (id : BitVec 24) (f : EFrame), 
    clocksRun s = true ∧ s.switch.reasm.get (reasmKey d.val i.val id.toNat) = some f ∧ f.openedAt + 50000 ≤ nowNs s ∧ complete f = false :=
  ⟨{ inService with time := { Time.reset with queue4 := 200000 }, switch := { Switch.reset with reasm := ⟨none, [(reasmKey 3 5 7, some { aFrame with got := [] })]⟩ } }, 3, 5, 7, { aFrame with got := [] }, by decide⟩

theorem witness_CellsOverTheMesh_15 : ∃ (s : State) (p : PortIx) (i : DieIx) (k : ClassIx) (x : Reseq) (f : EFrame), 
    clocksRun s = true ∧ x = s.switch.reseq.get (reseqKey p.val i.val k.val) ∧ (x.held.find? (fun g => g.head.orderSeq == x.expect) = some f) :=
  ⟨{ inService with switch := { Switch.reset with reseq := ⟨⟨0, [], none⟩, [(reseqKey 256 5 0, ⟨0, [aFrame], some 0⟩)]⟩ } }, 256, 5, 0, ⟨0, [aFrame], some 0⟩, aFrame, by decide⟩

theorem witness_CellsOverTheMesh_16 : ∃ (s : State) (p : PortIx) (i : DieIx) (k : ClassIx) (x : Reseq) (at_ n : Nat) (f : EFrame), 
    clocksRun s = true ∧ x = s.switch.reseq.get (reseqKey p.val i.val k.val) ∧ x.timer = some at_ ∧ at_ + 20000 ≤ nowNs s ∧ f ∈ x.held ∧ n = (f.head.orderSeq + 65536 - x.expect) % 65536 ∧ (∀ g ∈ x.held, n ≤ (g.head.orderSeq + 65536 - x.expect) % 65536) :=
  ⟨{ inService with time := { Time.reset with queue4 := 80000 }, switch := { Switch.reset with reseq := ⟨⟨0, [], none⟩, [(reseqKey 256 5 0, ⟨9, [aFrame], some 0⟩)]⟩ } }, 256, 5, 0, ⟨9, [aFrame], some 0⟩, 0, 65527, aFrame, by decide⟩

theorem witness_QueuesAndDrains_1 : ∃ (s : State) (p : PortIx) (l : LaneIx) (k : ClassIx) (f : EFrame), 
    clocksRun s = true ∧ s.switch.heldResults.get (pcKey p.val k.val) = [] ∧ s.switch.laneq.get (laneqKey p.val l.val k.val) = [f] ∧ tooOld s f.head = true :=
  ⟨{ inService with time := { Time.reset with queue4 := 8000000000 }, switch := { Switch.reset with laneq := ⟨[], [(laneqKey 256 0 0, [aFrame])]⟩ } }, 256, 0, 0, aFrame, by decide⟩

theorem witness_QueuesAndDrains_2 : ∃ (s : State) (d e : DieIx) (k : ClassIx) (c : Cell), 
    clocksRun s = true ∧ s.switch.transit.get (transitKey d.val e.val k.val) = [c] ∧ c.index = 0 ∧ tooOld s c = true :=
  ⟨{ inService with time := { Time.reset with queue4 := 8000000000 }, switch := { Switch.reset with transit := ⟨[], [(transitKey 3 5 6, [aCell])]⟩ } }, 3, 5, 6, aCell, by decide⟩

theorem witness_QueuesAndDrains_3 : ∃ (s : State) (d : DieIx), 
    dieUp s d.val = true ∧ clocksRun s = true :=
  ⟨inService, 3, by decide⟩

theorem witness_QueuesAndDrains_4 : ∃ (s : State) (d : DieIx) (p : PortIx) (k : ClassIx) (b : Fin 16) (x : SpillBlock) (r : List SpillBlock), 
    dieUp s d.val = true ∧ clocksRun s = true ∧ s.switch.spill.get (voqKey d.val p.val k.val b.val) = x :: r ∧ queueBytes (s.switch.voq.get (voqKey d.val p.val k.val b.val)) < cfgVoqSpillMin s / 2 ∧ memBad s (memAddr d.val (blockOffset s d.val x.place)) spillBlockBytes = false ∧ (((blockCells [x]).all fun c => !(c.index == 0 && tooOld s c)) = true) :=
  ⟨{ inService with switch := { Switch.reset with spill := ⟨[], [(voqKey 3 256 0 0, [⟨0, [some { aCell with pool := 3 }]⟩])]⟩ } }, 3, 256, 0, 0, ⟨0, [some { aCell with pool := 3 }]⟩, [], by decide +kernel⟩

theorem witness_QueuesAndDrains_5 : ∃ (s : State) (d : DieIx) (p : PortIx) (k : ClassIx) (b : Fin 16) (x : SpillBlock) (r : List SpillBlock), 
    dieUp s d.val = true ∧ clocksRun s = true ∧ s.switch.spill.get (voqKey d.val p.val k.val b.val) = x :: r ∧ queueBytes (s.switch.voq.get (voqKey d.val p.val k.val b.val)) < cfgVoqSpillMin s / 2 ∧ memBad s (memAddr d.val (blockOffset s d.val x.place)) spillBlockBytes = true :=
  ⟨{ inService with switch := { Switch.reset with spill := ⟨[], [(voqKey 3 256 0 0, [⟨0, [some { aCell with pool := 3 }]⟩])]⟩ }, ras := { Ras.reset with poisoned := [memAddr 3 (blockOffset inService 3 0) / 256] } }, 3, 256, 0, 0, ⟨0, [some { aCell with pool := 3 }]⟩, [], by decide +kernel⟩

theorem witness_QueuesAndDrains_6 : ∃ (s : State) (d : DieIx) (k : Nat) (g g' : Machine.Group), 
    dieUp s d.val = true ∧ clocksRun s = true ∧ neededCtx s d.val = some g' ∧ (cfgCtxSpillOn s * (48 * 2 ^ 20) ≤ ctxUse s d.val (fun j => !ctxOut s j) * 100) ∧ spillVictim s d.val = some k ∧ groupOfCtx s k = some g ∧ ctxUse s d.val (ctxOut s) + ctxBytes g ≤ 64 * 2 ^ 20 :=
  ⟨{ inService with obj := [(objKey 0x090002 4, 0)], coll := { Coll.reset with groups := ⟨none, [(groupKey 3 0, some aGroup)]⟩, ctx := ⟨Ctx.reset, [(ctxKey 3 7, { Ctx.reset with state := .collecting, group := 1, inst := 5 })]⟩, slots := ⟨Slot.reset, [(slotKey 3 0 0, { Slot.reset with isOpen := true })]⟩, atHome := ⟨[], [(3, [⟨List.replicate 64 0, 0, 0, 256⟩])]⟩ } }, 3, ctxKey 3 7, aGroup, aGroup, by decide +kernel⟩

theorem witness_QueuesAndDrains_7 : ∃ (s : State) (d : DieIx) (g : Fin 65536) (i : BitVec 16) (c k : Nat) (x : Machine.Group), 
    dieUp s d.val = true ∧ clocksRun s = true ∧ ctxOf s d.val g.val i.toNat c = some k ∧ groupOfCtx s k = some x ∧ ctxOut s k = true ∧ sramFull s d.val x = false :=
  ⟨{ inService with switch := { Switch.reset with ctxSpilled := ⟨false, [(ctxKey 3 7, true)]⟩, ctxArea := ⟨Switch.reset.ctxArea.dflt, [(ctxKey 3 7, (⟨0, [(0, 5)]⟩, ⟨0, []⟩))]⟩ }, coll := { Coll.reset with groups := ⟨none, [(groupKey 3 0, some aGroup)]⟩, ctx := ⟨Ctx.reset, [(ctxKey 3 7, { Ctx.reset with state := .collecting, group := 1 })]⟩ } }, 3, 0, 0, 0, ctxKey 3 7, aGroup, by decide +kernel⟩

theorem witness_QueuesAndDrains_8 : ∃ (s : State) (r : Role) (p : PortIx), 
    Permitted r (0x090100 + p.val) 2 s :=
  ⟨inService, .operator, 287, by decide⟩

theorem witness_QueuesAndDrains_9 : ∃ (s : State) (r : Role) (p : PortIx), 
    Permitted r (0x090100 + p.val) 2 s :=
  ⟨inService, .operator, 0, by decide⟩

theorem witness_QueuesAndDrains_10 : ∃ (s : State) (r : Role) (p : PortIx), 
    Permitted r (0x090100 + p.val) 2 s ∧ s.regs.timed.wf = true :=
  ⟨inService, .operator, 5, by decide⟩

theorem witness_QueuesAndDrains_11 : ∃ (s : State) (p : PortIx), 
    clocksRun s = true ∧ draining s p.val = true ∧ portEmpty s p.val = true :=
  ⟨{ inService with obj := [(objKey 0x090105 2, 1)] }, 5, by decide⟩

theorem witness_QueuesAndDrains_12 : ∃ (s : State) (r : Role) (k : ClassIx) (v : Byte), 
    Permitted r (0x090010 + k.val) 1 s ∧ v.toNat ≤ 7 ∧ (bit v.toNat 2 = isDeep s k.val ∨ classSpilled s k.val = false) ∧ reserveBytes (objSet (0x090010 + k.val) 1 v.toNat s) ≤ 44 * 2 ^ 20 :=
  ⟨inService, .operator, 7, 5, by decide⟩

theorem witness_QueuesAndDrains_13 : ∃ (s : State) (r : Role) (d : DieIx) (v : Byte), 
    Permitted r 0x090001 (d.val + 1) s ∧ v.toNat ≤ 64 ∧ (s.switch.spill.cells.any (fun x => x.1 / 16 / 8 / 288 == d.val) = false) ∧ carveoutFits s d.val v.toNat = true :=
  ⟨inService, .fabric, 7, 64, by decide⟩

theorem witness_Scheduling_1 : ∃ (s : State) (d : DieIx) (k n : Nat), 
    dieUp s d.val = true ∧ clocksRun s = true ∧ s.flow.wheel = Tab.set ⟨none, []⟩ k (some n) ∧ shaperDie k = d.val ∧ n < now16 s / 1024 ∧ s.flow.nextAt.get k ≤ (now16 s : Int) :=
  ⟨{ inService with time := { Time.reset with queue4 := 1024 }, flow := { Flow.reset with wheel := ⟨none, [(classShaper 256 3, some 2)]⟩ } }, 0, classShaper 256 3, 2, by decide⟩

theorem witness_Scheduling_2 : ∃ (s : State) (p : PortIx) (c : ClassIx) (e : Nat), 
    dieUp s (portDie p.val) = true ∧ clocksRun s = true ∧ sprayLanes s p.val ≠ [] ∧ unsettledOf s p.val + 16 ≤ grantBound s p.val ∧ (nextTurn 8 (s.flow.grantTurn.get (pcKey p.val c.val) + 7) (fun d => dieUp s d && s.switch.requests.get (dpcKey d p.val c.val)) = some e) ∧ (c.val = 7 ∨ c.val = 6 ∧ grantable s p.val 7 = false) ∧ grantable s p.val c.val = true :=
  ⟨{ inService with switch := { Switch.reset with requests := ⟨false, [(dpcKey 3 4 6, true)]⟩, spray := Switch.reset.spray.set 4 0xFF }}, 4, 6, 3, by decide⟩

theorem witness_Scheduling_3 : ∃ (s : State) (p : PortIx) (c : ClassIx) (e : Nat), 
    dieUp s (portDie p.val) = true ∧ clocksRun s = true ∧ sprayLanes s p.val ≠ [] ∧ unsettledOf s p.val + 16 ≤ grantBound s p.val ∧ (nextTurn 8 (s.flow.grantTurn.get (pcKey p.val c.val) + 7) (fun d => dieUp s d && s.switch.requests.get (dpcKey d p.val c.val)) = some e) ∧ c.val < 6 ∧ grantable s p.val 7 = false ∧ grantable s p.val 6 = false ∧ levelChoose (grantLevel p.val) (upTo 6) (grantable s p.val) (levelEnter (grantLevel p.val) (upTo 6) (grantable s p.val) s.flow) = some c.val :=
  ⟨{ inService with switch := { Switch.reset with requests := ⟨false, [(dpcKey 3 4 2, true)]⟩, spray := Switch.reset.spray.set 4 0xFF }}, 4, 2, 3, by decide⟩

theorem witness_Scheduling_4 : ∃ (s : State) (d : DieIx) (p : PortIx) (c : ClassIx), 
    dieUp s d.val = true ∧ clocksRun s = true ∧ s.flow.grants.get (dpcKey d.val p.val c.val) ≠ 0 :=
  ⟨{ inService with flow := { Flow.reset with grants := ⟨0, [(dpcKey 3 256 2, 1)]⟩ } }, 3, 256, 2, by decide⟩

theorem witness_Scheduling_5 : ∃ (s : State) (d : DieIx) (p : PortIx) (c : ClassIx) (at_ : Nat), 
    clocksRun s = true ∧ s.flow.idleSince.get (dpcKey d.val p.val c.val) = some at_ ∧ at_ + 2000 ≤ nowNs s ∧ 0 < s.flow.balance.get (dpcKey d.val p.val c.val) ∧ waiting s d.val p.val c.val = false :=
  ⟨{ inService with time := { Time.reset with queue4 := 8000 }, flow := { Flow.reset with balance := ⟨0, [(dpcKey 3 256 2, 7)]⟩, idleSince := ⟨none, [(dpcKey 3 256 2, some 0)]⟩ } }, 3, 256, 2, 0, by decide⟩

theorem witness_Scheduling_6 : ∃ (s : State) (d : DieIx) (e : Fin 16) (i : Nat), 
    dieUp s d.val = true ∧ clocksRun s = true ∧ (nextTurn (engineTargets e.val).length (s.flow.engineTurn.get (d.val * 16 + e.val) + (engineTargets e.val).length - 1) (fun i => targetEligible s d.val ((engineTargets e.val).getD i 0)) = some i) ∧ (engineTargets e.val).getD i 0 ≠ 289 :=
  ⟨{ inService with switch := { Switch.reset with voq := ⟨[], [(voqKey 0 256 2 0, [aCell])]⟩ }, flow := { Flow.reset with balance := ⟨0, [(dpcKey 0 256 2, 7)]⟩ } }, 0, 0, 16, by decide +kernel⟩

theorem witness_Scheduling_7 : ∃ (s : State) (d : DieIx) (e : Fin 16) (c : Cell), 
    dieUp s d.val = true ∧ clocksRun s = true ∧ (nextTurn 18 (s.flow.engineTurn.get (d.val * 16 + e.val) + 17) (fun i => targetEligible s d.val ((engineTargets e.val).getD i 0)) = some 17) ∧ 2 ≤ e.val ∧ classEligible s d.val (e.val + 272) 7 = true ∧ subEligible s d.val (e.val + 272) 7 0 = true ∧ (∀ b : Fin 16, b ≠ 0 → subEligible s d.val (e.val + 272) 7 b.val = false) ∧ headFrame s (qVoq d.val (e.val + 272) 7 0) = some c ∧ c.ingressDie = d.val ∧ c.dest = e.val + 272 ∧ c.cls = 7 :=
  ⟨{ inService with switch := { Switch.reset with voq := ⟨[], [(voqKey 1 276 7 0, [{ aCell with ingressDie := 1, dest := 276, cls := 7 }])]⟩ }, flow := { Flow.reset with balance := ⟨0, [(dpcKey 1 276 7, 7)]⟩ } }, 1, 4, { aCell with ingressDie := 1, dest := 276, cls := 7 }, by decide +kernel⟩

theorem witness_CreditWords_1 : ∃ (s : State) (p : FibreIx) (c : ClassIx) (l : Nat) (r : List Nat), 
    clocksRun s = true ∧ dieUp s (portDie p.val) = true ∧ sprayLanes s p.val = l :: r ∧ portLossless s p.val c.val = true :=
  ⟨{ inService with flow := { Flow.reset with lossless := ⟨0, [(4, 0x80)]⟩ }, switch := { Switch.reset with spray := Switch.reset.spray.set 4 0xFF }}, 4, 7, 0, [1, 2, 3, 4, 5, 6, 7], by decide⟩

theorem witness_CreditWords_2 : ∃ (s : State) (p : FibreIx) (l : LaneIx) (c : ClassIx), 
    clocksRun s = true ∧ dieUp s (portDie p.val) = true ∧ (sprayLanes s p.val).contains l.val = true ∧ portLossless s p.val c.val = true :=
  ⟨{ inService with flow := { Flow.reset with lossless := ⟨0, [(4, 0x80)]⟩ }, switch := { Switch.reset with spray := Switch.reset.spray.set 4 0xFF }}, 4, 7, 7, by decide⟩

theorem witness_CreditWords_3 : ∃ (s : State) (p : FibreIx) (l : LaneIx) (b : Lcb), 
    lanesAct s p.val = true ∧ ((laneAt s p.val l.val).state ≠ .dark ∧ (laneAt s p.val l.val).state ≠ .locking ∧ (laneAt s p.val l.val).state ≠ .fault ∧ (laneAt s p.val l.val).state ≠ .retune) ∧ isLcb b = true ∧ (b.fecGood = false ∨ beAt b.blockA 5 2 ≠ crc16 (slice b.blockA 1 4 ++ beBytes 8 b.word0.toNat ++ beBytes 8 b.word1.toNat)) :=
  ⟨{ inService with optics := { Optics.reset with lanes := Optics.reset.lanes.modify (laneKey 4 0) fun x => { x with state := .service } } }, 4, 0, ⟨(lcbBlocks 1 0 0 0).head!.2, 1, 0, true⟩, by decide +kernel⟩

theorem witness_CreditWords_4 : ∃ (s : State) (p : FibreIx) (l : LaneIx) (c : ClassIx) (n : Word) (b : Lcb), 
    lanesAct s p.val = true ∧ ((laneAt s p.val l.val).state ≠ .dark ∧ (laneAt s p.val l.val).state ≠ .locking ∧ (laneAt s p.val l.val).state ≠ .fault ∧ (laneAt s p.val l.val).state ≠ .retune) ∧ isLcb b = true ∧ lcbGood b = true ∧ byteAt b.blockA 1 = 1 ∧ b.word0.toNat / 2 ^ 60 = 1 ∧ b.word0.toNat / 2 ^ 57 % 8 = c.val ∧ b.word0.setWidth 32 = n ∧ b.word1.toNat / 2 ^ 60 = 0 :=
  ⟨{ inService with flow := { Flow.reset with lossless := ⟨0, [(4, 0x80)]⟩ }, optics := { Optics.reset with lanes := Optics.reset.lanes.modify (laneKey 4 0) fun x => { x with state := .service } } }, 4, 0, 7, 100, ⟨(lcbBlocks 1 0 (creditWord 1 7 0 100) 0).head!.2, creditWord 1 7 0 100, 0, true⟩, by decide +kernel⟩

theorem witness_CreditWords_5 : ∃ (s : State) (p : FibreIx) (l : LaneIx) (c : ClassIx) (n : Word) (b : Lcb), 
    lanesAct s p.val = true ∧ ((laneAt s p.val l.val).state ≠ .dark ∧ (laneAt s p.val l.val).state ≠ .locking ∧ (laneAt s p.val l.val).state ≠ .fault ∧ (laneAt s p.val l.val).state ≠ .retune) ∧ isLcb b = true ∧ lcbGood b = true ∧ byteAt b.blockA 1 = 1 ∧ b.word0.toNat / 2 ^ 60 = 2 ∧ b.word0.toNat / 2 ^ 57 % 8 = c.val ∧ b.word0.setWidth 32 = n ∧ b.word1.toNat / 2 ^ 60 = 0 ∧ portLossless s p.val c.val = true :=
  ⟨{ inService with flow := { Flow.reset with lossless := ⟨0, [(4, 0x80)]⟩ }, optics := { Optics.reset with lanes := Optics.reset.lanes.modify (laneKey 4 0) fun x => { x with state := .service } } }, 4, 0, 7, 100, ⟨(lcbBlocks 1 0 (creditWord 2 7 0 100) 0).head!.2, creditWord 2 7 0 100, 0, true⟩, by decide +kernel⟩

theorem witness_CreditWords_6 : ∃ (s : State) (p : FibreIx) (l : LaneIx) (m : LaneIx) (c : ClassIx) (n : Word) (b : Lcb), 
    lanesAct s p.val = true ∧ ((laneAt s p.val l.val).state ≠ .dark ∧ (laneAt s p.val l.val).state ≠ .locking ∧ (laneAt s p.val l.val).state ≠ .fault ∧ (laneAt s p.val l.val).state ≠ .retune) ∧ isLcb b = true ∧ lcbGood b = true ∧ byteAt b.blockA 1 = 1 ∧ b.word0.toNat / 2 ^ 60 = 3 ∧ b.word0.toNat / 2 ^ 57 % 8 = c.val ∧ b.word0.toNat / 2 ^ 54 % 8 = m.val ∧ b.word0.setWidth 32 = n ∧ b.word1.toNat / 2 ^ 60 = 0 ∧ portLossless s p.val c.val = true :=
  ⟨{ inService with flow := { Flow.reset with lossless := ⟨0, [(4, 0x80)]⟩ }, optics := { Optics.reset with lanes := Optics.reset.lanes.modify (laneKey 4 0) fun x => { x with state := .service } } }, 4, 0, 3, 7, 100, ⟨(lcbBlocks 1 0 (creditWord 3 7 3 100) 0).head!.2, creditWord 3 7 3 100, 0, true⟩, by decide +kernel⟩

theorem witness_CreditWords_7 : ∃ (s : State) (p : FibreIx) (l : LaneIx) (b : Lcb), 
    lanesAct s p.val = true ∧ ((laneAt s p.val l.val).state ≠ .dark ∧ (laneAt s p.val l.val).state ≠ .locking ∧ (laneAt s p.val l.val).state ≠ .fault ∧ (laneAt s p.val l.val).state ≠ .retune) ∧ isLcb b = true ∧ lcbGood b = true ∧ byteAt b.blockA 1 = 1 ∧ (b.word0.toNat / 2 ^ 60 = 0 ∨ 3 < b.word0.toNat / 2 ^ 60) ∧ (b.word1.toNat / 2 ^ 60 = 0 ∨ 3 < b.word1.toNat / 2 ^ 60) :=
  ⟨{ inService with optics := { Optics.reset with lanes := Optics.reset.lanes.modify (laneKey 4 0) fun x => { x with state := .service } } }, 4, 0, ⟨(lcbBlocks 1 0 (creditWord 4 7 0 100) 0).head!.2, creditWord 4 7 0 100, 0, true⟩, by decide +kernel⟩

theorem witness_CreditWords_8 : ∃ (s : State) (p : FibreIx) (l : LaneIx) (c : ClassIx) (n : Word) (at_ : Nat), 
    clocksRun s = true ∧ s.flow.closing.get (laneqKey p.val l.val c.val) = some (n, at_) ∧ (s.flow.rcvd.get (laneqKey p.val l.val c.val) = n ∨ at_ + 20000 ≤ nowNs s) :=
  ⟨{ inService with flow := { Flow.reset with closing := ⟨none, [(laneqKey 4 7 7, some (5, 0))]⟩, rcvd := ⟨0, [(laneqKey 4 7 7, 5)]⟩ } }, 4, 7, 7, 5, 0, by decide⟩

theorem witness_CreditWords_9 : ∃ (s : State) (p : FibreIx) (c : ClassIx) (at_ : Nat), 
    clocksRun s = true ∧ s.flow.waitingAt.get (pcKey p.val c.val) = some at_ ∧ starving s p.val c.val = true ∧ s.flow.starvedSent.get (pcKey p.val c.val) = false ∧ max at_ (s.flow.grewAt.get (pcKey p.val c.val)) + cfgCreditWatch s * 1000000 ≤ nowNs s :=
  ⟨{ inService with time := { Time.reset with queue4 := 400000000 }, flow := { Flow.reset with lossless := ⟨0, [(4, 0x80)]⟩, waitingAt := ⟨none, [(pcKey 4 7, some 0)]⟩ }, switch := { Switch.reset with laneq := ⟨[], [(laneqKey 4 0 7, [aFrame])]⟩ } }, 4, 7, 0, by decide⟩

theorem witness_PauseOfAClass_1 : ∃ (s : State) (p : ElecIx) (c : ClassIx) (at_ : Nat), 
    portLit s (256 + p.val) = true ∧ s.flow.xoff.get (pcKey (256 + p.val) c.val) = some at_ ∧ at_ * 2000 + cfgPfcQuanta s (256 + p.val) * quantumPs s (256 + p.val) ≤ nowNs s * 2000 ∧ freeReserve s (256 + p.val) c.val < cfgPfcHeadroom s (256 + p.val) :=
  ⟨{ inService with time := { Time.reset with queue4 := 4000000000 }, obj := [(objKey (0x090C00 + 261) 2, 300000)], flow := { Flow.reset with xoff := ⟨none, [(pcKey 261 3, some 0)]⟩ } }, 5, 3, 0, by decide⟩

theorem witness_PauseOfAClass_2 : ∃ (s : State) (p : ElecIx) (c : ClassIx), 
    clocksRun s = true ∧ dieUp s (portDie (256 + p.val)) = true ∧ ((s.flow.pauseEnd.get (pcKey (256 + p.val) c.val)).any (fun e => nowNs s < e) = true) :=
  ⟨{ inService with flow := { Flow.reset with pauseEnd := ⟨none, [(pcKey 261 3, some 9)]⟩ } }, 5, 3, by decide⟩

theorem witness_PauseOfAClass_3 : ∃ (s : State) (p : ElecIx) (c : ClassIx) (q : BitVec 16), 
    clocksRun s = true ∧ dieUp s (portDie (256 + p.val)) = true ∧ q ≠ 0 :=
  ⟨inService, 5, 3, 0xFFFF, by decide⟩

theorem witness_PauseOfAClass_4 : ∃ (s : State) (p : ElecIx) (c : ClassIx) (e : Nat), 
    clocksRun s = true ∧ s.flow.pauseEnd.get (pcKey (256 + p.val) c.val) = some e ∧ e ≤ nowNs s :=
  ⟨{ inService with flow := { Flow.reset with pauseEnd := ⟨none, [(pcKey 261 3, some 0)]⟩ } }, 5, 3, 0, by decide⟩

theorem witness_PauseOfAClass_5 : ∃ (s : State) (p : ElecIx) (c : ClassIx) (at_ e : Nat), 
    clocksRun s = true ∧ s.flow.pauseStart.get (pcKey (256 + p.val) c.val) = some at_ ∧ s.flow.pauseEnd.get (pcKey (256 + p.val) c.val) = some e ∧ nowNs s < e ∧ s.flow.ignoreUntil.get (pcKey (256 + p.val) c.val) = none ∧ at_ + cfgPauseWatch s (256 + p.val) * 1000000 ≤ nowNs s :=
  ⟨{ inService with time := { Time.reset with queue4 := 400000000 }, flow := { Flow.reset with pauseStart := ⟨none, [(pcKey 261 3, some 0)]⟩, pauseEnd := ⟨none, [(pcKey 261 3, some 100000001)]⟩ } }, 5, 3, 0, 100000001, by decide⟩

theorem witness_PauseOfAClass_6 : ∃ (s : State) (p : ElecIx) (c : ClassIx) (at_ : Nat), 
    clocksRun s = true ∧ s.flow.ignoreUntil.get (pcKey (256 + p.val) c.val) = some at_ ∧ at_ ≤ nowNs s :=
  ⟨{ inService with flow := { Flow.reset with ignoreUntil := ⟨none, [(pcKey 261 3, some 0)]⟩ } }, 5, 3, 0, by decide⟩

theorem witness_FramesOnLanes_1 : ∃ (s : State) (p : PortIx) (l : LaneIx) (b : Bytes), 
    dieUp s (portDie p.val) = true ∧ isUp s = true ∧ laneLoops s p.val l.val = false ∧ p.val < 256 ∧ (parseFrame b).epl = none ∧ portLossless s p.val (frameClass b (parseFrame b)) = false :=
  ⟨inService, 4, 0, List.replicate 64 0, by decide⟩

theorem witness_FramesOnLanes_2 : ∃ (s : State) (p : PortIx) (l : LaneIx) (b : Bytes) (o : Nat), 
    dieUp s (portDie p.val) = true ∧ isUp s = true ∧ laneLoops s p.val l.val = false ∧ p.val < 256 ∧ (parseFrame b).epl = some o ∧ eplVersion b o = 1 ∧ (eplKind b o ≠ 1 ∨ eplDest b o ≠ cfgDevIndex s) ∧ (s.tables.dit.get (tblKey (portDie p.val) (eplDest b o))).toNat / 2 ^ 30 = 0 ∧ portLossless s p.val (frameClass b (parseFrame b)) = true ∧ s.flow.closed.get (laneqKey p.val l.val (frameClass b (parseFrame b))) = false ∧ fcsGood b = true ∧ b.length ≤ 9216 ∧ (ptpSkipped b = false ∨ cfgTcEnable s p.val = false) :=
  ⟨{ inService with flow := { Flow.reset with lossless := ⟨0, [(4, 1)]⟩ } }, 4, 0, aDatagram 0, 62, by decide +kernel⟩

theorem witness_FramesOnLanes_3 : ∃ (s : State) (p : PortIx) (l : LaneIx) (b : Bytes) (o : Nat), 
    dieUp s (portDie p.val) = true ∧ isUp s = true ∧ laneLoops s p.val l.val = false ∧ (parseFrame b).epl = some o ∧ eplVersion b o = 1 ∧ eplKind b o = 1 ∧ eplDest b o = cfgDevIndex s ∧ cfgDevIndex s ≠ 0xFFFF ∧ portLossless s p.val (frameClass b (parseFrame b)) = false ∧ fcsGood b = true ∧ b.length ≤ 9216 :=
  ⟨{ inService with obj := [(objKey 0x0A0001 1, 5)] }, 4, 0, aDatagram 1, 62, by decide +kernel⟩

theorem witness_FramesOnLanes_4 : ∃ (s : State) (p : PortIx) (l : LaneIx) (b : Bytes) (o : Nat), 
    dieUp s (portDie p.val) = true ∧ isUp s = true ∧ laneLoops s p.val l.val = false ∧ (parseFrame b).epl = some o ∧ eplVersion b o = 1 ∧ (eplKind b o ≠ 1 ∨ eplDest b o ≠ cfgDevIndex s) ∧ (s.tables.dit.get (tblKey (portDie p.val) (eplDest b o))).toNat / 2 ^ 30 = 3 ∧ portLossless s p.val (frameClass b (parseFrame b)) = false ∧ fcsGood b = true ∧ b.length ≤ 9216 :=
  ⟨{ inService with tables := { Tables.reset with dit := ⟨0, [(tblKey 0 5, 0xC0000000)]⟩ } }, 4, 0, aDatagram 0, 62, by decide +kernel⟩

theorem witness_FramesOnLanes_5 : ∃ (s : State) (p : PortIx) (l : LaneIx) (b : Bytes) (o q m : Nat), 
    dieUp s (portDie p.val) = true ∧ isUp s = true ∧ laneLoops s p.val l.val = false ∧ (parseFrame b).epl = some o ∧ eplVersion b o = 1 ∧ (eplKind b o ≠ 1 ∨ eplDest b o ≠ cfgDevIndex s) ∧ (s.tables.dit.get (tblKey (portDie p.val) (eplDest b o))).toNat / 2 ^ 30 = 1 ∧ candidates s (s.tables.bundle.get (tblKey (portDie p.val) (resTarget (s.tables.dit.get (tblKey (portDie p.val) (eplDest b o)))))).ports = [(q, m)] ∧ laneClosed s p.val l.val (frameClass b (parseFrame b)) = false ∧ fcsGood b = true ∧ b.length ≤ 9216 ∧ cutsThrough s p.val (frameClass b (parseFrame b)) q = false ∧ isLossless s (frameClass b (parseFrame b)) = false ∧ isDeep s (frameClass b (parseFrame b)) = false ∧ 9216 ≤ freeShared s (portDie p.val) ∧ belowAlpha s (queueBytes (s.switch.voq.get (voqKey (portDie p.val) q (frameClass b (parseFrame b)) (subscriber b (parseFrame b))))) (freeShared s (portDie p.val)) = true ∧ s.switch.voq.wf = true :=
  ⟨{ inService with obj := [(objKey 0x090104 1, 0)], tables := { Tables.reset with dit := ⟨0, [(tblKey 0 5, 0x40000002)]⟩, bundle := ⟨⟨0, []⟩, [(tblKey 0 2, ⟨1, [9]⟩)]⟩ }, switch := { Switch.reset with sprayPub := ⟨0, [(9, 4)]⟩ } }, 4, 0, aDatagram 0, 62, 9, 2, by decide +kernel⟩

theorem witness_FramesOnLanes_6 : ∃ (s : State) (p : PortIx) (l : LaneIx) (b : Bytes) (o q m : Nat), 
    dieUp s (portDie p.val) = true ∧ isUp s = true ∧ laneLoops s p.val l.val = false ∧ (parseFrame b).epl = some o ∧ eplVersion b o = 1 ∧ (eplKind b o ≠ 1 ∨ eplDest b o ≠ cfgDevIndex s) ∧ (s.tables.dit.get (tblKey (portDie p.val) (eplDest b o))).toNat / 2 ^ 30 = 1 ∧ candidates s (s.tables.bundle.get (tblKey (portDie p.val) (resTarget (s.tables.dit.get (tblKey (portDie p.val) (eplDest b o)))))).ports = [(q, m)] ∧ laneClosed s p.val l.val (frameClass b (parseFrame b)) = false ∧ fcsGood b = true ∧ b.length ≤ 9216 ∧ cutsThrough s p.val (frameClass b (parseFrame b)) q = true ∧ isLossless s (frameClass b (parseFrame b)) = false ∧ isDeep s (frameClass b (parseFrame b)) = false ∧ 9216 ≤ freeShared s (portDie p.val) ∧ belowAlpha s (queueBytes (s.switch.voq.get (voqKey (portDie p.val) q (frameClass b (parseFrame b)) (subscriber b (parseFrame b))))) (freeShared s (portDie p.val)) = true ∧ s.switch.ingress.wf = true :=
  ⟨{ inService with tables := { Tables.reset with dit := ⟨0, [(tblKey 0 5, 0x40000002)]⟩, bundle := ⟨⟨0, []⟩, [(tblKey 0 2, ⟨1, [9]⟩)]⟩ }, switch := { Switch.reset with sprayPub := ⟨0, [(9, 4)]⟩ } }, 4, 0, aDatagram 0, 62, 9, 2, by decide +kernel⟩

theorem witness_FramesOnLanes_7 : ∃ (s : State) (p : PortIx) (l : LaneIx) (b : Bytes) (u : Option (Nat × Nat)), 
    dieUp s (portDie p.val) = true ∧ isUp s = true ∧ laneLoops s p.val l.val = true :=
  ⟨{ inService with mgmt := { Mgmt.reset with eports := Mgmt.reset.eports.set 0 { EPort.reset with loop := 3 } } }, 256, 0, [1], none, by decide⟩

theorem witness_FramesOnLanes_8 : ∃ (s : State) (p : PortIx) (l : LaneIx) (c : ClassIx) (f : EFrame) (r : List EFrame), 
    portLit s p.val = true ∧ (if isFibre p.val then laneUsable s p.val l.val else (membersUp s p.val).contains l.val) = true ∧ s.switch.sending.get (laneKey p.val l.val) = none ∧ (∀ d : Fin 8, s.switch.heldResults.get (pcKey p.val d.val) = []) ∧ (∀ d : Fin 8, c.val < d.val → s.switch.laneq.get (laneqKey p.val (queueLane p.val l.val) d.val) = []) ∧ s.switch.laneq.get (laneqKey p.val (queueLane p.val l.val) c.val) = f :: r ∧ tooOld s f.head = false ∧ (f.head.bad = false ∨ f.copy = true) ∧ mayStart s p.val c.val f = true ∧ (isFibre p.val = true ∨ memberOf s p.val f = some l.val) ∧ (∀ d : Fin 8, ∀ g ∈ s.switch.laneq.get (laneqKey p.val (queueLane p.val l.val) d.val), g.launch = none) :=
  ⟨{ inService with switch := { Switch.reset with spray := Switch.reset.spray.set 4 1, laneq := ⟨[], [(laneqKey 4 0 2, [aFrame])]⟩ } }, 4, 0, 2, aFrame, [], by decide +kernel⟩

theorem witness_FramesOnLanes_9 : ∃ (s : State) (p : PortIx) (l : LaneIx) (d : Sending), 
    clocksRun s = true ∧ s.switch.sending.get (laneKey p.val l.val) = some d ∧ complete d.frame = false ∧ d.stomp = false :=
  ⟨{ inService with switch := { Switch.reset with sending := ⟨none, [(laneKey 4 7, some ⟨{ aFrame with got := [] }, false⟩)]⟩ } }, 4, 7, ⟨{ aFrame with got := [] }, false⟩, by decide⟩

theorem witness_FramesOnLanes_10 : ∃ (s : State) (p : PortIx) (l : LaneIx) (d : Sending), 
    portLit s p.val = true ∧ s.switch.sending.get (laneKey p.val l.val) = some d ∧ (complete d.frame = true ∨ d.stomp = true) ∧ d.frame.got.any (·.bad) = false ∧ d.frame.copy = false ∧ d.frame.launch = none ∧ d.frame.head.emit = none ∧ dieUp s d.frame.head.ingressDie = true :=
  ⟨{ inService with switch := { Switch.reset with sending := ⟨none, [(laneKey 4 7, some ⟨aFrame, false⟩)]⟩ } }, 4, 7, ⟨aFrame, false⟩, by decide⟩

theorem witness_FramesOnLanes_11 : ∃ (s : State) (d : DieIx) (p : Nat) (f : Bytes) (r : List (Nat × Bytes)), 
    dieUp s d.val = true ∧ keeperUp s = true ∧ s.switch.keeperIn.get d.val = (p, f) :: r ∧ p < 256 ∧ (((parseFrame f).epl.all fun o => eplKind f o != 0) = true) :=
  ⟨{ inService with switch := { Switch.reset with keeperIn := ⟨[], [(3, [(5, [0, 1])])]⟩ } }, 3, 5, [0, 1], [], by decide +kernel⟩

theorem witness_FramesOnLanes_12 : ∃ (s : State) (d : DieIx) (p : Nat) (f a : Bytes) (m : Nat) (r : List (Nat × Bytes)), 
    dieUp s d.val = true ∧ keeperUp s = true ∧ s.switch.keeperIn.get d.val = (p, f) :: r ∧ 256 ≤ p ∧ (parseFrame f).epl = none ∧ keeperAnswer s (p - 256) f = some a ∧ (membersUp s p)[flowHash a % (membersUp s p).length]? = some m :=
  ⟨withArp, 0, 256, anArp, (keeperAnswer withArp 0 anArp).getD [], flowHash ((keeperAnswer withArp 0 anArp).getD []) % 4, [], by decide +kernel⟩

theorem witness_GroupLife_1 : ∃ (s : State) (r : Role) (b : Bytes), 
    Permitted r 0x0A0002 1 s ∧ moorStatus s b = stDone :=
  ⟨inService, .fabric, [0, 5, 0, 15, 0, 0, 0, 0, 0, 2, 1, 0, 0, 0, 0, 1] ++ List.replicate 48 0, by decide +kernel⟩

theorem witness_GroupLife_2 : ∃ (s : State) (id : Nat) (g : Group) (l : List (Nat × Group)), 
    clocksRun s = true ∧ s.start.keeperLost = false ∧ s.coll.prepared = (id, g) :: l ∧ s.coll.marked = [] :=
  ⟨{ inService with coll := { Coll.reset with prepared := [(5, ⟨[], 0, [3], 0⟩)] } }, 5, ⟨[], 0, [3], 0⟩, [], by decide⟩

theorem witness_GroupLife_3 : ∃ (s : State) (id : Nat) (g : Group) (l : List (Nat × Group)), 
    clocksRun s = true ∧ s.coll.prepared = (id, g) :: l ∧ s.coll.marked = [] :=
  ⟨{ inService with coll := { Coll.reset with prepared := [(5, ⟨[], 0, [3], 0⟩)] } }, 5, ⟨[], 0, [3], 0⟩, [], by decide⟩

theorem witness_GroupLife_4 : ∃ (s : State) (r : Role) (id : Fin 65536) (g : Group), 
    Permitted r 0x0A0002 2 s ∧ groupOf s 8 id.val = some g :=
  ⟨{ inService with coll := { Coll.reset with groups := ⟨none, [(groupKey 3 5, some ⟨[], 0, [3], 0⟩), (groupKey 8 5, some ⟨[], 0, [3], 0⟩)]⟩ } }, .admin, 5, ⟨[], 0, [3], 0⟩, by decide⟩

theorem witness_GroupLife_5 : ∃ (s : State) (id : Fin 65536), 
    clocksRun s = true ∧ quarantined s id.val = false :=
  ⟨{ inService with time := { Time.reset with queue4 := 400000000 }, coll := { Coll.reset with quarantine := ⟨none, [(5, some 0)]⟩ } }, 5, by decide⟩

theorem witness_GroupLife_6 : ∃ (s : State) (r : Role) (v : Byte), 
    Permitted r 0x0A0100 4 s :=
  ⟨inService, .fabric, 0, by decide⟩

theorem witness_CollectiveInstances_1 : ∃ (s : State) (d : DieIx) (c : Contribution) (l : List Contribution) (g : Group) (home : Nat), 
    dieUp s d.val = true ∧ clocksRun s = true ∧ s.coll.atIngress.get d.val = c :: l ∧ bodyGood c.bytes (eplAt c.bytes) = true ∧ groupOf s d.val (cGroup c.bytes (eplAt c.bytes)) = some g ∧ cGen c.bytes (eplAt c.bytes) = gGen g.record ∧ badLength g c.bytes (eplAt c.bytes) = false ∧ opPass (gOp g.record) = false ∧ home = homeOf s g (cChunk c.bytes (eplAt c.bytes)) ∧ dieUp s home = true :=
  ⟨{ inService with coll := { Coll.reset with atIngress := ⟨[], [(3, [⟨[0, 0, 0, 0, 0, 0, 0, 32] ++ List.replicate 36 0 ++ beBytes 4 (crc32cStd (List.replicate 28 0)) ++ List.replicate 16 0, 0, 0, 256⟩])]⟩, groups := ⟨none, [(groupKey 3 0, some ⟨[], 0, [3], 0⟩)]⟩ } }, 3, ⟨[0, 0, 0, 0, 0, 0, 0, 32] ++ List.replicate 36 0 ++ beBytes 4 (crc32cStd (List.replicate 28 0)) ++ List.replicate 16 0, 0, 0, 256⟩, [], ⟨[], 0, [3], 0⟩, 3, by decide +kernel⟩

theorem witness_CollectiveInstances_2 : ∃ (s : State) (d : DieIx) (c : Contribution) (l : List Contribution) (g : Group) (k : Nat), 
    dieUp s d.val = true ∧ clocksRun s = true ∧ s.coll.atHome.get d.val = c :: l ∧ groupOf s d.val (cGroup c.bytes (eplAt c.bytes)) = some g ∧ cGen c.bytes (eplAt c.bytes) = gGen g.record ∧ cContributor c.bytes (eplAt c.bytes) < gMembers g.record ∧ s.fabric.failed.get (imgKey d.val g.image) = false ∧ offends g c.bytes (eplAt c.bytes) = false ∧ (s.coll.slots.get (slotOfCtx g d.val (cInst c.bytes (eplAt c.bytes)))).inst.toNat = cInst c.bytes (eplAt c.bytes) ∧ (s.coll.slots.get (slotOfCtx g d.val (cInst c.bytes (eplAt c.bytes)))).isOpen = true ∧ extendTime s c.time < (s.coll.slots.get (slotOfCtx g d.val (cInst c.bytes (eplAt c.bytes)))).openedAt + gTimeout g.record ∧ cChunk c.bytes (eplAt c.bytes) ∉ (s.coll.slots.get (slotOfCtx g d.val (cInst c.bytes (eplAt c.bytes)))).ended ∧ ctxOf s d.val (gId g.record) (cInst c.bytes (eplAt c.bytes)) (cChunk c.bytes (eplAt c.bytes)) = some k ∧ (s.coll.ctx.get k).state = .collecting ∧ cContributor c.bytes (eplAt c.bytes) ∉ (s.coll.ctx.get k).arrived ∧ gOp g.record ≠ 0xF :=
  ⟨{ inService with coll := { Coll.reset with atHome := ⟨[], [(3, [⟨List.replicate 64 0, 0, 0, 256⟩])]⟩, groups := ⟨none, [(groupKey 3 0, some ⟨List.replicate 8 0 ++ [0, 2, 1, 0, 0, 0, 0, 1] ++ List.replicate 48 0, 0, [3], 0⟩)]⟩, slots := ⟨Slot.reset, [(slotKey 3 0 0, { Slot.reset with isOpen := true })]⟩, ctx := ⟨Ctx.reset, [(ctxKey 3 7, { Ctx.reset with state := .collecting, group := 1 })]⟩ } }, 3, ⟨List.replicate 64 0, 0, 0, 256⟩, [], ⟨List.replicate 8 0 ++ [0, 2, 1, 0, 0, 0, 0, 1] ++ List.replicate 48 0, 0, [3], 0⟩, ctxKey 3 7, by decide⟩

theorem witness_CollectiveInstances_3 : ∃ (s : State) (d : DieIx) (id : Nat) (gen : Byte) (inst : BitVec 16) (l : List (Nat × Byte × BitVec 16)) (g : Group), 
    dieUp s d.val = true ∧ clocksRun s = true ∧ s.coll.poisonNotices.get d.val = (id, gen, inst) :: l ∧ groupOf s d.val id = some g ∧ gGen g.record = gen.toNat ∧ (s.coll.slots.get (slotOfCtx g d.val inst.toNat)).inst = inst ∧ ((s.coll.slots.get (slotOfCtx g d.val inst.toNat)).isOpen = true ∨ (s.coll.slots.get (slotOfCtx g d.val inst.toNat)).endCode ≠ 1) :=
  ⟨{ inService with coll := { Coll.reset with poisonNotices := ⟨[], [(3, [(5, 0, 0)])]⟩, groups := ⟨none, [(groupKey 3 5, some ⟨[], 0, [3], 0⟩)]⟩ } }, 3, 5, 0, 0, [], ⟨[], 0, [3], 0⟩, by decide⟩

theorem witness_CollectiveInstances_4 : ∃ (s : State) (d : DieIx) (id : Nat) (gen : Byte) (inst : BitVec 16) (l : List (Nat × Byte × BitVec 16)) (g : Group), 
    dieUp s d.val = true ∧ clocksRun s = true ∧ s.coll.poisonNotices.get d.val = (id, gen, inst) :: l ∧ groupOf s d.val id = some g ∧ gGen g.record = gen.toNat ∧ (s.coll.slots.get (slotOfCtx g d.val inst.toNat)).inst = inst ∧ (s.coll.slots.get (slotOfCtx g d.val inst.toNat)).isOpen = false ∧ (s.coll.slots.get (slotOfCtx g d.val inst.toNat)).endCode = 1 :=
  ⟨{ inService with coll := { Coll.reset with poisonNotices := ⟨[], [(3, [(5, 0, 0)])]⟩, slots := ⟨Slot.reset, [(slotKey 3 0 0, { Slot.reset with isOpen := false, endCode := 1, inst := 0 })]⟩, groups := ⟨none, [(groupKey 3 5, some ⟨[], 0, [3], 0⟩)]⟩ } }, 3, 5, 0, 0, [], ⟨[], 0, [3], 0⟩, by decide⟩

theorem witness_CollectiveInstances_5 : ∃ (s : State) (d : DieIx) (id : Fin 65536) (inst : BitVec 16) (g : Group), 
    dieUp s d.val = true ∧ clocksRun s = true ∧ s.coll.atHome.get d.val = [] ∧ groupOf s d.val id.val = some g ∧ (s.coll.slots.get (slotOfCtx g d.val inst.toNat)).inst = inst ∧ (s.coll.slots.get (slotOfCtx g d.val inst.toNat)).isOpen = true ∧ (s.coll.slots.get (slotOfCtx g d.val inst.toNat)).openedAt + gTimeout g.record ≤ nowNs s :=
  ⟨{ inService with time := { Time.reset with queue4 := 400000000 }, coll := { Coll.reset with slots := ⟨Slot.reset, [(slotKey 3 5 0, { Slot.reset with isOpen := true })]⟩, groups := ⟨none, [(groupKey 3 5, some ⟨[0, 5, 0, 0, 0, 0, 0, 0, 0, 0, 1], 0, [3], 0⟩)]⟩ } }, 3, 5, 0, ⟨[0, 5, 0, 0, 0, 0, 0, 0, 0, 0, 1], 0, [3], 0⟩, by decide⟩

theorem witness_CollectiveInstances_6 : ∃ (s : State) (d : DieIx) (c : Fin 4096) (g : Group) (r : Retained), 
    dieUp s d.val = true ∧ clocksRun s = true ∧ (s.coll.ctx.get (ctxKey d.val c.val)).state = .sending ∧ cellsGone s (ctxKey d.val c.val) = true ∧ (s.coll.ctx.get (ctxKey d.val c.val)).commitDue = false ∧ commitReady s (ctxKey d.val c.val) = false ∧ groupOfCtx s (ctxKey d.val c.val) = some g ∧ (s.coll.ctx.get (ctxKey d.val c.val)).sent = some r ∧ r.dests ≠ [] :=
  ⟨{ inService with coll := { Coll.reset with groups := ⟨none, [(groupKey 3 5, some ⟨[], 0, [3], 0⟩)]⟩, ctx := ⟨Ctx.reset, [(ctxKey 3 7, { Ctx.reset with state := .sending, group := 6, sent := some ⟨5, 0, 0, 0, 0, [], [], [9]⟩ })]⟩ } }, 3, 7, ⟨[], 0, [3], 0⟩, ⟨5, 0, 0, 0, 0, [], [], [9]⟩, by decide⟩

theorem witness_CollectiveInstances_7 : ∃ (s : State) (d : DieIx), 
    dieUp s d.val = true ∧ clocksRun s = true :=
  ⟨inService, 7, by decide⟩

theorem witness_CollectiveInstances_8 : ∃ (s : State) (d : DieIx) (id : Fin 65536) (chunk k : Nat), 
    dieUp s d.val = true ∧ clocksRun s = true ∧ s.coll.residHolder.get (residKey d.val id.val chunk) = none ∧ nextWaiter s (s.coll.residWait.get (residKey d.val id.val chunk)) = some k :=
  ⟨{ inService with coll := { Coll.reset with residWait := ⟨[], [(residKey 3 5 9, [ctxKey 3 7])]⟩ } }, 3, 5, 9, ctxKey 3 7, by decide⟩

theorem witness_CellsAndTokens_1 : ∃ (s s' : State) (d : DieIx) (tl : TileIx) (r : Fin 8) (c : Fin 16) (h lt tr pc : Nat) (i : Image) (b : Bytes) (heads : List (Option Token)) (f : Firing), 
    runningOn s d.val tl.val = some (h, i, lt) ∧ atPosition (cellRecords i.bytes) lt r.val c.val = some b ∧ (heads = (upTo 4).map (fun p => (s.fabric.links.get (cellKey d.val tl.val r.val c.val * 24 + 20 + p)).head?)) ∧ (((upTo 8).map (triggerOf b)).find? (fun t => eligible s (cellKey d.val tl.val r.val c.val) t heads (s.fabric.cells.get (cellKey d.val tl.val r.val c.val))) = some tr) ∧ (s.fabric.cells.get (cellKey d.val tl.val r.val c.val)).parityBad = false ∧ (runBlock d.val b heads (bits tr 30 27) (bits tr 22 19) 32 (bits tr 4 0) ⟨{ s.fabric.cells.get (cellKey d.val tl.val r.val c.val) with tag := (((upTo 4).find? (bit (bits tr 30 27))).bind fun p => (heads.getD p none).map (·.tag)).getD 0 }, [], none⟩ s = (pc, f, s')) ∧ f.fault = none :=
  ⟨onFabric, onFabric, 3, 0, 0, 0, 1, 0, 2147483648, 0, aImage, List.replicate 4 0 ++ [0, 0, 0, 128] ++ List.replicate 39 0 ++ [2] ++ List.replicate 248 0, [none, none, none, none], ⟨Fabric.reset.cells.dflt, [], none⟩, by decide +kernel⟩

theorem witness_CellsAndTokens_2 : ∃ (s : State) (d : DieIx) (tl : TileIx) (r : Fin 8) (c : Fin 16) (o : Fin 20) (h lt : Nat) (i : Image) (t : Token) (l : List Token), 
    runningOn s d.val tl.val = some (h, i, lt) ∧ selectOf i.bytes lt r.val c.val o.val < 20 ∧ srcTokens s d.val tl.val r.val c.val (selectOf i.bytes lt r.val c.val o.val) = t :: l ∧ ((((upTo 20).filter fun k => selectOf i.bytes lt r.val c.val k == selectOf i.bytes lt r.val c.val o.val).map (hopOf i tl.val lt r.val c.val)).all (hopRoom s d.val tl.val) = true) :=
  ⟨{ onFabric with fabric := { onFabric.fabric with links := ⟨[], [(linkKey 3 0 0 0 16, [⟨[], 7, 1⟩])]⟩ } }, 3, 0, 0, 0, 0, 1, 0, aImage, ⟨[], 7, 1⟩, [], by decide +kernel⟩

theorem witness_CellsAndTokens_3 : ∃ (s : State) (d : DieIx) (tl : TileIx) (p : Fin 4) (h lt k j : Nat) (i : Image) (f : Bytes) (l : List (Nat × Bytes)) (g : Machine.Group), 
    runningOn s d.val tl.val = some (h, i, lt) ∧ unitHead s d.val tl.val (uSI p.val) = none ∧ ((s.fabric.retiring.any fun x => x.1 == d.val && (imageOn s d.val x.2.1).any fun y => y.1 == h) = false) ∧ ((s.coll.deliver.get d.val).find? (fun k => onIngress i lt p.val k && !s.switch.ctxSpilled.get k && (match groupOfCtx s k with | some g => g.image == h | none => false)) = some k) ∧ (s.coll.ctx.get k).staged = (j, f) :: l ∧ groupOfCtx s k = some g ∧ i.library = none ∧ s.fabric.edgeOut.get (unitKey d.val tl.val (uSI p.val)) = [] ∧ opRows (gOp g.record) = false ∧ unitRouted i lt (uSI p.val) = true ∧ ((popStaged d.val k l s).coll.ctx.get k).doneDue = false :=
  ⟨{ onFabric with coll := { onFabric.coll with deliver := ⟨[], [(3, [ctxKey 3 7])]⟩, ctx := ⟨Ctx.reset, [(ctxKey 3 7, { Ctx.reset with state := .collecting, group := 1, arrived := [1], staged := [(1, List.replicate 60 0)] })]⟩ }}, 3, 0, 0, 1, 0, ctxKey 3 7, 1, aImage, List.replicate 60 0, [], aGroup, by decide +kernel⟩

theorem witness_CellsAndTokens_4 : ∃ (s : State) (d : DieIx) (tl : TileIx) (p : Fin 4) (h lt k : Nat) (i : Image) (t : Token) (g : Machine.Group), 
    runningOn s d.val tl.val = some (h, i, lt) ∧ (unitWork s d.val tl.val (uDU p.val)).queue = [] ∧ unitHead s d.val tl.val (uDU p.val) = some t ∧ tagCtx s d.val h t.tag = some (k, g) ∧ t.kind = 1 :=
  ⟨{ onFabric with fabric := { onFabric.fabric with edgeIn := ⟨[], [(unitKey 3 0 4, [⟨[1, 32, 0x31], 7, 1⟩])]⟩ } }, 3, 0, 0, 1, 0, ctxKey 3 7, aImage, ⟨[1, 32, 0x31], 7, 1⟩, aGroup, by decide +kernel⟩

theorem witness_CellsAndTokens_5 : ∃ (s : State) (d : DieIx) (tl : TileIx) (p : Fin 4) (h lt k : Nat) (i : Image) (t : Token) (g : Machine.Group), 
    runningOn s d.val tl.val = some (h, i, lt) ∧ (unitWork s d.val tl.val (uEU p.val)).queue = [] ∧ (unitWork s d.val tl.val (uEU p.val)).busy = false ∧ unitHead s d.val tl.val (uEU p.val) = some t ∧ tagCtx s d.val h t.tag = some (k, g) ∧ t.kind = 4 :=
  ⟨{ onFabric with fabric := { onFabric.fabric with edgeIn := ⟨[], [(unitKey 3 0 20, [⟨[1], 7, 4⟩])]⟩ } }, 3, 0, 0, 1, 0, ctxKey 3 7, aImage, ⟨[1], 7, 4⟩, aGroup, by decide +kernel⟩

theorem witness_CellsAndTokens_6 : ∃ (s : State) (d : DieIx) (tl : TileIx) (p : Fin 4) (h lt k : Nat) (i : Image) (t : Token) (g : Machine.Group), 
    runningOn s d.val tl.val = some (h, i, lt) ∧ i.library = none ∧ (unitWork s d.val tl.val (uSE p.val)).busy = true ∧ unitHead s d.val tl.val (uSE p.val) = some t ∧ tagCtx s d.val h t.tag = some (k, g) ∧ t.kind = 2 ∧ lane t 0 ≤ 16384 :=
  ⟨{ onFabric with fabric := { onFabric.fabric with edgeIn := ⟨[], [(unitKey 3 0 16, [⟨[0], 7, 2⟩])]⟩, work := ⟨Fabric.reset.work.dflt, [(unitKey 3 0 16, { Fabric.reset.work.dflt with busy := true })]⟩ } }, 3, 0, 0, 1, 0, ctxKey 3 7, aImage, ⟨[0], 7, 2⟩, aGroup, by decide +kernel⟩

theorem witness_CellsAndTokens_7 : ∃ (s : State) (d : DieIx) (tl : TileIx) (p : Fin 4) (h lt : Nat) (i : Image) (t : Token), 
    runningOn s d.val tl.val = some (h, i, lt) ∧ unitHead s d.val tl.val (uSI p.val) = some t :=
  ⟨{ onFabric with fabric := { onFabric.fabric with edgeIn := ⟨[], [(unitKey 3 0 0, [⟨[1], 7, 0⟩])]⟩ } }, 3, 0, 0, 1, 0, aImage, ⟨[1], 7, 0⟩, by decide +kernel⟩

theorem witness_ContextPortsAndWalks_1 : ∃ (s : State) (d : DieIx) (tl : TileIx) (p : Fin 4) (h lt k : Nat) (i : Image) (t : Token) (g : Machine.Group), 
    runningOn s d.val tl.val = some (h, i, lt) ∧ (unitWork s d.val tl.val (uCP p.val)).queue = [] ∧ (unitWork s d.val tl.val (uCP p.val)).busy = false ∧ unitHead s d.val tl.val (uCP p.val) = some t ∧ tagCtx s d.val h t.tag = some (k, g) ∧ t.kind = 4 ∧ lane t 0 = 0 ∧ (lane t 2 = 0 ∨ 16 * (lane t 1 + lane t 2 - 1) < gElems g.record) ∧ ((s.coll.ctx.get k).state ≠ .computing ∨ shadowAgrees g (s.coll.ctx.get k) = true) :=
  ⟨{ onFabric with fabric := { onFabric.fabric with edgeIn := ⟨[], [(unitKey 3 0 11, [⟨[0, 1, 1], 7, 4⟩])]⟩ } }, 3, 0, 3, 1, 0, ctxKey 3 7, aImage, ⟨[0, 1, 1], 7, 4⟩, aGroup, by decide +kernel⟩

theorem witness_ContextPortsAndWalks_2 : ∃ (s : State) (d : DieIx) (tl : TileIx) (p : Fin 4) (h lt k : Nat) (i : Image) (t : Token) (g : Machine.Group), 
    runningOn s d.val tl.val = some (h, i, lt) ∧ (unitWork s d.val tl.val (uCP p.val)).queue = [] ∧ (unitWork s d.val tl.val (uCP p.val)).busy = false ∧ unitHead s d.val tl.val (uCP p.val) = some t ∧ tagCtx s d.val h t.tag = some (k, g) ∧ t.kind = 4 ∧ lane t 0 = 3 ∧ (lane t 2 = 0 ∨ 16 * (lane t 1 + lane t 2 - 1) < gElems g.record) ∧ ((s.coll.ctx.get k).state ≠ .computing ∨ shadowAgrees g (s.coll.ctx.get k) = true) :=
  ⟨{ onFabric with fabric := { onFabric.fabric with edgeIn := ⟨[], [(unitKey 3 0 11, [⟨[3, 1, 1], 7, 4⟩])]⟩ } }, 3, 0, 3, 1, 0, ctxKey 3 7, aImage, ⟨[3, 1, 1], 7, 4⟩, aGroup, by decide +kernel⟩

theorem witness_ContextPortsAndWalks_3 : ∃ (s : State) (d : DieIx) (tl : TileIx) (p : Fin 4) (h lt k : Nat) (i : Image) (t : Token) (g : Machine.Group), 
    runningOn s d.val tl.val = some (h, i, lt) ∧ (unitWork s d.val tl.val (uCP p.val)).queue = [] ∧ (unitWork s d.val tl.val (uCP p.val)).busy = false ∧ unitHead s d.val tl.val (uCP p.val) = some t ∧ tagCtx s d.val h t.tag = some (k, g) ∧ t.kind = 4 ∧ lane t 0 = 1 ∧ (lane t 2 = 0 ∨ 16 * (lane t 1 + lane t 2 - 1) < gElems g.record) :=
  ⟨{ onFabric with fabric := { onFabric.fabric with edgeIn := ⟨[], [(unitKey 3 0 11, [⟨[1, 1, 1], 7, 4⟩])]⟩ } }, 3, 0, 3, 1, 0, ctxKey 3 7, aImage, ⟨[1, 1, 1], 7, 4⟩, aGroup, by decide +kernel⟩

theorem witness_ContextPortsAndWalks_4 : ∃ (s : State) (d : DieIx) (tl : TileIx) (p : Fin 4) (h lt k k' : Nat) (i : Image) (tk : Token) (g g' : Machine.Group), 
    runningOn s d.val tl.val = some (h, i, lt) ∧ (unitWork s d.val tl.val (uCP p.val)).queue = [] ∧ (unitWork s d.val tl.val (uCP p.val)).busy = true ∧ unitHead s d.val tl.val (uCP p.val) = some tk ∧ tagCtx s d.val h tk.tag = some (k, g) ∧ tk.kind = 0 ∧ lane (unitWork s d.val tl.val (uCP p.val)).cmd 0 = 1 ∧ tagCtx s d.val h (unitWork s d.val tl.val (uCP p.val)).cmd.tag = some (k', g') :=
  ⟨{ onFabric with fabric := { onFabric.fabric with work := ⟨Fabric.reset.work.dflt, [(unitKey 3 0 11, { Fabric.reset.work.dflt with busy := true, cmd := ⟨[1, 1, 1], 7, 4⟩ })]⟩, edgeIn := ⟨[], [(unitKey 3 0 11, [⟨[1, 2], 7, 0⟩])]⟩ } }, 3, 0, 3, 1, 0, ctxKey 3 7, ctxKey 3 7, aImage, ⟨[1, 2], 7, 0⟩, aGroup, aGroup, by decide +kernel⟩

theorem witness_ContextPortsAndWalks_5 : ∃ (s : State) (d : DieIx) (tl : TileIx) (p : Fin 4) (h lt k : Nat) (i : Image) (t : Token) (g : Machine.Group), 
    runningOn s d.val tl.val = some (h, i, lt) ∧ (unitWork s d.val tl.val (uCP p.val)).queue = [] ∧ (unitWork s d.val tl.val (uCP p.val)).busy = false ∧ unitHead s d.val tl.val (uCP p.val) = some t ∧ tagCtx s d.val h t.tag = some (k, g) ∧ t.kind = 4 ∧ lane t 0 = 2 ∧ (lane t 2 = 0 ∨ 16 * (lane t 1 + lane t 2 - 1) < gElems g.record) :=
  ⟨{ onFabric with fabric := { onFabric.fabric with edgeIn := ⟨[], [(unitKey 3 0 11, [⟨[2, 1, 1], 7, 4⟩])]⟩ } }, 3, 0, 3, 1, 0, ctxKey 3 7, aImage, ⟨[2, 1, 1], 7, 4⟩, aGroup, by decide +kernel⟩

theorem witness_ContextPortsAndWalks_6 : ∃ (s : State) (d : DieIx) (tl : TileIx) (p : Fin 4) (h lt k k' : Nat) (i : Image) (tk : Token) (g g' : Machine.Group), 
    runningOn s d.val tl.val = some (h, i, lt) ∧ (unitWork s d.val tl.val (uCP p.val)).queue = [] ∧ (unitWork s d.val tl.val (uCP p.val)).busy = true ∧ unitHead s d.val tl.val (uCP p.val) = some tk ∧ tagCtx s d.val h tk.tag = some (k, g) ∧ tk.kind = 0 ∧ lane (unitWork s d.val tl.val (uCP p.val)).cmd 0 = 2 ∧ tagCtx s d.val h (unitWork s d.val tl.val (uCP p.val)).cmd.tag = some (k', g') :=
  ⟨{ onFabric with fabric := { onFabric.fabric with work := ⟨Fabric.reset.work.dflt, [(unitKey 3 0 11, { Fabric.reset.work.dflt with busy := true, cmd := ⟨[2, 1, 1], 7, 4⟩ })]⟩, edgeIn := ⟨[], [(unitKey 3 0 11, [⟨[1, 2], 7, 0⟩])]⟩ } }, 3, 0, 3, 1, 0, ctxKey 3 7, ctxKey 3 7, aImage, ⟨[1, 2], 7, 0⟩, aGroup, aGroup, by decide +kernel⟩

theorem witness_ContextPortsAndWalks_7 : ∃ (s s' : State) (d : DieIx) (tl : TileIx) (p : Fin 8) (h lt k n : Nat) (i : Image) (t : Token) (g : Machine.Group), 
    runningOn s d.val tl.val = some (h, i, lt) ∧ portDrain d.val tl.val p.val h (unitRouted i lt (uRP p.val)) s = s' ∧ (unitWork s' d.val tl.val (uRP p.val)).busy = false ∧ unitHead s' d.val tl.val (uRP p.val) = some t ∧ t.kind = 1 ∧ tagCtx s' d.val h (BitVec.ofNat 16 (lane t 12 % 4096)) = some (k, g) ∧ ((upTo 64).find? (fun n => !(threadAt s' d.val tl.val p.val n).active) = some n) :=
  ⟨{ onFabric with fabric := { onFabric.fabric with edgeIn := ⟨[], [(unitKey 3 0 12, [⟨[0, 0, 0, 0, 0, 0, 0, 0, 0, 0, 0, 0, 7], 7, 1⟩])]⟩ } }, { onFabric with fabric := { onFabric.fabric with edgeIn := ⟨[], [(unitKey 3 0 12, [⟨[0, 0, 0, 0, 0, 0, 0, 0, 0, 0, 0, 0, 7], 7, 1⟩])]⟩ } }, 3, 0, 0, 1, 0, ctxKey 3 7, 0, aImage, ⟨[0, 0, 0, 0, 0, 0, 0, 0, 0, 0, 0, 0, 7], 7, 1⟩, aGroup, by decide +kernel⟩

theorem witness_ContextPortsAndWalks_8 : ∃ (s s' : State) (d : DieIx) (tl : TileIx) (p : Fin 8) (n : Fin 64) (h lt : Nat) (i : Image) (t t' : Thread) (g : Machine.Group), 
    runningOn s d.val tl.val = some (h, i, lt) ∧ t = threadAt s d.val tl.val p.val n.val ∧ t.active = true ∧ t.ended = false ∧ (t.todo = [] → t.pc < 16) ∧ (t.todo ≠ [] → 0 < responseRoom s d.val tl.val p.val n.val) ∧ groupOfCtx s (ctxKey d.val t.ctx) = some g ∧ (if t.todo.isEmpty then walkStep (ctxKey d.val t.ctx) g i (if (unitWork s d.val tl.val (uRP p.val)).busy && (unitWork s d.val tl.val (uRP p.val)).bytes = n.val then (unitWork s d.val tl.val (uRP p.val)).blocks else 0) (responseRoom s d.val tl.val p.val n.val) t s else readTodo (ctxKey d.val t.ctx) g (responseRoom s d.val tl.val p.val n.val) t s) = .on t' s' ∧ t'.active = true ∧ (runningOn (progress d.val h (onThread d.val tl.val p.val n.val (fun _ => t') s')) d.val tl.val ≠ none) :=
  ⟨{ onFabric with fabric := { onFabric.fabric with threads := ⟨Thread.reset, [(threadKey 3 0 0 5, { Thread.reset with active := true, ctx := 7 })]⟩, images := ⟨none, [(1, some { aImage with bytes := aImage.bytes.set 431 0x48 })]⟩ } }, { onFabric with fabric := { onFabric.fabric with threads := ⟨Thread.reset, [(threadKey 3 0 0 5, { Thread.reset with active := true, ctx := 7 })]⟩, images := ⟨none, [(1, some { aImage with bytes := aImage.bytes.set 431 0x48 })]⟩ } }, 3, 0, 0, 5, 1, 0, { aImage with bytes := aImage.bytes.set 431 0x48 }, { Thread.reset with active := true, ctx := 7 }, { Thread.reset with active := true, ctx := 7, pc := 1 }, aGroup, by decide +kernel⟩

theorem witness_ImageResidency_1 : ∃ (s : State) (r : Role) (b : Bytes), 
    Permitted r 0x0B0001 2 s ∧ b.length ≤ 1024 :=
  ⟨inService, .fabric, List.replicate 16 7, by decide⟩

theorem witness_ImageResidency_2 : ∃ (s : State) (r : Role) (v : Byte) (b : Bytes), 
    Permitted r 0x0B0001 3 s ∧ leNat (memBytes s.mem (imgStageAddr 8) 4) ≤ 2097152 ∧ s.fabric.stageLen ≤ 2097152 ∧ b = memBytes s.mem (imgStageAddr 0) (min s.fabric.stageLen (leNat (memBytes s.mem (imgStageAddr 8) 4))) ∧ commitCheck s b = imDone :=
  ⟨{ inService with keeper := { inService.keeper with voted := ⟨0, [(24, 2)]⟩ }, mem := memPut [] (imgStageAddr 0) ([0x41, 0x48, 0x52, 0x4E, 1, 0, 0, 0, 152, 0, 0, 0, 0, 0, 0, 0, 1, 1] ++ List.replicate 24 0 ++ [1, 0, 128, 0, 0, 0] ++ sha256 ([4, 0, 0, 0, 144, 0, 0, 0, 8, 0, 0, 0, 1, 0, 0, 0] ++ List.replicate 8 0) ++ List.replicate 48 0 ++ ([4, 0, 0, 0, 144, 0, 0, 0, 8, 0, 0, 0, 1, 0, 0, 0] ++ List.replicate 8 0)), fabric := { Fabric.reset with stageLen := 152 } }, .admin, 0, ([0x41, 0x48, 0x52, 0x4E, 1, 0, 0, 0, 152, 0, 0, 0, 0, 0, 0, 0, 1, 1] ++ List.replicate 24 0 ++ [1, 0, 128, 0, 0, 0] ++ sha256 ([4, 0, 0, 0, 144, 0, 0, 0, 8, 0, 0, 0, 1, 0, 0, 0] ++ List.replicate 8 0) ++ List.replicate 48 0 ++ ([4, 0, 0, 0, 144, 0, 0, 0, 8, 0, 0, 0, 1, 0, 0, 0] ++ List.replicate 8 0)), by decide +kernel⟩

theorem witness_ImageResidency_3 : ∃ (s : State) (r : Role) (h : Byte), 
    Permitted r 0x0B0002 1 s ∧ imageAt s h.toNat ≠ none ∧ placedAnywhere s h.toNat = false :=
  ⟨{ inService with fabric := { Fabric.reset with images := ⟨none, [(1, some aImage)]⟩ } }, .fabric, 1, by decide +kernel⟩

theorem witness_ImageResidency_4 : ∃ (s : State) (r : Role) (h a : Byte) (m : BitVec 8) (i : Image), 
    Permitted r 0x0B0003 1 s ∧ imageAt s h.toNat = some i ∧ ((diesOf m.toNat).all (fun d => tilesFree s d h.toNat a.toNat i.tiles) = true) ∧ ((diesOf m.toNat).all (fun d => (scratchAt s d i).isSome) = true) :=
  ⟨{ inService with fabric := { Fabric.reset with images := ⟨none, [(1, some aImage)]⟩ } }, .fabric, 1, 7, 8, aImage, by decide +kernel⟩

theorem witness_ImageResidency_5 : ∃ (s : State) (r : Role) (h : Byte) (m : BitVec 8), 
    Permitted r 0x0B0003 2 s ∧ imageAt s h.toNat ≠ none ∧ imageBound s h.toNat = false :=
  ⟨{ inService with fabric := { Fabric.reset with images := ⟨none, [(1, some aImage)]⟩, placed := ⟨0, [(imgKey 3 1, 1)]⟩ } }, .fabric, 1, 8, by decide +kernel⟩

theorem witness_ImagesThatFault_1 : ∃ (s : State) (d : DieIx) (tl : TileIx) (r : Fin 8) (c : Fin 16) (cause addr h lt : Nat) (i : Image), 
    runningOn s d.val tl.val = some (h, i, lt) :=
  ⟨onFabric, 3, 0, 7, 15, 1, 31, 1, 0, aImage, by decide +kernel⟩

theorem witness_ImagesThatFault_2 : ∃ (s : State) (d : DieIx) (h : Nat), 
    s.fabric.placed.get (imgKey d.val h) ≠ 0 ∧ clocksRun s = true ∧ dieUp s d.val = true ∧ s.fabric.stopped.get (imgKey d.val h) = false ∧ s.fabric.failed.get (imgKey d.val h) = false ∧ imagePending s d.val h = true ∧ s.fabric.progressAt.get (imgKey d.val h) + 1000000 ≤ nowNs s :=
  ⟨{ onFabric with time := { Time.reset with queue4 := 4000000 }, coll := { onFabric.coll with ctx := ⟨Ctx.reset, [(ctxKey 3 7, { Ctx.reset with state := .computing, group := 1 })]⟩ } }, 3, 1, by decide +kernel⟩

theorem witness_ImagesThatFault_3 : ∃ (s : State) (d : DieIx) (h : Nat), 
    dieUp s d.val = true ∧ clocksRun s = true ∧ cfgCollRecovery s = 0 ∧ resumable s d.val h = true :=
  ⟨{ onFabric with fabric := { onFabric.fabric with stopped := ⟨false, [(imgKey 3 1, true)]⟩ } }, 3, 1, by decide +kernel⟩

theorem witness_ImagesThatFault_4 : ∃ (s : State) (r : Role) (h : Byte), 
    Permitted r 0x0B0005 1 s ∧ imageAt s h.toNat ≠ none ∧ cfgCollRecovery s = 1 :=
  ⟨{ onFabric with obj := [(objKey 0x0A0001 7, 1)], fabric := { onFabric.fabric with stopped := ⟨false, [(imgKey 3 1, true)]⟩ } }, .fabric, 1, by decide +kernel⟩

theorem witness_ImagesThatFault_5 : ∃ (s : State) (r : Role), 
    Permitted r 0x0A0001 7 s :=
  ⟨inService, .fabric, by decide⟩

theorem witness_ImagesThatFault_6 : ∃ (s : State) (d : DieIx) (tl : TileIx) (r : Fin 8) (pos : Fin 17), 
    dieUp s d.val = true ∧ clocksRun s = true ∧ tileUp s d.val tl.val = true ∧ tilelessDies s = [] ∧ imageOn s d.val tl.val = none ∧ cfgSpareMode s = 0 ∧ s.fabric.retired.get (rowKey d.val tl.val r.val) = 0 ∧ s.fabric.spareBad.get (rowKey d.val tl.val r.val) = false ∧ s.fabric.retiring = [] ∧ pos ≠ 16 :=
  ⟨inService, 3, 0, 7, 15, by decide⟩

theorem witness_ImagesThatFault_7 : ∃ (s : State) (d : DieIx) (tl : TileIx) (r : Fin 8) (pos : Fin 17), 
    dieUp s d.val = true ∧ clocksRun s = true ∧ tileUp s d.val tl.val = true ∧ tilelessDies s = [] ∧ tileQuiet s d.val tl.val = false ∧ cfgSpareMode s = 0 ∧ s.fabric.retired.get (rowKey d.val tl.val r.val) = 0 ∧ s.fabric.spareBad.get (rowKey d.val tl.val r.val) = false ∧ s.fabric.retiring = [] ∧ pos ≠ 16 :=
  ⟨{ onFabric with coll := { onFabric.coll with ctx := ⟨Ctx.reset, [(ctxKey 3 7, { Ctx.reset with state := .computing, group := 1 })]⟩ } }, 3, 0, 7, 15, by decide +kernel⟩

theorem witness_ImagesThatFault_8 : ∃ (s : State) (d : DieIx) (tl : TileIx) (r : Fin 8) (pos : Fin 17) (n : Nat) (fails : Bool), 
    dieUp s d.val = true ∧ clocksRun s = true ∧ tileUp s d.val tl.val = true ∧ retiringAt s d.val tl.val r.val pos.val = some n ∧ n ≤ nowNs s :=
  ⟨{ inService with fabric := { Fabric.reset with retiring := [(3, 0, 7, 15, 0)] } }, 3, 0, 7, 15, 0, false, by decide⟩

theorem witness_ImagesThatFault_9 : ∃ (s : State) (d : DieIx) (tl : TileIx) (r : Fin 8) (pos : Fin 17), 
    dieUp s d.val = true ∧ clocksRun s = true ∧ tileUp s d.val tl.val = true ∧ retiringAt s d.val tl.val r.val pos.val = none ∧ spareTaken s d.val tl.val r.val = true ∧ s.fabric.retired.get (rowKey d.val tl.val r.val) ≠ pos.val + 1 ∧ pos ≠ 16 :=
  ⟨{ inService with fabric := { Fabric.reset with retired := ⟨0, [(rowKey 3 0 7, 5)]⟩ } }, 3, 0, 7, 15, by decide⟩

theorem witness_ImagesThatFault_10 : ∃ (s : State) (r : Role) (d tl w pos : Byte), 
    Permitted r 0x0B0005 2 s ∧ d.toNat < 8 ∧ tl.toNat < 8 ∧ w.toNat < 8 ∧ pos.toNat < 17 ∧ (d.toNat, tl.toNat, w.toNat, pos.toNat) ∈ s.fabric.spareNeeded :=
  ⟨{ inService with fabric := { Fabric.reset with spareNeeded := [(3, 0, 7, 15)] } }, .fabric, 3, 0, 7, 15, by decide⟩

theorem witness_ImagesThatFault_11 : ∃ (s : State) (r : Role), 
    Permitted r 0x0B0001 5 s :=
  ⟨inService, .fabric, by decide⟩

theorem witness_RegionRequests_1 : ∃ (s : State) (r : Role) (b : Bytes), 
    Permitted r 0x0C0001 1 s ∧ b.length = 24 ∧ regionFieldsOk b = true ∧ regionAt s (beAt b 0 2) = none ∧ ((s.resident.regions.cells.filter fun c => c.2.isSome).length < 4096) ∧ ((upTo 8).filter (fun d => !(partsWanted (regionOf b) d).isEmpty && !dieUp s d) = []) ∧ (placeAll s (regionOf b)).2 = [] :=
  ⟨inService, .fabric, aRecord, by decide +kernel⟩

theorem witness_RegionRequests_2 : ∃ (s : State) (h : Nat) (r : Region), 
    clocksRun s = true ∧ regionAt s h = some r ∧ r.state = .initialising ∧ r.lost = 0 :=
  ⟨{ withRegion with resident := { withRegion.resident with regions := ⟨none, [(9, some { aRegion with state := .initialising })]⟩ } }, 9, { aRegion with state := .initialising }, by decide +kernel⟩

theorem witness_RegionRequests_3 : ∃ (s : State) (h : Nat) (r : Region), 
    clocksRun s = true ∧ regionAt s h = some r ∧ r.state = .initialising ∧ r.lost ≠ 0 :=
  ⟨{ withRegion with resident := { withRegion.resident with regions := ⟨none, [(9, some { aRegion with state := .initialising, lost := 1 })]⟩ } }, 9, { aRegion with state := .initialising, lost := 1 }, by decide +kernel⟩

theorem witness_RegionRequests_4 : ∃ (s : State) (r : Role) (h : BitVec 16), 
    Permitted r 0x0C0001 2 s ∧ handleOk h.toNat = true ∧ regionAt s h.toNat ≠ none ∧ regionMoored s h.toNat = false ∧ exporting s h.toNat = false ∧ s.resident.importRun ≠ some h.toNat :=
  ⟨withRegion, .fabric, 9, by decide +kernel⟩

theorem witness_RegionRequests_5 : ∃ (s : State) (r : Role) (h : Nat) (b : Bytes) (x : Region), 
    Permitted r (0x0C1000 + h) 4 s ∧ b.length ≤ 64 ∧ regionAt s h = some x :=
  ⟨withRegion, .fabric, 9, List.replicate 64 7, aRegion, by decide +kernel⟩

theorem witness_RegionRequests_6 : ∃ (s : State) (h b k : Nat), 
    clocksRun s = true ∧ s.resident.lockHolder.get (blockKey h b) = none ∧ s.resident.unacked.get (blockKey h b) = false ∧ nextWaiter s (s.resident.lockWait.get (blockKey h b)) = some k :=
  ⟨{ withRegion with resident := { withRegion.resident with lockWait := ⟨[], [(blockKey 9 0, [ctxKey 3 7])]⟩ } }, 9, 0, ctxKey 3 7, by decide +kernel⟩

theorem witness_MirrorProtocol_1 : ∃ (s : State) (d : DieIx) (c : Fin 4096) (g : Machine.Group) (x : Region) (m : Nat), 
    dieUp s d.val = true ∧ clocksRun s = true ∧ commitReady s (ctxKey d.val c.val) = true ∧ groupOfCtx s (ctxKey d.val c.val) = some g ∧ regionAt s (gResident g.record) = some x ∧ boundBlocks s g.record (s.coll.ctx.get (ctxKey d.val c.val)).chunk = [(gResident g.record, (s.coll.ctx.get (ctxKey d.val c.val)).chunk)] ∧ x.mirrored = true ∧ (s.coll.ctx.get (ctxKey d.val c.val)).wroteWords = x.blockBytes / 64 ∧ tapDie x (s.coll.ctx.get (ctxKey d.val c.val)).chunk = some m :=
  ⟨{ withRegion with coll := { Coll.reset with groups := ⟨none, [(groupKey 3 5, some ⟨[0, 0, 0, 6] ++ List.replicate 27 0 ++ [9], 0, [3], 0⟩)]⟩, ctx := ⟨Ctx.reset, [(ctxKey 3 7, { Ctx.reset with state := .sending, group := 6, commitDue := true, wroteWords := 4 })]⟩ } }, 3, 7, ⟨[0, 0, 0, 6] ++ List.replicate 27 0 ++ [9], 0, [3], 0⟩, aRegion, 7, by decide +kernel⟩

theorem witness_MirrorProtocol_2 : ∃ (s : State) (d : DieIx) (h b w seq : Nat) (data : Bytes) (l : List MirrorMsg) (x : Region), 
    dieUp s d.val = true ∧ clocksRun s = true ∧ s.resident.toMirror.get d.val = .word h b w seq data :: l ∧ regionAt s h = some x ∧ (s.resident.mirrorIn.get (blockKey h b)).seq = seq :=
  ⟨{ withRegion with resident := { withRegion.resident with toMirror := ⟨[], [(7, [.word 9 0 3 5 (List.replicate 64 1)])]⟩, mirrorIn := ⟨⟨0, 0, 0⟩, [(blockKey 9 0, ⟨5, 0, 0⟩)]⟩ } }, 7, 9, 0, 3, 5, List.replicate 64 1, [], aRegion, by decide +kernel⟩

theorem witness_MirrorProtocol_3 : ∃ (s : State) (d : DieIx) (h b seq words : Nat) (crc : Word) (l : List MirrorMsg) (x : Region), 
    dieUp s d.val = true ∧ clocksRun s = true ∧ s.resident.toMirror.get d.val = .commit h b seq crc words :: l ∧ regionAt s h = some x ∧ x.mirrored = true ∧ s.resident.mirrorIn.get (blockKey h b) = ⟨seq, crc, words⟩ :=
  ⟨{ withRegion with resident := { withRegion.resident with toMirror := ⟨[], [(7, [.commit 9 0 5 6 4])]⟩, mirrorIn := ⟨⟨0, 0, 0⟩, [(blockKey 9 0, ⟨5, 6, 4⟩)]⟩ } }, 7, 9, 0, 5, 4, 6, [], aRegion, by decide +kernel⟩

theorem witness_MirrorProtocol_4 : ∃ (s : State) (d : DieIx) (h b : Nat) (l : List MirrorMsg) (x : Region), 
    dieUp s d.val = true ∧ clocksRun s = true ∧ s.resident.toMirror.get d.val = .ack h b true :: l ∧ regionAt s h = some x :=
  ⟨{ withRegion with resident := { withRegion.resident with toMirror := ⟨[], [(3, [.ack 9 0 true])]⟩ } }, 3, 9, 0, [], aRegion, by decide +kernel⟩

theorem witness_MirrorProtocol_5 : ∃ (s : State) (d : DieIx) (h b : Nat) (l : List MirrorMsg) (x : Region), 
    dieUp s d.val = true ∧ clocksRun s = true ∧ s.resident.toMirror.get d.val = .ack h b false :: l ∧ regionAt s h = some x :=
  ⟨{ withRegion with resident := { withRegion.resident with toMirror := ⟨[], [(3, [.ack 9 0 false])]⟩ } }, 3, 9, 0, [], aRegion, by decide +kernel⟩

theorem witness_MirrorProtocol_6 : ∃ (s : State) (h b : Nat) (p m : Bool) (x : Region), 
    clocksRun s = true ∧ regionAt s h = some x ∧ x.mirrored = true ∧ b < x.blocks ∧ x.state ≠ .initialising ∧ cfgAuditRate s ≠ 0 ∧ lockHeld s h b = false ∧ x.hasCopy b 0 = true ∧ x.hasCopy b 1 = true ∧ dieUp s (x.dieOf b) = true :=
  ⟨withRegion, 9, 0, true, true, aRegion, by decide +kernel⟩

theorem witness_MirrorProtocol_7 : ∃ (s : State) (r : Role) (h : BitVec 16) (b : Word) (src : Byte) (x : Region), 
    Permitted r 0x0C0005 1 s ∧ handleOk h.toNat = true ∧ src.toNat ≤ 1 ∧ regionAt s h.toNat = some x ∧ x.mirrored = true ∧ b.toNat < x.blocks ∧ x.hasCopy b.toNat 0 = true ∧ x.hasCopy b.toNat 1 = true ∧ lockHeld s h.toNat b.toNat = false :=
  ⟨withRegion, .fabric, 9, 0, 1, aRegion, by decide +kernel⟩

theorem witness_RegionTransfers_1 : ∃ (s : State) (r : Role) (h : BitVec 16) (f n : Word) (dest : BitVec 16) (c : Byte) (x : Region), 
    Permitted r 0x0C0006 1 s ∧ handleOk h.toNat = true ∧ c.toNat ≤ 7 ∧ regionAt s h.toNat = some x ∧ f.toNat + n.toNat ≤ x.blocks ∧ s.resident.exportRun = none ∧ n.toNat ≠ 0 ∧ x.state ≠ .initialising :=
  ⟨withRegion, .fabric, 9, 0, 1, 5, 7, aRegion, by decide +kernel⟩

theorem witness_RegionTransfers_2 : ∃ (s : State) (d : DieIx) (h f n dest c b : Nat) (x : Region), 
    dieUp s d.val = true ∧ clocksRun s = true ∧ s.resident.exportRun = some (h, f, n, dest, c) ∧ regionAt s h = some x ∧ nextOn x d.val (f + n - s.resident.exportNext.get d.val) (s.resident.exportNext.get d.val) = some b ∧ lockHeld s h b = false ∧ memBad s (x.addr b (x.mainCopy b)) x.blockBytes = false :=
  ⟨{ withRegion with resident := { withRegion.resident with exportRun := some (9, 0, 1, 5, 7) } }, 3, 9, 0, 1, 5, 7, 0, aRegion, by decide +kernel⟩

theorem witness_RegionTransfers_3 : ∃ (s : State) (r : Role) (h : BitVec 16) (x : Region), 
    Permitted r 0x0C0007 1 s ∧ handleOk h.toNat = true ∧ regionAt s h.toNat = some x ∧ regionMoored s h.toNat = false ∧ s.resident.exportRun = none ∧ s.resident.importRun = none ∧ x.state ≠ .initialising ∧ x.state ≠ .takeover :=
  ⟨withRegion, .fabric, 9, aRegion, by decide +kernel⟩

theorem witness_RegionTransfers_4 : ∃ (s : State) (b : Bytes) (h : Nat) (p : BlockPart) (x : Region), 
    keeperUp s = true ∧ s.resident.importRun = some h ∧ partOf b = some p ∧ regionAt s h = some x ∧ p.handle = h ∧ partFits x p = true ∧ x.hasCopy p.block 0 = true ∧ x.hasCopy p.block 1 = false ∧ (s.resident.importWords.get p.block).length = x.blockBytes / 64 :=
  ⟨{ withRegion with resident := { withRegion.resident with regions := ⟨none, [(9, some { aRegion with mirrored := false })]⟩, importRun := some 9, importWords := ⟨[], [(0, [0, 1, 2, 3])]⟩ } }, partBody ⟨9, 0, 0, 3, 1, 0, List.replicate 64 7⟩, 9, ⟨9, 0, 0, 3, 1, 0, List.replicate 64 7⟩, { aRegion with mirrored := false }, by decide +kernel⟩

theorem witness_RegionTransfers_5 : ∃ (s : State) (r : Role) (h : BitVec 16) (x : Region), 
    Permitted r 0x0C0007 2 s ∧ s.resident.importRun = some h.toNat ∧ regionAt s h.toNat = some x ∧ x.state = .importing ∧ s.resident.importWords = .empty [] :=
  ⟨{ withRegion with resident := { withRegion.resident with regions := ⟨none, [(9, some { aRegion with state := .importing })]⟩, importRun := some 9 } }, .fabric, 9, { aRegion with state := .importing }, by decide +kernel⟩

theorem witness_RegionTransfers_6 : ∃ (s : State) (h : Nat) (x : Region), 
    clocksRun s = true ∧ regionAt s h = some x ∧ x.state = .takeover :=
  ⟨{ withRegion with resident := { withRegion.resident with regions := ⟨none, [(9, some { aRegion with state := .takeover })]⟩ } }, 9, { aRegion with state := .takeover }, by decide +kernel⟩

theorem witness_RingsAndBeacons_1 : ∃ (s : State) (g : RingId) (v : RingSight), 
    ringsAct s (ringDie g) = true ∧ (ringOf s (ringKey g)).state = .seek ∧ (ringOf s (ringKey g)).held = false ∧ (ringOf s (ringKey g)).fresh = false ∧ v.resonance = true :=
  ⟨{ inService with optics := { Optics.reset with rings := Optics.reset.rings.modify (txRingKey 4 0) fun r => { r with state := .seek } } }, .txPort 4 0, { light := true, resonance := true, inRange := false, temp := 300 }, by decide⟩

theorem witness_RingsAndBeacons_2 : ∃ (s : State) (g : RingId) (v : RingSight), 
    ringsAct s (ringDie g) = true ∧ (ringOf s (ringKey g)).state = .seek ∧ (ringOf s (ringKey g)).held = false ∧ (ringOf s (ringKey g)).fresh = false ∧ v.resonance = false ∧ (ringOf s (ringKey g)).heater + 50 < 6000 :=
  ⟨{ inService with optics := { Optics.reset with rings := Optics.reset.rings.modify (txRingKey 4 0) fun r => { r with state := .seek, heater := 5949 } } }, .txPort 4 0, { light := true, resonance := false, inRange := false, temp := 300 }, by decide⟩

theorem witness_RingsAndBeacons_3 : ∃ (s : State) (g : RingId) (v : RingSight), 
    ringsAct s (ringDie g) = true ∧ (ringOf s (ringKey g)).state = .seek ∧ (ringOf s (ringKey g)).held = false ∧ (ringOf s (ringKey g)).fresh = true :=
  ⟨{ inService with optics := { Optics.reset with rings := Optics.reset.rings.modify (txRingKey 4 0) fun r => { r with state := .seek, fresh := true } } }, .txPort 4 0, { light := true, resonance := true, inRange := false, temp := 300 }, by decide⟩

theorem witness_RingsAndBeacons_4 : ∃ (s : State) (g : RingId) (v : RingSight), 
    ringsAct s (ringDie g) = true ∧ (ringOf s (ringKey g)).state = .acquire ∧ v.inRange = true ∧ 200000 ≤ (ringOf s (ringKey g)).inRangeNs :=
  ⟨{ inService with optics := { Optics.reset with rings := Optics.reset.rings.modify (txRingKey 4 0) fun r => { r with state := .acquire, inRangeNs := 200000 } } }, .txPort 4 0, { light := true, resonance := false, inRange := true, temp := 300 }, by decide⟩

theorem witness_RingsAndBeacons_5 : ∃ (s : State) (g : RingId), 
    ringsAct s (ringDie g) = true ∧ (ringOf s (ringKey g)).state = .locked ∧ (ringOf s (ringKey g)).checkAt = none ∧ (ringOf s (ringKey g)).checkedAt + 100000000 ≤ nowNs s :=
  ⟨{ inService with time := { Time.reset with queue4 := 400000000 }, optics := { Optics.reset with rings := Optics.reset.rings.modify (txRingKey 4 0) fun r => { r with state := .locked, checkAt := none, checkedAt := 0 } } }, .txPort 4 0, by decide⟩

theorem witness_RingsAndBeacons_6 : ∃ (s : State) (p : FibreIx) (k : Fin 9) (t : Nat) (tones : List Nat) (v : RingSight), 
    ringsAct s (portDie p.val) = true ∧ ((ringOf s (txRingKey p.val k.val)).state = .verify ∨ (ringOf s (txRingKey p.val k.val)).state = .locked) ∧ (ringOf s (txRingKey p.val k.val)).checkAt = some t ∧ t + 1000000 ≤ nowNs s ∧ beaconResult k.val tones = .match_ :=
  ⟨{ inService with time := { Time.reset with queue4 := 4000000 }, optics := { Optics.reset with rings := Optics.reset.rings.modify (txRingKey 4 0) fun r => { r with state := .verify, checkAt := some 0 } } }, 4, 0, 0, [1000, 0, 0, 0, 0, 0, 0, 0, 0], { light := true, resonance := false, inRange := true, temp := 300 }, by decide⟩

theorem witness_RingsAndBeacons_7 : ∃ (s : State) (g : RingId) (temp : Int), 
    ringsAct s (ringDie g) = true ∧ (ringOf s (ringKey g)).state = .locked ∧ (ringOf s (ringKey g)).storedAt + 1000000000 ≤ nowNs s :=
  ⟨{ inService with time := { Time.reset with queue4 := 4000000000 }, optics := { Optics.reset with rings := Optics.reset.rings.modify (txRingKey 4 0) fun r => { r with state := .locked, storedAt := 0 } } }, .txPort 4 0, 300, by decide⟩

theorem witness_RingsAndBeacons_8 : ∃ (s : State) (r : Role) (p : FibreIx) (rx : Bool) (k : Fin 9) (start : Nat), 
    Permitted r (0x040500 + p.val) 1 s ∧ start ≤ 6000 ∧ (ringOf s (if rx then rxRingKey p.val k.val else txRingKey p.val k.val)).state = .seek ∧ (ringOf s (if rx then rxRingKey p.val k.val else txRingKey p.val k.val)).held = true ∧ ((upTo 8).find? (fun l => (if rx then rxSlotOf s p.val l else txSlotOf s p.val l) == k.val) = none) :=
  ⟨{ inService with optics := { Optics.reset with rings := Optics.reset.rings.modify (txRingKey 4 8) fun r => { r with state := .seek, held := true } } }, .operator, 4, false, 8, 6000, by decide⟩

theorem witness_RingsAndBeacons_9 : ∃ (s : State) (r : Role), 
    Permitted r 0x040001 1 s :=
  ⟨inService, .operator, by decide⟩

theorem witness_LaneTraining_1 : ∃ (s : State) (p : FibreIx) (l : LaneIx) (n : Nat), 
    lanesAct s p.val = true ∧ (laneAt s p.val l.val).state = .signal ∧ 1000000 ≤ n :=
  ⟨{ inService with optics := { Optics.reset with lanes := Optics.reset.lanes.modify (laneKey 4 0) fun x => { x with state := .signal } } }, 4, 0, 1000000, by decide⟩

theorem witness_LaneTraining_2 : ∃ (s : State) (p : FibreIx) (l : LaneIx), 
    lanesAct s p.val = true ∧ (laneAt s p.val l.val).state ∉ [LaneState.dark, .service, .loop, .fault] ∧ ringLocked s (txRingKey p.val (txSlotOf s p.val l.val)) = true ∧ (laneAt s p.val l.val).trainAt + 1000 ≤ nowNs s :=
  ⟨{ inService with time := { Time.reset with queue4 := 4000 }, optics := { Optics.reset with rings := Optics.reset.rings.modify (txRingKey 4 0) fun r => { r with state := .locked }, lanes := Optics.reset.lanes.modify (laneKey 4 0) fun x => { x with state := .train } } }, 4, 0, by decide⟩

theorem witness_LaneTraining_3 : ∃ (s : State) (p : FibreIx) (l : LaneIx), 
    lanesAct s p.val = true ∧ (laneAt s p.val l.val).state = .service ∧ (laneAt s p.val l.val).markerAt + 100000 ≤ nowNs s :=
  ⟨{ inService with time := { Time.reset with queue4 := 400000 }, optics := { Optics.reset with lanes := Optics.reset.lanes.modify (laneKey 4 0) fun x => { x with state := .service } } }, 4, 0, by decide⟩

theorem witness_LaneTraining_4 : ∃ (s : State) (p : FibreIx) (l : LaneIx), 
    lanesAct s p.val = true ∧ (laneAt s p.val l.val).state ∈ [LaneState.locking, .signal, .train, .margin] ∧ (laneAt s p.val l.val).lockingAt + 500000000 ≤ nowNs s :=
  ⟨{ inService with time := { Time.reset with queue4 := 2000000000 }, optics := { Optics.reset with lanes := Optics.reset.lanes.modify (laneKey 4 0) fun x => { x with state := .locking } } }, 4, 0, by decide⟩

theorem witness_LaneTraining_5 : ∃ (s : State) (p : FibreIx) (l : LaneIx), 
    lanesAct s p.val = true ∧ (laneAt s p.val l.val).state = .fault ∧ marginHost s = false ∧ (laneAt s p.val l.val).enteredAt + 10000000000 ≤ nowNs s :=
  ⟨{ inService with time := { Time.reset with queue4 := 40000000000 }, optics := { Optics.reset with lanes := Optics.reset.lanes.modify (laneKey 4 0) fun x => { x with state := .fault } } }, 4, 0, by decide⟩

theorem witness_LaneTraining_6 : ∃ (s : State) (p : FibreIx) (l : LaneIx) (e : Nat × Nat × BitVec 64 × BitVec 64 × Nat), 
    lanesAct s p.val = true ∧ s.switch.sending.get (laneKey p.val l.val) = none ∧ (s.optics.ports.get p.val).due.find? (dueNow s p.val l.val) = some e ∧ e.2.1 = 2 :=
  ⟨{ inService with optics := { Optics.reset with ports := Optics.reset.ports.modify 4 fun q => { q with due := [(0, 2, 7, 8, 0)] } } }, 4, 0, (0, 2, 7, 8, 0), by decide⟩

theorem witness_LaneTraining_7 : ∃ (s : State) (p : FibreIx) (l : LaneIx) (e : Nat × Nat × BitVec 64 × BitVec 64 × Nat), 
    lanesAct s p.val = true ∧ s.switch.sending.get (laneKey p.val l.val) = none ∧ (s.optics.ports.get p.val).due.find? (dueNow s p.val l.val) = some e ∧ e.2.1 = 4 :=
  ⟨{ inService with optics := { Optics.reset with ports := Optics.reset.ports.modify 4 fun q => { q with due := [(0, 4, 0, 0, 0)] } } }, 4, 0, (0, 4, 0, 0, 0), by decide⟩

theorem witness_LaneTraining_8 : ∃ (s : State) (p : FibreIx) (m : PendingLcm) (c : Nat), 
    lanesAct s p.val = true ∧ (s.optics.ports.get p.val).pending = [m] ∧ m.sentAt + 100000 ≤ nowNs s ∧ m.sends < 10 ∧ carrier s p.val m.lane = some c :=
  ⟨{ inService with time := { Time.reset with queue4 := 400000 }, optics := { Optics.reset with ports := Optics.reset.ports.modify 4 fun q => { q with pending := [⟨3, 1, 0, 0, 0, 0, 1, 0⟩] }, lanes := Optics.reset.lanes.modify (laneKey 4 1) fun x => { x with state := .service } } }, 4, ⟨3, 1, 0, 0, 0, 0, 1, 0⟩, 1, by decide⟩

theorem witness_LaneTraining_9 : ∃ (s : State) (p : FibreIx) (l : LaneIx), 
    lanesAct s p.val = true ∧ laneUsable s p.val l.val = true :=
  ⟨{ inService with switch := { Switch.reset with spray := Switch.reset.spray.set 4 0xFF } }, 4, 7, by decide⟩

theorem witness_MarginsOfLanes_1 : ∃ (s : State) (p : FibreIx) (l : LaneIx) (b : Option Bool), 
    lanesAct s p.val = true ∧ (laneAt s p.val l.val).testing = true ∧ (laneAt s p.val l.val).rxTesting = false :=
  ⟨{ inService with optics := { Optics.reset with lanes := Optics.reset.lanes.modify (laneKey 4 0) fun x => { x with testing := true } } }, 4, 0, none, by decide⟩

theorem witness_MarginsOfLanes_2 : ∃ (s : State) (p : FibreIx) (l : LaneIx), 
    lanesAct s p.val = true ∧ (laneAt s p.val l.val).testing = false ∧ (laneAt s p.val l.val).rxTesting = true :=
  ⟨{ inService with optics := { Optics.reset with lanes := Optics.reset.lanes.modify (laneKey 4 0) fun x => { x with rxTesting := true } } }, 4, 0, by decide⟩

theorem witness_MarginsOfLanes_3 : ∃ (s : State) (r : Role) (p : FibreIx) (m : Byte), 
    Permitted r (0x040100 + p.val) 6 s :=
  ⟨inService, .operator, 4, 0xFF, by decide⟩

theorem witness_MarginsOfLanes_4 : ∃ (s : State) (r : Role) (p : FibreIx) (m : Byte), 
    Permitted r (0x040100 + p.val) 7 s :=
  ⟨inService, .operator, 4, 0xFF, by decide⟩

theorem witness_MarginsOfLanes_5 : ∃ (s : State) (p : FibreIx) (l : LaneIx) (c u : Nat) (e : Int), 
    lanesAct s p.val = true ∧ laneUnlocked (laneAt s p.val l.val).state = false ∧ estimateOf (((c + 160 * u) :: (laneAt s p.val l.val).bins).take 1000) = some e :=
  ⟨{ inService with optics := { Optics.reset with lanes := Optics.reset.lanes.modify (laneKey 4 0) fun x => { x with state := .service } } }, 4, 0, 100, 0, 30, by decide +kernel⟩

theorem witness_MarginsOfLanes_6 : ∃ (s : State) (p : FibreIx) (l : LaneIx) (e : Int), 
    lanesAct s p.val = true ∧ laneUnlocked (laneAt s p.val l.val).state = false ∧ (laneAt s p.val l.val).estimate = some e ∧ ((laneAt s p.val l.val).reportAt + 10000000 ≤ nowNs s ∨ crossed s (laneAt s p.val l.val) = true) :=
  ⟨{ inService with optics := { Optics.reset with lanes := Optics.reset.lanes.modify (laneKey 4 0) fun x => { x with state := .service, estimate := some 60 } } }, 4, 0, 60, by decide⟩

theorem witness_MarginsOfLanes_7 : ∃ (s : State) (p : FibreIx) (s1 si s2 s3 s6 : List Int) (s4 s5 : Int) (taps : List (Fin 512 × Int × Int)), 
    lanesAct s p.val = true ∧ 6 ≤ stateCode s.start.state :=
  ⟨inService, 4, [], [], [], [], [], 0, 0, [], by decide⟩

theorem witness_MarginsOfLanes_8 : ∃ (s : State) (p : FibreIx) (s1 si s2 s3 s6 : List Int) (s4 s5 : Int), 
    lanesAct s p.val = true ∧ s.start.state = .opticsCal ∧ (∀ l : LaneIx, (laneAt s p.val l.val).baseSet = false ∧ (laneAt s p.val l.val).leaving = 0) :=
  ⟨{ inService with start := { inService.start with state := .opticsCal } }, 4, [-3001, 1], [7], [5], [], [], -3000, -3001, by decide⟩

theorem witness_MarginsOfLanes_9 : ∃ (s : State) (r : Role), 
    Permitted r 0x040001 3 s :=
  ⟨inService, .operator, by decide⟩

theorem witness_LinesAndLoops_1 : ∃ (s : State) (m : Fin 16) (k : Fin 8), 
    clocksRun s = true ∧ isUp s = true ∧ (elsOf s m.val).migrating = none ∧ furthestLine s m.val (fadingLines s m.val) = some k.val ∧ spareForbidden s m.val = false ∧ migrationHost s = false :=
  ⟨{ inService with optics := { Optics.reset with els := Optics.reset.els.modify 0 fun e => { e with baseline := e.baseline.set 7 (some 300) } } }, 0, 7, by decide +kernel⟩

theorem witness_LinesAndLoops_2 : ∃ (s : State) (m : Fin 16) (k : Fin 8), 
    clocksRun s = true ∧ isUp s = true ∧ (elsOf s m.val).migrating ≠ none :=
  ⟨{ inService with optics := { Optics.reset with els := Optics.reset.els.modify 0 fun e => { e with migrating := some 7 } } }, 0, 7, by decide +kernel⟩

theorem witness_LinesAndLoops_3 : ∃ (s : State) (p : FibreIx) (l : LaneIx), 
    lanesAct s p.val = true ∧ (laneAt s p.val l.val).peerMigrating = true ∧ (laneAt s p.val l.val).retuneAt + 100000000 ≤ nowNs s :=
  ⟨{ inService with time := { Time.reset with queue4 := 400000000 }, optics := { Optics.reset with lanes := Optics.reset.lanes.modify (laneKey 4 0) fun x => { x with peerMigrating := true } } }, 4, 0, by decide⟩

theorem witness_LinesAndLoops_4 : ∃ (s : State) (r : Role) (m : Fin 16) (k : Byte), 
    Permitted r (0x040040 + m.val) 1 s ∧ k.toNat ≤ 7 ∧ spareForbidden s m.val = false :=
  ⟨inService, .operator, 15, 7, by decide +kernel⟩

theorem witness_LinesAndLoops_5 : ∃ (s : State) (r : Role) (m : Fin 16) (k : Byte), 
    Permitted r (0x040040 + m.val) 2 s ∧ k.toNat ≤ 7 ∧ (elsOf s m.val).spare = k.toNat :=
  ⟨{ inService with optics := { Optics.reset with els := Optics.reset.els.modify 15 fun e => { e with spare := 7 } } }, .operator, 15, 7, by decide +kernel⟩

theorem witness_LinesAndLoops_6 : ∃ (s : State) (r : Role), 
    Permitted r 0x040001 2 s :=
  ⟨inService, .operator, by decide⟩

theorem witness_LinesAndLoops_7 : ∃ (s : State) (r : Role) (p : FibreIx), 
    Permitted r (0x040100 + p.val) 4 s ∧ (∀ l : LaneIx, (laneAt s p.val l.val).state ≠ .loop ∧ (laneAt s p.val l.val).leaving = 0) :=
  ⟨inService, .operator, 4, by decide +kernel⟩

theorem witness_LinesAndLoops_8 : ∃ (s : State) (r : Role) (p : FibreIx), 
    Permitted r (0x040100 + p.val) 4 s ∧ objGet s (0x040100 + p.val) 5 0 = 1 ∧ laneTaken s p.val 0 = false ∧ laneEmpty s p.val 0 = true ∧ (∀ l : LaneIx, (laneAt s p.val l.val).state ≠ .loop ∧ (laneAt s p.val l.val).leaving = 0) ∧ (sprayLanes s p.val).contains 0 = false ∧ s.optics.ports.wf = true :=
  ⟨{ inService with obj := [(objKey 0x040104 5, 1)] }, .operator, 4, by decide +kernel⟩

theorem witness_LinesAndLoops_9 : ∃ (s : State) (a b : DieIx) (c : Fin 80) (x : Bool), 
    clocksRun s = true ∧ dieUp s a.val = true ∧ dieUp s b.val = true ∧ a ≠ b :=
  ⟨inService, 3, 5, 79, true, by decide⟩

theorem witness_LinesAndLoops_10 : ∃ (s : State) (a b : DieIx) (c : Fin 80), 
    clocksRun s = true ∧ dieUp s a.val = true ∧ dieUp s b.val = true ∧ a ≠ b ∧ s.optics.channels = .empty 0 ∧ s.optics.channelFor = .empty 0 ∧ spareUsable s a.val b.val 80 = true :=
  ⟨inService, 3, 5, 79, by decide +kernel⟩

theorem witness_LinesAndLoops_11 : ∃ (s : State) (m : Fin 20), 
    clocksRun s = true ∧ (elsOf s m.val).state = 2 ∧ (elsOf s m.val).enabledAt + 200000000 ≤ wallNs s :=
  ⟨{ inService with time := { Time.reset with wall4 := 800000000 }, optics := { Optics.reset with els := Optics.reset.els.modify 19 fun e => { e with state := 2 } } }, 19, by decide⟩

theorem witness_LinesAndLoops_12 : ∃ (s : State) (m : Fin 20) (l : List Int) (f : Nat), 
    keeperUp s = true ∧ 6 ≤ stateCode s.start.state ∧ (elsOf s m.val).state ≠ 0 :=
  ⟨{ inService with optics := { Optics.reset with els := Optics.reset.els.modify 19 fun e => { e with state := 2 } } }, 19, [], 0, by decide⟩

theorem witness_LinesAndLoops_13 : ∃ (s : State) (m : Fin 20) (l : List Int), 
    keeperUp s = true ∧ s.start.state = .opticsCal ∧ ((elsOf s m.val).state = 2 ∨ (elsOf s m.val).state = 4) ∧ elsAtPower s m.val = true ∧ s.optics.els.wf = true :=
  ⟨{ inService with time := { Time.reset with queue4 := 40 }, start := { inService.start with state := .opticsCal, elsE := 0xFFFF }, optics := { Optics.reset with els := Optics.reset.els.modify 15 fun e => { e with state := 2, power := ⟨2000, []⟩ } } }, 15, List.replicate 9 2000, by decide +kernel⟩

theorem witness_ElectricalPorts_1 : ∃ (s : State) (r : Role) (p : ElecIx) (v : Byte), 
    Permitted r (0x060100 + p.val) 3 s ∧ v.toNat ≤ 1 ∧ (epOf s p.val).moduleState ≠ 2 :=
  ⟨inService, .operator, 31, 1, by decide⟩

theorem witness_ElectricalPorts_2 : ∃ (s : State) (r : Role) (p : ElecIx) (v : Byte), 
    Permitted r (0x060100 + p.val) 3 s ∧ v.toNat ≤ 1 ∧ (epOf s p.val).moduleState = 2 :=
  ⟨{ inService with mgmt := { Mgmt.reset with eports := Mgmt.reset.eports.set 31 { EPort.reset with moduleState := 2 } } }, .operator, 31, 1, by decide⟩

theorem witness_ElectricalPorts_3 : ∃ (s : State) (r : Role) (p : ElecIx) (v : Byte), 
    Permitted r (0x060100 + p.val) 1 s ∧ 1 ≤ v.toNat ∧ v.toNat ≤ 4 ∧ epChangeOk s p.val = true ∧ (epOf s p.val).moduleState ≠ 2 :=
  ⟨inService, .operator, 31, 4, by decide⟩

theorem witness_ElectricalPorts_4 : ∃ (s : State) (r : Role) (p : ElecIx) (v : Byte), 
    Permitted r (0x060100 + p.val) 2 s ∧ v.toNat ≤ 1 ∧ epChangeOk s p.val = true :=
  ⟨inService, .operator, 31, 1, by decide⟩

theorem witness_ElectricalPorts_5 : ∃ (s : State) (p : ElecIx) (l : Fin 4) (tap ch : Int) (pr : Bool) (g t : Nat), 
    epActs s p.val = true ∧ (epOf s p.val).trainingAt.get l.val = some t :=
  ⟨{ inService with mgmt := { Mgmt.reset with eports := Mgmt.reset.eports.set 31 { EPort.reset with trainingAt := ⟨none, [(3, some 0)]⟩ } } }, 31, 3, -3, 1, true, 0, 0, by decide⟩

theorem witness_ElectricalPorts_6 : ∃ (s : State) (p : ElecIx) (l : Fin 4) (tap ch : Int) (pr : Bool) (t : Nat) (k : Nat), 
    epActs s p.val = true ∧ s.mgmt.eports.wf = true ∧ (epOf s p.val).rxReady.wf = true ∧ (epOf s p.val).trainingAt.get l.val = some t ∧ -3 ≤ tap ∧ tap ≤ 1 ∧ ch ≠ 0 ∧ k = l.val * 8 + (tap + 3).toNat ∧ ((epOf s p.val).taps.get k + ch).natAbs ≤ Config.tapLimit (tap + 3).toNat :=
  ⟨{ inService with mgmt := { Mgmt.reset with eports := Mgmt.reset.eports.set 31 { EPort.reset with trainingAt := ⟨none, [(3, some 0)]⟩, taps := ⟨0, [(24, 1)]⟩ } } }, 31, 3, -3, -1, true, 0, 24, by exact ⟨by decide, by decide, by decide, by decide, by decide, by decide, by decide, by decide, Nat.zero_le _⟩⟩

theorem witness_ElectricalPorts_7 : ∃ (s : State) (p : ElecIx) (l : Fin 4) (tap ch : Int) (pr : Bool) (t : Nat) (k : Nat), 
    epActs s p.val = true ∧ s.mgmt.eports.wf = true ∧ (epOf s p.val).rxReady.wf = true ∧ (epOf s p.val).trainingAt.get l.val = some t ∧ -3 ≤ tap ∧ tap ≤ 1 ∧ ch ≠ 0 ∧ k = l.val * 8 + (tap + 3).toNat ∧ Config.tapLimit (tap + 3).toNat < ((epOf s p.val).taps.get k + ch).natAbs :=
  ⟨{ inService with mgmt := { Mgmt.reset with eports := Mgmt.reset.eports.set 31 { EPort.reset with trainingAt := ⟨none, [(3, some 0)]⟩, taps := ⟨0, [(24, (Config.tapLimit 0 : Int))]⟩ } } }, 31, 3, -3, 1, true, 0, 24, by exact ⟨by decide, by decide, by decide, by rfl, by decide, by decide, by decide, by decide, by show Config.tapLimit 0 < ((Config.tapLimit 0 : Int) + 1).natAbs; omega⟩⟩

theorem witness_ElectricalPorts_8 : ∃ (s : State) (p : ElecIx) (l : Fin 4) (tap ch : Int) (pr : Bool) (t : Nat), 
    epActs s p.val = true ∧ (epOf s p.val).trainingAt.get l.val = some t ∧ (tap < -3 ∨ 6 < tap) ∧ (epOf s p.val).rxReady.get l.val = false ∧ (epOf s p.val).smallGains.get l.val < 7 :=
  ⟨{ inService with mgmt := { Mgmt.reset with eports := Mgmt.reset.eports.set 31 { EPort.reset with trainingAt := ⟨none, [(3, some 0)]⟩ } } }, 31, 3, 7, 1, true, 0, by decide⟩

theorem witness_ElectricalPorts_9 : ∃ (s : State) (p : ElecIx) (l : Fin 4) (tap ch : Int) (pr : Bool) (t : Nat), 
    epActs s p.val = true ∧ s.mgmt.eports.wf = true ∧ (epOf s p.val).rxReady.wf = true ∧ (epOf s p.val).trainingAt.get l.val = some t ∧ 2 ≤ tap ∧ tap ≤ 6 ∧ (epOf s p.val).rxReady.get l.val = true :=
  ⟨{ inService with mgmt := { Mgmt.reset with eports := Mgmt.reset.eports.set 31 { EPort.reset with trainingAt := ⟨none, [(3, some 0)]⟩, rxReady := ⟨false, [(3, true)]⟩ } } }, 31, 3, 2, 1, true, 0, by decide⟩

theorem witness_ElectricalPorts_10 : ∃ (s : State) (p : ElecIx) (l : Fin 4) (t : Nat), 
    epActs s p.val = true ∧ (epOf s p.val).trainingAt.get l.val = some t ∧ t + 450000000 ≤ nowNs s :=
  ⟨{ inService with time := { Time.reset with queue4 := 1800000000 }, mgmt := { Mgmt.reset with eports := Mgmt.reset.eports.set 31 { EPort.reset with trainingAt := ⟨none, [(3, some 0)]⟩ } } }, 31, 3, 0, by decide⟩

theorem witness_ElectricalPorts_11 : ∃ (s : State) (p : ElecIx) (m : Fin 4) (n : Nat), 
    epActs s p.val = true ∧ epTransmits (epOf s p.val) = true ∧ m.val < memberCount (epOf s p.val).mode ∧ (epOf s p.val).bringupAt.get m.val ≠ none ∧ ((memberLanes (epOf s p.val).mode m.val).any (fun l => ((epOf s p.val).trainingAt.get l).isSome) = false) ∧ 1000000 ≤ n :=
  ⟨{ inService with mgmt := { Mgmt.reset with eports := Mgmt.reset.eports.set 31 { EPort.reset with enable := true, present := true, moduleState := 3, bringupAt := ⟨none, [(0, some 0)]⟩ } } }, 31, 0, 1000000, by decide⟩

theorem witness_ElectricalPorts_12 : ∃ (s : State) (p : ElecIx) (m : Fin 4), 
    epActs s p.val = true ∧ (epOf s p.val).membersUp.getLsbD m.val = true ∧ s.start.headless = true ∧ (epOf s p.val).copper = false ∧ (memberGoesDown p.val m.val s).start = s.start ∧ (epOf (memberGoesDown p.val m.val s) p.val).copper = false :=
  ⟨{ inService with start := { inService.start with headless := true }, mgmt := { Mgmt.reset with eports := Mgmt.reset.eports.set 31 { EPort.reset with membersUp := 1 } } }, 31, 0, by decide⟩

theorem witness_ElectricalPorts_13 : ∃ (s : State) (p : ElecIx) (m : Fin 4) (t : Nat), 
    epActs s p.val = true ∧ (epOf s p.val).bringupAt.get m.val = some t ∧ t + 500000000 ≤ nowNs s :=
  ⟨{ inService with time := { Time.reset with queue4 := 2000000000 }, mgmt := { Mgmt.reset with eports := Mgmt.reset.eports.set 31 { EPort.reset with bringupAt := ⟨none, [(3, some 0)]⟩ } } }, 31, 3, 0, by decide⟩

theorem witness_ElectricalPorts_14 : ∃ (s : State) (r : Role) (p : ElecIx), 
    Permitted r (0x060100 + p.val) 7 s ∧ s.switch.drainState.get (256 + p.val) = 2 :=
  ⟨{ inService with switch := { Switch.reset with drainState := ⟨0, [(287, 2)]⟩ } }, .operator, 31, by decide⟩

theorem witness_ElectricalPorts_15 : ∃ (s : State) (r : Role) (p : ElecIx), 
    Permitted r (0x060100 + p.val) 7 s ∧ (epOf s p.val).loop = 0 :=
  ⟨inService, .operator, 31, by decide⟩

theorem witness_ElectricalPorts_16 : ∃ (s : State) (r : Role) (p : ElecIx) (v : Byte), 
    Permitted r (0x060100 + p.val) 8 s ∧ v.toNat ≤ 15 :=
  ⟨inService, .operator, 31, 15, by decide⟩

theorem witness_ElectricalPorts_17 : ∃ (s : State) (p : ElecIx) (n : Nat), 
    clocksRun s = true ∧ (epOf s p.val).present = true ∧ 10000000 ≤ n :=
  ⟨{ inService with mgmt := { Mgmt.reset with eports := Mgmt.reset.eports.set 31 { EPort.reset with present := true } } }, 31, 10000000, by decide⟩

theorem witness_ElectricalPorts_18 : ∃ (s : State) (p : ElecIx) (n : Nat), 
    clocksRun s = true ∧ (epOf s p.val).present = false ∧ 10000000 ≤ n ∧ s.start.headless = false ∧ keeperUp s = true :=
  ⟨inService, 31, 10000000, by decide⟩

theorem witness_ElectricalPorts_19 : ∃ (s : State) (p : ElecIx) (a : Nat), 
    keeperUp s = true ∧ (epOf s p.val).moduleState = 2 :=
  ⟨{ inService with mgmt := { Mgmt.reset with eports := Mgmt.reset.eports.set 31 { EPort.reset with moduleState := 2 } } }, 31, 1, by decide⟩

theorem witness_ElectricalPorts_20 : ∃ (s : State) (p : ElecIx) (t : Nat), 
    keeperUp s = true ∧ (epOf s p.val).moduleState = 2 ∧ (epOf s p.val).activateAt = some t ∧ t + 5000000000 ≤ nowNs s :=
  ⟨{ inService with time := { Time.reset with queue4 := 20000000000 }, mgmt := { Mgmt.reset with eports := Mgmt.reset.eports.set 31 { EPort.reset with moduleState := 2, activateAt := some 0 } } }, 31, 0, by decide⟩

theorem witness_ElectricalPorts_21 : ∃ (s : State) (p : ElecIx) (f : Option Nat), 
    keeperUp s = true ∧ (epOf s p.val).present = true :=
  ⟨{ inService with mgmt := { Mgmt.reset with eports := Mgmt.reset.eports.set 31 { EPort.reset with present := true } } }, 31, none, by decide⟩

theorem witness_ElectricalPorts_22 : ∃ (s : State) (m : Fin 2) (b : Bytes), 
    keeperUp s = true ∧ s.mgmt.mpUp.getLsbD m.val = true ∧ (mpBudget m.val s).1 = true ∧ fcsGood b = true ∧ mpAccepts b = true ∧ mpAnswer (mpBudget m.val s).2 m.val b = none :=
  ⟨{ inService with mgmt := { Mgmt.reset with mpUp := 3 } }, 1, withFcs (List.replicate 12 0 ++ [0x86, 0xDD, 0x60, 0, 0, 0, 0, 8, 17, 64] ++ List.replicate 32 0 ++ [0, 0, 0xB8, 0xC5, 0, 8, 0, 0]), by decide +kernel⟩

theorem witness_ElectricalPorts_23 : ∃ (s : State) (m : Fin 2) (b : Bytes), 
    keeperUp s = true ∧ s.mgmt.mpUp.getLsbD m.val = true ∧ fcsGood b = false :=
  ⟨{ inService with mgmt := { Mgmt.reset with mpUp := 3 } }, 1, List.replicate 64 0, by decide +kernel⟩

theorem witness_ElectricalPorts_24 : ∃ (s : State) (m : Fin 2) (b : Nat), 
    keeperUp s = true ∧ s.mgmt.mpBegun.get m.val = some b ∧ b + 1000000 ≤ nowNs s :=
  ⟨{ inService with time := { Time.reset with queue4 := 4000000 }, mgmt := { Mgmt.reset with mpBegun := ⟨none, [(1, some 0)]⟩ } }, 1, 0, by decide⟩

theorem witness_ElectricalPorts_25 : ∃ (s : State) (m : Fin 2) (b : Nat), 
    keeperUp s = true ∧ s.mgmt.mpBegun.get m.val = some b :=
  ⟨{ inService with mgmt := { Mgmt.reset with mpBegun := ⟨none, [(1, some 0)]⟩ } }, 1, 0, by decide⟩

theorem witness_ExpressPaths_1 : ∃ (s : State) (r : Role) (q a b : BitVec 16) (act : Word), 
    Permitted r 0x050002 1 s ∧ expressCheck s q.toNat a.toNat b.toNat act.toNat = 0 ∧ (pathOf s q.toNat).state = .idle :=
  ⟨{ inService with time := { inService.time with ppsLost := false } }, .admin, 63, 5, 40, 100000000, by decide +kernel⟩

theorem witness_ExpressPaths_2 : ∃ (s : State) (q : Fin 512) (n : Nat), 
    clocksRun s = true ∧ (pathOf s q.val).state = .scheduled ∧ (pathOf s q.val).aAccepted = true ∧ (pathOf s q.val).drained = false ∧ (s.express.paths.cells.any (fun c => c.2.state == .clearing && c.1 / 64 == pathSlot q.val && c.1 != q.val && (c.2.a == (pathOf s q.val).a || c.2.b == (pathOf s q.val).b)) = false) ∧ ((pathOf s q.val).drainPass = true ∨ 50000 ≤ n) :=
  ⟨{ inService with express := { Express.reset with paths := ⟨Path.reset, [(7, { Path.reset with state := .scheduled, aAccepted := true })]⟩ } }, 7, 50000, by decide⟩

theorem witness_ExpressPaths_3 : ∃ (s : State) (q : Fin 512) (e : Int), 
    clocksRun s = true ∧ (pathOf s q.val).state = .scheduled ∧ atOrAfter (sinkNs s q.val) ((pathOf s q.val).actTime.toNat + 2 ^ 32 - 100000) = true ∧ guardCode s q.val e = 0 :=
  ⟨{ inService with time := { Time.reset with ppsLost := false, tmu := 200000 * 2 ^ 28, followers := ⟨200000 * 2 ^ 28, []⟩ }, express := { Express.reset with paths := ⟨Path.reset, [(7, { Path.reset with state := .scheduled, aAccepted := true, bAccepted := true, drained := true, a := 5, b := 40, actTime := 100000 })]⟩ }, optics := { Optics.reset with rings := (Optics.reset.rings.set (expDropKey 5 0) { Optics.reset.rings.dflt with state := .locked }).set (expAddKey 40 0) { Optics.reset.rings.dflt with state := .locked } } }, 7, -100, by decide +kernel⟩

theorem witness_ExpressPaths_4 : ∃ (s : State) (q : Fin 512), 
    clocksRun s = true ∧ (pathOf s q.val).state = .armed ∧ (pathOf s q.val).gateOpen = false ∧ atOrAfter (sinkNs s q.val) (pathOf s q.val).actTime.toNat = true :=
  ⟨{ inService with express := { Express.reset with paths := ⟨Path.reset, [(7, { Path.reset with state := .armed })]⟩ } }, 7, by decide⟩

theorem witness_ExpressPaths_5 : ∃ (s : State) (q : Fin 512) (e : Int), 
    clocksRun s = true ∧ (pathOf s q.val).state = .armed ∧ (pathOf s q.val).gateOpen = true ∧ cfgExpOutPower s - 50 ≤ e ∧ e ≤ cfgExpOutPower s + 50 :=
  ⟨{ inService with express := { Express.reset with paths := ⟨Path.reset, [(7, { Path.reset with state := .armed, gateOpen := true })]⟩ } }, 7, 50, by decide⟩

theorem witness_ExpressPaths_6 : ∃ (s : State) (q : Fin 512) (e : Int), 
    clocksRun s = true ∧ (pathOf s q.val).state = .armed ∧ (pathOf s q.val).gateOpen = true ∧ (pathOf s q.val).openedAt + 1000000 ≤ nowNs s ∧ (e < cfgExpOutPower s - 50 ∨ cfgExpOutPower s + 50 < e) :=
  ⟨{ inService with time := { Time.reset with queue4 := 4000000 }, express := { Express.reset with paths := ⟨Path.reset, [(7, { Path.reset with state := .armed, gateOpen := true })]⟩ } }, 7, 151, by decide⟩

theorem witness_ExpressPaths_7 : ∃ (s : State) (r : Role) (q : BitVec 16) (x : Word) (f : Byte), 
    Permitted r 0x050002 2 s ∧ q.toNat ≤ 511 ∧ f.toNat ≤ 1 ∧ (pathOf s q.toNat).state = .active ∧ (f.toNat = 1 ∨ (1000000 ≤ (x.toNat + 2 ^ 32 - tmuNs s % 2 ^ 32) % 2 ^ 32 ∧ (x.toNat + 2 ^ 32 - tmuNs s % 2 ^ 32) % 2 ^ 32 ≤ 2000000000)) :=
  ⟨{ inService with express := { Express.reset with paths := ⟨Path.reset, [(7, { Path.reset with state := .active })]⟩ } }, .admin, 7, 0, 1, by decide⟩

theorem witness_ExpressPaths_8 : ∃ (s : State) (q : Fin 512), 
    clocksRun s = true ∧ (pathOf s q.val).state = .clearing ∧ atOrAfter (sinkNs s q.val) (pathOf s q.val).clearTime.toNat = true :=
  ⟨{ inService with express := { Express.reset with paths := ⟨Path.reset, [(7, { Path.reset with state := .clearing })]⟩ } }, 7, by decide⟩

theorem witness_ExpressPaths_9 : ∃ (s : State) (q : Fin 512) (e : Int) (n : Nat), 
    clocksRun s = true ∧ (pathOf s q.val).state = .active ∧ e < cfgExpInMin s ∧ 100000 ≤ n ∧ (pathOf s q.val).lowSent = false :=
  ⟨{ inService with express := { Express.reset with paths := ⟨Path.reset, [(7, { Path.reset with state := .active })]⟩ } }, 7, -1000, 100000, by decide⟩

theorem witness_ExpressPaths_10 : ∃ (s : State) (q : Fin 512) (e : Int) (n : Nat), 
    clocksRun s = true ∧ (pathOf s q.val).state = .active ∧ cfgExpInMin s ≤ e :=
  ⟨{ inService with express := { Express.reset with paths := ⟨Path.reset, [(7, { Path.reset with state := .active, lowSent := true })]⟩ } }, 7, -900, 0, by decide⟩

theorem witness_FirmwareUpdate_1 : ∃ (s : State) (r : Role) (d : Bytes), 
    Permitted r 0x010002 2 s ∧ d.length ≤ 1024 ∧ s.keeper.fwResult ≠ 0x0A ∧ s.keeper.stageOffset + d.length ≤ 5242880 :=
  ⟨inService, .admin, [1, 2, 3, 4], by decide⟩

theorem witness_FirmwareUpdate_2 : ∃ (s : State) (r : Role) (v : Byte) (b : Bytes) (c : Nat), 
    Permitted r 0x010002 3 s ∧ s.keeper.fwResult ≠ 0x0A ∧ b = stagedFw s (stagingDie s) ∧ c = fwCheck s b (if fwTotal b ≤ s.keeper.stageLen then fwTotal b else 0) :=
  ⟨inService, .admin, 0, _, _, by exact ⟨by decide, by decide, rfl, rfl⟩⟩

theorem witness_FirmwareUpdate_3 : ∃ (s : State) (g : Bool), 
    s.keeper.fwResult = 0x0A ∧ keeperUp s = true :=
  ⟨{ inService with keeper := { inService.keeper with fwResult := 0x0A } }, true, by decide⟩

theorem witness_FirmwareUpdate_4 : ∃ (s : State) (r : Role) (v : Byte) (n : Nat) (t : State), 
    Permitted r 0x010001 5 s ∧ v.toNat ≤ 64 ∧ v.toNat ≤ s.keeper.fwSvn ∧ rollback s < v.toNat ∧ t = blowSteps ((rollbackSteps s v.toNat).take n) s :=
  ⟨{ inService with keeper := { inService.keeper with fwSvn := 3 } }, .admin, 2, 2, _, by exact ⟨by decide, by decide, by decide, by decide +kernel, rfl⟩⟩

theorem witness_FirmwareUpdate_5 : ∃ (s : State) (r : Role) (v : Byte) (n : Nat) (x : Fin 3) (t : State) (k : Nat), 
    Permitted r 0x010001 5 s ∧ v.toNat ≤ 64 ∧ v.toNat ≤ s.keeper.fwSvn ∧ rollback s < v.toNat ∧ t = blowSteps ((rollbackSteps s v.toNat).take n) s ∧ (rollbackSteps s v.toNat)[n]? = some k ∧ (n = 0 ∨ t.keeper.fuseResult = 0) ∧ rollback (fuseField (25 + k) 1 (some x.val) t) < v.toNat :=
  ⟨{ inService with keeper := { inService.keeper with fwSvn := 3 } }, .admin, 2, 0, 1, _, 0, by exact ⟨by decide, by decide, by decide, by decide +kernel, rfl, by decide +kernel, by decide, by decide +kernel⟩⟩

theorem witness_FusesAndEvidence_1 : ∃ (s : State) (r : Role) (f v : Nat), 
    Permitted r 0x010003 2 s ∧ fuseRefusal s f v = 0 :=
  ⟨inService, .admin, 12, 7, by decide +kernel⟩

theorem witness_FusesAndEvidence_2 : ∃ (s : State) (r : Role) (f v : Nat) (b : Option (Fin 3)), 
    Permitted r 0x010003 2 s ∧ fuseRefusal s f v ≠ 0 :=
  ⟨inService, .admin, 0, 7, none, by decide +kernel⟩

theorem witness_FusesAndEvidence_3 : ∃ (s : State) (r : Role) (n : Bytes), 
    Permitted r 0x010004 4 s ∧ n.length ≤ 32 ∧ s.keeper.attestNonce = none :=
  ⟨inService, .observer, List.replicate 32 5, by decide⟩

theorem witness_FusesAndEvidence_4 : ∃ (s : State) (n : Bytes), 
    s.keeper.attestNonce = some n ∧ keeperUp s = true :=
  ⟨{ inService with keeper := { inService.keeper with attestNonce := some [] } }, [], by decide⟩

theorem witness_FusesAndEvidence_5 : ∃ (s : State) (r : Role) (i : Byte) (d : Bytes), 
    Permitted r 0x010004 7 s ∧ d.length = 32 ∧ (i.toNat = 6 ∨ i.toNat = 7) :=
  ⟨inService, .admin, 6, List.replicate 32 1, by decide⟩

theorem witness_FusesAndEvidence_6 : ∃ (s : State) (k : Fin 8) (x : Session), 
    s.bop.sessions.get k.val = some x ∧ keeperUp s = true :=
  ⟨{ inService with bop := { inService.bop with sessions := ⟨none, [(0, some (newSession .admin [] 1024 0 0 0))]⟩ } }, 0, _, by exact ⟨rfl, by decide⟩⟩

theorem witness_Sessions_1 : ∃ (s0 s : State) (mp : Fin 2) (src : Nat) (d b : Bytes), 
    bopServes s0 = true ∧ mpBudget mp.val s0 = (true, s) ∧ bopShape d = true ∧ bopType d = 7 ∧ allZero (slice d 24 16) = true ∧ roleKey s 1 = none ∧ b = bopBody d ∧ b.length = 136 ∧ beAt b 0 8 = serial s ∧ allZero (slice b 8 32) = false :=
  ⟨inService, (mpBudget 0 inService).2, 0, 9, bopMessage State.reset 7 0xFF 0 0 0 0 [] (List.replicate 8 0 ++ List.replicate 128 1), _, by exact ⟨by decide, rfl, by decide, by decide, by decide, by decide, rfl, by decide, by decide +kernel, by decide⟩⟩

theorem witness_Sessions_2 : ∃ (s0 s u : State) (mp : Fin 2) (src k : Nat) (d b key : Bytes) (r : Role), 
    bopServes s0 = true ∧ mpBudget mp.val s0 = (true, s) ∧ bopShape d = true ∧ bopType d = 1 ∧ b = bopBody d ∧ b.length = 20 ∧ bopSerial d = serial s ∧ roleOfCode (byteAt b 0) = some r ∧ roleKey s (byteAt b 0) = some key ∧ tagGood key d = true ∧ 1024 ≤ beAt b 2 2 ∧ beAt b 2 2 ≤ 8192 ∧ takeNumber r s = some (k, u) :=
  ⟨withSession, (mpBudget 0 withSession).2, (mpBudget 0 withSession).2, 0, 9, 1, aMessage 1 0xFF 0 0 ([1, 0, 4, 0] ++ List.replicate 16 0), _, aKey, .admin, by exact ⟨by decide, rfl, by decide +kernel, by decide +kernel, rfl, by decide +kernel, by decide +kernel, by decide +kernel, by decide +kernel, by decide +kernel, by decide +kernel, by decide +kernel, by decide +kernel⟩⟩

theorem witness_Sessions_3 : ∃ (s0 s : State) (mp : Fin 2) (src : Nat) (d : Bytes) (x : Session), 
    bopServes s0 = true ∧ mpBudget mp.val s0 = (true, s) ∧ bopType d = 5 ∧ sessionOf s d = some x ∧ x.accepted = [] :=
  ⟨withSession, (mpBudget 0 withSession).2, 0, 0, aMessage 5 0 0 0 [], newSession .admin aKey 1024 0 0 0, by exact ⟨by decide, rfl, by decide +kernel, by decide +kernel, rfl⟩⟩

theorem witness_Sessions_4 : ∃ (s : State) (k : Fin 8) (x : Session), 
    s.bop.sessions.get k.val = some x ∧ keeperUp s = true ∧ x.lastAt + cfgSessionIdle s * 1000000000 ≤ wallNs s ∧ x.accepted = [] :=
  ⟨{ withSession with time := { withSession.time with wall4 := 4000000000000 } }, 0, newSession .admin aKey 1024 0 0 0, by exact ⟨rfl, by decide, by decide +kernel, rfl⟩⟩

theorem witness_Sessions_5 : ∃ (s : State) (r : Role) (k : Byte) (x : Session), 
    Permitted r 0x010010 8 s ∧ k.toNat < 8 ∧ s.bop.sessions.get k.toNat = some x ∧ x.accepted = [] :=
  ⟨withSession, .admin, 0, newSession .admin aKey 1024 0 0 0, by decide⟩

theorem witness_Sessions_6 : ∃ (s : State) (r : Role) (n : Nat) (key : Bytes), 
    Permitted r 0x010010 n s ∧ 1 ≤ n ∧ n ≤ 4 ∧ key.length ≤ 32 ∧ (n = 1 → allZero (padTo 32 key) = false) :=
  ⟨withSession, .admin, 1, aKey, by decide⟩

theorem witness_Sessions_7 : ∃ (s : State) (r : Role) (v : BitVec 16), 
    Permitted r 0x010010 5 s ∧ cfgDomainId s = 0xFFFF ∧ v.toNat ≠ 0xFFFF ∧ s.mgmt.mpUp = 3 :=
  ⟨{ withSession with mgmt := { withSession.mgmt with mpUp := 3 } }, .admin, 7, by decide⟩

theorem witness_Sessions_8 : ∃ (s : State) (r : Role) (v : BitVec 16), 
    Permitted r 0x010010 5 s ∧ cfgDomainId s ≠ 0xFFFF ∧ v.toNat = 0xFFFF ∧ s.mgmt.mpUp = 3 :=
  ⟨objSet 0x010010 5 7 { withSession with mgmt := { withSession.mgmt with mpUp := 3 } }, .admin, 0xFFFF, by decide⟩

theorem witness_Sessions_9 : ∃ (s0 s : State) (mp : Fin 2) (src : Nat) (d key : Bytes) (r : Role) (x : Session), 
    bopServes s0 = true ∧ mpBudget mp.val s0 = (true, s) ∧ bopShape d = true ∧ bopType d = 3 ∧ bit (bopFlags d) 2 = true ∧ bopSession d = 0xFF ∧ bopSerial d = 0 ∧ cfgDomainId s ≠ 0xFFFF ∧ bopDomain d = cfgDomainId s ∧ roleOfCode (bits (bopFlags d) 5 4 + 1) = some r ∧ roleKey s (bits (bopFlags d) 5 4 + 1) = some key ∧ tagGood key d = true ∧ sessGet s (8 + (bits (bopFlags d) 5 4 + 1)) = some x :=
  ⟨objSet 0x010010 5 7 { withSession with bop := { withSession.bop with domain := ⟨none, [(1, some (newSession .admin aKey 8192 0 0 0))]⟩ } }, (mpBudget 0 (objSet 0x010010 5 7 { withSession with bop := { withSession.bop with domain := ⟨none, [(1, some (newSession .admin aKey 8192 0 0 0))]⟩ } })).2, 0, 9, [1, 3, 0xFF, 4, 0, 0, 0, 0, 0, 0, 0, 0, 0, 0, 0, 0, 0, 0, 0, 0, 0, 0, 0, 7] ++ (hmac aKey [1, 3, 0xFF, 4, 0, 0, 0, 0, 0, 0, 0, 0, 0, 0, 0, 0, 0, 0, 0, 0, 0, 0, 0, 7]).take 16, aKey, .admin, newSession .admin aKey 8192 0 0 0, by exact ⟨by decide, rfl, by decide +kernel, by decide +kernel, by decide +kernel, by decide +kernel, by decide +kernel, by decide, by decide +kernel, by decide +kernel, by decide +kernel, by decide +kernel, by decide +kernel⟩⟩

theorem witness_Requests_1 : ∃ (s0 s : State) (mp : Fin 2) (src : Nat) (d : Bytes) (x : Session), 
    bopServes s0 = true ∧ mpBudget mp.val s0 = (true, s) ∧ s.bop.sessions.wf = true ∧ sessionOf s d = some x ∧ bopType d = 3 ∧ bit (bopFlags d) 2 = false ∧ bopFrags d = 0 ∧ bopFrag d = 0 ∧ s.start.state ≠ .halted ∧ x.partials = [] ∧ x.accepted.length < 256 ∧ (∀ p ∈ x.accepted, p.seq ≠ bopSeq d) ∧ (∀ p ∈ x.replies, p.1 ≠ bopSeq d) ∧ seqNew x (bopSeq d) = true :=
  ⟨withSession, (mpBudget 0 withSession).2, 0, 9, aMessage 3 0 0 1 (List.replicate 16 0), newSession .admin aKey 1024 0 0 0, by exact ⟨by decide, rfl, by decide +kernel, by decide +kernel, by decide +kernel, by decide +kernel, by decide +kernel, by decide +kernel, by decide, rfl, by decide, by decide, by decide, by decide +kernel⟩⟩

theorem witness_Requests_2 : ∃ (s0 s : State) (mp : Fin 2) (src : Nat) (d body : Bytes) (x : Session), 
    bopServes s0 = true ∧ mpBudget mp.val s0 = (true, s) ∧ s.bop.sessions.wf = true ∧ sessionOf s d = some x ∧ bopType d = 3 ∧ bopFlags d = 8 ∧ bopFrag d = 0 ∧ (x.replies.find? (fun r => r.1 = bopSeq d) = some (bopSeq d, body)) ∧ body.length ≤ x.maxFrag :=
  ⟨{ withSession with bop := { withSession.bop with sessions := ⟨none, [(0, some { newSession .admin aKey 1024 0 0 0 with replies := [(1, [3, 0, 0, 0])] })]⟩ } }, (mpBudget 0 { withSession with bop := { withSession.bop with sessions := ⟨none, [(0, some { newSession .admin aKey 1024 0 0 0 with replies := [(1, [3, 0, 0, 0])] })]⟩ } }).2, 0, 9, bopMessage State.reset 3 0 8 1 0 0 aKey [], [3, 0, 0, 0], { newSession .admin aKey 1024 0 0 0 with replies := [(1, [3, 0, 0, 0])] }, by exact ⟨by decide, rfl, by decide +kernel, by decide +kernel, by decide +kernel, by decide +kernel, by decide +kernel, by decide +kernel, by decide +kernel⟩⟩

theorem witness_Requests_3 : ∃ (s s' u : State) (k : Fin 8) (x y z : Session) (q : Request) (o : BopOp) (a : OpResult), 
    bopServes s = true ∧ closedOf s k.val = none ∧ nextTurnOf s = some k.val ∧ s.bop.sessions.get k.val = some x ∧ x.accepted = [q] ∧ x.run = none ∧ requestOps (requestBody q) = some [o] ∧ isRecords o = false ∧ settingOf o.index o.sub = false ∧ s' = { s with bop := { s.bop with turn := k.val, sessions := s.bop.sessions.set k.val (some { x with run := some { newRun q with left := [] } }) } } ∧ opRun x.role k.val o 65516 s' = (a, u) ∧ bopServes u = true ∧ u.bop.sessions.get k.val = some y ∧ y.closing = false ∧ y.accepted = [q] ∧ z = { y with run := none, accepted := [], replies := ((q.seq, [0, 0] ++ beBytes 2 1 ++ resultBytes o a) :: y.replies).take 256 } :=
  ⟨{ withSession with bop := { withSession.bop with sessions := ⟨none, [(0, some { newSession .admin aKey 1024 0 0 0 with accepted := [⟨1, 0, 0, [(0, [4] ++ List.replicate 15 0)], 0, 0, 9⟩] })]⟩ } }, _, _, 0, { newSession .admin aKey 1024 0 0 0 with accepted := [⟨1, 0, 0, [(0, [4] ++ List.replicate 15 0)], 0, 0, 9⟩] }, _, _, ⟨1, 0, 0, [(0, [4] ++ List.replicate 15 0)], 0, 0, 9⟩, { opcode := 4, index := 0, sub := 0, len := 0, arg := 0, value := [] }, _, by exact ⟨by decide, by decide, by decide +kernel, rfl, rfl, rfl, by decide +kernel, by decide, by decide, rfl, rfl, by decide +kernel, rfl, rfl, rfl, rfl⟩⟩

theorem witness_Requests_4 : ∃ (s s' : State) (n sk : Nat) (x : Session) (q : Request) (m : List Request) (o : BopOp) (r : Run) (l : List Bytes), 
    nextTurnOf s = some n ∧ sk = servedAs s n ∧ s' = { s with bop := { s.bop with turn := n } } ∧ sessGet s' sk = some x ∧ x.accepted = q :: m ∧ x.run = some r ∧ r.left = [o] ∧ isRecords o = true ∧ recordsOf o = some l ∧ 0 < r.taken ∧ r.taken + 64 < l.length ∧ bopServes (takeRecords o ((l.drop r.taken).take 64) (sessPut sk (some { x with run := some { r with left := [] } }) s')).2 = true :=
  ⟨{ withSession with bop := { withSession.bop with sessions := ⟨none, [(0, some { newSession .admin aKey 1024 0 0 0 with accepted := [⟨1, 0, 0, [], 0, 0, 9⟩], run := some { seq := 1, left := [{ opcode := 2, index := 0x0A0002, sub := 2, len := 260, arg := 0, value := List.replicate 260 0 }], total := 1, results := [], batch := [], marked := [], taken := 64, items := [], records := 130 } })]⟩ } }, _, 0, 0, { newSession .admin aKey 1024 0 0 0 with accepted := [⟨1, 0, 0, [], 0, 0, 9⟩], run := some { seq := 1, left := [{ opcode := 2, index := 0x0A0002, sub := 2, len := 260, arg := 0, value := List.replicate 260 0 }], total := 1, results := [], batch := [], marked := [], taken := 64, items := [], records := 130 } }, ⟨1, 0, 0, [], 0, 0, 9⟩, [], { opcode := 2, index := 0x0A0002, sub := 2, len := 260, arg := 0, value := List.replicate 260 0 }, { seq := 1, left := [{ opcode := 2, index := 0x0A0002, sub := 2, len := 260, arg := 0, value := List.replicate 260 0 }], total := 1, results := [], batch := [], marked := [], taken := 64, items := [], records := 130 }, _, by exact ⟨by decide +kernel, by decide +kernel, rfl, by decide +kernel, rfl, rfl, rfl, by decide +kernel, rfl, by decide, by decide +kernel, by decide +kernel⟩⟩

theorem witness_Requests_5 : ∃ (s : State), 
    (firstRequest s (servedAs s ((s.bop.turn + 1) % 12))).isSome = true :=
  ⟨{ withSession with bop := { withSession.bop with turn := 11, sessions := ⟨none, [(0, some { newSession .admin aKey 1024 0 0 0 with accepted := [⟨1, 0, 0, [(0, [4] ++ List.replicate 15 0)], 0, 0, 9⟩] })]⟩ } }, by decide⟩

theorem witness_Requests_6 : ∃ (s : State) (k : Fin 8) (x : Session), 
    s.bop.sessions.get k.val = some x ∧ keeperUp s = true :=
  ⟨withSession, 0, newSession .admin aKey 1024 0 0 0, by exact ⟨rfl, by decide⟩⟩

theorem witness_Requests_7 : ∃ (s : State) (r : Role) (i b : Nat) (v : Bytes), 
    keeperUp s = true ∧ writeStatus r i b v.length s = stDone :=
  ⟨withSession, .admin, 0x020004, 1, [80], by decide +kernel⟩

theorem witness_Requests_8 : ∃ (s : State) (r : Role) (i b n : Nat) (dflt : Nat) (lo hi : Int) (a : Access) (v : Bytes), 
    keeperUp s = true ∧ writeStatus r i b v.length s = stDone ∧ objOf i b = some ⟨a, .exactly n, some (dflt, lo, hi, false)⟩ ∧ plainRule i b (beNat v) s = true ∧ lo ≤ beNat v ∧ beNat v ≤ hi ∧ (i ≠ 0x0A0001 ∨ b ≠ 6) :=
  ⟨withSession, .admin, 0x020004, 1, 1, 100, 80, 105, .rw, [80], by decide +kernel⟩

theorem witness_Requests_9 : ∃ (s : State) (r : Role) (i b n : Nat) (dflt : Nat) (lo hi : Int) (a : Access) (v : Bytes), 
    keeperUp s = true ∧ writeStatus r i b v.length s = stDone ∧ objOf i b = some ⟨a, .exactly n, some (dflt, lo, hi, false)⟩ ∧ (beNat v < lo ∨ hi < beNat v) :=
  ⟨withSession, .admin, 0x020004, 1, 1, 100, 80, 105, .rw, [79], by decide +kernel⟩

theorem witness_Requests_10 : ∃ (s : State) (r : Role) (k : Fin 8) (x : Session) (m : Nat) (w : Option Word) (u : State), 
    s.bop.sessions.get k.val = some x ∧ keeperUp s = true ∧ rangeReady s 0x1F0001 = true ∧ roleMaster r = some m ∧ regReadAt m x.regAddr s = (w, u) :=
  ⟨withSession, .admin, 0, newSession .admin aKey 1024 0 0 0, 5, (regReadAt 5 0 withSession).1, _, by exact ⟨rfl, by decide, by decide, rfl, rfl⟩⟩

theorem witness_Requests_11 : ∃ (s : State) (k : Fin 8) (x : Session) (v : Word), 
    s.bop.sessions.get k.val = some x ∧ keeperUp s = true ∧ rangeReady s 0x1F0001 = true :=
  ⟨withSession, 0, newSession .admin aKey 1024 0 0 0, 0, by exact ⟨rfl, by decide, by decide⟩⟩

theorem witness_Requests_12 : ∃ (s : State) (r : Role) (k : Fin 8) (x : Session) (m n : Nat) (l : List Word) (e : Bool) (u : State), 
    s.bop.sessions.get k.val = some x ∧ keeperUp s = true ∧ rangeReady s 0x1F0001 = true ∧ roleMaster r = some m ∧ burstRead m x.regAddr (min 256 n) s = (l, e, u) :=
  ⟨withSession, .admin, 0, newSession .admin aKey 1024 0 0 0, 5, 0, [], false, _, by exact ⟨rfl, by decide, by decide, rfl, rfl⟩⟩

theorem witness_Requests_13 : ∃ (s : State) (k : Fin 8) (x : Session) (n m : Nat) (l : List Word) (e : Bool) (u : State), 
    s.bop.sessions.get k.val = some x ∧ keeperUp s = true ∧ rangeReady s 0x1F0001 = true ∧ burstWrite 5 x.regAddr (l.take 256) s = (m, e, u) :=
  ⟨withSession, 0, newSession .admin aKey 1024 0 0 0, 0, 0, [], false, _, by exact ⟨rfl, by decide, by decide, rfl⟩⟩

theorem witness_Foghorn_1 : ∃ (s : State) (e : EventArgs), 
    keeperUp s = true ∧ e.severity ≤ cfgFogSeverity s ∧ (findHoldoff e.code e.unit s.bop.holdoffs = none ∨ (∃ h, findHoldoff e.code e.unit s.bop.holdoffs = some h ∧ h.suppressed = 0 ∧ h.raisedAt + cfgFogHoldoff s * 1000000 ≤ nowNs s)) ∧ s.bop.ring.length < 1024 :=
  ⟨inService, { code := 0x1004, severity := 1, unit := 0, args := [] }, by exact ⟨by decide, by decide +kernel, .inl rfl, by decide⟩⟩

theorem witness_Foghorn_2 : ∃ (s : State) (e : EventArgs) (h : Holdoff), 
    keeperUp s = true ∧ e.severity ≤ cfgFogSeverity s ∧ findHoldoff e.code e.unit s.bop.holdoffs = some h ∧ nowNs s < h.raisedAt + cfgFogHoldoff s * 1000000 :=
  ⟨{ inService with bop := { inService.bop with holdoffs := [⟨0x1004, 0, 0, 0⟩] } }, { code := 0x1004, severity := 1, unit := 0, args := [] }, ⟨0x1004, 0, 0, 0⟩, by exact ⟨by decide, by decide +kernel, rfl, by decide +kernel⟩⟩

theorem witness_Foghorn_3 : ∃ (s : State) (c : Fin 4) (x : Collector) (l : List Event), 
    keeperUp s = true ∧ x = s.bop.collectors.get c.val ∧ x.state = 1 ∧ s.mgmt.mpUp.getLsbD (foghornPort s) = true ∧ l = eventsFrom s x.from_ ∧ ((l.all fun e => (x.sentEvent e).isNone) = true) ∧ l ≠ [] ∧ l.length ≤ 16 :=
  ⟨{ withSession with mgmt := { withSession.mgmt with mpUp := 3 }, bop := { withSession.bop with nextSeq := 8, ring := [⟨7, 0, 0x1004, 1, 0, 0, []⟩], collectors := ⟨Collector.reset, [(0, { Collector.reset with state := 1, address := [1], from_ := 7 })]⟩ } }, 0, { Collector.reset with state := 1, address := [1], from_ := 7 }, [⟨7, 0, 0x1004, 1, 0, 0, []⟩], by exact ⟨by decide, by decide, by decide, by decide +kernel, by decide, by decide +kernel, by decide, by decide⟩⟩

theorem witness_Foghorn_4 : ∃ (s : State) (c : Fin 4) (x : Collector) (l due : List Event), 
    keeperUp s = true ∧ x = s.bop.collectors.get c.val ∧ x.state = 1 ∧ s.mgmt.mpUp.getLsbD (foghornPort s) = true ∧ l = eventsFrom s x.from_ ∧ due = l.filter (x.due (wallNs s)) ∧ due ≠ [] ∧ due.length ≤ 16 :=
  ⟨{ withSession with time := { withSession.time with wall4 := 400000000 }, mgmt := { withSession.mgmt with mpUp := 3 }, bop := { withSession.bop with nextSeq := 8, ring := [⟨7, 0, 0x1004, 1, 0, 0, []⟩], collectors := ⟨Collector.reset, [(0, { Collector.reset with state := 1, address := [1], from_ := 7, sent := [⟨7, 0, 25⟩] })]⟩ } }, 0, { Collector.reset with state := 1, address := [1], from_ := 7, sent := [⟨7, 0, 25⟩] }, [⟨7, 0, 0x1004, 1, 0, 0, []⟩], [⟨7, 0, 0x1004, 1, 0, 0, []⟩], by exact ⟨by decide, by decide, by decide, by decide +kernel, by decide +kernel, by decide +kernel, by decide, by decide⟩⟩

theorem witness_Foghorn_5 : ∃ (s : State) (c : Fin 4) (d : Bytes) (x : Collector) (q : Nat), 
    keeperUp s = true ∧ x = s.bop.collectors.get c.val ∧ x.state ≠ 0 ∧ ackGood s c.val d = true ∧ q = beAt d 16 4 ∧ seqFrom x.from_ q = true ∧ seqFrom q (highestSeq s) = true ∧ q ≠ s.bop.nextSeq :=
  ⟨{ withSession with bop := { withSession.bop with nextSeq := 8, ring := [⟨7, 0, 0x1004, 1, 0, 0, []⟩], collectors := ⟨Collector.reset, [(0, { Collector.reset with state := 1, address := [1], from_ := 7, sent := [⟨7, 0, 25⟩] })]⟩, foghornKey := aKey } }, 0, [1, 3, 0, 0] ++ beBytes 8 0 ++ beBytes 4 0 ++ beBytes 4 7 ++ beBytes 4 0 ++ (hmac aKey ([1, 3, 0, 0] ++ beBytes 8 0 ++ beBytes 4 0 ++ beBytes 4 7 ++ beBytes 4 0)).take 16, { Collector.reset with state := 1, address := [1], from_ := 7, sent := [⟨7, 0, 25⟩] }, 7, by exact ⟨by decide, by decide, by decide, by decide +kernel, by decide +kernel, by decide, by decide, by decide⟩⟩

theorem witness_Foghorn_6 : ∃ (s : State) (c : Fin 4), 
    keeperUp s = true ∧ (s.bop.collectors.get c.val).state ≠ 0 ∧ s.mgmt.mpUp.getLsbD (foghornPort s) = true ∧ (s.bop.collectors.get c.val).heartbeatAt + cfgFogHeartbeat s * 1000000 ≤ wallNs s :=
  ⟨{ withSession with time := { withSession.time with wall4 := 400000000000000 }, mgmt := { withSession.mgmt with mpUp := 3 }, bop := { withSession.bop with collectors := ⟨Collector.reset, [(0, { Collector.reset with state := 2, address := [1] })]⟩ } }, 0, by decide +kernel⟩

theorem witness_Foghorn_7 : ∃ (s : State) (c : Fin 4), 
    keeperUp s = true ∧ (s.bop.collectors.get c.val).state = 1 ∧ (s.bop.collectors.get c.val).ackedAt + cfgFogStale s * 1000000000 ≤ wallNs s :=
  ⟨{ withSession with time := { withSession.time with wall4 := 400000000000000 }, bop := { withSession.bop with collectors := ⟨Collector.reset, [(0, { Collector.reset with state := 1, address := [1] })]⟩ } }, 0, by decide +kernel⟩

theorem witness_Foghorn_8 : ∃ (s : State) (r : Role) (c : Fin 4) (a : Bytes), 
    Permitted r (0x010030 + c.val) 1 s ∧ a.length ≤ 16 :=
  ⟨withSession, .admin, 0, List.replicate 16 1, by decide⟩

theorem witness_Foghorn_9 : ∃ (s : State) (r : Role) (key : Bytes), 
    Permitted r 0x010020 1 s ∧ key.length ≤ 32 :=
  ⟨withSession, .admin, aKey, by decide⟩

theorem witness_RegisterAccess_1 : ∃ (s : State) (m : Fin 16) (a v : Word), 
    addrAligned a = true ∧ addrDie a < 9 ∧ addrBlock a ≠ 0xFE ∧ addrBlock a ≠ 0xF8 ∧ Granted s m.val (addrDie a) (addrBlock a) (addrWord a) true :=
  ⟨inService, 0, 0x00400000#32, 5, by decide +kernel⟩

theorem witness_RegisterAccess_2 : ∃ (s : State) (m : Fin 16) (a v : Word), 
    addrAligned a = true ∧ addrDie a < 9 ∧ blockPlain (addrBlock a) = true ∧ Granted s m.val (addrDie a) (addrBlock a) (addrWord a) true :=
  ⟨inService, 0, 0x00400000#32, 5, by decide +kernel⟩

theorem witness_RegisterAccess_3 : ∃ (s : State) (m : Fin 16) (a v : Word), 
    addrAligned a = true ∧ addrDie a < 9 ∧ addrBlock a ≠ 0xFE ∧ accessCheck s m.val (addrDie a) (addrBlock a) (addrWord a) true = .denied :=
  ⟨inService, 6, 0x00400000#32, 5, by decide +kernel⟩

theorem witness_RegisterAccess_4 : ∃ (s : State) (m : Fin 16) (a v : Word), 
    addrAligned a = true ∧ addrDie a = 15 ∧ diesUp s ≠ [] ∧ clocksRun s = true ∧ addrBlock a ≠ 0x20 :=
  ⟨inService, 0, 0xF0400000#32, 5, by decide +kernel⟩

theorem witness_RegisterAccess_5 : ∃ (s : State) (m : Fin 16) (a : Word) (w : Option Word), 
    addrAligned a = true ∧ addrDie a < 8 ∧ blockAbsent s (addrDie a) (addrBlock a) = true ∧ dieAnswers s (addrDie a) = true ∧ blockListed (addrDie a) (addrBlock a) = true :=
  ⟨{ inService with start := { inService.start with partCode := 2 } }, 0, 0x00C00000#32, none, by decide +kernel⟩

theorem witness_RegisterAccess_6 : ∃ (s : State) (m : Fin 16) (die : AnyDie) (v : Word) (b : Mailbox) (u : State), 
    Granted s m.val die.val 0xF8 (0x20 * m.val + 1) true ∧ (u = onMailbox m.val die.val (fun b => { b with write := v.getLsbD 28, countM1 := bits v.toNat 3 0 }) s) ∧ b = u.regs.mailboxes.get (die.val * 16 + m.val) ∧ addrAligned b.addr = true ∧ (∀ i < b.countM1 + 1, mbWordCheck u m.val die.val (addrBlock b.addr) (addrWord b.addr + i) b.write = .granted) :=
  ⟨inService, 0, 3, 0, Mailbox.reset, onMailbox 0 3 (fun b => { b with write := false, countM1 := 0 }) inService, by exact ⟨by decide +kernel, rfl, by decide, by decide +kernel, by decide +kernel⟩⟩

theorem witness_RegisterAccess_7 : ∃ (s : State) (m : Fin 16) (die : AnyDie) (v : Word) (b : Mailbox) (u : State) (i : Nat), 
    Granted s m.val die.val 0xF8 (0x20 * m.val + 1) true ∧ (u = onMailbox m.val die.val (fun b => { b with write := v.getLsbD 28, countM1 := bits v.toNat 3 0 }) s) ∧ b = u.regs.mailboxes.get (die.val * 16 + m.val) ∧ addrAligned b.addr = true ∧ i ≤ b.countM1 ∧ (∀ j < i, mbWordCheck u m.val die.val (addrBlock b.addr) (addrWord b.addr + j) b.write = .granted) ∧ mbWordCheck u m.val die.val (addrBlock b.addr) (addrWord b.addr + i) b.write = .denied :=
  ⟨{ inService with regs := { inService.regs with mailboxes := ⟨Mailbox.reset, [(49, { Mailbox.reset with addr := 0x3F000000 })]⟩ } }, 1, 3, 0x10000000, { Mailbox.reset with addr := 0x3F000000, write := true }, onMailbox 1 3 (fun b => { b with write := true, countM1 := 0 }) { inService with regs := { inService.regs with mailboxes := ⟨Mailbox.reset, [(49, { Mailbox.reset with addr := 0x3F000000 })]⟩ } }, 0, by exact ⟨by decide +kernel, rfl, by decide, by decide +kernel, by decide +kernel, by decide +kernel, by decide +kernel⟩⟩

theorem witness_RegisterAccess_8 : ∃ (s : State) (m : Fin 16) (die : AnyDie) (w : BitVec 18) (x : Bool), 
    Granted s m.val die.val 0xFE w.toNat true ∧ Granted s m.val die.val (aliasBlock w.toNat) (aliasWord w.toNat) true ∧ bit (rwMask die.val (aliasBlock w.toNat) (aliasWord w.toNat)) (aliasBit w.toNat) = true ∧ aliasBlock w.toNat ≠ 0x20 :=
  ⟨inService, 0, 3, 0x4005, true, by decide +kernel⟩

theorem witness_RegisterAccess_9 : ∃ (s u v : State) (a : Word) (w : Option Word), 
    u = jtagMark false s ∧ regReadAt 10 a u = (w, v) :=
  ⟨inService, _, _, 0, _, by exact ⟨rfl, rfl⟩⟩

theorem witness_RegisterAccess_10 : ∃ (s u : State) (a v : Word), 
    u = jtagMark true s :=
  ⟨inService, _, 0, 0, by exact rfl⟩

theorem witness_RegisterAccess_11 : ∃ (s : State), 
    jtagAdmits s false = true ∧ s.start.state ≠ .frozen ∧ clocksRun s = true :=
  ⟨inService, by decide +kernel⟩

theorem witness_RegisterAccess_12 : ∃ (s : State) (die : AnyDie) (n : Byte) (a : Word), 
    s.start.state = .frozen ∧ jtagPolicy s < 2 :=
  ⟨{ inService with start := { inService.start with state := .frozen }, power := { inService.power with frozen := true } }, 3, 0, 0x30D00000, by decide +kernel⟩

theorem witness_RegisterAccess_13 : ∃ (s : State) (die : DieIx) (n : Byte) (a : Word) (off : Nat), 
    s.start.state = .frozen ∧ jtagPolicy s < 2 ∧ off = 4 * (n.toNat * 2 ^ 32 + a.toNat) ∧ dieUp s die.val = true ∧ off + 4 ≤ memTop s die.val ∧ memBad s (memAddr die.val off) 4 = false :=
  ⟨{ inService with start := { inService.start with state := .frozen }, power := { inService.power with frozen := true } }, 3, 0, 4, 16, by decide +kernel⟩

theorem witness_RegisterAccess_14 : ∃ (s : State) (die : AnyDie) (n : Byte) (a : Word), 
    s.start.state ≠ .off :=
  ⟨State.reset, 3, 0, 0, by decide +kernel⟩

theorem witness_RegisterAccess_15 : ∃ (s : State) (die : DieIx) (t : Nat), 
    s.ras.island.get die.val = some t ∧ t + 100000 ≤ wallNs s :=
  ⟨{ inService with ras := { inService.ras with island := ⟨none, [(3, some 0)]⟩ }, time := { inService.time with wall4 := 400000000 } }, 3, 0, by decide +kernel⟩

theorem witness_ConfigurationCrc_1 : ∃ (s : State) (m : Fin 16) (die : AnyDie), 
    Granted s m.val die.val 0x02 2 true ∧ s.regs.cfgRef.wf = true :=
  ⟨inService, 0, 3, by decide +kernel⟩

theorem witness_ConfigurationCrc_2 : ∃ (s : State) (m : Fin 16) (die : AnyDie) (v : Word), 
    Granted s m.val die.val 0x02 1 true ∧ s.regs.cfgRef.wf = true ∧ (s.regs.cfgMatch.get die.val = false ∨ v = cfgRun s die.val) :=
  ⟨inService, 0, 3, 5, by exact ⟨by decide +kernel, by decide, .inl (by decide)⟩⟩

theorem witness_ConfigurationCrc_3 : ∃ (s : State) (m : Fin 16) (die : AnyDie) (v : Word), 
    Granted s m.val die.val 0x02 1 true ∧ s.regs.cfgRef.wf = true ∧ s.regs.cfgMatch.get die.val = true ∧ v ≠ cfgRun s die.val :=
  ⟨{ inService with regs := { inService.regs with cfgMatch := ⟨false, [(3, true)]⟩ } }, 0, 3, cfgRun inService 3 + 1, by exact ⟨by decide +kernel, by decide, by decide, (fun x : Word => (by bv_omega : x + 1 ≠ x)) _⟩⟩

theorem witness_ConfigurationCrc_4 : ∃ (s : State) (die : AnyDie) (v : Word), 
    dieAnswers s die.val = true ∧ v ≠ cfgRun s die.val ∧ s.regs.cfgRun.wf = true :=
  ⟨inService, 3, cfgRun inService 3 + 1, by exact ⟨by decide, (fun x : Word => (by bv_omega : x + 1 ≠ x)) _, by decide⟩⟩

theorem witness_DmaEngines_1 : ∃ (s : State) (m : Fin 16) (e : AnyDie) (c : Fin 32) (v : Word), 
    Granted s m.val e.val 0x0E (0x103 + 16 * c.val) true :=
  ⟨inService, 0, 3, 0, 1, by decide +kernel⟩

theorem witness_DmaEngines_2 : ∃ (s : State) (m : Fin 16) (e : AnyDie) (c : Fin 32) (v : Word), 
    Granted s m.val e.val 0x0E (0x100 + 16 * c.val) true ∧ v.getLsbD 30 = false :=
  ⟨inService, 0, 3, 0, 0x80000004, by decide +kernel⟩

theorem witness_DmaEngines_3 : ∃ (s : State) (m : Fin 16) (e : AnyDie) (c : Fin 32), 
    Granted s m.val e.val 0x0E (0x100 + 16 * c.val) true :=
  ⟨inService, 0, 3, 0, by decide +kernel⟩

theorem witness_DmaEngines_4 : ∃ (s : State) (e : AnyDie) (c : Fin 32) (u : Option (Nat × Nat)) (x : Chan) (i a k : Nat) (d : Desc), 
    engineRuns s e.val = true ∧ (engineAt s e.val).halted = false ∧ (engineAt s e.val).halting = false ∧ x = chanAt s e.val c.val ∧ x.enable = true ∧ x.error = false ∧ x.flight = [] ∧ leftToFetch x ≠ 0 ∧ ringSound x ((x.head - x.tail).toNat) = true ∧ i = nextIndex x ∧ a = (x.base.toNat + 64 * (i % 2 ^ x.ringLog2)) % 2 ^ 64 ∧ a % 64 = 0 ∧ dmaUnit s e.val (chOwner s e.val c.val) a = .ok k ∧ memBad s k 64 = false ∧ d = descOf (memSeen s k 64) :=
  ⟨{ inService with mem := memPut [] (memAddr 3 0) ([2, 1, 0, 0, 64] ++ List.replicate 59 0), regs := { inService.regs with chans := ⟨Chan.reset, [(96, { Chan.reset with enable := true, ringLog2 := 4, base := 0x600000000000, head := 1 })]⟩ } }, 3, 0, none, { Chan.reset with enable := true, ringLog2 := 4, base := 0x600000000000, head := 1 }, 0, 0x600000000000, memAddr 3 0, _, by exact ⟨by decide, by decide, by decide, by decide, rfl, rfl, rfl, by decide, by decide, by decide, by decide, by decide, ok_of (by decide +kernel), by decide +kernel, rfl⟩⟩

theorem witness_DmaEngines_5 : ∃ (s : State) (e : AnyDie) (c : Fin 32) (g : Nat × Nat) (d : Desc) (j : Nat), 
    d.op = 2 ∧ d.aligned = true ∧ d.good e.val = true ∧ d.length = 64 ∧ dmaUnit s e.val (chOwner s e.val c.val) d.dst = .ok j :=
  ⟨{ inService with regs := { inService.regs with engines := inService.regs.engines.modify 3 fun e => { e with ksramHi := 131072 } } }, 3, 0, (96, 0), descOf ([2, 0, 0, 0, 64, 0, 0, 0] ++ List.replicate 8 0 ++ [0, 0, 0, 0, 0, 0, 0, 16] ++ List.replicate 40 0), _, by exact ⟨by decide, by decide, by decide +kernel, by decide, rfl⟩⟩

theorem witness_DmaEngines_6 : ∃ (s : State) (e : AnyDie) (c : Fin 32) (g : Nat × Nat) (d : Desc) (k j : Nat), 
    d.op = 1 ∧ d.aligned = true ∧ d.good e.val = true ∧ d.length = 64 ∧ dmaUnit s e.val (chOwner s e.val c.val) d.src = .ok k ∧ dmaUnit s e.val (chOwner s e.val c.val) d.dst = .ok j :=
  ⟨{ inService with regs := { inService.regs with engines := inService.regs.engines.modify 3 fun e => { e with ksramHi := 131072 } } }, 3, 0, (96, 0), descOf ([1, 0, 0, 0, 64, 0, 0, 0] ++ [64, 0, 0, 0, 0, 0, 0, 16] ++ [0, 0, 0, 0, 0, 0, 0, 16] ++ List.replicate 40 0), _, _, by exact ⟨by decide, by decide, by decide +kernel, by decide, rfl, rfl⟩⟩

theorem witness_DmaEngines_7 : ∃ (s : State) (e : AnyDie) (c : Fin 32) (f : Flight) (l : List Flight) (k : Nat) (m : List Host.Cell), 
    (chanAt s e.val c.val).flight = f :: l ∧ engineRuns s e.val = true ∧ f.outcome ≠ 0 ∧ dmaUnit s e.val (chOwner s e.val c.val) (f.address / 64 * 64) = .ok k ∧ m = memPut s.mem (k + f.address % 64 + 56) [BitVec.ofNat 8 f.outcome] :=
  ⟨{ inService with regs := { inService.regs with chans := ⟨Chan.reset, [(96, { Chan.reset with flight := [⟨0, 0x600000000000, true, 1, some 0⟩] })]⟩ } }, 3, 0, ⟨0, 0x600000000000, true, 1, some 0⟩, [], memAddr 3 0, _, by exact ⟨by decide, by decide, by decide, ok_of (by decide +kernel), rfl⟩⟩

theorem witness_DmaEngines_8 : ∃ (s : State) (e : AnyDie), 
    engineRuns s e.val = true ∧ (engineAt s e.val).halting = true ∧ (∀ c : Fin 32, (chanAt s e.val c.val).flight = []) :=
  ⟨{ inService with regs := { inService.regs with engines := inService.regs.engines.modify 3 fun e => { e with halting := true } } }, 3, by decide⟩

theorem witness_DmaEngines_9 : ∃ (s : State) (m : Fin 16) (e : AnyDie), 
    Granted s m.val e.val 0x0E 3 true ∧ (engineAt s e.val).halted = true :=
  ⟨{ inService with regs := { inService.regs with engines := inService.regs.engines.modify 3 fun e => { e with halted := true } } }, 0, 3, by decide +kernel⟩

theorem witness_DmaEngines_10 : ∃ (s : State) (r : Role) (m : Fin 16) (e : AnyDie), 
    Permitted r 0x0E0002 (e.val + 1) s ∧ (engineAt s e.val).halted = true :=
  ⟨{ inService with regs := { inService.regs with engines := inService.regs.engines.modify 3 fun e => { e with halted := true } } }, .operator, 0, 3, by decide +kernel⟩

theorem witness_SilentErrors_1 : ∃ (s : State) (die : DieIx) (ch : Fin 24) (g n : Nat) (h : Nat), 
    dieUp s die.val = true ∧ clocksRun s = true ∧ granuleChannel s die.val g = ch.val ∧ g * 256 < memTop s die.val ∧ h = nowNs s / hourNs ∧ s.ras.ceHourStart.get (ceKey die.val ch.val) = h ∧ s.ras.scrubNext.get die.val ≠ g ∧ 1 ≤ n ∧ n ≤ 3 :=
  ⟨{ inService with ras := { inService.ras with ceHour := ⟨0, [(75, 2)]⟩, ceHourStart := ⟨0, [(75, 0)]⟩ } }, 3, 3, 3, 3, 0, by decide +kernel⟩

theorem witness_SilentErrors_2 : ∃ (s : State) (die : DieIx) (ch : Fin 24) (g n : Nat), 
    dieUp s die.val = true ∧ clocksRun s = true ∧ granuleChannel s die.val g = ch.val ∧ g * 256 < memTop s die.val ∧ s.ras.scrubNext.get die.val ≠ g ∧ (n = 4 ∨ n = 5) :=
  ⟨inService, 3, 3, 3, 4, by decide +kernel⟩

theorem witness_SilentErrors_3 : ∃ (s : State) (die : DieIx) (ch : Fin 24) (g : Nat), 
    dieUp s die.val = true ∧ clocksRun s = true ∧ granuleChannel s die.val g = ch.val ∧ s.ras.scrubNext.get die.val = g ∧ (g + 1) * 256 < memTop s die.val :=
  ⟨inService, 3, 0, 0, by decide +kernel⟩

theorem witness_SilentErrors_4 : ∃ (s : State) (die : DieIx) (ce ue a w : Nat), 
    dieUp s die.val = true ∧ clocksRun s = true :=
  ⟨inService, 3, 1, 0, 0, 0, by decide +kernel⟩

theorem witness_SilentErrors_5 : ∃ (s : State) (die : DieIx), 
    dieUp s die.val = true ∧ clocksRun s = true ∧ s.ras.scrubSent.get die.val = false ∧ s.ras.scrubStart.get die.val + 2 * cfgScrubPeriod s * hourNs ≤ nowNs s :=
  ⟨{ inService with time := { inService.time with queue4 := 691200000000000 } }, 3, by decide +kernel⟩

theorem witness_SilentErrors_6 : ∃ (s : State) (die : DieIx) (ch : Fin 24) (n : Nat), 
    dieUp s die.val = true ∧ clocksRun s = true ∧ channelUp s die.val ch.val = true ∧ s.ras.ceHourStart.get (ceKey die.val ch.val) = nowNs s / hourNs ∧ s.ras.ceSent.get (ceKey die.val ch.val) = false ∧ n = s.ras.ceHour.get (ceKey die.val ch.val) ∧ cfgMemCeLimit s < n :=
  ⟨{ inService with ras := { inService.ras with ceHour := ⟨0, [(75, 1000000)]⟩ } }, 3, 3, 1000000, by decide +kernel⟩

theorem witness_SilentErrors_7 : ∃ (s : State) (die : DieIx) (ch : Fin 24) (g : Nat), 
    dieUp s die.val = true ∧ clocksRun s = true ∧ granuleChannel s die.val g = ch.val ∧ g * 256 < memTop s die.val ∧ memAddr die.val (g * 256) / 256 ∉ s.ras.poisoned :=
  ⟨inService, 3, 5, 5, by decide +kernel⟩

theorem witness_SilentErrors_8 : ∃ (s y : State) (die : DieIx) (tile : TileIx) (row : Fin 8) (pos : Fin 17) (op : Nat), 
    dieUp s die.val = true ∧ clocksRun s = true ∧ tileUp s die.val tile.val = true ∧ testable s die.val tile.val row.val pos.val = true ∧ tilelessDies s = [] ∧ y = { s with ras := { s.ras with lastGood := s.ras.lastGood.set (tileKey die.val tile.val) (row.val * 32 + pos.val + 1), testedCells := s.ras.testedCells.modify (tileKey die.val tile.val) (Nat.lor · (2 ^ (17 * row.val + pos.val))) } } :=
  ⟨inService, _, 3, 1, 2, 5, 0, by exact ⟨by decide, by decide, by decide, by decide, by decide +kernel, rfl⟩⟩

theorem witness_SilentErrors_9 : ∃ (s y : State) (die : DieIx) (tile : TileIx) (row : Fin 8) (pos : Fin 17) (op : Nat), 
    dieUp s die.val = true ∧ clocksRun s = true ∧ tileUp s die.val tile.val = true ∧ testable s die.val tile.val row.val pos.val = false ∧ tilelessDies s = [] ∧ y = { s with ras := { s.ras with testedCells := s.ras.testedCells.modify (tileKey die.val tile.val) (Nat.lor · (2 ^ (17 * row.val + pos.val))) } } ∧ allTested y die.val tile.val = true :=
  ⟨{ inService with fabric := { Fabric.reset with spareBad := ⟨false, [(rowKey 3 1 7, true)]⟩ }, ras := { inService.ras with testedCells := ⟨0, [(tileKey 3 1, 2 ^ 135 - 1)]⟩ } }, _, 3, 1, 7, 16, 0, by exact ⟨by decide, by decide, by decide, by decide, by decide +kernel, rfl, by decide +kernel⟩⟩

theorem witness_SilentErrors_10 : ∃ (s t y : State) (die : DieIx) (tile : TileIx) (row : Fin 8) (pos : Fin 17) (op : Nat) (store : Bool), 
    dieUp s die.val = true ∧ clocksRun s = true ∧ tileUp s die.val tile.val = true ∧ testable s die.val tile.val row.val pos.val = true ∧ t = cellFails die.val tile.val row.val pos.val op s ∧ y = { t with ras := { t.ras with testedCells := t.ras.testedCells.modify (tileKey die.val tile.val) (Nat.lor · (2 ^ (17 * row.val + pos.val))) } } :=
  ⟨inService, _, _, 3, 1, 2, 5, 0, false, by exact ⟨by decide, by decide, by decide, by decide, rfl, rfl⟩⟩

theorem witness_SilentErrors_11 : ∃ (s t : State) (die : DieIx) (tile : TileIx) (row : Fin 8) (pos : Fin 17) (op : Nat) (store : Bool), 
    dieUp s die.val = true ∧ clocksRun s = true ∧ tileUp s die.val tile.val = true ∧ testable s die.val tile.val row.val pos.val = true ∧ t = tileLost die.val tile.val 5 s :=
  ⟨inService, _, 3, 1, 2, 5, 0, false, by exact ⟨by decide, by decide, by decide, by decide, rfl⟩⟩

theorem witness_SilentErrors_12 : ∃ (s : State) (die : DieIx) (tile : TileIx), 
    dieUp s die.val = true ∧ clocksRun s = true ∧ tileUp s die.val tile.val = true ∧ (∀ t, s.ras.transientAt.get (tileKey die.val tile.val) = some t → t + hourNs ≤ nowNs s) :=
  ⟨inService, 3, 1, by exact ⟨by decide, by decide, by decide, by intro t h; cases h⟩⟩

theorem witness_SilentErrors_13 : ∃ (s : State) (die : DieIx) (tile : TileIx) (t : Nat), 
    dieUp s die.val = true ∧ clocksRun s = true ∧ tileUp s die.val tile.val = true ∧ s.ras.transientAt.get (tileKey die.val tile.val) = some t ∧ nowNs s < t + hourNs :=
  ⟨{ inService with ras := { inService.ras with transientAt := ⟨none, [(tileKey 3 1, some 0)]⟩ } }, 3, 1, 0, by decide +kernel⟩

theorem witness_SilentErrors_14 : ∃ (s : State) (d : DieIx), 
    clocksRun s = true ∧ isS s = false ∧ diesUp s = [d.val] ∧ tileUp s d.val 1 = true ∧ (∀ t, t < 8 → t ≠ 1 → tileUp s d.val t = false) :=
  ⟨{ inService with start := { inService.start with sectorDies := 8, aihornTiles := 2 ^ 25 } }, 3, by decide +kernel⟩

theorem witness_SilentErrors_15 : ∃ (s : State) (r : Role) (ev i : BitVec 16) (die fl : Byte), 
    Permitted r 0x10F002 1 s ∧ counterHeld s die.toNat ev.toNat i.toNat = true :=
  ⟨inService, .operator, 0xE000, 0, 3, 1, by decide +kernel⟩

end Sys2Proof.Tests
end

section
/-! The element values of MXFP4, TERN2 and SIGN1 (06 R194, R195): a scale of one changes no value, the sign is the top bit of an
FP32 word, and a NaN element stays NaN whatever its scale. -/

namespace Sys2Proof.Machine

/-- A factor of one leaves every value as it is, the sign of zero included. -/
@[simp] theorem FVal.mul_unit (a : FVal) : a.mul (.fin false 1 0) = a := by
  cases a <;> simp [FVal.mul]

@[simp] theorem FVal.nan_mul (b : FVal) : FVal.nan.mul b = .nan := rfl

@[simp] theorem enc32_nan : enc32 .nan = nan32 := rfl

/-- Negating a magnitude sets the top bit of its encoding. -/
theorem enc32_fin_neg (m : Nat) (e : Int) : enc32 (.fin true m e) = enc32 (.fin false m e) + 0x80000000 := by
  simp [enc32, encodeIeee, BitVec.ofNat_add, BitVec.add_comm]

theorem enc32_one : enc32 (.fin false 1 0) = 0x3F800000 := by decide

theorem enc32_neg_one : enc32 (.fin true 1 0) = 0xBF800000 := by
  rw [enc32_fin_neg, enc32_one]
  rfl

/-- The scale byte 127 is a scale of one (06 R192). -/
theorem decodeElem_scale_one (f v : Nat) : decodeElem f 127 v = enc32 (elemValue f v) := by
  simp [decodeElem]

/-- A NaN element is NaN under every scale byte, 0xFF included. -/
theorem decodeElem_of_nan {f v : Nat} (h : elemValue f v = .nan) (x : Nat) : decodeElem f x v = nan32 := by
  unfold decodeElem
  split
  · rfl
  · simp [h]

theorem dec32_nan32 : dec32 nan32 = .nan := by decide

/-- Bit 3 of an MXFP4 element is its sign (06 R194). -/
theorem elemValue_mxfp4_sign (v : Fin 8) :
    ∃ m e, elemValue 0x14 v.val = .fin false m e ∧ elemValue 0x14 (v.val + 8) = .fin true m e := by
  fin_cases v <;> exact ⟨_, _, rfl, rfl⟩

/-- The table of magnitudes of R194, as FP32. -/
theorem enc32_mxfp4_magnitude (v : Fin 8) : enc32 (elemValue 0x14 v.val) =
    ([0, 0x3F000000, 0x3F800000, 0x3FC00000, 0x40000000, 0x40400000, 0x40800000, 0x40C00000] : List Word).getD v.val 0 := by
  revert v
  decide

/-- Settles O11: under a scale of one an element decodes to its own value, so R194 is its table and its sign bit, and R195 is
zero, one and minus one; the NaN of TERN2 needs no scale. -/
theorem narrowElementValues : Obligations.NarrowElementValues := by
  unfold Obligations.NarrowElementValues
  simp only [decodeElem_scale_one]
  refine ⟨enc32_mxfp4_magnitude, fun v => ?mxfp4Sign, rfl, rfl, enc32_one, enc32_neg_one, fun x => ?tern2Nan, rfl, enc32_one,
    enc32_neg_one⟩
  case mxfp4Sign =>
    obtain ⟨m, e, hPos, hNeg⟩ := elemValue_mxfp4_sign v
    rw [hPos, hNeg, enc32_fin_neg]
  case tern2Nan =>
    rw [decodeElem_of_nan rfl, dec32_nan32]
    rfl

end Sys2Proof.Machine
end

section
/-! Where the blocks of a region lie (08 R270): the list of its dies, the primary copy of a block and its mirror copy. -/

namespace Sys2Proof.Machine

theorem mem_upTo {i n : Nat} : i ∈ upTo n ↔ i < n := List.mem_range

theorem upTo_pairwise_lt (n : Nat) : (upTo n).Pairwise (· < ·) := List.pairwise_lt_range

theorem Region.mem_dies (r : Region) (d : Nat) : d ∈ r.dies ↔ d < 8 ∧ r.dieMask.getLsbD d = true := by
  rw [Region.dies, List.mem_filter, mem_upTo]

theorem Region.dies_pairwise_lt (r : Region) : r.dies.Pairwise (· < ·) := (upTo_pairwise_lt 8).filter _

theorem Region.copyDie_primary (r : Region) (b : Nat) : r.copyDie b 0 = r.dieOf b := rfl

theorem Region.copyDie_mirror (r : Region) (b : Nat) : r.copyDie b 1 = partner (r.dieOf b) := rfl

/-- A region with a die has one at the place b mod n, so the default of `dieOf` is never read. -/
theorem Region.dies_getElem?_mod_length {r : Region} (h : r.dies ≠ []) (b : Nat) :
    r.dies[b % r.dies.length]? = some (r.dieOf b) := by
  have hPlace : b % r.dies.length < r.dies.length := Nat.mod_lt b (List.length_pos_of_ne_nil h)
  rw [Region.dieOf, List.getD_eq_getElem _ _ hPlace, List.getElem?_eq_getElem hPlace]

/-- Settles O10: D is the mask's dies filtered from an ascending list, the primary copy lies on the die at the place b mod n of
it, and the mirror copy on the partner of that die. -/
theorem blockPlacement : Obligations.BlockPlacement := by
  unfold Obligations.BlockPlacement
  refine fun r => ⟨r.mem_dies, r.dies_pairwise_lt, fun b hDies => ⟨?primaryDie, ?blockNumber, fun _ => ?mirrorDie⟩⟩
  case primaryDie => rw [Region.dies_getElem?_mod_length hDies, Region.copyDie_primary]
  case blockNumber => rw [Region.indexOf]
  case mirrorDie => rw [Region.copyDie_mirror, Region.copyDie_primary, partner]

end Sys2Proof.Machine
end

section
/-! Admission to service (15 R457): the order of the checks on a write of an object (16 R482), and what SERVICE_ENTER does in each
state for each role. -/

namespace Sys2Proof.Machine

theorem isUp_iff (s : State) :
    isUp s = true ↔ s.start.state = .linkUp ∨ s.start.state = .service ∨ s.start.state = .degraded := by
  unfold isUp
  cases s.start.state <;> decide

/-- R482: a write that passes the checks is the object's own effect. -/
theorem guardWrite_of_done {r : Role} {i b : Nat} {k : State → State} {s : State} (hKeeper : keeperUp s = true)
    (hCheck : writeCheck r i b s = stDone) : guardWrite r i b k s = k s := by
  simp [guardWrite, hKeeper, hCheck]

/-- R482: a write that fails the checks has no effect but its answer. -/
theorem guardWrite_of_ne_done {r : Role} {i b : Nat} {k : State → State} {s : State} (hKeeper : keeperUp s = true)
    (hCheck : writeCheck r i b s ≠ stDone) : guardWrite r i b k s = answer (writeCheck r i b s) s := by
  simp [guardWrite, hKeeper, hCheck]

/-- R450: from LINK_UP on every range of objects is open. -/
theorem rangeReady_of_isUp {s : State} (hUp : isUp s = true) (i : Nat) : rangeReady s i = true := by
  unfold rangeReady
  obtain h | h | h := (isUp_iff s).mp hUp <;> rw [h]

/-- R457: SERVICE_ENTER takes writes where its range is open, and not before LINK_UP. -/
theorem writeReady_serviceEnter (s : State) :
    writeReady s 0x000002 4 = (rangeReady s 0x000002 && decide (stateCode .linkUp ≤ stateCode s.start.state)) := by
  have hCode : stateCode .linkUp = 8 := rfl
  by_cases hBefore : stateCode s.start.state < 8
  · simp [writeReady, hCode, hBefore]
  · simp [writeReady, objReady, hCode, hBefore, Nat.not_lt.mp hBefore]

/-- The check of a write of SERVICE_ENTER (R482, R483): NOT_READY comes before DENIED (log 146). -/
theorem writeCheck_serviceEnter (r : Role) (s : State) : writeCheck r 0x000002 4 s =
    if writeReady s 0x000002 4 then if r = .admin ∨ r = .operator then stDone else stDenied else stNotReady := by
  by_cases hReady : writeReady s 0x000002 4 = true
  · cases r <;> simp [writeCheck, hReady, roleWrites, adminOnly, anyRole]
  · simp [writeCheck, hReady]

theorem writeCheck_serviceEnter_of_lt_linkUp (r : Role) {s : State} (hBefore : stateCode s.start.state < stateCode .linkUp) :
    writeCheck r 0x000002 4 s = stNotReady := by
  simp [writeCheck_serviceEnter, writeReady_serviceEnter, hBefore]

theorem writeCheck_serviceEnter_of_isUp (r : Role) {s : State} (hUp : isUp s = true) :
    writeCheck r 0x000002 4 s = if r = .admin ∨ r = .operator then stDone else stDenied := by
  have hFrom : stateCode .linkUp ≤ stateCode s.start.state := by
    obtain h | h | h := (isUp_iff s).mp hUp <;> rw [h] <;> decide
  simp [writeCheck_serviceEnter, writeReady_serviceEnter, rangeReady_of_isUp hUp, hFrom]

/-- The first acceptance (R457). -/
theorem serviceEnter_of_not_asked {s : State} (hState : s.start.state = .linkUp ∨ s.start.state = .degraded)
    (hFirst : s.start.serviceAsked = false) :
    serviceEnter s = answer stDone { s with start := { s.start with serviceAsked := true } } := by
  obtain h | h := hState <;> simp [serviceEnter, hFirst, h, State.onStart]

/-- A write after the first acceptance (R457). -/
theorem serviceEnter_of_asked {s : State} (hAsked : s.start.serviceAsked = true) : serviceEnter s = answer stDone s := by
  simp [serviceEnter, hAsked]

theorem exec_serviceEnter_of_done {r : Role} {s : State} (hKeeper : keeperUp s = true)
    (hCheck : writeCheck r 0x000002 4 s = stDone) : exec (.serviceEnter r) s = .next (serviceEnter s) :=
  congrArg Host.Outcome.next (guardWrite_of_done hKeeper hCheck)

theorem exec_serviceEnter_of_ne_done {r : Role} {s : State} (hKeeper : keeperUp s = true)
    (hCheck : writeCheck r 0x000002 4 s ≠ stDone) :
    exec (.serviceEnter r) s = .next (answer (writeCheck r 0x000002 4 s) s) :=
  congrArg Host.Outcome.next (guardWrite_of_ne_done hKeeper hCheck)

/-- Settles O9: before LINK_UP the check of R482 answers NOT_READY, from LINK_UP on it passes ADMIN and OPERATOR alone, and a write
that passes is the first acceptance or has no effect but DONE. -/
theorem serviceIsAcceptedOnce : Obligations.ServiceIsAcceptedOnce := by
  unfold Obligations.ServiceIsAcceptedOnce
  refine ⟨fun s r hKeeper hRole hState hFirst => ?accepted, fun s r hKeeper hBefore => ?notReady,
    fun s r hKeeper hUp hRole => ?denied, fun s r hKeeper hUp hRole hAsked => ?repeated⟩
  case accepted =>
    have hUp : isUp s = true := (isUp_iff s).mpr (hState.imp_right .inr)
    have hCheck : writeCheck r 0x000002 4 s = stDone := by rw [writeCheck_serviceEnter_of_isUp r hUp, if_pos hRole]
    rw [exec_serviceEnter_of_done hKeeper hCheck, serviceEnter_of_not_asked hState hFirst]
  case notReady =>
    have hCheck : writeCheck r 0x000002 4 s = stNotReady := writeCheck_serviceEnter_of_lt_linkUp r hBefore
    rw [exec_serviceEnter_of_ne_done hKeeper (by rw [hCheck]; decide), hCheck]
  case denied =>
    have hOther : ¬(r = .admin ∨ r = .operator) := by obtain rfl | rfl := hRole <;> decide
    have hCheck : writeCheck r 0x000002 4 s = stDenied := by rw [writeCheck_serviceEnter_of_isUp r hUp, if_neg hOther]
    rw [exec_serviceEnter_of_ne_done hKeeper (by rw [hCheck]; decide), hCheck]
  case repeated =>
    have hCheck : writeCheck r 0x000002 4 s = stDone := by rw [writeCheck_serviceEnter_of_isUp r hUp, if_pos hRole]
    rw [exec_serviceEnter_of_done hKeeper hCheck, serviceEnter_of_asked hAsked]

end Sys2Proof.Machine
end

section
/-! Which parts of the state each command changes (obligations O12 to O19). A list of parts is read as a mask of `State.hide`; each
command's meaning is then followed through its guard to the frame lemma of the operation it calls. -/


namespace Sys2Proof.Machine

/-- The bit of `State.hide` that names a part. -/
def partBit : Part → Nat
  | .power => 0 | .time => 1 | .start => 2 | .keeper => 3 | .tables => 4 | .switch => 5 | .flow => 6 | .coll => 7
  | .fabric => 8 | .resident => 9 | .optics => 10 | .express => 11 | .mgmt => 12 | .bop => 13 | .regs => 14
  | .ras => 15 | .mem => 16 | .obj => 17 | .out => 18 | .free => 19 | .pending => 20

/-- A part that `State.hide` leaves in place is the same in two states equal under the mask. -/
theorem Part.same_of_hide {m : Nat} {s t : State} (h : t.hide m = s.hide m) (p : Part) (hp : m.testBit (partBit p) = false) :
    p.same s t := by
  cases p
  case power => exact State.hide_power h hp
  case time => exact State.hide_time h hp
  case start => exact State.hide_start h hp
  case keeper => exact State.hide_keeper h hp
  case tables => exact State.hide_tables h hp
  case switch => exact State.hide_switch h hp
  case flow => exact State.hide_flow h hp
  case coll => exact State.hide_coll h hp
  case fabric => exact State.hide_fabric h hp
  case resident => exact State.hide_resident h hp
  case optics => exact State.hide_optics h hp
  case express => exact State.hide_express h hp
  case mgmt => exact State.hide_mgmt h hp
  case bop => exact State.hide_bop h hp
  case regs => exact State.hide_regs h hp
  case ras => exact State.hide_ras h hp
  case mem => exact State.hide_mem h hp
  case obj => exact State.hide_obj h hp
  case out => exact State.hide_out h hp
  case free => exact ⟨State.hide_free h hp, State.hide_gens h hp⟩
  case pending => exact State.hide_pending h hp

/-- The mask that names the parts of a list. -/
def maskOf (l : List Part) : Nat := l.foldl (fun m p => m ||| 2 ^ partBit p) 0

theorem partBit_inj (q p : Part) : partBit q = partBit p ↔ p = q := by
  constructor
  · cases q <;> cases p <;> simp [partBit]
  · rintro rfl
    rfl

theorem testBit_foldl_partBit (p : Part) (l : List Part) (m : Nat) :
    (l.foldl (fun m q => m ||| 2 ^ partBit q) m).testBit (partBit p) = (m.testBit (partBit p) || decide (p ∈ l)) := by
  induction l generalizing m with
  | nil => simp
  | cons q l ih =>
    have hInj : partBit q = partBit p ↔ p = q := partBit_inj q p
    simp [ih, Nat.testBit_two_pow, hInj, Bool.or_assoc]

theorem testBit_maskOf_of_notMem {p : Part} {l : List Part} (h : p ∉ l) : (maskOf l).testBit (partBit p) = false := by
  rw [maskOf, testBit_foldl_partBit]
  simp [h]

/-- A command whose next state is equal to the old one under the mask of a list changes the parts of the list only. -/
theorem onlyChanges_of_hide {l : List Part} {s t u : State} (hStep : Host.Outcome.next u = (.next t : Host.Outcome State Fault Refusal))
    (hFrame : u.hide (maskOf l) = s.hide (maskOf l)) : OnlyChanges l s t := by
  cases hStep
  exact fun p hp => Part.same_of_hide hFrame p (testBit_maskOf_of_notMem hp)


@[simp] theorem State.hide_ite {M : Nat} (p : Prop) [Decidable p] (s t : State) :
    (if p then s else t).hide M = if p then s.hide M else t.hide M := apply_ite (State.hide M) p s t

theorem onlyChanges_of_power {c : Instr} {s t : State} (hFamily : family c = .power) (hStep : exec c s = .next t) :
    OnlyChanges (touches c) s t := by
  cases c <;> cases hFamily <;> refine onlyChanges_of_hide hStep ?_ <;> simp only [touches, maskOf, partBit, List.foldl]
  all_goals simp

theorem onlyChanges_of_startUp {c : Instr} {s t : State} (hFamily : family c = .startUp) (hStep : exec c s = .next t) :
    OnlyChanges (touches c) s t := by
  cases c <;> cases hFamily <;> refine onlyChanges_of_hide hStep ?_ <;> simp only [touches, maskOf, partBit, List.foldl]
  all_goals simp

theorem onlyChanges_of_time {c : Instr} {s t : State} (hFamily : family c = .time) (hStep : exec c s = .next t) :
    OnlyChanges (touches c) s t := by
  cases c <;> cases hFamily <;> refine onlyChanges_of_hide hStep ?_ <;> simp only [touches, maskOf, partBit, List.foldl]
  all_goals simp

theorem onlyChanges_of_tables {c : Instr} {s t : State} (hFamily : family c = .tables) (hStep : exec c s = .next t) :
    OnlyChanges (touches c) s t := by
  cases c <;> cases hFamily <;> refine onlyChanges_of_hide hStep ?_ <;> simp only [touches, maskOf, partBit, List.foldl]
  case digestCompare =>
    split
    · refine (State.hide_foldl (fun s t => digestCheck_frame (by decide) _ t s) _ _).trans ?_
      simp
    · rfl
  case sweeperVisit =>
    split
    · exact State.hide_foldl (fun s p => sweepEntry_frame (by decide) _ p s) _ _
    · rfl
  case learnRecordApply =>
    (repeat' split) <;> simp
  all_goals simp

theorem onlyChanges_of_switching {c : Instr} {s t : State} (hFamily : family c = .switching) (hStep : exec c s = .next t) :
    OnlyChanges (touches c) s t := by
  cases c <;> cases hFamily <;> refine onlyChanges_of_hide hStep ?_ <;> simp only [touches, maskOf, partBit, List.foldl]
  case ageHeadExamine =>
    split
    · rfl
    split
    · refine (State.hide_foldl (fun s f => ?_) _ _).trans (serveHeld_frame (by decide) ..)
      simp
    · exact State.hide_foldl (fun s h => ageDiscard_frame (by decide) _ h true s) _ _
    · split
      · rfl
      · exact State.hide_foldl (fun s h => ageDiscard_frame (by decide) _ h _ s) _ _
  case wheelSlotRelease =>
    split
    · rfl
    refine (State.hide_foldl (fun s x => by simp) _ _).trans ?_
    split <;> simp
  case closeApply | contextReadback | creditReturn | creditWatchExpire | creditWordSend | egressUnderrun |
      meshCellReceive | pauseExpire | pauseRecoverEnd | pauseWatchTrip | pfcRepeat | reasmTimeout | reseqPass | reseqSkip
      | schedulerDecision | spreaderSendCell =>
    (repeat' split) <;> simp
  all_goals simp

theorem onlyChanges_of_collectives {c : Instr} {s t : State} (hFamily : family c = .collectives) (hStep : exec c s = .next t) :
    OnlyChanges (touches c) s t := by
  cases c <;> cases hFamily <;> refine onlyChanges_of_hide hStep ?_ <;> simp only [touches, maskOf, partBit, List.foldl]
  case residualLockGrant | resultSendComplete =>
    (repeat' split) <;> simp
  all_goals simp

theorem onlyChanges_of_fabric {c : Instr} {s t : State} (hFamily : family c = .fabric) (hStep : exec c s = .next t) :
    OnlyChanges (touches c) s t := by
  cases c <;> cases hFamily <;> refine onlyChanges_of_hide hStep ?_ <;> simp only [touches, maskOf, partBit, List.foldl]
  case cellRetire | imageFault =>
    (repeat' split) <;> simp
  all_goals simp

theorem onlyChanges_of_resident {c : Instr} {s t : State} (hFamily : family c = .resident) (hStep : exec c s = .next t) :
    OnlyChanges (touches c) s t := by
  cases c <;> cases hFamily <;> refine onlyChanges_of_hide hStep ?_ <;> simp only [touches, maskOf, partBit, List.foldl]
  all_goals simp

theorem onlyChanges_of_lanes {c : Instr} {s t : State} (hFamily : family c = .lanes) (hStep : exec c s = .next t) :
    OnlyChanges (touches c) s t := by
  cases c <;> cases hFamily <;> refine onlyChanges_of_hide hStep ?_ <;> simp only [touches, maskOf, partBit, List.foldl]
  case lcmResend =>
    split
    · rfl
    refine State.hide_foldl (fun s m => ?_) _ _
    (repeat' split) <;> simp
  case beaconCheckComplete | lcbSend | marginDwell | marginEstimate | marginReportSend =>
    (repeat' split) <;> simp
  all_goals simp

theorem onlyChanges_of_express {c : Instr} {s t : State} (hFamily : family c = .express) (hStep : exec c s = .next t) :
    OnlyChanges (touches c) s t := by
  cases c <;> cases hFamily <;> refine onlyChanges_of_hide hStep ?_ <;> simp only [touches, maskOf, partBit, List.foldl]
  all_goals simp

theorem onlyChanges_of_ports {c : Instr} {s t : State} (hFamily : family c = .ports) (hStep : exec c s = .next t) :
    OnlyChanges (touches c) s t := by
  cases c <;> cases hFamily <;> refine onlyChanges_of_hide hStep ?_ <;> simp only [touches, maskOf, partBit, List.foldl]
  case epTrainTimeout | linkTrainingTimeout | moduleActivate | moduleActivateTimeout | modulePoll | mpFrameReceive =>
    (repeat' split) <;> simp
  all_goals simp

theorem onlyChanges_of_keeper {c : Instr} {s t : State} (hFamily : family c = .keeper) (hStep : exec c s = .next t) :
    OnlyChanges (touches c) s t := by
  cases c <;> cases hFamily <;> refine onlyChanges_of_hide hStep ?_ <;> simp only [touches, maskOf, partBit, List.foldl]
  case marginMode =>
    exact guardWrite_frame (by decide) _ _ _ _ (modeWrite_frame (by decide) _ _ _ (releaseLanes_frame (by decide))) s
  case migrationMode =>
    exact guardWrite_frame (by decide) _ _ _ _ (modeWrite_frame (by decide) _ _ _ (releaseMigrations_frame (by decide))) s
  case ringLockMode =>
    exact guardWrite_frame (by decide) _ _ _ _ (modeWrite_frame (by decide) _ _ _ (releaseRings_frame (by decide))) s
  case frameAddressedToKeeper =>
    (repeat' split) <;> simp
  all_goals simp

theorem onlyChanges_of_protocol {c : Instr} {s t : State} (hFamily : family c = .protocol) (hStep : exec c s = .next t) :
    OnlyChanges (touches c) s t := by
  cases c <;> cases hFamily <;> refine onlyChanges_of_hide hStep ?_ <;> simp only [touches, maskOf, partBit, List.foldl]
  case keyWrite | sessionIdleExpire =>
    (repeat' split) <;> simp
  all_goals simp

theorem onlyChanges_of_registers {c : Instr} {s t : State} (hFamily : family c = .registers) (hStep : exec c s = .next t) :
    OnlyChanges (touches c) s t := by
  cases c <;> cases hFamily <;> refine onlyChanges_of_hide hStep ?_ <;> simp only [touches, maskOf, partBit, List.foldl]
  case absentUnitAccess | resume =>
    (repeat' split) <;> simp
  all_goals simp

theorem onlyChanges_of_reliability {c : Instr} {s t : State} (hFamily : family c = .reliability) (hStep : exec c s = .next t) :
    OnlyChanges (touches c) s t := by
  cases c <;> cases hFamily <;> refine onlyChanges_of_hide hStep ?_ <;> simp only [touches, maskOf, partBit, List.foldl]
  case memoryIslandIdle | regAccess =>
    (repeat' split) <;> simp
  all_goals simp

/-- Settles O12: the frames of the commands of chapter 13 and of start-up. -/
theorem framesOfPowerAndStart : Obligations.FramesOfPowerAndStart := by
  unfold Obligations.FramesOfPowerAndStart
  rintro c s t (hFamily | hFamily) hStep
  · exact onlyChanges_of_power hFamily hStep
  · exact onlyChanges_of_startUp hFamily hStep

/-- Settles O13: the frames of the commands of the time unit and of the tables. -/
theorem framesOfTimeAndTables : Obligations.FramesOfTimeAndTables := by
  unfold Obligations.FramesOfTimeAndTables
  rintro c s t (hFamily | hFamily) hStep
  · exact onlyChanges_of_time hFamily hStep
  · exact onlyChanges_of_tables hFamily hStep

/-- Settles O14: the frames of the commands of the switch core, of scheduling, credits and pauses. -/
theorem framesOfSwitching : Obligations.FramesOfSwitching := by
  unfold Obligations.FramesOfSwitching
  exact fun c s t => onlyChanges_of_switching

/-- Settles O15: the frames of the commands of collectives and of the Aihorn fabric. -/
theorem framesOfCollectives : Obligations.FramesOfCollectives := by
  unfold Obligations.FramesOfCollectives
  rintro c s t (hFamily | hFamily) hStep
  · exact onlyChanges_of_collectives hFamily hStep
  · exact onlyChanges_of_fabric hFamily hStep

/-- Settles O16: the frames of the commands of the resident parameter service. -/
theorem framesOfResidents : Obligations.FramesOfResidents := by
  unfold Obligations.FramesOfResidents
  exact fun c s t => onlyChanges_of_resident

/-- Settles O17: the frames of the commands of lanes and of express paths. -/
theorem framesOfLanesAndPaths : Obligations.FramesOfLanesAndPaths := by
  unfold Obligations.FramesOfLanesAndPaths
  rintro c s t (hFamily | hFamily) hStep
  · exact onlyChanges_of_lanes hFamily hStep
  · exact onlyChanges_of_express hFamily hStep

/-- Settles O18: the frames of the commands of the ports, of the keeper and of the object protocol. -/
theorem framesOfManagement : Obligations.FramesOfManagement := by
  unfold Obligations.FramesOfManagement
  rintro c s t (hFamily | hFamily | hFamily) hStep
  · exact onlyChanges_of_ports hFamily hStep
  · exact onlyChanges_of_keeper hFamily hStep
  · exact onlyChanges_of_protocol hFamily hStep

/-- Settles O19: the frames of the commands of registers, DMA engines and error detection. -/
theorem framesOfRegisters : Obligations.FramesOfRegisters := by
  unfold Obligations.FramesOfRegisters
  rintro c s t (hFamily | hFamily) hStep
  · exact onlyChanges_of_registers hFamily hStep
  · exact onlyChanges_of_reliability hFamily hStep

end Sys2Proof.Machine
end

section
/-! What no step undoes: the form of memory, the range of the increments of the time unit, and blown fuses. -/

namespace Sys2Proof.Machine

/-- The increment in force and the one that waits for the next mark are accepted ones (12 R382). -/
def IncsOk (t : Time) : Prop := incOk t.inc = true ∧ ∀ v, t.pendingInc = some v → incOk v = true

/-- A fuse table that is canonical and in which every bit blown in another is blown. -/
def FusesKept (f g : Tab Nat) : Prop :=
  g.wf = true ∧ ∀ k b : Nat, (f.get k).testBit b = true → (g.get k).testBit b = true

/-- What no step undoes from `a` on: the form of memory, the range of the increments, a blown fuse. -/
structure Held (a s : State) : Prop where
  mem : Memory.wf a.mem = true → Memory.wf s.mem = true
  incs : IncsOk a.time → IncsOk s.time
  fuses : a.keeper.fuses.wf = true → FusesKept a.keeper.fuses s.keeper.fuses

/-- `Held` reads the parts mem, time and keeper alone, so it is stated of the state with every other part hidden: the frame
lemmas then carry it over each operation that leaves these three parts alone. -/
@[simp] abbrev Keeps (a s : State) : Prop := Held a (s.hide 2031605)

theorem keeps_iff (a s : State) : Keeps a s ↔ Held a s :=
  ⟨fun h => ⟨h.mem, h.incs, h.fuses⟩, fun h => ⟨h.mem, h.incs, h.fuses⟩⟩

theorem FusesKept.refl {f : Tab Nat} (h : f.wf = true) : FusesKept f f := ⟨h, fun _ _ => id⟩

theorem Keeps.refl (s : State) : Keeps s s := ⟨id, id, FusesKept.refl⟩

theorem keeps_of_hide {a s t : State} (h : Keeps a s) (hFrame : t.hide 2031605 = s.hide 2031605) : Keeps a t := by
  rw [Keeps, hFrame]
  exact h

@[simp] theorem held_ite {a : State} (p : Prop) [Decidable p] (s t : State) :
    Held a (if p then s else t) ↔ if p then Held a s else Held a t := by
  split <;> rfl

/-- What a step from a pair leaves, where the pair is known. -/
theorem keeps_snd {α : Type} {a t : State} {p : α × State} {x : α} (hPair : p = (x, t)) (h : Keeps a p.2) : Keeps a t := by
  rwa [hPair] at h

theorem keeps_ite_snd {α : Type} {a : State} {p : Prop} [Decidable p] {x y : α × State} (hx : Keeps a x.2) (hy : Keeps a y.2) :
    Keeps a (if p then x else y).2 := by
  split
  · exact hx
  · exact hy

theorem keeps_foldl {α : Type} {a : State} {f : State → α → State} (hf : ∀ s x, Keeps a s → Keeps a (f s x)) (l : List α)
    {s : State} (h : Keeps a s) : Keeps a (l.foldl f s) := by
  induction l generalizing s with
  | nil => exact h
  | cons x l ih => exact ih (hf s x h)

theorem keeps_foldl_snd {α β : Type} {a : State} {f : β × State → α → β × State}
    (hf : ∀ x y, Keeps a x.2 → Keeps a (f x y).2) (l : List α) {x : β × State} (h : Keeps a x.2) :
    Keeps a (l.foldl f x).2 := by
  induction l generalizing x with
  | nil => exact h
  | cons y l ih => exact ih (hf x y h)

/-- Memory changed by a function that keeps its form. -/
@[simp] theorem keeps_with_mem {a s : State} {m : List Host.Cell} (h : Keeps a s)
    (hm : Memory.wf s.mem = true → Memory.wf m = true) : Keeps a { s with mem := m } :=
  ⟨fun ha => hm (h.mem ha), h.incs, h.fuses⟩

@[simp] theorem keeps_putMem {a s : State} (h : Keeps a s) (d : Nat) (b : Bytes) : Keeps a (s.putMem d b) :=
  keeps_with_mem h fun hw => Memory.wf_put hw d b

@[simp] theorem keeps_memClear {a s : State} (h : Keeps a s) (x y : Nat) : Keeps a { s with mem := memClear s.mem x y } :=
  keeps_with_mem h fun hw => Memory.wf_filter hw _

/-- The time part replaced by one with the same increments. -/
@[simp] theorem keeps_with_time {a s : State} {x : Time} (h : Keeps a s) (hInc : x.inc = s.time.inc)
    (hPending : x.pendingInc = s.time.pendingInc) : Keeps a { s with time := x } := by
  refine ⟨h.mem, fun ha => ?_, h.fuses⟩
  show IncsOk x
  rw [IncsOk, hInc, hPending]
  exact h.incs ha

/-- The time part changed by a function that keeps the increments in range. -/
theorem keeps_onTime_of_incs {a s : State} {f : Time → Time} (h : Keeps a s) (hf : IncsOk s.time → IncsOk (f s.time)) :
    Keeps a (s.onTime f) :=
  ⟨h.mem, fun ha => hf (h.incs ha), h.fuses⟩

@[simp] theorem keeps_onTime {a s : State} {f : Time → Time} (h : Keeps a s) (hInc : (f s.time).inc = s.time.inc)
    (hPending : (f s.time).pendingInc = s.time.pendingInc) : Keeps a (s.onTime f) :=
  keeps_onTime_of_incs h fun hs => by rwa [IncsOk, hInc, hPending]

/-- The keeper part changed by a function that leaves the fuses alone. -/
@[simp] theorem keeps_onKeeper {a s : State} {f : Keeper → Keeper} (h : Keeps a s)
    (hFuses : (f s.keeper).fuses = s.keeper.fuses) : Keeps a (s.onKeeper f) := by
  refine ⟨h.mem, h.incs, fun ha => ?_⟩
  show FusesKept a.keeper.fuses (f s.keeper).fuses
  rw [hFuses]
  exact h.fuses ha

section

/-! Each operation that changes one of the three parts keeps what `Held` says. -/

variable {org : State}

@[simp] theorem tmuStatusWrite_held (v : Word) (s : State) (hs : Keeps org s) : Keeps org (tmuStatusWrite v s) := by
  unfold tmuStatusWrite
  simp [hs]

/-! The time unit: the increments that wait are accepted ones (12 R382, R389). -/

/-- The increment that the mark takes was accepted when it was written. -/
theorem incsOk_take {t : Time} {g : Tab (BitVec 60)} (h : IncsOk t) :
    IncsOk { t with followers := g, inc := t.pendingInc.getD t.inc, pendingInc := none } := by
  obtain ⟨hInc, hPending⟩ := h
  refine ⟨?_, fun v hv => by cases hv⟩
  show incOk (t.pendingInc.getD t.inc) = true
  cases hp : t.pendingInc with
  | none => exact hInc
  | some v => exact hPending v hp

theorem incsOk_reset (w : Nat) : IncsOk { Time.reset with wall4 := w } := by
  refine ⟨?_, fun v hv => ?_⟩
  · show incOk Time.reset.inc = true
    decide
  · cases hv

theorem clampInt_bounds {lo hi : Int} (h : lo ≤ hi) (x : Int) : lo ≤ clampInt lo hi x ∧ clampInt lo hi x ≤ hi := by
  unfold clampInt
  split_ifs <;> omega

/-- The servo's correction of at most 100 ppm stays within the range of R382. -/
theorem incOk_servo (x : Int) :
    incOk (BitVec.ofNat 32 (unsigned 32 (335544320 + roundDiv (335544320 * clampInt (-1600000) 1600000 x) 16000000000))) = true := by
  obtain ⟨hLo, hHi⟩ := clampInt_bounds (lo := -1600000) (hi := 1600000) (by decide) x
  generalize clampInt (-1600000) 1600000 x = adj at hLo hHi
  have hDiv : -33555 ≤ roundDiv (335544320 * adj) 16000000000 ∧ roundDiv (335544320 * adj) 16000000000 ≤ 33555 := by
    unfold roundDiv
    split_ifs <;> omega
  generalize roundDiv (335544320 * adj) 16000000000 = r at hDiv
  obtain ⟨hr, hr'⟩ := hDiv
  simp only [incOk, unsigned, BitVec.toNat_ofNat, Bool.and_eq_true, decide_eq_true_eq]
  omega

/-! Memory, region records and imports (08). -/

@[simp] theorem storeMem_held (a : Nat) (b : Bytes) (s : State) (hs : Keeps org s) : Keeps org (storeMem a b s) := by
  unfold storeMem
  simp [hs]

@[simp] theorem zeroMem_held (a n : Nat) (s : State) (hs : Keeps org s) : Keeps org (zeroMem a n s) := by
  unfold zeroMem
  simp [hs]

@[simp] theorem setMeta_held (h b copy : Nat) (m : Meta) (s : State) (hs : Keeps org s) : Keeps org (setMeta h b copy m s) := by
  unfold setMeta
  split <;> simp [hs]

@[simp] theorem markSuspect_held (h b cause : Nat) (s : State) (hs : Keeps org s) : Keeps org (markSuspect h b cause s) := by
  unfold markSuspect
  split <;> simp [hs]

@[simp] theorem importMark_held (h b : Nat) (m : Meta) (s : State) (hs : Keeps org s) : Keeps org (importMark h b m s) := by
  unfold importMark
  split <;> simp [hs]

@[simp] theorem importDone_held (h : Nat) (r : Region) (p : BlockPart) (s : State) (hs : Keeps org s) :
    Keeps org (importDone h r p s) := by
  have h1 : Keeps org (s.onResident fun x => { x with
      importBlocks := x.importBlocks + (if (blockCrc (copyBytes s r p.block (r.mainCopy p.block))).toNat = p.crc then 1 else 0) }) := by
    simp [hs]
  unfold importDone
  dsimp only
  generalize s.onResident _ = u at h1 ⊢
  split
  · split
    · exact markSuspect_held _ _ _ _ (importMark_held _ _ _ _ (by simp [h1]))
    · exact importMark_held _ _ _ _ (by simp [h1])
  · exact markSuspect_held _ _ _ _ h1

@[simp] theorem importFrame_held (b : Bytes) (s : State) (hs : Keeps org s) : Keeps org (importFrame b s) := by
  unfold importFrame
  extract_lets drop
  have hDrop : Keeps org (drop s) := by simp [drop, hs]
  clear_value drop
  split
  · split
    · split
      · exact hDrop
      · extract_lets put s1 had new all s2
        have hPut : ∀ c t, Keeps org t → Keeps org (put c t) := by
          intro c t ht
          unfold put
          split
          · exact storeMem_held _ _ _ ht
          · exact ht
        have h1 : Keeps org s1 := hPut 1 _ (hPut 0 _ hs)
        have h2 : Keeps org s2 := by simp [s2, h1]
        clear_value s2
        split
        · exact importDone_held _ _ _ _ h2
        · exact h2
    · exact hDrop
  · exact hDrop

@[simp] theorem importClose_held (s : State) (hs : Keeps org s) : Keeps org (importClose s) := by
  unfold importClose
  split
  · exact hs
  · split
    · simp [hs]
    · rename_i h _ r _
      extract_lets partial_ s1 s2
      have h1 : Keeps org s1 := keeps_foldl (fun t b ht => markSuspect_held _ _ _ _ ht) _ hs
      have h2 : Keeps org s2 := by
        unfold s2
        split <;> simp [h1]
      clear_value s2
      simp [h2]

/-! The time unit (12). -/

@[simp] theorem applyStep_held (step : Int) (s : State) (hs : Keeps org s) : Keeps org (applyStep step s) := by
  unfold applyStep
  (repeat' split) <;> simp [hs, State.hide_foldl]

@[simp] theorem alignmentMark_held (s : State) (hs : Keeps org s) : Keeps org (alignmentMark s) := by
  unfold alignmentMark
  split
  · exact hs
  · dsimp only
    refine keeps_onTime_of_incs ?_ incsOk_take
    split
    · exact applyStep_held _ _ hs
    · exact hs

@[simp] theorem incWrite_held (v : Word) (s : State) (hs : Keeps org s) : Keeps org (incWrite v s) := by
  unfold incWrite
  split
  · exact keeps_onTime hs rfl rfl
  · rename_i hOk
    refine keeps_onTime_of_incs hs fun ⟨hInc, _⟩ => ⟨hInc, fun w hw => ?_⟩
    cases hw
    simp at hOk
    exact hOk.2

@[simp] theorem requestStep_held (step : Int) (force : Bool) (s : State) (hs : Keeps org s) :
    Keeps org (requestStep step force s) := by
  unfold requestStep
  simp [hs]

@[simp] theorem stepCtlWrite_held (v : Word) (s : State) (hs : Keeps org s) : Keeps org (stepCtlWrite v s) := by
  unfold stepCtlWrite
  simp [hs]

@[simp] theorem timeStepWrite_held (ns : Word) (frac : BitVec 16) (force : Bool) (s : State) (hs : Keeps org s) :
    Keeps org (timeStepWrite ns frac force s) := by
  unfold timeStepWrite
  simp [hs]

@[simp] theorem nowRead_held (die : Nat) (s : State) (hs : Keeps org s) : Keeps org (nowRead die s) := by
  unfold nowRead
  simp [hs]

@[simp] theorem servo_held (s : State) (hs : Keeps org s) : Keeps org (servo s) := by
  unfold servo
  refine keeps_onTime_of_incs hs fun ⟨hInc, _⟩ => ⟨hInc, fun w hw => ?_⟩
  cases hw
  exact incOk_servo _

@[simp] theorem ppsEdge_held (s : State) (hs : Keeps org s) : Keeps org (ppsEdge s) := by
  unfold ppsEdge
  simp [hs]

@[simp] theorem ppsGone_held (s : State) (hs : Keeps org s) : Keeps org (ppsGone s) := by
  unfold ppsGone
  simp [hs]

@[simp] theorem clk10Gone_held (s : State) (hs : Keeps org s) : Keeps org (clk10Gone s) := by
  unfold clk10Gone
  simp [hs]

@[simp] theorem clk10Measure_held (ticks : Nat) (s : State) (hs : Keeps org s) : Keeps org (clk10Measure ticks s) := by
  unfold clk10Measure
  dsimp only
  split
  · exact hs
  · have h1 := keeps_onTime (f := fun t => { t with clk10Ppb := clk10Error ticks }) hs rfl rfl
    split
    · exact keeps_onTime h1 rfl rfl
    · exact clk10Gone_held _ h1

/-! The DMA engines (17 R504 ff.) and the words of a region. -/

@[simp] theorem copyUnits_held (eng owner n src dst : Nat) (ecc : Bool) (s : State) (hs : Keeps org s) :
    Keeps org (copyUnits eng owner n src dst ecc s).st := by
  induction n generalizing src dst ecc s with
  | zero => exact hs
  | succ n ih =>
    unfold copyUnits
    split
    · exact hs
    split
    · exact hs
    · exact ih _ _ _ _ (keeps_putMem hs _ _)

@[simp] theorem fillUnits_held (eng owner : Nat) (b : Bytes) (n dst : Nat) (ecc : Bool) (s : State)
    (hs : Keeps org s) : Keeps org (fillUnits eng owner b n dst ecc s).st := by
  induction n generalizing dst ecc s with
  | zero => exact hs
  | succ n ih =>
    unfold fillUnits
    split
    · exact hs
    · exact ih _ _ _ (keeps_putMem hs _ _)

@[simp] theorem gatherItems_held (eng owner src dst index units n i : Nat) (ecc : Bool) (s : State)
    (hs : Keeps org s) : Keeps org (gatherItems eng owner src dst index units n i ecc s).st := by
  induction n generalizing i ecc s with
  | zero => exact hs
  | succ n ih =>
    unfold gatherItems
    dsimp only
    split
    · exact hs
    split
    · split <;> simp [hs]
    · refine ih _ _ _ ?_
      split <;> simp [hs]

@[simp] theorem runDesc_held (eng ch : Nat) (d : Desc) (tag : Nat × Nat) (s : State) (hs : Keeps org s) :
    Keeps org (runDesc eng ch d tag s) := by
  have hMoved : ∀ m : Moved, Keeps org m.st → Keeps org (settleMoved eng ch tag m) := by
    intro m hm
    unfold settleMoved
    split <;> simp [hm]
  unfold runDesc
  dsimp only
  split
  · simp [hs]
  split
  · simp [hs]
  split
  · simp [hs]
  · refine hMoved _ ?_
    dsimp only
    split <;> simp [hs]
  · refine hMoved _ ?_
    dsimp only
    split <;> simp [hs]
  · refine hMoved _ ?_
    dsimp only
    split <;> simp [hs]
  · split
    · simp [hs]
    · split <;> simp [hs]

@[simp] theorem dmaFetch_held (eng ch : Nat) (upset : Option (Nat × Nat)) (s : State) (hs : Keeps org s) :
    Keeps org (dmaFetch eng ch upset s) := by
  unfold dmaFetch
  dsimp only
  split
  · exact hs
  split
  · simp [hs]
  split
  · simp [hs]
  split
  · simp [hs]
  split
  · exact hs
  · exact runDesc_held _ _ _ _ _ (by simp [hs])

@[simp] theorem dmaComplete_held (eng ch : Nat) (s : State) (hs : Keeps org s) : Keeps org (dmaComplete eng ch s) := by
  unfold dmaComplete
  (repeat' split) <;> simp [hs]

@[simp] theorem fallback_held (w : WordAt) (s : State) (hs : Keeps org s) : Keeps org (fallback w s).2 := by
  unfold fallback
  split
  · exact hs
  split
  · exact hs
  dsimp only
  split
  · simp [hs]
  · exact hs

@[simp] theorem readWord_held (w : WordAt) (s : State) (hs : Keeps org s) : Keeps org (readWord w s).2 := by
  unfold readWord
  split <;> simp [hs]

@[simp] theorem writeWord_held (k : Nat) (g : Group) (w : WordAt) (d : Bytes) (s : State) (hs : Keeps org s) :
    Keeps org (writeWord k g w d s) := by
  unfold writeWord
  dsimp only
  split
  · split
    · split
      · split <;> simp [hs]
      · simp [hs]
    · simp [hs]
  · simp [hs]

@[simp] theorem commitBlock_held (k : Nat) (s : State) (x : Nat × Nat) (hs : Keeps org s) : Keeps org (commitBlock k s x) := by
  unfold commitBlock
  (repeat' split) <;> simp [hs]

@[simp] theorem blockCommit_held (k : Nat) (s : State) (hs : Keeps org s) : Keeps org (blockCommit k s) := by
  unfold blockCommit
  split
  · exact hs
  · exact keeps_foldl (fun t x ht => commitBlock_held _ _ _ ht) _ (by simp [hs])

@[simp] theorem sendComplete_held (k : Nat) (s : State) (hs : Keeps org s) : Keeps org (sendComplete k s) := by
  unfold sendComplete
  extract_lets s1 c die
  have h1 : Keeps org s1 := by
    unfold s1
    split
    · exact blockCommit_held _ _ hs
    · exact hs
  clear_value s1
  split
  · simp [h1]
  · simp [h1]

@[simp] theorem zeroResiduals_held (g : Group) (chunk : Nat) (s : State) (hs : Keeps org s) :
    Keeps org (zeroResiduals g chunk s) := by
  unfold zeroResiduals
  split <;> simp [hs]

@[simp] theorem settleEncodings_held (k : Nat) (sent : Bool) (s : State) (hs : Keeps org s) :
    Keeps org (settleEncodings k sent s) := by
  unfold settleEncodings
  extract_lets c s1 s2 s3 s4
  have h1 : Keeps org s1 := by simp [s1, hs]
  have h3 : Keeps org s3 := keeps_foldl (fun t y ht => storeMem_held _ _ _ ht) _ (by simp [s2, h1])
  have h4 : Keeps org s4 := by
    unfold s4
    split
    · exact h1
    · split <;> simp [h3]
  clear_value s4
  simp [h4]

/-! Collectives over regions (05, 06). -/

@[simp] theorem encodeBlock_held (k : Nat) (g : Group) (b : Nat) (vals : List Word) (s : State) (hs : Keeps org s) :
    Keeps org (encodeBlock k g b vals s).2 := by
  generalize hp : encodeBlock k g b vals s = p
  unfold encodeBlock at hp
  extract_lets r die c out w n addr resid a E key h jump s0 s1 e2 at hp
  have h1 : Keeps org s1 := by
    unfold s1 s0
    split
    · split <;> simp [hs]
    · exact hs
  clear_value e2 s1 s0 jump h key E a resid addr
  generalize (gFeedback r && _) = cond at hp
  split at hp
  · subst hp
    simp [hs]
  split at hp
  · subst hp
    simp [hs]
  have h2 := keeps_of_hide h1 (drawBits_frame (by decide) die (gStoch r) n s1)
  rcases hd : drawBits die (gStoch r) n s1 with ⟨draws, s2⟩
  rw [hd] at hp h2
  dsimp only at hp h2
  rcases hq : quantBlock out E draws a with ⟨enc, q, sat⟩
  rw [hq] at hp
  dsimp only at hp
  generalize (isNarrow out && _) = wants at hp
  have h3 : Keeps org (if wants then claimBudget k g s2 else (false, s2)).2 := by
    split
    · exact keeps_of_hide h2 (claimBudget_frame (by decide) ..)
    · exact h2
  rcases hc : (if wants then claimBudget k g s2 else (false, s2)) with ⟨claimed, s3⟩
  rw [hc] at hp h3
  cases claimed with
  | false =>
    subst hp
    simp [h3]
  | true =>
    have h4 := keeps_of_hide h3 (drawBits_frame (by decide) die (gStoch r) n s3)
    rcases he : drawBits die (gStoch r) n s3 with ⟨d2, s4⟩
    simp only [he, if_true] at hp h4
    subst hp
    simp [h4]

@[simp] theorem encodeBlocks_held (k : Nat) (g : Group) (n b : Nat) (v : List Word) (s : State) (hs : Keeps org s) :
    Keeps org (encodeBlocks k g n b v s).2 := by
  induction n generalizing b v s with
  | zero => exact hs
  | succ n ih =>
    have h1 := encodeBlock_held k g b (v.take 32) s hs
    unfold encodeBlocks
    split
    · rename_i e
      exact keeps_snd e h1
    · rename_i x t e
      have h2 := ih (b + 1) (v.drop 32) t (keeps_snd e h1)
      split <;> (rename_i e2; exact keeps_snd e2 h2)

@[simp] theorem finishChunk_held (k code elems valid overflow : Nat) (payload : Bytes) (s : State) (hs : Keeps org s) :
    Keeps org (finishChunk k code elems valid overflow payload s) := by
  unfold finishChunk
  split <;> simp [hs]

@[simp] theorem readRowWords_held (k : Nat) (r : Region) (h n o : Nat) (s : State) (hs : Keeps org s) :
    Keeps org (readRowWords k r h n o s).2 := by
  induction n generalizing o s with
  | zero => exact hs
  | succ n ih =>
    unfold readRowWords
    split
    · rename_i w _
      have h1 := readWord_held (org := org) w (noteSuspect k w s) (by simp [hs])
      split
      · rename_i x t e
        have h2 := ih (o + 64) t (keeps_snd e h1)
        split <;> (rename_i e2; exact keeps_snd e2 h2)
      · rename_i e
        exact keeps_snd e h1
    · exact hs

@[simp] theorem addRowWords_held (k : Nat) (g : Group) (r : Region) (h n o : Nat) (v : List Word) (s : State) (hs : Keeps org s) :
    Keeps org (addRowWords k g r h n o v s).2 := by
  induction n generalizing o v s with
  | zero => exact hs
  | succ n ih =>
    unfold addRowWords
    split
    · rename_i w _
      have h1 := readWord_held w s hs
      split
      · rename_i x t e
        exact ih _ _ _ (writeWord_held _ _ _ _ _ (keeps_snd e h1))
      · rename_i e
        exact keeps_snd e h1
    · exact hs

@[simp] theorem fetchRow_held (k : Nat) (g : Group) (r : Region) (idx : Nat) (x : RowReply) (s : State) (hs : Keeps org s) :
    Keeps org (fetchRow k g r idx x s).2.2 := by
  unfold fetchRow
  split
  · exact hs
  split
  · exact hs
  have h1 := readRowWords_held k r (gResident g.record) (r.rowBytes / 64) (idx * r.rowBytes) s hs
  split <;> (rename_i e; exact keeps_snd e h1)

theorem keeps_foldl_thd {α β γ : Type} {a : State} {f : β × γ × State → α → β × γ × State}
    (hf : ∀ x y, Keeps a x.2.2 → Keeps a (f x y).2.2) (l : List α) {x : β × γ × State} (h : Keeps a x.2.2) :
    Keeps a (l.foldl f x).2.2 := by
  induction l generalizing x with
  | nil => exact h
  | cons y l ih => exact ih (hf x y h)

@[simp] theorem serveBag_held (k : Nat) (g : Group) (r : Region) (ids : List Nat) (x : RowReply) (s : State) (hs : Keeps org s) :
    Keeps org (serveBag k g r ids x s).2 := by
  unfold serveBag
  refine keeps_foldl_thd (fun y i hy => ?_) ids hs
  dsimp only
  split <;> exact fetchRow_held _ _ _ _ _ _ hy

@[simp] theorem serveRows_held (k : Nat) (g : Group) (r : Region) (f : Bytes) (s : State) (hs : Keeps org s) :
    Keeps org (serveRows k g r f s).2 := by
  unfold serveRows
  dsimp only
  split
  · refine keeps_foldl_snd (fun y i hy => ?_) _ hs
    exact fetchRow_held _ _ _ _ _ _ hy
  · refine keeps_foldl_snd (fun y i hy => ?_) _ hs
    split
    · exact hy
    split
    · exact hy
    split
    · exact hy
    · exact addRowWords_held _ _ _ _ _ _ _ _ hy
  · refine keeps_foldl_snd (fun y ids hy => ?_) _ hs
    exact serveBag_held _ _ _ _ _ _ hy

@[simp] theorem sendRowReply_held (k code elems valid overflow : Nat) (payload : Bytes) (poisonAll : Bool) (s : State)
    (hs : Keeps org s) : Keeps org (sendRowReply k code elems valid overflow payload poisonAll s) := by
  unfold sendRowReply
  split <;> simp [hs]

@[simp] theorem libServe_held (k : Nat) (g : Group) (f : Bytes) (s : State) (hs : Keeps org s) :
    Keeps org (libServe k g f s) := by
  unfold libServe
  dsimp only
  split
  · exact hs
  · rename_i r _
    have h1 := serveRows_held (org := org) k g r f (onCtx k (fun c => { c with readSuspect := false }) s) (by simp [hs])
    split
    · exact sendRowReply_held _ _ _ _ _ _ _ _ h1
    · split
      · exact sendRowReply_held _ _ _ _ _ _ _ _ h1
      · exact sendRowReply_held _ _ _ _ _ _ _ _ (keeps_of_hide h1 (plainRows_frame (by decide) ..))

@[simp] theorem writeBlock_held (k : Nat) (g : Group) (r : Region) (h b : Nat) (n : Nat) (i : Nat) (d : Bytes) (s : State)
    (hs : Keeps org s) : Keeps org (writeBlock k g r h b n i d s) := by
  induction n generalizing i d s with
  | zero => exact hs
  | succ n ih => exact ih _ _ _ (writeWord_held _ _ _ _ _ hs)

@[simp] theorem readBlock_held (r : Region) (h b n i : Nat) (s : State) (hs : Keeps org s) :
    Keeps org (readBlock r h b n i s).2 := by
  induction n generalizing i s with
  | zero => exact hs
  | succ n ih =>
    have h1 := readWord_held ⟨r.addr b (r.mainCopy b) + 64 * i, some (h, b, 64 * i), r.mainCopy b⟩ s hs
    unfold readBlock
    split
    · rename_i x t e
      have h2 := ih (i + 1) t (keeps_snd e h1)
      split <;> (rename_i e2; exact keeps_snd e2 h2)
    · rename_i e
      exact keeps_snd e h1

@[simp] theorem libUpdate_held (k : Nat) (g : Group) (grad : List Word) (s : State) (hs : Keeps org s) :
    Keeps org (libUpdate k g grad s).2 := by
  unfold libUpdate
  dsimp only
  split
  · exact hs
  · rename_i r _
    have h1 := readBlock_held r (gResident g.record) (s.coll.ctx.get k).chunk (r.blockBytes / 64) 0 s hs
    split
    · rename_i e
      exact keeps_snd e h1
    · rename_i e
      exact writeBlock_held _ _ _ _ _ _ _ _ _ (keeps_snd e h1)

@[simp] theorem denseResult_held (k : Nat) (g : Group) (vals : List Word) (s : State) (hs : Keeps org s) :
    Keeps org (denseResult k g vals s) := by
  have h1 := encodeBlocks_held k g (gBlocks g.record) 0 vals s hs
  unfold denseResult
  dsimp only
  split
  · rename_i e
    exact finishChunk_held _ _ _ _ _ _ _ (keeps_snd e h1)
  · rename_i e
    exact keeps_of_hide (keeps_snd e h1) (endContext_frame (by decide) ..)

@[simp] theorem libResult_held (k tile : Nat) (g : Group) (s : State) (hs : Keeps org s) : Keeps org (libResult k tile g s) := by
  unfold libResult
  dsimp only
  split
  · simp [hs]
  split
  · split
    · have h1 := libUpdate_held k g ((upTo (gElems g.record)).map (ctxValue g (s.coll.ctx.get k))) s hs
      split
      · rename_i e
        exact denseResult_held _ _ _ _ (keeps_snd e h1)
      · rename_i e
        exact keeps_of_hide (keeps_snd e h1) (endContext_frame (by decide) ..)
    · exact denseResult_held _ _ _ _ hs
  split
  · exact finishChunk_held _ _ _ _ _ _ _ hs
  · split
    · exact finishChunk_held _ _ _ _ _ _ _ hs
    · refine finishChunk_held _ _ _ _ _ _ _ (keeps_foldl_snd (fun x p hx => ?_) _ hs)
      exact keeps_of_hide hx (attnResult_frame (by decide) ..)
  · exact finishChunk_held _ _ _ _ _ _ _ hs
  · generalize hu : (if (setPairs g (s.coll.ctx.get k)).1.any (fun x => poisons x.2) = true then poisonChunk k none s else s) = u
    have h1 : Keeps org u := by
      rw [← hu]
      split <;> simp [hs]
    clear hu
    split
    · exact finishChunk_held _ _ _ _ _ _ _ h1
    · refine finishChunk_held _ _ _ _ _ _ _ (keeps_foldl_snd (fun x p hx => ?_) _ h1)
      exact keeps_of_hide hx (plainRows_frame (by decide) ..)

@[simp] theorem deleteOn_held (g : Group) (s : State) (d : Nat) (hs : Keeps org s) : Keeps org (deleteOn g s d) := by
  unfold deleteOn
  dsimp only
  refine keeps_of_hide ?_ (State.hide_onColl (by decide) _ _)
  refine keeps_of_hide ?_ (releaseOn_frame (by decide) ..)
  refine keeps_of_hide ?_ (dropTokens_frame (by decide) ..)
  refine keeps_foldl (fun t k ht => ?_) _ (keeps_of_hide hs (State.hide_foldl (fun s k => endContext_frame (by decide) ..) _ _))
  refine keeps_of_hide ?_ (dropLocks_frame (by decide) ..)
  split
  · exact blockCommit_held _ _ ht
  · exact ht

@[simp] theorem groupDelete_held (id : Nat) (s : State) (hs : Keeps org s) : Keeps org (groupDelete id s).2 := by
  unfold groupDelete
  split
  · exact hs
  · exact keeps_of_hide (keeps_foldl (fun t d ht => deleteOn_held _ _ _ ht) _ hs) (State.hide_onColl (by decide) _ _)

/-! The Aihorn fabric: edge units, threads and walks (07). -/

@[simp] theorem euBlock_held (k : Nat) (g : Group) (cmd : Token) (b : Nat) (vals : List Word) (s : State) (hs : Keeps org s) :
    Keeps org (euBlock k g cmd b vals s).2 := by
  unfold euBlock
  dsimp only
  split
  · exact encodeBlock_held _ _ _ _ _ hs
  · exact keeps_of_hide hs (plainBlock_frame (by decide) ..)

@[simp] theorem encodeStep_held (die tile port : Nat) (s : State) (hs : Keeps org s) :
    Keeps org (encodeStep die tile port s) := by
  unfold encodeStep
  split
  · exact hs
  extract_lets u routed w
  split
  · simp [hs]
  split
  · exact hs
  split
  · simp [hs]
  rename_i taken give _ _ _ _ _ k g _
  have hTaken : Keeps org taken := by simp [taken, hs]
  have hGive : ∀ f l t, Keeps org t → Keeps org (give f l t) := by
    intro f l t ht
    simp [give, ht]
  clear_value taken give
  split
  · exact hGive _ _ _ hTaken
  split
  · split
    · simp [hTaken]
    split
    · exact hGive _ _ _ hTaken
    · have h1 := fun vals => euBlock_held k g w.cmd (lane w.cmd 14 + w.blocks) vals _ hTaken
      split
      · rename_i e
        exact hGive _ _ _ (keeps_snd e (h1 _))
      · rename_i e
        have h2 := keeps_snd e (h1 _)
        simp [h2]
  split
  · exact hGive _ _ _ hTaken
  · simp [hs]

@[simp] theorem egressResult_held (k : Nat) (g : Group) (cmd : Token) (payload : Bytes) (s : State) (hs : Keeps org s) :
    Keeps org (egressResult k g cmd payload s) := by
  unfold egressResult
  simp [hs]

@[simp] theorem egressLast_held (die tile port : Nat) (s : State) (hs : Keeps org s) :
    Keeps org (egressLast die tile port s) := by
  unfold egressLast
  split
  · exact hs
  dsimp only
  split
  · split
    · refine keeps_of_hide ?_ (progress_frame (by decide) ..)
      split
      · split
        · exact libServe_held _ _ _ _ hs
        · exact hs
      · exact libResult_held _ _ _ _ hs
    · exact hs
  split
  · exact hs
  split
  · simp [hs]
  (repeat' split) <;> simp [hs]

/-- What a walk instruction leaves. -/
def Walked.held (org : State) : Walked → Prop
  | .on _ t => Keeps org t
  | .memError _ t => Keeps org t
  | _ => True

theorem Walked.held_ite {p : Prop} [Decidable p] {x y : Walked} (hx : x.held org) (hy : y.held org) :
    (if p then x else y).held org := by
  split <;> assumption

theorem readEmit_held (k : Nat) (g : Group) (a : Nat) (t : Thread) (s : State) (hs : Keeps org s) :
    (readEmit k g a t s).held org := by
  unfold readEmit
  split
  · trivial
  · exact hs
  · rename_i w _
    have h1 := readWord_held w _ (keeps_of_hide hs (noteSuspect_frame (by decide) k w s))
    split <;> (rename_i e; exact keeps_snd e h1)

theorem readTodo_held (k : Nat) (g : Group) (n : Nat) (t : Thread) (s : State) (hs : Keeps org s) :
    (readTodo k g n t s).held org := by
  induction n generalizing t s with
  | zero => exact hs
  | succ n ih =>
    unfold readTodo
    split
    · exact hs
    · rename_i a m r _
      have h1 := readEmit_held k g a { t with todo := if m ≤ 1 then r else (a + 64, m - 1) :: r } s hs
      split
      · rename_i e
        rw [e] at h1
        exact ih _ _ h1
      · exact h1

theorem writeOne_held (k : Nat) (g : Group) (add : Bool) (a : Nat) (d : List Word) (t : Thread) (s : State)
    (hs : Keeps org s) : (writeOne k g add a d t s).held org := by
  unfold writeOne
  split
  · trivial
  · exact hs
  · rename_i w _
    split
    · trivial
    split
    · have h1 := readWord_held w s hs
      split
      · rename_i e
        exact writeWord_held _ _ _ _ _ (keeps_snd e h1)
      · rename_i e
        exact keeps_snd e h1
    · exact writeWord_held _ _ _ _ _ hs

theorem writeMany_held (k : Nat) (g : Group) (add : Bool) (l : List Token) (a : Nat) (t : Thread) (s : State)
    (hs : Keeps org s) : (writeMany k g add l a t s).held org := by
  induction l generalizing a t s with
  | nil => exact hs
  | cons d r ih =>
    have h1 := writeOne_held k g add a d.data t s hs
    unfold writeMany
    split
    · rename_i e
      rw [e] at h1
      exact ih _ _ _ h1
    · exact h1

theorem addIndexed_held (k : Nat) (g : Group) (n : Nat) (l : List Nat) (d : List Token) (t : Thread) (s : State)
    (hs : Keeps org s) : (addIndexed k g n l d t s).held org := by
  induction l generalizing d t s with
  | nil => exact hs
  | cons a r ih =>
    have h1 := writeMany_held k g true (d.take n) a t s hs
    unfold addIndexed
    split
    · rename_i e
      rw [e] at h1
      exact ih _ _ _ h1
    · exact h1

theorem probe_held (k : Nat) (g : Group) (insert : Bool) (key v base mask n h : Nat) (t : Thread) (s : State)
    (hs : Keeps org s) : (probe k g insert key v base mask n h t s).held org := by
  induction n generalizing h t s with
  | zero => exact keeps_of_hide hs (freeWords_frame (M := 2031605) (by decide) 4 s)
  | succ n ih =>
    unfold probe
    dsimp only
    split
    · trivial
    · exact hs
    · rename_i w _
      have h1 := readWord_held w _ (keeps_of_hide hs (noteSuspect_frame (by decide) k w s))
      split
      · rename_i e
        exact keeps_snd e h1
      · rename_i e
        have h2 := keeps_snd e h1
        split
        · exact ih _ _ _ h2
        · exact h2
        split
        · exact keeps_of_hide h2 (draw_frame (by decide) _)
        split
        · trivial
        · exact writeWord_held _ _ _ _ _ h2

theorem takeData_held {w n : Nat} {t : Thread} {f : List Token → Thread → Walked}
    (hf : ∀ d u, (f d u).held org) :
    (match takeData w t n with
      | (some (d, t), _) => f d t
      | (none, true) => .fault 10
      | (none, false) => .wait).held org := by
  split
  · exact hf _ _
  · trivial
  · trivial

theorem walkStep_held (k : Nat) (g : Group) (i : Image) (w n : Nat) (t : Thread) (s : State) (hs : Keeps org s) :
    (walkStep k g i w n t s).held org := by
  have hReads : ∀ t, (readTodo k g n t s).held org := fun t => readTodo_held k g n t s hs
  have hWrites : ∀ add d a t, (writeMany k g add d a t s).held org := fun add d a t => writeMany_held k g add d a t s hs
  unfold walkStep
  dsimp only
  split
  · exact Walked.held_ite trivial hs
  · exact Walked.held_ite (Walked.held_ite trivial (hReads _)) trivial
  · exact Walked.held_ite (Walked.held_ite trivial (hReads _)) trivial
  · exact Walked.held_ite (takeData_held fun d t => hWrites _ _ _ _) trivial
  · exact Walked.held_ite (takeData_held fun d t => hWrites _ _ _ _) trivial
  · exact Walked.held_ite (takeData_held fun d t => hWrites _ _ _ _) trivial
  · exact Walked.held_ite (takeData_held fun d t => hWrites _ _ _ _) trivial
  · exact Walked.held_ite hs trivial
  · exact Walked.held_ite hs trivial
  · exact hs
  · exact hs
  · exact Walked.held_ite (takeData_held fun d t => Walked.held_ite trivial (hReads _)) trivial
  · exact Walked.held_ite (takeData_held fun d t => takeData_held fun d t => addIndexed_held _ _ _ _ _ _ _ hs) trivial
  · exact Walked.held_ite (Walked.held_ite trivial (takeData_held fun d t => probe_held _ _ _ _ _ _ _ _ _ _ _ hs)) trivial
  · exact Walked.held_ite (Walked.held_ite trivial (takeData_held fun d t => probe_held _ _ _ _ _ _ _ _ _ _ _ hs)) trivial
  · exact Walked.held_ite (takeData_held fun d t => hs) trivial
  · exact hs

@[simp] theorem threadRun_held (die tile port n h : Nat) (i : Image) (s : State) (hs : Keeps org s) :
    Keeps org (threadRun die tile port n h i s) := by
  unfold threadRun
  extract_lets t u w waiting k finish room
  split
  · exact hs
  split
  · simp [hs]
  rename_i g _
  have hFinish : ∀ t st s, Keeps org s → Keeps org (finish t st s) := by
    intro t st s ht
    simp only [finish]
    simp [ht]
  have h1 : Walked.held org (if t.todo.isEmpty then walkStep k g i waiting room t s else readTodo k g room t s) := by
    split
    · exact walkStep_held _ _ _ _ _ _ _ hs
    · exact readTodo_held _ _ _ _ _ hs
  clear_value finish room t waiting k
  split
  · exact hs
  split
  · exact keeps_of_hide (hFinish _ _ _ hs) (progress_frame (by decide) ..)
  split <;> rename_i e <;> rw [e] at h1
  · exact hs
  · simp [hs]
  · exact keeps_of_hide (hFinish _ _ _ h1) (progress_frame (by decide) ..)
  · refine keeps_of_hide ?_ (progress_frame (by decide) ..)
    split
    · exact keeps_of_hide h1 (onThread_frame (by decide) ..)
    · exact hFinish _ _ _ h1

@[simp] theorem walkRequest_held (die tile port : Nat) (s : State) (hs : Keeps org s) :
    Keeps org (walkRequest die tile port s) := by
  unfold walkRequest
  split
  · exact hs
  dsimp only
  generalize hu : portDrain die tile port _ _ s = u
  have h1 : Keeps org u := by
    rw [← hu]
    simp [hs]
  clear hu
  split
  · exact h1
  split
  · split
    · simp [h1]
    · refine threadRun_held _ _ _ _ _ _ _ ?_
      split <;> simp [h1]
  split
  · simp [h1]
  split
  · simp [h1]
  split
  · exact h1
  · exact threadRun_held _ _ _ _ _ _ _ (by simp [h1])

@[simp] theorem accessComplete_held (die tile port n : Nat) (s : State) (hs : Keeps org s) :
    Keeps org (accessComplete die tile port n s) := by
  unfold accessComplete
  split
  · exact hs
  · dsimp only
    split
    · exact threadRun_held _ _ _ _ _ _ _ hs
    · exact keeps_of_hide (threadRun_held _ _ _ _ _ _ _ hs) (portDrain_frame (by decide) ..)

/-! Measurements, images and regions (14, 07, 08). -/

@[simp] theorem measExtend_held (i : Nat) (x : Bytes) (s : State) (hs : Keeps org s) : Keeps org (measExtend i x s) := by
  unfold measExtend
  simp [hs]

@[simp] theorem measEvent_held (code : Nat) (s : State) (hs : Keeps org s) : Keeps org (measEvent code s) := by
  unfold measEvent
  simp [hs]

@[simp] theorem imageStage_held (data : Bytes) (s : State) (hs : Keeps org s) : Keeps org (imageStage data s) := by
  unfold imageStage
  simp [hs]

@[simp] theorem imageCommit_held (s : State) (hs : Keeps org s) : Keeps org (imageCommit s) := by
  unfold imageCommit
  dsimp only
  split
  · simp [hs]
  split
  · simp [hs]
  · refine keeps_of_hide ?_ (setCommitResult_frame (by decide) ..)
    refine keeps_of_hide ?_ (State.hide_onFabric (by decide) _ _)
    exact measExtend_held _ _ _ (by simp [hs])

@[simp] theorem unplaceOn_held (h : Nat) (s : State) (d : Nat) (hs : Keeps org s) : Keeps org (unplaceOn h s d) := by
  unfold unplaceOn
  simp [hs]

@[simp] theorem imageUnplace_held (h dies : Nat) (s : State) (hs : Keeps org s) : Keeps org (imageUnplace h dies s) := by
  unfold imageUnplace
  dsimp only
  split
  · simp [hs]
  split
  · simp [hs]
  · exact keeps_of_hide (keeps_foldl (fun t d ht => unplaceOn_held _ _ _ ht) _ (by simp [hs])) (setPlaceResult_frame (by decide) ..)

@[simp] theorem loadLibrary_held (op : Nat) (s : State) (hs : Keeps org s) : Keeps org (loadLibrary op s) := by
  unfold loadLibrary
  (repeat' split) <;> simp [hs]

@[simp] theorem loadLibraries_held (s : State) (hs : Keeps org s) : Keeps org (loadLibraries s) := by
  exact keeps_foldl (fun t op ht => loadLibrary_held _ _ ht) _ hs

@[simp] theorem zeroPart_held (r : Region) (die copy : Nat) (s : State) (hs : Keeps org s) :
    Keeps org (zeroPart r die copy s) := by
  unfold zeroPart
  simp [hs]

@[simp] theorem zeroMeta_held (h : Nat) (r : Region) (s : State) (hs : Keeps org s) : Keeps org (zeroMeta h r s) := by
  unfold zeroMeta
  dsimp only
  split
  · exact hs
  · exact keeps_foldl (fun t b ht => importMark_held _ _ _ _ ht) _ hs

@[simp] theorem regionReady_held (h : Nat) (s : State) (hs : Keeps org s) : Keeps org (regionReady h s) := by
  unfold regionReady
  split
  · rename_i r _
    split
    · exact hs
    · have h1 : Keeps org ((upTo 8).foldl (fun s d => zeroPart r d 1 (zeroPart r d 0 s)) s) :=
        keeps_foldl (fun t d ht => zeroPart_held _ _ _ _ (zeroPart_held _ _ _ _ ht)) _ hs
      have h2 := zeroMeta_held h r _ h1
      dsimp only
      split
      · exact keeps_of_hide h2 (onRegion_frame (by decide) ..)
      · refine keeps_of_hide ?_ (raise_frame (by decide) ..)
        exact keeps_of_hide h2 (onRegion_frame (by decide) ..)
  · exact hs

@[simp] theorem regionControlData_held (h : Nat) (data : Bytes) (s : State) (hs : Keeps org s) :
    Keeps org (regionControlData h data s) := by
  unfold regionControlData
  split
  · simp [hs]
  split
  · simp [hs]
  · dsimp only
    refine keeps_of_hide (keeps_foldl (fun t k ht => ?_) _ hs) (answer_frame (by decide) ..)
    split
    · exact ht
    · exact storeMem_held _ _ _ ht

@[simp] theorem mirrorWordReceive_held (die : Nat) (s : State) (hs : Keeps org s) : Keeps org (mirrorWordReceive die s) := by
  unfold mirrorWordReceive
  split
  · rename_i t hTake
    have h1 := keeps_of_hide hs (takeMirror_frame (by decide) hTake)
    split
    · exact keeps_of_hide (storeMem_held _ _ _ h1) (State.hide_onResident (by decide) _ _)
    · exact h1
  · exact hs

@[simp] theorem mirrorCommitReceive_held (die : Nat) (s : State) (hs : Keeps org s) : Keeps org (mirrorCommitReceive die s) := by
  unfold mirrorCommitReceive
  split
  · rename_i h b _ _ _ t hTake
    have h1 := keeps_of_hide hs (takeMirror_frame (by decide) hTake)
    split
    · dsimp only
      split
      · simp [h1]
      · simp [h1]
    · exact h1
  · exact hs

@[simp] theorem mirrorAck_held (die : Nat) (s : State) (hs : Keeps org s) : Keeps org (mirrorAck die s) := by
  unfold mirrorAck
  split
  · rename_i t hTake
    have h1 := keeps_of_hide hs (takeMirror_frame (by decide) hTake)
    split
    · dsimp only
      split
      · exact keeps_of_hide h1 (State.hide_onResident (by decide) _ _)
      · refine keeps_of_hide ?_ (sendMirror_frame (by decide) ..)
        exact keeps_of_hide (setMeta_held _ _ _ _ _ h1) (count_frame (by decide) ..)
    · exact h1
  · exact hs

@[simp] theorem copyOver_held (h : Nat) (r : Region) (b src : Nat) (m : Meta) (s : State) (hs : Keeps org s) :
    Keeps org (copyOver h r b src m s) := by
  unfold copyOver
  simp [hs]

@[simp] theorem compareCopies_held (h : Nat) (r : Region) (b : Nat) (pv mv : Bool) (s : State) (hs : Keeps org s) :
    Keeps org (compareCopies h r b pv mv s) := by
  unfold compareCopies
  split <;> simp [hs]

@[simp] theorem mirrorAuditBlock_held (h b : Nat) (primaryReads mirrorReads : Bool) (s : State) (hs : Keeps org s) :
    Keeps org (mirrorAuditBlock h b primaryReads mirrorReads s) := by
  unfold mirrorAuditBlock
  split <;> simp [hs]

@[simp] theorem mirrorResolve_held (h b src : Nat) (s : State) (hs : Keeps org s) : Keeps org (mirrorResolve h b src s) := by
  unfold mirrorResolve
  (repeat' split) <;> simp [hs]

theorem exportWord_held (h : Nat) (r : Region) (b : Nat) (bad : Option Nat) (x : Bool × State) (w : Nat)
    (hx : Keeps org x.2) : Keeps org (exportWord h r b bad x w).2 := by
  have h1 : ∀ p : WordAt, Keeps org (if bad == some w then fallback p x.2 else readWord p x.2).2 := by
    intro p
    split
    · exact fallback_held _ _ hx
    · exact readWord_held _ _ hx
  unfold exportWord
  dsimp only
  split <;> (rename_i e; exact keeps_snd e (h1 _))

@[simp] theorem exportRead_held (h : Nat) (r : Region) (b : Nat) (bad : Option Nat) (s : State) (hs : Keeps org s) :
    Keeps org (exportRead h r b bad s).2.2 := by
  unfold exportRead
  dsimp only
  split
  · exact hs
  · have h1 : Keeps org ((upTo (r.blockBytes / 64)).foldl (exportWord h r b bad) (false, s)).2 :=
      keeps_foldl_snd (fun x w hx => exportWord_held _ _ _ _ _ _ hx) _ hs
    split
    · exact keeps_of_hide h1 (count_frame (by decide) ..)
    · exact h1

@[simp] theorem exportBlock_held (die : Nat) (bad : Option Nat) (s : State) (hs : Keeps org s) :
    Keeps org (exportBlock die bad s) := by
  unfold exportBlock
  split
  · exact hs
  split
  · exact hs
  extract_lets from_ s1
  have h1 : Keeps org s1 := by
    unfold s1
    split
    · exact hs
    split
    · exact hs
    refine keeps_of_hide ?_ (State.hide_onResident (by decide) _ _)
    refine keeps_of_hide ?_ (State.hide_foldl (fun s p => sendDatagram_frame (by decide) ..) _ _)
    exact exportRead_held _ _ _ _ _ hs
  clear_value s1
  split
  · exact keeps_of_hide h1 (State.hide_onResident (by decide) _ _)
  · exact h1

@[simp] theorem takeoverBlock_held (h : Nat) (s : State) (b : Nat) (hs : Keeps org s) : Keeps org (takeoverBlock h s b) := by
  unfold takeoverBlock
  split <;> simp [hs]

@[simp] theorem takeoverComplete_held (h : Nat) (s : State) (hs : Keeps org s) : Keeps org (takeoverComplete h s) := by
  unfold takeoverComplete
  split
  · split
    · exact hs
    · refine keeps_of_hide ?_ (raise_frame (by decide) ..)
      refine keeps_of_hide ?_ (onRegion_frame (by decide) ..)
      exact keeps_foldl (fun t b ht => takeoverBlock_held _ _ _ ht) _ hs
  · exact hs

/-! Losses of a die and of the keeper die (01, 15). -/

@[simp] theorem residentHeadless_held (s : State) (hs : Keeps org s) : Keeps org (residentHeadless s) := by
  unfold residentHeadless
  simp [hs]

@[simp] theorem serviceReached_held (s : State) (hs : Keeps org s) : Keeps org (serviceReached s) := by
  unfold serviceReached
  dsimp only
  split
  · simp [hs]
  · refine keeps_onKeeper (keeps_foldl (fun t f ht => keeps_of_hide ht (raise_frame (by decide) ..)) _ ?_) rfl
    simp [hs]

@[simp] theorem serviceCheck_held (s : State) (hs : Keeps org s) : Keeps org (serviceCheck s) := by
  unfold serviceCheck
  simp [hs]

@[simp] theorem stagingLost_held (s : State) (hs : Keeps org s) : Keeps org (stagingLost s) := by
  exact keeps_onKeeper hs rfl

@[simp] theorem loseDie_held (d cause : Nat) (s : State) (hs : Keeps org s) : Keeps org (loseDie d cause s) := by
  unfold loseDie
  simp [hs]

@[simp] theorem loseTileless_held (s : State) (hs : Keeps org s) : Keeps org (loseTileless s) := by
  exact keeps_foldl (fun t d ht => loseDie_held _ _ _ ht) _ hs

@[simp] theorem headlessEntry_held (s : State) (hs : Keeps org s) : Keeps org (headlessEntry s) := by
  have h1 : Keeps org (modesToHardware (s.onStart fun x => { x with headless := true })) := by simp [hs]
  unfold headlessEntry
  exact residentHeadless_held _ (keeps_of_hide (loseTileless_held _ h1) (expressHeadless_frame (by decide) ..))

@[simp] theorem darkPorts_held (s : State) (hs : Keeps org s) : Keeps org (darkPorts s) := by
  unfold darkPorts
  have h1 : Keeps org (portsDark (fun _ => true) ((upTo 8).foldl (fun s d => dieDark d (clearLatches d s)) s)) := by
    refine keeps_of_hide ?_ (portsDark_frame (by decide) ..)
    refine keeps_foldl (fun t d ht => keeps_of_hide ht ?_) _ hs
    rw [dieDark_frame (by decide), clearLatches_frame (by decide)]
  refine keeps_of_hide ?_ (halt_frame (by decide) ..)
  refine keeps_of_hide ?_ (State.hide_onStart (by decide) _ _)
  exact keeps_onKeeper (keeps_foldl (fun t n ht => keeps_of_hide ht (portDown_frame (by decide) ..)) _ h1) rfl

@[simp] theorem silentDies_held (s : State) (hs : Keeps org s) : Keeps org (silentDies s) := by
  exact keeps_foldl (fun t d ht => loseDie_held _ _ _ ht) _ hs

@[simp] theorem keeperLoss_held (s : State) (hs : Keeps org s) : Keeps org (keeperLoss s) := by
  unfold keeperLoss
  split
  · exact hs
  dsimp only
  generalize hu : State.onKeeper _ _ = u
  have h1 : Keeps org u := by
    rw [← hu]
    refine keeps_onKeeper (keeps_of_hide ?_ (State.hide_onStart (by decide) _ _)) rfl
    exact keeps_of_hide (silentDies_held _ hs) (State.hide_with_bop (by decide) _ _)
  split
  · exact h1
  split
  · exact headlessEntry_held _ (serviceCheck_held _ h1)
  · exact darkPorts_held _ h1

/-! Power and reset (13). -/

@[simp] theorem resetTo_held (st : DevState) (s : State) (hs : Keeps org s) : Keeps org (resetTo st s) := by
  refine ⟨hs.mem, fun _ => incsOk_reset s.time.wall4, hs.fuses⟩

@[simp] theorem powerDown_held (s : State) (hs : Keeps org s) : Keeps org (powerDown s) := by
  unfold powerDown
  dsimp only
  refine keeps_of_hide ?_ (State.hide_onPower (by decide) _ _)
  refine keeps_of_hide ?_ (State.hide_onRas (by decide) _ _)
  exact keeps_onKeeper (keeps_with_mem (resetTo_held _ _ hs) fun hw => Memory.wf_filter hw _) rfl

@[simp] theorem resetAssert_held (s : State) (hs : Keeps org s) : Keeps org (resetAssert s) := by
  unfold resetAssert
  simp [hs]

@[simp] theorem leaveReset_held (s : State) (hs : Keeps org s) : Keeps org (leaveReset s) := by
  unfold leaveReset
  simp [hs]

@[simp] theorem resetRelease_held (sel : Nat) (s : State) (hs : Keeps org s) : Keeps org (resetRelease sel s) := by
  unfold resetRelease
  simp [hs]

@[simp] theorem hardwareTrip_held (kind : TripKind) (die sensor : Nat) (reading : Int) (s : State) (hs : Keeps org s) :
    Keeps org (hardwareTrip kind die sensor reading s) := by
  unfold hardwareTrip
  simp [hs]

@[simp] theorem baseCheck_held (d : Nat) (s : State) (hs : Keeps org s) : Keeps org (baseCheck d s) := by
  unfold baseCheck
  simp [hs]

@[simp] theorem snapshotRefresh_held (d : Nat) (tj base : List Int) (vin iin : Nat) (s : State) (hs : Keeps org s) :
    Keeps org (snapshotRefresh d tj base vin iin s) := by
  unfold snapshotRefresh
  simp [hs]

/-! Start-up (14, 15). -/

@[simp] theorem fuseLoad_held (sensed : Bool) (s : State) (hs : Keeps org s) : Keeps org (fuseLoad sensed s) := by
  unfold fuseLoad
  split
  · exact hs
  split
  · exact keeps_of_hide (keeps_onKeeper hs rfl) (halt_frame (by decide) ..)
  · refine loseTileless_held _ (keeps_of_hide (keeps_of_hide ?_ (fusesApply_frame (by decide) _)) (enterState_frame (by decide) ..))
    exact keeps_onKeeper (keeps_of_hide hs (seedGens_frame (by decide) _)) rfl

@[simp] theorem bootHalt_held (cause : Nat) (s : State) (hs : Keeps org s) : Keeps org (bootHalt cause s) := by
  unfold bootHalt
  simp [hs]

@[simp] theorem restartTransfer_held (s : State) (hs : Keeps org s) : Keeps org (restartTransfer s) := by
  unfold restartTransfer
  simp [hs]

@[simp] theorem romBoot_held (s : State) (hs : Keeps org s) : Keeps org (romBoot s) := by
  unfold romBoot
  extract_lets uses s1 s2 s3 s4 s5
  have h1 : Keeps org s1 := measExtend_held _ _ _ (measExtend_held _ _ _ hs)
  have h2 : Keeps org s2 := by
    unfold s2
    split
    · exact keeps_of_hide (measEvent_held _ _ h1) (State.hide_onRas (by decide) _ _)
    · exact h1
  have h3 : Keeps org s3 := keeps_onKeeper h2 rfl
  have h4 : Keeps org s4 := by
    unfold s4
    split <;> simp [h3]
  have h5 : Keeps org s5 := keeps_onKeeper h4 rfl
  clear_value s1 s2 s3 s4 s5
  split
  · exact hs
  split
  · exact bootHalt_held _ _ hs
  split
  · exact bootHalt_held _ _ h3
  · exact keeps_of_hide (restartTransfer_held _ h5) (enterState_frame (by decide) ..)

@[simp] theorem romCopy_held (b : Bytes) (s : State) (hs : Keeps org s) : Keeps org (romCopy b s) := by
  exact keeps_putMem (keeps_memClear hs _ _) _ _

@[simp] theorem fwStart_held (b : Bytes) (s : State) (hs : Keeps org s) : Keeps org (fwStart b s) := by
  have h1 := measExtend_held 2 (slice b 48 32) _ (romCopy_held b s hs)
  unfold fwStart
  refine keeps_of_hide ?_ (enterState_frame (by decide) ..)
  refine keeps_onKeeper (keeps_of_hide ?_ (mpStart_frame (by decide) _)) rfl
  exact measExtend_held _ _ _ (measExtend_held _ _ _ h1)

@[simp] theorem flashFails_held (cause : Nat) (s : State) (hs : Keeps org s) : Keeps org (flashFails cause s) := by
  unfold flashFails
  extract_lets s1
  have h1 : Keeps org s1 := by
    unfold s1
    split
    · exact hs
    · exact romCopy_held _ _ hs
  clear_value s1
  split
  · exact bootHalt_held _ _ h1
  · exact restartTransfer_held _ (keeps_onKeeper (keeps_of_hide h1 (mpStart_frame (by decide) _)) rfl)

@[simp] theorem fwVerify_held (flashAnswers : Bool) (s : State) (hs : Keeps org s) : Keeps org (fwVerify flashAnswers s) := by
  unfold fwVerify
  simp [hs]

@[simp] theorem bootRequest_held (s : State) (hs : Keeps org s) : Keeps org (bootRequest s) := by
  unfold bootRequest
  extract_lets due
  clear_value due
  split
  · exact hs
  · refine keeps_foldl (fun t mp ht => ?_) _ (keeps_onKeeper hs rfl)
    split <;> simp [ht]

@[simp] theorem bootData_held (mp host : Nat) (m : Bytes) (s : State) (hs : Keeps org s) : Keeps org (bootData mp host m s) := by
  unfold bootData
  split
  · exact hs
  split
  · exact hs
  split
  · exact hs
  extract_lets take
  have hTake : ∀ t, Keeps org t → Keeps org (take t) := by
    intro t ht
    simp only [take]
    refine keeps_of_hide ?_ (emitOut_frame (by decide) ..)
    split
    · exact keeps_onKeeper (keeps_putMem (keeps_onKeeper ht rfl) _ _) rfl
    · exact keeps_onKeeper ht rfl
  clear_value take
  split
  · split
    · exact hTake _ hs
    · simp [hs]
  · split
    · exact hTake _ (keeps_onKeeper hs rfl)
    · exact hs

@[simp] theorem flashWrite_held (b : Bytes) (good : Bool) (s : State) (hs : Keeps org s) : Keeps org (flashWrite b good s) := by
  unfold flashWrite
  split
  · exact keeps_putMem hs _ _
  · exact keeps_putMem (keeps_of_hide hs (freeBytes_frame (by decide) ..)) _ _

@[simp] theorem bootEnd_held (mp host : Nat) (m : Bytes) (flashWriteGood : Bool) (s : State) (hs : Keeps org s) :
    Keeps org (bootEnd mp host m flashWriteGood s) := by
  unfold bootEnd
  split
  · exact hs
  split
  · exact hs
  extract_lets b c s1 status
  have h1 : Keeps org s1 := romCopy_held b s hs
  have hStatus : ∀ x t, Keeps org t → Keeps org (status x t) := fun x t ht => keeps_of_hide ht (emitOut_frame (by decide) ..)
  clear_value b c s1 status
  split
  · exact hStatus _ _ (restartTransfer_held _ (keeps_onKeeper h1 rfl))
  split
  · exact hStatus _ _ (fwStart_held _ _ (flashWrite_held _ _ _ h1))
  · exact hStatus _ _ (fwStart_held _ _ h1)

@[simp] theorem removeDie_held (d unitCause recorded : Nat) (s : State) (hs : Keeps org s) :
    Keeps org (removeDie d unitCause recorded s) := by
  unfold removeDie
  simp [hs]

@[simp] theorem memTrain_held (d : Nat) (failing : List Nat) (s : State) (hs : Keeps org s) :
    Keeps org (memTrain d failing s) := by
  unfold memTrain
  split
  · exact hs
  split
  · exact removeDie_held _ _ _ _ hs
  dsimp only
  have h1 : ∀ l : List Nat, Keeps org (l.foldl (fun s i => losePackage (3 * d + i) s) s) := fun l =>
    keeps_foldl (fun t i ht => keeps_of_hide ht (losePackage_frame (by decide) ..)) l hs
  split
  · exact removeDie_held _ _ _ _ (h1 _)
  · exact keeps_of_hide (keeps_memClear (h1 _) _ _) (State.hide_onStart (by decide) _ _)

@[simp] theorem libraryLoad_held (s : State) (hs : Keeps org s) : Keeps org (libraryLoad s) := by
  unfold libraryLoad
  simp [hs]

@[simp] theorem opticsCal_held (answering : BitVec 20) (s : State) (hs : Keeps org s) : Keeps org (opticsCal answering s) := by
  unfold opticsCal
  simp [hs, State.hide_foldl]

@[simp] theorem opticsCalEnd_held (s : State) (hs : Keeps org s) : Keeps org (opticsCalEnd s) := by
  unfold opticsCalEnd
  simp [hs, State.hide_foldl]

@[simp] theorem meshDeadLinks_held (n : Nat) (s : State) (hs : Keeps org s) : Keeps org (meshDeadLinks n s) := by
  induction n generalizing s with
  | zero => exact hs
  | succ n ih =>
    unfold meshDeadLinks
    split
    · exact hs
    · exact ih _ (removeDie_held _ _ _ _ hs)

@[simp] theorem linksChecked_held (s : State) (hs : Keeps org s) : Keeps org (linksChecked s) := by
  unfold linksChecked
  simp [hs]

@[simp] theorem marginTestEnd_held (s : State) (hs : Keeps org s) : Keeps org (marginTestEnd s) := by
  unfold marginTestEnd
  (repeat' split) <;> simp [hs, State.hide_foldl]

@[simp] theorem serviceMark_held (d : Nat) (s : State) (hs : Keeps org s) : Keeps org (serviceMark d s) := by
  unfold serviceMark
  simp [hs]

/-! Fuses: a copy is only ever given a value in which every bit of it that is blown stays blown (14 R427, R428). -/

/-- A value in which every bit of a fuse copy is set. -/
def Covers (v x : Nat) : Prop := ∀ b : Nat, x.testBit b = true → v.testBit b = true

theorem covers_of_lor {v x : Nat} (h : x ||| v = v) : Covers v x := by
  intro b hb
  rw [← h]
  simp [hb]

theorem covers_lor (x y : Nat) : Covers (x ||| y) x := by
  intro b hb
  simp [hb]

theorem FusesKept.set {f g : Tab Nat} (h : FusesKept f g) {k v : Nat} (hCover : Covers v (g.get k)) : FusesKept f (g.set k v) := by
  obtain ⟨hw, hBits⟩ := h
  refine ⟨Tab.wf_set hw k v, fun j b hb => ?_⟩
  rw [Tab.get_set hw]
  split
  · rename_i hk
    subst hk
    exact hCover b (hBits k b hb)
  · exact hBits j b hb

theorem setFuse_held_of_covers {f c v : Nat} {s : State} (hs : Keeps org s)
    (hCover : org.keeper.fuses.wf = true → Covers v (fuseCopy s f c)) : Keeps org (setFuse f c v s) :=
  ⟨hs.mem, hs.incs, fun ha => (hs.fuses ha).set (hCover ha)⟩

theorem fuseCopy_setFuse {f c d v : Nat} {s : State} (hw : s.keeper.fuses.wf = true) (hNe : c ≠ d) :
    fuseCopy (setFuse f c v s) f d = fuseCopy s f d := by
  unfold fuseCopy setFuse
  simp [Tab.get_set hw, hNe]

/-- One copy of `programCopies`. -/
def programCopy (f v : Nat) (bad : Option Nat) (s : State) (c : Nat) : State :=
  match bad with
  | none => setFuse f c v s
  | some b =>
    if c < b then setFuse f c v s
    else if c = b then setFuse f c (fuseCopy s f c ||| Config.freeValue s.free % 2 ^ (fuseBits f).getD 1) (draw s).2
    else s

theorem programCopies_eq_foldl (f v : Nat) (bad : Option Nat) (s : State) :
    programCopies f v bad s = (upTo 3).foldl (programCopy f v bad) s := by
  unfold programCopies
  congr 1
  funext t c
  cases bad <;> rfl

theorem programCopy_held {f v c : Nat} (bad : Option Nat) {s : State} (hs : Keeps org s)
    (hCover : org.keeper.fuses.wf = true → Covers v (fuseCopy s f c)) : Keeps org (programCopy f v bad s c) := by
  unfold programCopy
  split
  · exact setFuse_held_of_covers hs hCover
  split
  · exact setFuse_held_of_covers hs hCover
  split
  · exact setFuse_held_of_covers (keeps_of_hide hs (draw_frame (by decide) s)) fun _ => covers_lor _ _
  · exact hs

theorem fuseCopy_programCopy {f v c d : Nat} (bad : Option Nat) {s : State} (hw : s.keeper.fuses.wf = true) (hNe : c ≠ d) :
    fuseCopy (programCopy f v bad s c) f d = fuseCopy s f d := by
  unfold programCopy
  split
  · exact fuseCopy_setFuse hw hNe
  split
  · exact fuseCopy_setFuse hw hNe
  split
  · exact fuseCopy_setFuse (s := (draw s).2) hw hNe
  · rfl

theorem programCopy_foldl_held {f v : Nat} (bad : Option Nat) {l : List Nat} (hl : l.Nodup) {s : State}
    (hs : Keeps org s) (hCover : ∀ c ∈ l, org.keeper.fuses.wf = true → Covers v (fuseCopy s f c)) :
    Keeps org (l.foldl (programCopy f v bad) s) := by
  induction l generalizing s with
  | nil => exact hs
  | cons c l ih =>
    obtain ⟨hNew, hRest⟩ := List.nodup_cons.mp hl
    refine ih hRest (programCopy_held bad hs (hCover c (List.mem_cons_self ..))) fun d hd ha => ?_
    have hNe : c ≠ d := by
      rintro rfl
      exact hNew hd
    rw [fuseCopy_programCopy (s := s) bad (hs.fuses ha).1 hNe]
    exact hCover d (List.mem_cons_of_mem _ hd) ha

/-- A program that begins covers every copy of its field. -/
theorem covers_of_fuseRefusal {s : State} {f v : Nat} (h : fuseRefusal s f v = 0) : ∀ c ∈ upTo 3, Covers v (fuseCopy s f c) := by
  intro c hc
  unfold fuseRefusal at h
  split at h
  · simp at h
  split at h
  · simp at h
  · rename_i hOk
    refine covers_of_lor (Classical.byContradiction fun hNot => hOk ?_)
    simp only [Bool.or_eq_true, List.any_eq_true, bne_iff_ne]
    exact Or.inr ⟨c, hc, hNot⟩

/-! Fuse programs, updates and evidence (14). -/

@[simp] theorem setFuseResult_held (r : Nat) (s : State) (hs : Keeps org s) : Keeps org (setFuseResult r s) := by
  unfold setFuseResult
  simp [hs]

@[simp] theorem fuseField_held (f v : Nat) (bad : Option Nat) (s : State) (hs : Keeps org s) :
    Keeps org (fuseField f v bad s) := by
  unfold fuseField
  dsimp only
  split
  · simp [hs]
  · rename_i hOk
    refine setFuseResult_held _ _ ?_
    rw [programCopies_eq_foldl]
    exact programCopy_foldl_held _ (by decide) hs fun c hc _ => covers_of_fuseRefusal (not_not.mp hOk) c hc

@[simp] theorem fuseProgram_held (f v : Nat) (bad : Option Nat) (s : State) (hs : Keeps org s) :
    Keeps org (fuseProgram f v bad s) := by
  unfold fuseProgram
  have h1 := keeps_of_hide (fuseField_held f v bad s hs) (answer_frame (by decide) stDone _)
  dsimp only
  split
  · exact measEvent_held _ _ h1
  · exact h1

@[simp] theorem fwStageOffsetWrite_held (v : Nat) (s : State) (hs : Keeps org s) : Keeps org (fwStageOffsetWrite v s) := by
  unfold fwStageOffsetWrite
  simp [hs]

@[simp] theorem fwStageData_held (data : Bytes) (s : State) (hs : Keeps org s) : Keeps org (fwStageData data s) := by
  unfold fwStageData
  split
  · simp [hs]
  split
  · simp [hs]
  dsimp only
  split
  · simp [hs]
  · exact keeps_of_hide (keeps_onKeeper (keeps_putMem hs _ _) rfl) (answer_frame (by decide) ..)

@[simp] theorem fwCommit_held (s : State) (hs : Keeps org s) : Keeps org (fwCommit s) := by
  unfold fwCommit
  split
  · simp [hs]
  extract_lets b c s1
  have h1 : Keeps org s1 := keeps_of_hide hs (answer_frame (by decide) stDone s)
  clear_value b c s1
  split
  · exact keeps_onKeeper h1 rfl
  · exact keeps_onKeeper (keeps_putMem h1 _ _) rfl

@[simp] theorem fwFlashWriteDone_held (good : Bool) (s : State) (hs : Keeps org s) : Keeps org (fwFlashWriteDone good s) := by
  unfold fwFlashWriteDone
  simp [hs]

@[simp] theorem blowSteps_held (l : List Nat) (s : State) (hs : Keeps org s) : Keeps org (blowSteps l s) := by
  induction l generalizing s with
  | nil => exact hs
  | cons k r ih =>
    have h1 := fuseField_held (25 + k) 1 none s hs
    unfold blowSteps
    dsimp only
    split
    · exact h1
    · exact ih _ (keeps_onKeeper h1 rfl)

@[simp] theorem badStep_held (steps : List Nat) (n : StepsBlown) (s : State) (hs : Keeps org s) :
    Keeps org (badStep steps n s) := by
  unfold badStep
  split <;> simp [hs]

@[simp] theorem rollbackAdvance_held (v : Nat) (n : StepsBlown) (s : State) (hs : Keeps org s) :
    Keeps org (rollbackAdvance v n s) := by
  unfold rollbackAdvance
  split
  · simp [hs]
  split
  · simp [hs]
  have h1 : Keeps org (answer stDone (badStep (rollbackSteps s v) n (blowSteps ((rollbackSteps s v).take n.completed) s))) :=
    keeps_of_hide (badStep_held _ _ _ (blowSteps_held _ _ hs)) (answer_frame (by decide) ..)
  dsimp only
  split
  · exact measEvent_held _ _ h1
  · exact h1

@[simp] theorem attestRequest_held (nonce : Bytes) (s : State) (hs : Keeps org s) : Keeps org (attestRequest nonce s) := by
  unfold attestRequest
  simp [hs]

@[simp] theorem attestReportDone_held (s : State) (hs : Keeps org s) : Keeps org (attestReportDone s) := by
  unfold attestReportDone
  split <;> simp [hs]

@[simp] theorem measExtendWrite_held (index : Nat) (digest : Bytes) (s : State) (hs : Keeps org s) :
    Keeps org (measExtendWrite index digest s) := by
  unfold measExtendWrite
  simp [hs]

@[simp] theorem logOne_held (s : State) (hs : Keeps org s) : Keeps org (logOne s) := by
  have h1 := keeps_of_hide (keeps_of_hide hs (draw_frame (by decide) s)) (draw_frame (by decide) _)
  unfold logOne
  dsimp only
  split
  · exact h1
  · exact keeps_onKeeper (keeps_of_hide h1 (freeBytes_frame (by decide) ..)) rfl

@[simp] theorem logSome_held (n : Nat) (s : State) (hs : Keeps org s) : Keeps org (logSome n s) := by
  induction n generalizing s with
  | zero => exact hs
  | succ n ih => exact ih _ (logOne_held _ hs)

@[simp] theorem logRead_held (i : Nat) (s : State) (hs : Keeps org s) : Keeps org (logRead i s) := by
  unfold logRead
  split
  · exact hs
  split
  · exact hs
  have h1 := fun n => logSome_held (org := org) n (draw s).2 (keeps_of_hide hs (draw_frame (by decide) s))
  exact keeps_of_hide (keeps_onKeeper (h1 _) rfl) (State.hide_onBop (by decide) _ _)

/-! Registers and mailboxes (17). -/

@[simp] theorem regRead_held (m die block word : Nat) (s : State) (hs : Keeps org s) :
    Keeps org (regRead m die block word s).2 := by
  unfold regRead
  simp [hs]

@[simp] theorem timeRegWrite_held (w : Nat) (v : Word) (s : State) (hs : Keeps org s) : Keeps org (timeRegWrite w v s) := by
  unfold timeRegWrite
  split <;> simp [hs]

@[simp] theorem regStore_held (m die block word : Nat) (v : Word) (s : State) (hs : Keeps org s) :
    Keeps org (regStore m die block word v s) := by
  unfold regStore
  split <;> simp [hs]

@[simp] theorem mbReads_held (m die block : Nat) (n w i : Nat) (s : State) (hs : Keeps org s) :
    Keeps org (mbReads m die block n w i s) := by
  induction n generalizing w i s with
  | zero => exact hs
  | succ n ih =>
    exact ih _ _ _ (keeps_of_hide (regRead_held m die block w s hs) (onMailbox_frame (by decide) ..))

@[simp] theorem mbWrites_held (m die block : Nat) (data : Tab Word) (n w i : Nat) (s : State) (hs : Keeps org s) :
    Keeps org (mbWrites m die block data n w i s) := by
  induction n generalizing w i s with
  | zero => exact hs
  | succ n ih => exact ih _ _ _ (regStore_held _ _ _ _ _ _ hs)

@[simp] theorem mbTransfer_held (m die : Nat) (s : State) (hs : Keeps org s) : Keeps org (mbTransfer m die s) := by
  unfold mbTransfer
  dsimp only
  split
  · simp [hs]
  split
  · simp [hs]
  · simp [hs]
  · simp [hs]
  · refine keeps_of_hide ?_ (onMailbox_frame (by decide) ..)
    split <;> simp [hs]

@[simp] theorem mbCtlWrite_held (m die : Nat) (v : Word) (s : State) (hs : Keeps org s) : Keeps org (mbCtlWrite m die v s) := by
  unfold mbCtlWrite
  simp [hs]

@[simp] theorem mbRegWrite_held (m die w : Nat) (v : Word) (s : State) (hs : Keeps org s) :
    Keeps org (mbRegWrite m die w v s) := by
  unfold mbRegWrite
  (repeat' split) <;> simp [hs]

@[simp] theorem bitWrite_held (m die block word b : Nat) (value : Bool) (s : State) (hs : Keeps org s) :
    Keeps org (bitWrite m die block word b value s) := by
  unfold bitWrite
  simp [hs]

theorem guardReg_held (m die block word : Nat) (k : State → State) (hk : ∀ t, Keeps org t → Keeps org (k t)) (s : State)
    (hs : Keeps org s) : Keeps org (guardReg m die block word k s) := by
  unfold guardReg
  split
  · exact hk _ hs
  all_goals simp [hs]

@[simp] theorem aliasWrite_held (m die w : Nat) (value : Bool) (s : State) (hs : Keeps org s) :
    Keeps org (aliasWrite m die w value s) := by
  unfold aliasWrite
  split
  · exact guardReg_held _ _ _ _ _ (fun t ht => bitWrite_held _ _ _ _ _ _ _ ht) _ hs
  · simp [hs]
  · simp [hs]

@[simp] theorem readOn_held (m die block word : Nat) (s : State) (hs : Keeps org s) :
    Keeps org (readOn m die block word s).2.2 := by
  have hMiss : ∀ (x : Acc) (t : State), Keeps org t → Keeps org ((match x with
      | .denied => (x, (0 : Word), count die 0xD001 0 1 t)
      | .absent => (x, 0, count die 0x0001 0 1 t)
      | _ => (.busError, 0, countBusError t die) : Acc × Word × State)).2.2 := by
    intro x t ht
    cases x <;> simp [ht]
  unfold readOn
  dsimp only
  split
  · split
    · split
      · exact regRead_held m _ _ _ _ hs
      · exact hMiss _ _ hs
    · exact regRead_held m _ _ _ _ hs
  · exact hMiss _ _ hs

@[simp] theorem writeOn_held (m die block word : Nat) (v : Word) (s : State) (hs : Keeps org s) :
    Keeps org (writeOn m die block word v s) := by
  unfold writeOn
  split
  · exact aliasWrite_held _ _ _ _ _ hs
  · refine guardReg_held _ _ _ _ _ (fun t ht => ?_) _ hs
    split
    · exact mbRegWrite_held _ _ _ _ _ ht
    · exact regStore_held _ _ _ _ _ _ ht

@[simp] theorem broadcastWrite_held (m block word : Nat) (v : Word) (s : State) (hs : Keeps org s) :
    Keeps org (broadcastWrite m block word v s) := by
  unfold broadcastWrite
  split
  · simp [hs]
  split
  · simp [hs]
  · exact keeps_foldl (fun t d ht => writeOn_held _ _ _ _ _ _ ht) _ hs

@[simp] theorem regWrite_held (m : Nat) (a v : Word) (s : State) (hs : Keeps org s) : Keeps org (regWrite m a v s) := by
  unfold regWrite
  simp [hs]

@[simp] theorem regReadAt_held (m : Nat) (a : Word) (s : State) (hs : Keeps org s) : Keeps org (regReadAt m a s).2 := by
  unfold regReadAt
  split
  · simp [hs]
  · exact readOn_held _ _ _ _ _ hs

@[simp] theorem burstRead_held (m : Nat) (a : Word) (n : Nat) (s : State) (hs : Keeps org s) :
    Keeps org (burstRead m a n s).2.2 := by
  induction n generalizing a s with
  | zero => exact hs
  | succ n ih =>
    have h1 := regReadAt_held m a s hs
    unfold burstRead
    split
    · rename_i e
      exact keeps_snd e h1
    · rename_i v t e
      exact ih _ _ (keeps_snd e h1)

@[simp] theorem burstWrite_held (m : Nat) (a : Word) (l : List Word) (s : State) (hs : Keeps org s) :
    Keeps org (burstWrite m a l s).2.2 := by
  induction l generalizing a s with
  | nil => exact hs
  | cons v r ih =>
    have h1 := regWrite_held m a v s hs
    unfold burstWrite
    dsimp only
    split
    · exact h1
    · exact ih _ _ h1

@[simp] theorem windowAccess_held (role : Role) (a : Word) (count : Nat) (write : Option (List Word)) (s : State)
    (hs : Keeps org s) : Keeps org (windowAccess role a count write s).2 := by
  unfold windowAccess
  split
  · exact hs
  split
  · exact burstRead_held _ _ _ _ hs
  split
  · exact hs
  · exact burstWrite_held _ _ _ _ hs

@[simp] theorem windowCommand_held (role : Role) (i sub count : Nat) (write : Option (List Word)) (s : State) (hs : Keeps org s) :
    Keeps org (windowCommand role i sub count write s) := by
  unfold windowCommand
  split
  · exact hs
  split
  · simp [hs]
  · exact keeps_of_hide (windowAccess_held _ _ _ _ _ hs) (State.hide_with_bop (by decide) _ _)

@[simp] theorem jtagMark_held (write : Bool) (s : State) (hs : Keeps org s) : Keeps org (jtagMark write s) := by
  unfold jtagMark
  simp [hs]

/-! Self-tests and the objects (18, 16). -/

@[simp] theorem cellSelftest_held (die tile row pos opcode : Nat) (cell partner store reference : Bool) (s : State)
    (hs : Keeps org s) : Keeps org (cellSelftest die tile row pos opcode cell partner store reference s) := by
  unfold cellSelftest
  simp [hs]

@[simp] theorem crosscheckRetest_held (die tile : Nat) (fails : Bool) (s : State) (hs : Keeps org s) :
    Keeps org (crosscheckRetest die tile fails s) := by
  unfold crosscheckRetest
  simp [hs]

@[simp] theorem readClears_held (idx sub : Nat) (s : State) (hs : Keeps org s) : Keeps org (readClears idx sub s) := by
  unfold readClears
  simp [hs]

@[simp] theorem readFresh_held (idx sub : Nat) (s : State) (hs : Keeps org s) : Keeps org (readFresh idx sub s) := by
  unfold readFresh
  split
  · exact logSome_held _ _ (keeps_of_hide hs (draw_frame (by decide) s))
  split
  · simp [hs]
  split
  · simp [hs]
  split
  · exact keeps_of_hide (keeps_of_hide hs (draw_frame (by decide) s)) (onLane_frame (by decide) ..)
  · exact hs

@[simp] theorem groupDeleteList_held (l : List Nat) (s : State) (hs : Keeps org s) : Keeps org (groupDeleteList l s).2 := by
  refine keeps_foldl_snd (fun x g hx => ?_) _ hs
  exact groupDelete_held _ _ hx

@[simp] theorem write01_held (sk idx sub : Nat) (v : Bytes) (s : State) (hs : Keeps org s) :
    Keeps org (write01 sk idx sub v s) := by
  unfold write01
  (repeat' split) <;> simp [hs]

@[simp] theorem write0A_held (idx sub : Nat) (v : Bytes) (s : State) (hs : Keeps org s) : Keeps org (write0A idx sub v s) := by
  unfold write0A
  split
  · simp [hs]
  · simp [hs]
  · split
    · exact keeps_of_hide (keeps_of_hide hs (groupCreateList_frame (by decide) ..)) (State.hide_onBop (by decide) _ _)
    · simp [hs]
  · split
    · simp [hs]
    · exact keeps_of_hide (groupDeleteList_held _ _ hs) (State.hide_onBop (by decide) _ _)
  · simp [hs]
  · simp [hs]

@[simp] theorem write0B_held (idx sub : Nat) (v : Bytes) (s : State) (hs : Keeps org s) : Keeps org (write0B idx sub v s) := by
  unfold write0B
  split <;> simp [hs]

@[simp] theorem write0C_held (idx sub : Nat) (v : Bytes) (s : State) (hs : Keeps org s) : Keeps org (write0C idx sub v s) := by
  unfold write0C
  (repeat' split) <;> simp [hs]

@[simp] theorem write0D_held (idx sub : Nat) (v : Bytes) (s : State) (hs : Keeps org s) : Keeps org (write0D idx sub v s) := by
  unfold write0D
  split <;> simp [hs]

@[simp] theorem write1F_held (r : Role) (sk sub : Nat) (v : Bytes) (s : State) (hs : Keeps org s) :
    Keeps org (write1F r sk sub v s) := by
  unfold write1F
  split <;> simp [hs]

@[simp] theorem objEffect_held (r : Role) (sk idx sub : Nat) (v : Bytes) (s : State) (hs : Keeps org s) :
    Keeps org (objEffect r sk idx sub v s) := by
  unfold objEffect
  (repeat' split) <;> simp [hs]

@[simp] theorem objWrite_held (r : Role) (sk idx sub : Nat) (v : Bytes) (s : State) (hs : Keeps org s) :
    Keeps org (objWrite r sk idx sub v s) := by
  unfold objWrite
  simp [hs]

@[simp] theorem opRead_held (r : Role) (sk : Nat) (o : BopOp) (isList : Bool) (room : Nat) (s : State) (hs : Keeps org s) :
    Keeps org (opRead r sk o isList room s).2 := by
  unfold opRead
  split
  · exact hs
  dsimp only
  split
  · split
    · exact hs
    · exact windowAccess_held _ _ _ _ _ hs
  have h1 := readFresh_held o.index o.sub s hs
  split
  · exact keeps_of_hide (keeps_onKeeper h1 rfl) (onSess_frame (by decide) ..)
  split
  · exact h1
  · exact h1
  · split
    · exact h1
    · exact readClears_held _ _ _ h1

@[simp] theorem opRun_held (r : Role) (sk : Nat) (o : BopOp) (room : Nat) (s : State) (hs : Keeps org s) :
    Keeps org (opRun r sk o room s).2 := by
  have hCut : ∀ p : OpResult × State, Keeps org p.2 →
      Keeps org (if room < p.1.value.length then (⟨stBadLength, [], 0⟩, p.2) else p).2 := by
    intro p hp
    split <;> exact hp
  refine hCut _ ?_
  split
  · dsimp only
    split <;> simp [hs]
  · simp [hs]
  · dsimp only
    split <;> simp [hs]
  · exact hs
  · exact hs

@[simp] theorem takeRecords_held (o : BopOp) (l : List Bytes) (s : State) (hs : Keeps org s) :
    Keeps org (takeRecords o l s).2 := by
  unfold takeRecords
  split <;> simp [hs]

@[simp] theorem recordTurn_held (role : Role) (stop : Bool) (room : Nat) (o : BopOp) (r : Run) (s : State) (hs : Keeps org s) :
    Keeps org (recordTurn role stop room o r s).2 := by
  unfold recordTurn
  dsimp only
  split
  · exact hs
  split
  · exact hs
  rename_i l _
  have h1 := takeRecords_held o ((l.drop r.taken).take 64) s hs
  exact keeps_ite_snd hs (keeps_ite_snd h1 h1) 

@[simp] theorem runTurn_held (role : Role) (sk : Nat) (stop : Bool) (o : BopOp) (r : Run) (s : State) (hs : Keeps org s) :
    Keeps org (runTurn role sk stop o r s).2 := by
  unfold runTurn
  (repeat' split) <;> simp [hs]

@[simp] theorem sessionTurn_held (sk : Nat) (s : State) (hs : Keeps org s) : Keeps org (sessionTurn sk s) := by
  unfold sessionTurn
  split
  · exact hs
  split
  · exact hs
  dsimp only
  split
  · simp [hs]
  · rename_i x _ _ q _ _ _ o _ _
    have h1 := fun r t ht => runTurn_held (org := org) x.role sk (bit q.flags 1) o r t ht
    split
    · exact h1 _ _ (by simp [hs])
    split
    · exact keeps_of_hide (h1 _ _ (by simp [hs])) (completeRequest_frame (by decide) ..)
    · exact keeps_of_hide (h1 _ _ (by simp [hs])) (onSess_frame (by decide) ..)

@[simp] theorem roundTurn_held (s : State) (hs : Keeps org s) : Keeps org (roundTurn s) := by
  unfold roundTurn
  split <;> simp [hs]

@[simp] theorem serveUntil_held (sk seq : Nat) (n : Nat) (s : State) (hs : Keeps org s) : Keeps org (serveUntil sk seq n s) := by
  induction n generalizing s with
  | zero => exact hs
  | succ n ih =>
    unfold serveUntil
    split
    · exact ih _ (roundTurn_held _ hs)
    · exact hs

@[simp] theorem serveRequest_held (sk : Nat) (s : State) (hs : Keeps org s) : Keeps org (serveRequest sk s) := by
  unfold serveRequest
  split <;> simp [hs]

@[simp] theorem requestExecute_held (k : Nat) (s : State) (hs : Keeps org s) : Keeps org (requestExecute k s) := by
  unfold requestExecute
  simp [hs]

@[simp] theorem domainRequest_held (mp source : Nat) (d : Bytes) (s : State) (hs : Keeps org s) :
    Keeps org (domainRequest mp source d s) := by
  unfold domainRequest
  split
  · exact hs
  split
  · simp [hs]
  split
  · exact hs
  dsimp only
  split
  · split
    · simp [hs]
    · refine serveRequest_held _ _ ?_
      split <;> simp [hs]
  · simp [hs]

@[simp] theorem tick_held (s : State) (hs : Keeps org s) : Keeps org (tick s) := by
  unfold tick
  dsimp only
  split
  · exact ⟨hs.mem, hs.incs, hs.fuses⟩
  · have h1 : Keeps org { s with time := { s.time with wall4 := s.time.wall4 + 5 } } := ⟨hs.mem, hs.incs, hs.fuses⟩
    split
    · exact leaveReset_held _ h1
    · exact h1

end

/-! The commands and the step. -/

theorem keeps_of_next {a t u : State} (hStep : Host.Outcome.next u = (.next t : Host.Outcome State Fault Refusal)) (h : Keeps a u) :
    Keeps a t := by
  cases hStep
  exact h

theorem keeps_of_onlyChanges {l : List Part} {s t : State} (h : OnlyChanges l s t)
    (hParts : Part.mem ∉ l ∧ Part.time ∉ l ∧ Part.keeper ∉ l) : Keeps s t := by
  obtain ⟨hMem, hTime, hKeeper⟩ := hParts
  have h1 : t.mem = s.mem := h .mem hMem
  have h2 : t.time = s.time := h .time hTime
  have h3 : t.keeper = s.keeper := h .keeper hKeeper
  refine ⟨fun hs => ?_, fun hs => ?_, fun hs => ?_⟩
  · show Memory.wf t.mem = true
    rwa [h1]
  · show IncsOk t.time
    rwa [h2]
  · show FusesKept s.keeper.fuses t.keeper.fuses
    rw [h3]
    exact FusesKept.refl hs

theorem guardWrite_held {a : State} (r : Role) (idx sub : Nat) {k : State → State} {s : State} (hs : Keeps a s)
    (hk : Keeps a (k s)) : Keeps a (guardWrite r idx sub k s) := by
  unfold guardWrite
  split
  · exact hs
  · dsimp only
    split
    · exact hk
    · exact keeps_of_hide hs (answer_frame (by decide) ..)

theorem guardRead_held {a : State} (m die block word : Nat) {k : State → State} {s : State} (hs : Keeps a s)
    (hk : Keeps a (k s)) : Keeps a (guardRead m die block word k s) := by
  unfold guardRead
  split
  · exact hk
  all_goals simp [hs]

theorem mpTake_held {a : State} (mp : Nat) {f : State → State} {s : State} (hs : Keeps a s)
    (hf : ∀ t, Keeps a t → Keeps a (f t)) : Keeps a (mpTake mp f s) := by
  have h1 : Keeps a (mpBudget mp s).2 := keeps_of_hide hs (mpBudget_frame (by decide) ..)
  unfold mpTake
  dsimp only
  split
  · exact hf _ h1
  · exact keeps_of_hide h1 (count_frame (by decide) ..)

theorem keeps_of_power {c : Instr} {s t : State} (hFamily : family c = .power) (hStep : exec c s = .next t) : Keeps s t := by
  have hs := Keeps.refl s
  cases c <;> cases hFamily
  all_goals
    refine keeps_of_next hStep ?_
    simp [hs]

theorem keeps_of_startUp {c : Instr} {s t : State} (hFamily : family c = .startUp) (hStep : exec c s = .next t) : Keeps s t := by
  have hs := Keeps.refl s
  cases c <;> cases hFamily
  case bootData | bootEnd =>
    refine keeps_of_next hStep ?_
    split
    · refine mpTake_held _ hs fun t ht => ?_
      simp [ht]
    · exact hs
  all_goals
    refine keeps_of_next hStep ?_
    simp [hs]

theorem keeps_of_time {c : Instr} {s t : State} (hFamily : family c = .time) (hStep : exec c s = .next t) : Keeps s t := by
  have hs := Keeps.refl s
  cases c <;> cases hFamily
  case tmuIncWrite | tmuStepGo =>
    refine keeps_of_next hStep (guardReg_held _ _ _ _ _ (fun t ht => ?_) _ hs)
    simp [ht]
  case timeStep | ppsTarget =>
    refine keeps_of_next hStep (guardWrite_held _ _ _ hs ?_)
    simp [hs]
  case tmuNowRead =>
    refine keeps_of_next hStep (guardRead_held _ _ _ _ hs ?_)
    simp [hs]
  all_goals
    refine keeps_of_next hStep ?_
    simp [hs]

theorem keeps_of_tables {c : Instr} {s t : State} (hFamily : family c = .tables) (hStep : exec c s = .next t) : Keeps s t := by
  have hs := Keeps.refl s
  cases c <;> cases hFamily
  case sweeperVisit | learnRecordApply | digestCompare =>
    exact keeps_of_onlyChanges (onlyChanges_of_tables rfl hStep) (by simp [touches])
  all_goals
    refine keeps_of_next hStep ?_
    simp [hs]

theorem keeps_of_switching {c : Instr} {s t : State} (hFamily : family c = .switching) (hStep : exec c s = .next t) : Keeps s t := by
  have hs := Keeps.refl s
  cases c <;> cases hFamily
  case creditReturn | schedulerDecision | spreaderSendCell | meshCellReceive | reasmTimeout | reseqPass | reseqSkip |
      egressUnderrun | ageHeadExamine | contextReadback | wheelSlotRelease | creditWordSend | closeApply |
      creditWatchExpire | pfcRepeat | pauseExpire | pauseWatchTrip | pauseRecoverEnd =>
    exact keeps_of_onlyChanges (onlyChanges_of_switching rfl hStep) (by simp [touches])
  all_goals
    refine keeps_of_next hStep ?_
    simp [hs]

theorem keeps_of_collectives {c : Instr} {s t : State} (hFamily : family c = .collectives) (hStep : exec c s = .next t) : Keeps s t := by
  have hs := Keeps.refl s
  cases c <;> cases hFamily
  case residualLockGrant => exact keeps_of_onlyChanges (onlyChanges_of_collectives rfl hStep) (by simp [touches])
  case groupDelete =>
    refine keeps_of_next hStep (guardWrite_held _ _ _ hs ?_)
    simp [hs]
  case resultSendComplete =>
    refine keeps_of_next hStep ?_
    split
    · exact hs
    dsimp only
    split
    · simp [hs]
    · split <;> simp [hs]
  all_goals
    refine keeps_of_next hStep ?_
    simp [hs]

theorem keeps_of_fabric {c : Instr} {s t : State} (hFamily : family c = .fabric) (hStep : exec c s = .next t) : Keeps s t := by
  have hs := Keeps.refl s
  cases c <;> cases hFamily
  case imageFault => exact keeps_of_onlyChanges (onlyChanges_of_fabric rfl hStep) (by simp [touches])
  case imageStageData | imageCommit | imageUnplace | spareSwitch =>
    refine keeps_of_next hStep (guardWrite_held _ _ _ hs ?_)
    simp [hs]
  case cellRetire =>
    refine keeps_of_next hStep ?_
    split
    · exact hs
    · refine loseTileless_held _ ?_
      (repeat' split) <;> simp [hs]
  all_goals
    refine keeps_of_next hStep ?_
    simp [hs]

theorem keeps_of_resident {c : Instr} {s t : State} (hFamily : family c = .resident) (hStep : exec c s = .next t) : Keeps s t := by
  have hs := Keeps.refl s
  cases c <;> cases hFamily
  case regionControlData | mirrorResolve | importClose =>
    refine keeps_of_next hStep (guardWrite_held _ _ _ hs ?_)
    simp [hs]
  all_goals
    refine keeps_of_next hStep ?_
    simp [hs]

theorem keeps_of_lanes {c : Instr} {s t : State} (hFamily : family c = .lanes) (hStep : exec c s = .next t) : Keeps s t := by
  have hs := Keeps.refl s
  cases c <;> cases hFamily
  case lcbSend | beaconCheckComplete | lcmResend | marginDwell | marginEstimate | marginReportSend =>
    exact keeps_of_onlyChanges (onlyChanges_of_lanes rfl hStep) (by simp [touches])
  all_goals
    refine keeps_of_next hStep ?_
    simp [hs]

theorem keeps_of_express {c : Instr} {s t : State} (hFamily : family c = .express) (hStep : exec c s = .next t) : Keeps s t := by
  have hs := Keeps.refl s
  cases c <;> cases hFamily
  all_goals
    refine keeps_of_next hStep ?_
    simp [hs]

theorem keeps_of_ports {c : Instr} {s t : State} (hFamily : family c = .ports) (hStep : exec c s = .next t) : Keeps s t := by
  have hs := Keeps.refl s
  cases c <;> cases hFamily
  case epTrainTimeout | moduleActivate | moduleActivateTimeout | modulePoll | mpFrameReceive | linkTrainingTimeout =>
    exact keeps_of_onlyChanges (onlyChanges_of_ports rfl hStep) (by simp [touches])
  all_goals
    refine keeps_of_next hStep ?_
    simp [hs]

theorem keeps_of_keeper {c : Instr} {s t : State} (hFamily : family c = .keeper) (hStep : exec c s = .next t) : Keeps s t := by
  have hs := Keeps.refl s
  cases c <;> cases hFamily
  case ringLockMode | migrationMode | marginMode =>
    exact keeps_of_onlyChanges (onlyChanges_of_keeper rfl hStep) (by simp [touches])
  case fuseProgram | fwStageData | fwCommit | rollbackAdvance | attestRequest | measExtend | spareMode =>
    refine keeps_of_next hStep (guardWrite_held _ _ _ hs ?_)
    simp [hs]
  case frameAddressedToKeeper =>
    refine keeps_of_next hStep ?_
    split
    · exact hs
    split
    · exact hs
    rename_i port f r _ _
    have h1 : ∀ d, Keeps s (s.onSwitch fun x => { x with keeperIn := x.keeperIn.set d r }) := by simp [hs]
    dsimp only
    split
    · exact importFrame_held _ _ (h1 _)
    split
    · exact h1 _
    split
    · exact keeps_of_hide (h1 _) (emitOut_frame (by decide) ..)
    · exact h1 _
  all_goals
    refine keeps_of_next hStep ?_
    simp [hs]

theorem keeps_of_protocol {c : Instr} {s t : State} (hFamily : family c = .protocol) (hStep : exec c s = .next t) : Keeps s t := by
  have hs := Keeps.refl s
  cases c <;> cases hFamily
  case sessionIdleExpire | keyWrite =>
    exact keeps_of_onlyChanges (onlyChanges_of_protocol rfl hStep) (by simp [touches])
  case domainRequest =>
    refine keeps_of_next hStep ?_
    split
    · exact mpTake_held _ hs fun t ht => domainRequest_held _ _ _ _ ht
    · exact hs
  all_goals
    refine keeps_of_next hStep ?_
    simp [hs]

theorem keeps_of_registers {c : Instr} {s t : State} (hFamily : family c = .registers) (hStep : exec c s = .next t) : Keeps s t := by
  have hs := Keeps.refl s
  cases c <;> cases hFamily
  case resume => exact keeps_of_onlyChanges (onlyChanges_of_registers rfl hStep) (by simp [touches])
  case mbGo =>
    refine keeps_of_next hStep (guardReg_held _ _ _ _ _ (fun t ht => ?_) _ hs)
    simp [ht]
  case absentUnitAccess =>
    refine keeps_of_next hStep ?_
    (repeat' split) <;> simp [hs]
  all_goals
    refine keeps_of_next hStep ?_
    simp [hs]

theorem keeps_of_reliability {c : Instr} {s t : State} (hFamily : family c = .reliability) (hStep : exec c s = .next t) : Keeps s t := by
  have hs := Keeps.refl s
  cases c <;> cases hFamily
  case memoryIslandIdle => exact keeps_of_onlyChanges (onlyChanges_of_reliability rfl hStep) (by simp [touches])
  case regAccess address write =>
    refine keeps_of_next hStep ?_
    cases write with
    | some v => simp [hs]
    | none => exact keeps_of_hide (regReadAt_held 10 address _ (jtagMark_held _ _ hs)) (jtagGives_frame (by decide) ..)
  all_goals
    refine keeps_of_next hStep ?_
    simp [hs]

theorem keeps_of_exec {c : Instr} {s t : State} (hStep : exec c s = .next t) : Keeps s t := by
  cases hFamily : family c
  case power => exact keeps_of_power hFamily hStep
  case startUp => exact keeps_of_startUp hFamily hStep
  case time => exact keeps_of_time hFamily hStep
  case tables => exact keeps_of_tables hFamily hStep
  case switching => exact keeps_of_switching hFamily hStep
  case collectives => exact keeps_of_collectives hFamily hStep
  case fabric => exact keeps_of_fabric hFamily hStep
  case resident => exact keeps_of_resident hFamily hStep
  case lanes => exact keeps_of_lanes hFamily hStep
  case express => exact keeps_of_express hFamily hStep
  case ports => exact keeps_of_ports hFamily hStep
  case keeper => exact keeps_of_keeper hFamily hStep
  case protocol => exact keeps_of_protocol hFamily hStep
  case registers => exact keeps_of_registers hFamily hStep
  case reliability => exact keeps_of_reliability hFamily hStep

theorem keeps_of_step {s t : State} (hStep : step s = .next t) : Keeps s t := by
  unfold step at hStep
  split at hStep
  · exact keeps_of_next hStep (tick_held _ (Keeps.refl s))
  · rename_i rest _
    obtain ⟨hMem, hIncs, hFuses⟩ := keeps_of_exec (s := { s with pending := rest }) hStep
    exact ⟨hMem, hIncs, hFuses⟩

/-- Settles O4: `Held` holds from any state to the next one of a step. -/
theorem memoryKeepsItsForm : Obligations.MemoryKeepsItsForm := by
  unfold Obligations.MemoryKeepsItsForm
  exact fun s t hMem hStep => (keeps_of_step hStep).mem hMem

/-- Settles O5: `Held` holds from any state to the next one of a step. -/
theorem timeIncrementsStayInRange : Obligations.TimeIncrementsStayInRange := by
  unfold Obligations.TimeIncrementsStayInRange
  exact fun s t hInc hPending hStep => (keeps_of_step hStep).incs ⟨hInc, hPending⟩

/-- Settles O6: `Held` holds from any state to the next one of a step. -/
theorem blownFusesStayBlown : Obligations.BlownFusesStayBlown := by
  unfold Obligations.BlownFusesStayBlown
  exact fun s t hFuses hStep => (keeps_of_step hStep).fuses hFuses

end Sys2Proof.Machine
end

section
/-! A frozen or unpowered device (13 R407, R412): the guards that its state closes, one by one, and the commands behind them. -/

namespace Sys2Proof.Machine

/-- The device is frozen or off. -/
def Stands (s : State) : Prop := (s.start.state = .frozen ∧ s.power.frozen = true) ∨ s.start.state = .off

section
variable {s : State} (h : Stands s)
include h

theorem Stands.state : s.start.state = .frozen ∨ s.start.state = .off := h.imp And.left id

theorem Stands.clocksRun : clocksRun s = false := by
  obtain h | h := h.state <;> simp [Machine.clocksRun, h]

theorem Stands.keeperUp : keeperUp s = false := by
  simp [Machine.keeperUp, h.clocksRun]

theorem Stands.started : started s = false := by
  simp [Machine.started, h.clocksRun]

theorem Stands.tmuRuns : tmuRuns s = false := by
  simp [Machine.tmuRuns, h.clocksRun]

theorem Stands.transferOpen : transferOpen s = false := by
  obtain h | h := h.state <;> simp [Machine.transferOpen, h]

theorem Stands.bopServes : bopServes s = false := by
  simp [Machine.bopServes, h.keeperUp]

theorem Stands.isUp : isUp s = false := by
  obtain h | h := h.state <;> simp [Machine.isUp, h, stateCode]

theorem Stands.lanesAct (p : Nat) : lanesAct s p = false := by
  simp [Machine.lanesAct, h.clocksRun]

theorem Stands.ringsAct (d : Nat) : ringsAct s d = false := by
  simp [Machine.ringsAct, h.clocksRun]

theorem Stands.epActs (n : Nat) : epActs s n = false := by
  simp [Machine.epActs, h.clocksRun]

theorem Stands.portLit (p : Nat) : portLit s p = false := by
  simp [Machine.portLit, h.clocksRun]

theorem Stands.engineRuns (e : Nat) : engineRuns s e = false := by
  unfold Machine.engineRuns
  simp [h.clocksRun]

theorem Stands.runningOn (die tile : Nat) : runningOn s die tile = none := by
  unfold Machine.runningOn
  split <;> simp [h.clocksRun]

theorem Stands.dieAnswers (die : Nat) : dieAnswers s die = false := by
  simp [Machine.dieAnswers, h.clocksRun]

theorem Stands.accessCheck (m die block word : Nat) (write : Bool) : accessCheck s m die block word write = .busError := by
  simp [Machine.accessCheck, h.dieAnswers]

/-- Counters stand still (18 R547). -/
theorem Stands.count (die ev inst n : Nat) : count die ev inst n s = s := by
  obtain h | h := h.state <;> simp [Machine.count, h]

theorem Stands.countBusError (die : Nat) : countBusError s die = s := h.count ..

theorem Stands.raise (code sev unit : Nat) (args : Bytes) : raise code sev unit args s = s := by
  simp [Machine.raise, h.keeperUp]

theorem Stands.guardWrite (r : Role) (i b : Nat) (k : State → State) : guardWrite r i b k s = s := by
  simp [Machine.guardWrite, h.keeperUp]

theorem Stands.guardReg (m die block word : Nat) (k : State → State) : guardReg m die block word k s = s := by
  simp [Machine.guardReg, h.accessCheck, h.countBusError]

theorem Stands.guardRead (m die block word : Nat) (k : State → State) : guardRead m die block word k s = s := by
  simp [Machine.guardRead, h.accessCheck, h.countBusError]

theorem Stands.aliasWrite (m die w : Nat) (v : Bool) : aliasWrite m die w v s = s := by
  simp [Machine.aliasWrite, h.accessCheck, h.countBusError]

theorem Stands.regWrite (m : Nat) (a v : Word) : regWrite m a v s = s := by
  simp [Machine.regWrite, Machine.broadcastWrite, Machine.writeOn, h.clocksRun, h.countBusError, h.guardReg, h.aliasWrite]

theorem Stands.regReadAt (m : Nat) (a : Word) : (regReadAt m a s).2 = s := by
  unfold Machine.regReadAt Machine.readOn
  split <;> simp [h.accessCheck, h.countBusError]

theorem Stands.freezeLatch (cause unit : Nat) : freezeLatch cause unit s = s := by
  obtain ⟨-, h⟩ | h := h <;> simp [Machine.freezeLatch, h]

theorem Stands.ne {x : DevState} (hx : x ≠ .frozen ∧ x ≠ .off) : s.start.state ≠ x := by
  obtain ⟨hFrozen, hOff⟩ := hx
  obtain h | h := h.state <;> rw [h]
  · exact hFrozen.symm
  · exact hOff.symm
end

/-- The commands of start-up run in one state of it each. -/
theorem exec_startUp_of_stands {c : Instr} {s : State} (h : Stands s) (hFamily : family c = .startUp) : exec c s = .next s := by
  have hState : ∀ x : DevState, x ≠ .frozen ∧ x ≠ .off → s.start.state ≠ x := fun x => h.ne
  cases c <;> cases hFamily <;> refine congrArg Host.Outcome.next ?_
  all_goals
    simp [h.clocksRun, h.transferOpen, h.guardWrite, h.started, h.isUp, fuseLoad, romBoot, fwVerify, bootRequest, memTrain,
      libraryLoad, opticsCal, opticsCalEnd, marginTestEnd, serviceMark, hState]

/-- The cells, edge units and ports of an image act while its tile runs. -/
theorem exec_fabric_of_stands {c : Instr} {s : State} (h : Stands s) (hFamily : family c = .fabric) : exec c s = .next s := by
  cases c <;> cases hFamily <;> refine congrArg Host.Outcome.next ?_
  all_goals
    simp [cellFire, streamDeliver, decodeToken, encodeStep, contextPort, egressLast, walkRequest, tokenCross,
      h.runningOn, h.clocksRun, h.guardWrite]

/-- A frozen or unpowered device runs no command but those that are always on. -/
theorem exec_of_stands {c : Instr} {s : State} (h : Stands s) (hc : alwaysOn c = false) : exec c s = .next s := by
  cases c <;> cases hc
  case fuseLoad | romBoot | fwVerify | bootRequest | bootData | bootEnd | bootOwnerLapse | memTrain | memTrainTimeout
      | libraryLoad | opticsCal | opticsCalEnd | meshDeadLinkCheck | marginTestEnd | serviceEnter |
      serviceMarkReceive | degradedCauseChange | dieHeartbeat | dieLost | keeperLost | keeperWatchdogExpire |
      configCommitMark =>
    exact exec_startUp_of_stands h rfl
  case cellFire | streamIngressDeliver | decodeToken | encodeCmd | cpRead | cpWrite | cpAcc | cpReadf |
      streamEgressLast | walkRequest | imageFault | stallWatch | imageResume | cellRetire | imageStageData |
      imageCommit | imageUnload | imagePlace | imageUnplace | imageRestart | spareSwitch | tokenLinkCrossing =>
    exact exec_fabric_of_stands h rfl
  all_goals refine congrArg Host.Outcome.next ?_
  case freezeNAssert => exact h.freezeLatch ..
  case foghornRaise => exact h.raise ..
  case tmuNowRead => exact h.guardRead ..
  case bitAliasWrite => exact h.aliasWrite ..
  case registerWrite => exact h.regWrite ..
  case tmuIncWrite | tmuStepGo | mbGo | cfgCommit | cfgRefWrite | chHeadWrite | chEnable | chAbort => exact h.guardReg ..
  case retrieverAccessComplete =>
    simp [accessComplete, h.runningOn]
  case frameLeavesPort =>
    unfold frameLeaves
    split <;> simp [h.portLit]
  case logRead =>
    unfold logRead
    split <;> simp [h.keeperUp]
  case attestReportDone =>
    unfold attestReportDone
    split <;> simp [h.keeperUp]
  case dmaDescriptorComplete =>
    unfold dmaComplete
    split <;> simp [h.engineRuns]
  case absentUnitAccess =>
    split
    · split <;> simp [h.regWrite, h.regReadAt]
    · rfl
  case resume | learnRecordApply | spreaderSendCell | egressUnderrun | contextReadback | creditWordSend |
      epTrainTimeout | sessionIdleExpire | linkTrainingTimeout | frameAddressedToKeeper =>
    split <;> simp [h.clocksRun, h.keeperUp, h.guardWrite, h.guardReg, h.epActs]
  case creditReturn | pauseExpire | closeApply | creditWatchExpire | pfcRepeat | pauseWatchTrip | pauseRecoverEnd |
      residualLockGrant | beaconCheckComplete | marginReportSend | moduleActivateTimeout =>
    dsimp only
    split <;> simp [h.clocksRun, h.keeperUp, h.ringsAct, h.lanesAct, h.portLit]
  all_goals
    simp [h.clocksRun, h.keeperUp, h.guardWrite, h.bopServes, h.lanesAct, h.ringsAct, h.epActs, h.portLit, h.isUp,
      h.tmuRuns, h.countBusError, h.engineRuns, h.dieAnswers, alignmentMark, ppsEdge, ppsGone, clk10Measure, tblCommand,
      shepherdGrant, laneFrameStart, fwFlashWriteDone, requestExecute, foghornSend, foghornAck, windowCommand, cfgRecompute,
      dmaFetch, dmaHalt, cellSelftest, crosscheckRetest, sramScrub, scrubBehind, memCeHigh, memUncorrectable]

/-- Settles O7: every guard of a command that is not always on is closed while the clocks stand. -/
theorem frozenAndOffHold : Obligations.FrozenAndOffHold := by
  unfold Obligations.FrozenAndOffHold
  exact ⟨fun c s hState hFrozen hc => exec_of_stands (.inl ⟨hState, hFrozen⟩) hc,
    fun c s hState hc => exec_of_stands (.inr hState) hc⟩

end Sys2Proof.Machine
end

section
/-! Writes of objects that the checks of 16 R482 refuse. -/

namespace Sys2Proof.Machine

/-- A command that is a write of one object is that object's guarded write. -/
theorem exec_eq_guardWrite {c : Instr} {r : Role} {i b : Nat} (s : State) (hObject : objectOf c = some (r, i, b)) :
    ∃ k, exec c s = .next (guardWrite r i b k s) := by
  cases c
  case keyWrite role sub key =>
    by_cases hSub : sub = 5
    · subst hSub
      cases hObject
      exact ⟨_, rfl⟩
    · rw [objectOf, if_neg hSub] at hObject
      cases hObject
      exact ⟨_, congrArg Host.Outcome.next (if_neg hSub)⟩
  case resume via _ _ =>
    cases via <;> cases hObject
    exact ⟨_, rfl⟩
  all_goals cases hObject
  all_goals exact ⟨_, rfl⟩

/-- Settles O8: OBJECT_WRITE and the guarded writes answer the refusing status and nothing else. -/
theorem refusedWritesChangeNothing : Obligations.RefusedWritesChangeNothing := by
  unfold Obligations.RefusedWritesChangeNothing
  refine ⟨fun r i b v s hKeeper hStatus => ?_, fun c r i b s hObject hKeeper hCheck => ?_⟩
  · have hWrite : objWrite r (roleSession s r) i b v s = answer (writeStatus r i b v.length s) s := by simp [objWrite, hStatus]
    refine congrArg Host.Outcome.next ?_
    rw [if_pos hKeeper, hWrite]
  · obtain ⟨k, hExec⟩ := exec_eq_guardWrite s hObject
    rw [hExec, guardWrite_of_ne_done hKeeper hCheck]

end Sys2Proof.Machine
end

section
/-! The queue of commands (log 4), the tick on an empty one, and the reset state. -/

namespace Sys2Proof.Machine

/-- Every command answers a next state. -/
theorem exec_answers (c : Instr) (s : State) : ∃ t, exec c s = .next t := by
  cases c <;> exact ⟨_, rfl⟩

/-- Settles O1: a step looks at the front of the queue only, and every command answers. -/
theorem stepRunsFront : Obligations.StepRunsFront := by
  unfold Obligations.StepRunsFront
  refine ⟨fun s c rest hPending => ?_, fun s => ?_⟩
  · unfold step
    rw [hPending]
  · unfold Safe step
    split
    · exact ⟨_, rfl⟩
    · exact exec_answers ..

/-- A device held in reset whose reset input, trip and reference clocks let it leave. -/
def readyToLeave : State :=
  { State.reset with power := { Power.reset with resetLow := false, trip := false, selected := true, refA := true, onAt := 0 } }

theorem tick_readyToLeave_state : (tick readyToLeave).start.state = .fuseLoad := by decide

/-- Refutes O2: the clocks stand in RESET, yet a tick on an empty queue takes a device that may leave it (13 R406) to FUSE_LOAD. -/
theorem not_emptyQueueTicks : ¬ Obligations.EmptyQueueTicks := by
  unfold Obligations.EmptyQueueTicks
  rintro ⟨-, h⟩
  have hTick : tick readyToLeave = { readyToLeave with time := { readyToLeave.time with wall4 := readyToLeave.time.wall4 + 5 } } :=
    Host.Outcome.next.inj (h readyToLeave rfl (by decide))
  have hState := congrArg (fun s => s.start.state) hTick
  rw [tick_readyToLeave_state] at hState
  cases hState

/-- The fuses the part is built with are listed by rising key, each with a bit blown. -/
theorem fusesBuilt_wf : fusesBuilt.wf = true := by
  have hKeys : ∀ v w x : Nat, risingFrom none (⟨0, [(0, 1), (1, 1), (2, 1), (28, v), (29, w), (30, x), (32, 1), (33, 1), (34, 1),
      (36, 2), (37, 2), (38, 2), (64, 1), (65, 1), (66, 1), (68, 2), (69, 2), (70, 2)]⟩ : Tab Nat).cells = true := fun v w x => rfl
  have hPow : ∀ n : Nat, n ≠ 0 → 2 ^ n - 1 ≠ 0 := fun n hn => Nat.sub_ne_zero_of_lt (Nat.one_lt_two_pow hn)
  replace hPow := hPow 2560 (by decide)
  unfold fusesBuilt Tab.wf
  rw [hKeys]
  generalize 2 ^ 2560 - 1 = v at hPow ⊢
  simpa using hPow

/-- Settles O3: the reset state, field by field. -/
theorem resetState : Obligations.ResetState := by
  unfold Obligations.ResetState
  refine ⟨rfl, rfl, rfl, rfl, rfl, rfl, rfl, rfl, rfl, rfl, rfl, rfl, rfl, fun k => rfl, fun k => rfl, rfl, rfl, rfl, fun p => rfl,
    rfl, rfl, rfl, rfl, rfl, ?_, ?_⟩
  · exact fusesBuilt_wf
  · decide

end Sys2Proof.Machine
end

section
/-! The checks in front of a command's operation, where they pass: rights to a register, and the budget of a management port. -/

namespace Sys2Proof.Machine

theorem guardReg_of_granted {m die block word : Nat} {k : State → State} {s : State} (h : Granted s m die block word true) :
    guardReg m die block word k s = k s := by
  unfold guardReg
  rw [h]

theorem guardRead_of_granted {m die block word : Nat} {k : State → State} {s : State} (h : Granted s m die block word false) :
    guardRead m die block word k s = k s := by
  unfold guardRead
  rw [h]

theorem mpTake_of_budget {mp : Nat} {f : State → State} {s t : State} (h : mpBudget mp s = (true, t)) : mpTake mp f s = f t := by
  unfold mpTake
  rw [h]
  rfl

end Sys2Proof.Machine
end

section
/-! One part of the state through any number of operations that leave it alone: the mask hides every other part, and the frame
lemmas carry the equation over each operation. -/

namespace Sys2Proof.Machine

section
variable {s t : State}

theorem State.power_of_hide (h : t.hide 2097150 = s.hide 2097150) : t.power = s.power := State.hide_power h rfl

theorem State.time_of_hide (h : t.hide 2097149 = s.hide 2097149) : t.time = s.time := State.hide_time h rfl

theorem State.start_of_hide (h : t.hide 2097147 = s.hide 2097147) : t.start = s.start := State.hide_start h rfl

theorem State.keeper_of_hide (h : t.hide 2097143 = s.hide 2097143) : t.keeper = s.keeper := State.hide_keeper h rfl

theorem State.tables_of_hide (h : t.hide 2097135 = s.hide 2097135) : t.tables = s.tables := State.hide_tables h rfl

theorem State.switch_of_hide (h : t.hide 2097119 = s.hide 2097119) : t.switch = s.switch := State.hide_switch h rfl

theorem State.flow_of_hide (h : t.hide 2097087 = s.hide 2097087) : t.flow = s.flow := State.hide_flow h rfl

theorem State.coll_of_hide (h : t.hide 2097023 = s.hide 2097023) : t.coll = s.coll := State.hide_coll h rfl

theorem State.fabric_of_hide (h : t.hide 2096895 = s.hide 2096895) : t.fabric = s.fabric := State.hide_fabric h rfl

theorem State.resident_of_hide (h : t.hide 2096639 = s.hide 2096639) : t.resident = s.resident := State.hide_resident h rfl

theorem State.optics_of_hide (h : t.hide 2096127 = s.hide 2096127) : t.optics = s.optics := State.hide_optics h rfl

theorem State.express_of_hide (h : t.hide 2095103 = s.hide 2095103) : t.express = s.express := State.hide_express h rfl

theorem State.mgmt_of_hide (h : t.hide 2093055 = s.hide 2093055) : t.mgmt = s.mgmt := State.hide_mgmt h rfl

theorem State.bop_of_hide (h : t.hide 2088959 = s.hide 2088959) : t.bop = s.bop := State.hide_bop h rfl

theorem State.regs_of_hide (h : t.hide 2080767 = s.hide 2080767) : t.regs = s.regs := State.hide_regs h rfl

theorem State.ras_of_hide (h : t.hide 2064383 = s.hide 2064383) : t.ras = s.ras := State.hide_ras h rfl

theorem State.mem_of_hide (h : t.hide 2031615 = s.hide 2031615) : t.mem = s.mem := State.hide_mem h rfl

theorem State.obj_of_hide (h : t.hide 1966079 = s.hide 1966079) : t.obj = s.obj := State.hide_obj h rfl

theorem State.out_of_hide (h : t.hide 1835007 = s.hide 1835007) : t.out = s.out := State.hide_out h rfl

theorem State.free_of_hide (h : t.hide 1572863 = s.hide 1572863) : t.free = s.free := State.hide_free h rfl

theorem State.pending_of_hide (h : t.hide 1048575 = s.hide 1048575) : t.pending = s.pending := State.hide_pending h rfl

end

end Sys2Proof.Machine
end

section
/-! Byte strings: what the fields of a message read back as, and the bound of a cyclic check. -/

namespace Sys2Proof.Machine

@[simp] theorem length_leBytes (n v : Nat) : (leBytes n v).length = n := by
  induction n generalizing v with
  | zero => rfl
  | succ n ih => simp [leBytes, ih]

@[simp] theorem length_beBytes (n v : Nat) : (beBytes n v).length = n := by
  simp [beBytes]

theorem leNat_leBytes (n v : Nat) : leNat (leBytes n v) = v % 256 ^ n := by
  induction n generalizing v with
  | zero => simp [leBytes, leNat, Nat.mod_one]
  | succ n ih =>
    have hSplit : v % (256 * 256 ^ n) = v % 256 + 256 * (v / 256 % 256 ^ n) := Nat.mod_mul
    have hByte : (BitVec.ofNat 8 v).toNat = v % 256 := BitVec.toNat_ofNat v 8
    rw [Nat.pow_succ', hSplit, leBytes, leNat, ih, hByte]

theorem beNat_reverse (b : Bytes) : beNat b.reverse = leNat b := by
  rw [beNat, List.foldl_reverse]
  induction b with
  | nil => rfl
  | cons x b ih =>
    rw [List.foldr_cons, ih, leNat]
    omega

@[simp] theorem beNat_beBytes (n v : Nat) : beNat (beBytes n v) = v % 256 ^ n := by
  rw [beBytes, beNat_reverse, leNat_leBytes]

/-- A field between what comes before it and what follows it. -/
theorem slice_append (a b c : Bytes) : slice (a ++ (b ++ c)) a.length b.length = b := by
  simp [slice]

theorem crcBit_lt {poly c : Nat} (hPoly : poly < 2 ^ 32) (hc : c < 2 ^ 32) : crcBit poly c < 2 ^ 32 := by
  unfold crcBit
  split
  · exact Nat.xor_lt_two_pow (by omega) hPoly
  · omega

theorem crcRun_lt {poly : Nat} (hPoly : poly < 2 ^ 32) (b : Bytes) {c : Nat} (hc : c < 2 ^ 32) : crcRun poly c b < 2 ^ 32 := by
  induction b generalizing c with
  | nil => exact hc
  | cons x b ih =>
    refine ih ?_
    have hx : Nat.xor c x.toNat < 2 ^ 32 := Nat.xor_lt_two_pow hc (by have := x.isLt; omega)
    have hBit : ∀ {d : Nat}, d < 2 ^ 32 → crcBit poly d < 2 ^ 32 := fun hd => crcBit_lt hPoly hd
    exact hBit (hBit (hBit (hBit (hBit (hBit (hBit (hBit hx)))))))

theorem crc32cStd_lt (b : Bytes) : crc32cStd b < 2 ^ 32 :=
  Nat.xor_lt_two_pow (crcRun_lt (by decide) b (by decide)) (by decide)

end Sys2Proof.Machine
end

section
/-! The budget of a management port changes its own counters alone. -/

namespace Sys2Proof.Machine

theorem eq_onMgmt_of_mpBudget {mp : Nat} {s t : State} (h : mpBudget mp s = (true, t)) : ∃ f, t = s.onMgmt f := by
  unfold mpBudget at h
  dsimp only at h
  generalize (if s.mgmt.mpSecond.get mp = _ then s.mgmt.mpCount.get mp else 0) = used at h
  split at h
  · exact ⟨_, (Prod.mk.inj h).2.symm⟩
  · cases h

end Sys2Proof.Machine
end

section
/-! Power-on, loss of VSENSE, reset, its release and the hardware trips. -/

namespace Sys2Proof.Machine

/-- Settles O20: each clause from the equation of its command under the clause's guards. -/
theorem powerAndReset : Obligations.PowerAndReset := by
  unfold Obligations.PowerAndReset
  refine ⟨?_, ?_, ?_, ?_, ?_, ?_⟩
  · -- `powerOn`
    intro s v a b hState hLow hHigh
    refine ⟨_, rfl, ?_⟩
    simp [powerOn, selectClock, hState, hLow.not_gt, hHigh.not_ge, wallNs]
    rfl
  · -- `powerOff`
    intro s v hState hRange
    refine ⟨_, congrArg Host.Outcome.next (if_pos (by simpa using ⟨hState, hRange⟩)), ?_⟩
    exact ⟨rfl, rfl, rfl, rfl, rfl, rfl, rfl, rfl⟩
  · -- `resetAssert`
    intro s hState hNotReset hTrip
    refine ⟨_, rfl, ?_⟩
    have hReset : resetAssert s = (resetTo .reset s).onPower fun p => { p with resetLow := true, resetCause := 2 } := by
      simp [resetAssert, hState, hNotReset, hTrip]
      rfl
    rw [hReset]
    exact ⟨rfl, rfl, rfl, rfl, rfl, rfl, rfl, rfl, rfl, rfl, rfl⟩
  · -- `resetRelease`
    intro s sel hState hTrip hSelected hClock hWall
    have hLeave : mayLeaveReset (s.onPower fun p => { p with resetLow := false, bootSel := sel.val }) = true := by
      simp only [Bool.or_eq_true] at hClock
      simp [mayLeaveReset, hState, hTrip, hSelected, hWall, hClock]
    exact ⟨_, congrArg Host.Outcome.next (if_pos hLeave), rfl, rfl, rfl, rfl, rfl, rfl, rfl, rfl, rfl, rfl⟩
  · -- `hardwareTrip`
    intro s kind die sensor reading hState hTrip hSensor hLimit
    have hOpen : ¬ (!tripSensor kind die.val sensor.val || !tripLimit kind reading || s.power.trip || s.start.state = .off) = true := by
      simp [hState, hTrip, hSensor, hLimit]
    exact ⟨_, congrArg Host.Outcome.next (if_neg hOpen), rfl, rfl, by cases kind <;> rfl, rfl, rfl⟩
  · -- `hardwareTrip`
    intro s kind die sensor reading hTripLimit
    refine congrArg Host.Outcome.next ?_
    simp [hardwareTrip, hTripLimit]

end Sys2Proof.Machine
end

section
/-! VSENSE low, the reference clocks, and the sensor snapshots. -/

namespace Sys2Proof.Machine

/-! R415, R463: what a change of a cause of degraded service leaves. -/

theorem setCause_causes (bit : Nat) (holds : Bool) (s : State) :
    (setCause bit holds s).start.causes =
      if holds then s.start.causes ||| BitVec.ofNat 8 (2 ^ bit) else s.start.causes &&& ~~~BitVec.ofNat 8 (2 ^ bit) :=
  settleCauses_causes _

theorem setCause_power (bit : Nat) (holds : Bool) (s : State) : (setCause bit holds s).power = s.power :=
  State.power_of_hide (by simp)

theorem setCause_time (bit : Nat) (holds : Bool) (s : State) : (setCause bit holds s).time = s.time := State.time_of_hide (by simp)

theorem setCause_mem (bit : Nat) (holds : Bool) (s : State) : (setCause bit holds s).mem = s.mem := State.mem_of_hide (by simp)

/-- R422: what the snapshot of the keeper die is copied from. -/
theorem snapshotRefresh_keeper {s : State} (tj base : List Int) (v i : Nat) (hClocks : clocksRun s = true)
    (hKeeper : s.start.keeperLost = false) :
    ∃ p : Power, snapshotRefresh 8 tj base v i s = snapCopy 8 { s with power := p } ∧ p.vinMv = v ∧ p.iinMa = i ∧
      p.snapAt = s.power.snapAt ∧ p.base = s.power.base := by
  unfold snapshotRefresh
  simp [hClocks, hKeeper]
  exact ⟨_, rfl, rfl, rfl, rfl, rfl⟩

/-- Settles O21: each clause from the equation of its command under the clause's guards. -/
theorem clocksAndSensors : Obligations.ClocksAndSensors := by
  unfold Obligations.ClocksAndSensors
  refine ⟨?_, ?_, ?_, ?_, ?_, ?_, ?_⟩
  · -- `vinLow`
    intro s v hClocks hH hH' hVinLowSent
    refine congrArg Host.Outcome.next ?_
    simp [args32, hClocks, hH, hH', hVinLowSent, State.onPower]
  · -- `refclkLoss`
    intro s hOff hReset hSelected hSelB hHoldover hRefB
    refine ⟨_, rfl, ?_⟩
    simp [refclkLoss, clockMoved, hOff, hReset, hSelected, hSelB, hHoldover, hRefB]
  · -- `refclkLoss`
    intro s hOff hReset hSelected hSelB hHoldover hRefA
    have hLoss : refclkLoss true s = setCause 6 true (raise 0x0207 0 unitDevice []
        (s.onPower fun p => { p with refB := false, holdover := true })) := by
      simp [refclkLoss, hOff, hReset, hSelected, hSelB, hHoldover, hRefA]
      rfl
    refine ⟨_, congrArg Host.Outcome.next hLoss, ?_⟩
    simp [setCause_causes, setCause_power, setCause_time, setCause_mem]
  · -- `refclkReturn`
    intro s b hOff hSelected hHoldover
    have hReturn : refclkReturn b s = setCause 6 false (clockMoved (s.onPower fun p => { p with
        refA := (if b then p.refA else true), refB := (if b then true else p.refB), holdover := false, selB := b })) := by
      cases b <;> simp [refclkReturn, hOff, hSelected, hHoldover] <;> rfl
    refine ⟨_, congrArg Host.Outcome.next hReturn, ?_⟩
    simp [setCause_causes, setCause_power, setCause_time, setCause_mem, clockMoved]
  · -- `refclkPrefer`
    rintro s r v ⟨hKeeper, hCheck⟩ hV hPresent
    have hGuard := guardWrite_of_done (k := refclkPrefer v) hKeeper hCheck
    refine ⟨_, congrArg Host.Outcome.next hGuard, ?_⟩
    simp only [refclkPrefer, hV.not_gt, if_false]
    by_cases hSelB : s.power.selB = (v == 1)
    · simp [hPresent, hSelB]
      rw [← hSelB]
    · simp [hPresent, hSelB]
  · -- `snapshotRefresh`
    intro s tj base v i hClocks hKeeper
    obtain ⟨p, hRefresh, hVin, hIin, hAt, hBase⟩ := snapshotRefresh_keeper tj base v i hClocks hKeeper
    exact ⟨_, congrArg Host.Outcome.next hRefresh, (snapCopy_vinMv ..).trans hVin, (snapCopy_iinMa ..).trans hIin,
      (snapCopy_snapAt ..).trans (by rw [hAt]; rfl), (snapCopy_base ..).trans hBase, State.start_of_hide (by simp),
      State.time_of_hide (by simp), State.bop_of_hide (by simp), State.mem_of_hide (by simp)⟩
  · -- `snapshotStale`
    intro s die hClocks hWall
    refine congrArg Host.Outcome.next ?_
    simp [snapPut, hClocks, hWall, State.onPower]

end Sys2Proof.Machine
end

section
/-! Each of the three sources of the freeze latch freezes the device. -/

namespace Sys2Proof.Machine

/-- Settles O22: each clause from the equation of its command under the clause's guards. -/
theorem freezeLatch_sources : Obligations.FreezeLatch := by
  unfold Obligations.FreezeLatch
  refine ⟨?_, ?_, ?_⟩
  · -- `freezeNAssert`
    intro s hArmed hFrozen hOff hReset
    exact ⟨_, rfl, freezeLatch_frozen 1 0 s hArmed hFrozen hOff hReset⟩
  · -- `freezeNow`
    rintro s r v hArmed hFrozen hOff hReset ⟨hKeeper, hCheck⟩
    have hGuard := guardWrite_of_done (k := fun s => freezeLatch 2 0 (answer stDone s)) hKeeper hCheck
    exact ⟨_, congrArg Host.Outcome.next hGuard, freezeLatch_frozen 2 0 _ hArmed hFrozen hOff hReset⟩
  · -- `freezeOnEvent`
    intro s b die u hArmed hFrozen hEvent hDie hClocks
    have hGuard : (bit (cfgFreezeOn s) b && clocksRun s && (if die.val = 8 then !s.start.keeperLost else dieUp s die)) = true := by
      rw [hEvent, hClocks, hDie]
      rfl
    have hState : ∀ x : DevState, x = .off ∨ x = .reset → s.start.state ≠ x := by
      rintro x (rfl | rfl) h <;> simp [clocksRun, h] at hClocks
    exact ⟨_, congrArg Host.Outcome.next (if_pos hGuard), freezeLatch_frozen _ _ s hArmed hFrozen (hState _ (.inl rfl)) (hState _ (.inr rfl))⟩

end Sys2Proof.Machine
end

section
/-! The fuses are voted, the boot ROM measures and chooses the source, and a good image of the flash starts the keeper cores. -/

namespace Sys2Proof.Machine

/-! The repair fuses (15 R449): a die whose eight tiles are not all retired keeps a tile. -/

theorem byte_eq_of_testBit {x k : Nat} (h : ∀ i < 8, x.testBit (k + i) = true) : x / 2 ^ k % 256 = 255 := by
  refine Nat.eq_of_testBit_eq fun i => ?_
  rw [show 256 = 2 ^ 8 from rfl, show 255 = 2 ^ 8 - 1 from rfl, Nat.testBit_mod_two_pow, Nat.testBit_div_two_pow,
    Nat.testBit_two_pow_sub_one, Nat.add_comm i k]
  by_cases hi : i < 8 <;> simp [hi, h]

theorem loseTileless_of_nil {s : State} (h : tilelessDies s = []) : loseTileless s = s := by
  simp [loseTileless, h]

theorem tilelessDies_eq_nil_of_repair {s : State} {r : Nat} (hTiles : isS s = false → s.start.aihornTiles = ~~~BitVec.ofNat 64 r)
    (hRepair : isS s = true ∨ ∀ d : Fin 8, r / 2 ^ (8 * d.val) % 256 ≠ 255) : tilelessDies s = [] := by
  unfold tilelessDies
  obtain hPart | hRepair := hRepair
  · rw [if_pos hPart]
  · split
    · rfl
    · rename_i hPart
      rw [List.filter_eq_nil_iff]
      intro d hd hAll
      have hLt : d < 8 := by
        rw [diesUp, List.mem_filter, mem_upTo] at hd
        exact hd.1
      refine hRepair ⟨d, hLt⟩ (byte_eq_of_testBit fun i hi => ?_)
      have hTile := List.all_eq_true.mp hAll i (mem_upTo.mpr hi)
      rw [tileUp, hTiles (by simpa using hPart)] at hTile
      have hIndex : 8 * d + i < 64 := by omega
      simpa only [BitVec.getLsbD_not, BitVec.getLsbD_ofNat, hIndex, decide_true, Bool.true_and, Bool.not_not] using hTile

/-- R431, R449: the state that the voted fuses leave. -/
theorem fuseLoad_of_vote {s : State} {v : Tab Nat} {m : List Nat} (hState : s.start.state = .fuseLoad)
    (hInTime : pastLimit s 5000000 = false) (hVote : voteAll s.keeper.fuses = some (v, m)) :
    fuseLoad true s = loseTileless (enterState .romBoot (fusesApply ((seedGens s).onKeeper fun k => { k with
      voted := v, minority := m }))) := by
  simp [fuseLoad, hState, hInTime, hVote]

theorem halt_of_ne {s : State} (h : s.start.state ≠ .halted) (cause : Nat) :
    halt cause s = s.onStart fun x => { x with state := .halted, haltCause := cause } := if_neg h

/-- Settles O23: each clause from the equation of its command under the clause's guards. -/
theorem bootStages : Obligations.BootStages := by
  unfold Obligations.BootStages
  refine ⟨?_, ?_, ?_, ?_, ?_⟩
  · -- `fuseLoad`
    intro s v m hState hInTime hVote hPart hRepair
    have hTileless : tilelessDies (enterState .romBoot (fusesApply ((seedGens s).onKeeper fun k => { k with
        voted := v, minority := m }))) = [] := by
      refine tilelessDies_eq_nil_of_repair (r := v.get 5) (fun hS => ?_) (hRepair.imp (fun h => ?_) id)
      · have hNe : v.get 0 ≠ 2 := by
          intro h
          simp [isS, enterState, fusesApply, h] at hS
        simp [enterState, fusesApply, hNe]
      · simp [isS, enterState, fusesApply, h]
    have hKeeper : (seedGens s).keeper = s.keeper := State.keeper_of_hide (by simp)
    have hTime : (seedGens s).time = s.time := State.time_of_hide (by simp)
    refine ⟨_, congrArg Host.Outcome.next ((fuseLoad_of_vote hState hInTime hVote).trans (loseTileless_of_nil hTileless)), ?_⟩
    refine ⟨rfl, rfl, rfl, rfl, rfl, rfl, wall_of s (seedGens s) hTime, ?_, hTime, ?_⟩
    · show (seedGens s).keeper.fuses = s.keeper.fuses
      rw [hKeeper]
    · show (seedGens s).mem = s.mem
      exact State.mem_of_hide (by simp)
  · -- `fuseLoad`
    intro s hState hVote
    have hLoad : fuseLoad true s = halt 1 (s.onKeeper fun k => { k with bootCause := 0x0F }) := by
      simp [fuseLoad, hState, hVote]
    rw [halt_of_ne (by simp [hState])] at hLoad
    exact ⟨_, congrArg Host.Outcome.next hLoad, rfl, rfl, rfl⟩
  · -- `romBoot`
    intro s hState hInTime hHost
    have hPolicy : 2 ≤ s.power.bootPins → bit (s.keeper.voted.get 24) 0 = false := hHost
    refine ⟨_, rfl, ?_⟩
    by_cases hSel : 2 ≤ s.power.bootPins
    · cases hJtag : s.ras.frzJtag <;>
        simp [romBoot, hState, hInTime, hJtag, measExtend, measEvent, bootSel, hostBootDisabled, bootPolicy, hSel, hPolicy hSel,
          mpStart, restartTransfer, enterState, wallNs]
    · cases hJtag : s.ras.frzJtag <;>
        simp [romBoot, hState, hInTime, hJtag, measExtend, measEvent, bootSel, hostBootDisabled, bootPolicy, hSel,
          restartTransfer, enterState, wallNs]
  · -- `fwVerify`
    intro s hState hSource hInTime
    have hVerify : fwVerify true s = if fwCheck s (flashImage s) (fwTotal (flashImage s)) = 0 then fwStart (flashImage s) s
        else flashFails (fwCheck s (flashImage s) (fwTotal (flashImage s))) s := by
      simp [fwVerify, hState, hSource, hInTime]
    refine ⟨_, congrArg Host.Outcome.next hVerify, ?_⟩
    split
    · simp [fwStart, enterState, mpStart, romCopy, measExtend, wallNs, State.putMem]
    · rfl
  · -- `fwVerify`
    intro s hState hSource hHalts
    have hVerify : fwVerify false s = halt 2 (s.onKeeper fun k => { k with bootCause := 9 }) := by
      simp [fwVerify, flashFails, bootHalt, hState, hSource, hHalts]
    rw [halt_of_ne (by simp [hState])] at hVerify
    exact ⟨_, congrArg Host.Outcome.next hVerify, rfl, rfl, rfl⟩

end Sys2Proof.Machine
end

section
/-! The transfer of a firmware image from a host. -/

namespace Sys2Proof.Machine

/-! The messages of a transfer (R432) and the state that a port's budget leaves. -/

theorem transferOpen_of_mpBudget {mp : Nat} {s t : State} (h : mpBudget mp s = (true, t)) (hOpen : transferOpen s = true) :
    transferOpen t = true := by
  obtain ⟨f, rfl⟩ := eq_onMgmt_of_mpBudget h
  exact hOpen

/-- The head of a message up to its check. -/
def bootHead (ty code off : Nat) (data : Bytes) : Bytes :=
  [0x43, 0x51, 0x42, 0x54] ++ beBytes 1 ty ++ beBytes 1 code ++ beBytes 2 data.length ++ beBytes 4 off

@[simp] theorem length_bootHead (ty code off : Nat) (data : Bytes) : (bootHead ty code off data).length = 12 := by
  simp [bootHead]

theorem bootMessage_eq (ty code off : Nat) (data : Bytes) :
    bootMessage ty code off data = bootHead ty code off data ++ (beBytes 4 (crc32cStd (bootHead ty code off data ++ data)) ++ data) := by
  simp [bootMessage, bootHead]

theorem beAt_append {a b c : Bytes} {i n : Nat} (hi : a.length = i) (hn : b.length = n) : beAt (a ++ (b ++ c)) i n = beNat b := by
  subst hi hn
  rw [beAt, slice_append]

/-- A message that the keeper sends parses as one of its type. -/
theorem bootParse_bootMessage {ty : Nat} (hTy : ty < 256) (code off : Nat) {data : Bytes} (hData : data.length < 2 ^ 16) :
    (bootParse ty (bootMessage ty code off data)).isSome = true := by
  have hCrc : beAt (bootMessage ty code off data) 12 4 = crc32cStd (bootHead ty code off data ++ data) := by
    rw [bootMessage_eq, beAt_append (length_bootHead ..) (length_beBytes ..), beNat_beBytes]
    exact Nat.mod_eq_of_lt (crc32cStd_lt _)
  have hLength : beAt (bootMessage ty code off data) 6 2 = data.length := by
    have hSplit : bootMessage ty code off data = ([0x43, 0x51, 0x42, 0x54] ++ beBytes 1 ty ++ beBytes 1 code) ++
        (beBytes 2 data.length ++ (beBytes 4 off ++ (beBytes 4 (crc32cStd (bootHead ty code off data ++ data)) ++ data))) := by
      simp [bootMessage_eq, bootHead]
    rw [hSplit, beAt_append (by simp) (length_beBytes ..), beNat_beBytes]
    exact Nat.mod_eq_of_lt hData
  have hType : byteAt (bootMessage ty code off data) 4 = ty := by
    simp [bootMessage, byteAt, beBytes, leBytes]
    omega
  have hHead : (bootMessage ty code off data).take 12 = bootHead ty code off data := by
    rw [bootMessage_eq, List.take_left' (length_bootHead ..)]
  have hBody : (bootMessage ty code off data).drop 16 = data := by
    rw [bootMessage_eq, ← List.append_assoc, List.drop_left' (by simp)]
  have hMagic : slice (bootMessage ty code off data) 0 4 = [0x43, 0x51, 0x42, 0x54] := by
    simp [bootMessage, slice]
  have hLong : 16 ≤ (bootMessage ty code off data).length := by
    rw [bootMessage_eq, List.length_append, List.length_append, length_bootHead, length_beBytes]
    omega
  simp [bootParse, hCrc, hLength, hType, hHead, hBody, hMagic, hLong]

/-- Settles O24: each clause from the equation of its command under the clause's guards. -/
theorem bootTransfer : Obligations.BootTransfer := by
  unfold Obligations.BootTransfer
  refine ⟨?_, ?_, ?_, ?_⟩
  · -- `bootRequest`
    intro s hOpen hNone hUp
    refine ⟨_, rfl, ?_⟩
    generalize hm : bootMessage 1 0 0 (beBytes 8 (serial s) ++ [s.start.partCode, s.start.stepping, BitVec.ofNat 8 (rollback s),
      BitVec.ofNat 8 (bootSel s)] ++ [0, 0, 0, 0]) = m
    have hRequest : bootRequest s = emitOut (.boot 1 none m) (emitOut (.boot 0 none m)
        (s.onKeeper fun k => { k with requestAt := some (wallNs s) })) := by
      simp [bootRequest, hOpen, hNone, ← hm, upTo, List.range_succ, hUp, emitOut]
    rw [hRequest]
    refine ⟨rfl, ⟨m, rfl, ?_, ?_⟩, rfl⟩
    · rw [← hm]
      exact bootParse_bootMessage (by decide) 0 0 (by simp)
    · have hSplit : ∀ h c b d : Bytes, h ++ (c ++ (b ++ d)) = (h ++ c) ++ (b ++ d) := fun h c b d => (List.append_assoc ..).symm
      rw [← hm, bootMessage_eq, List.append_assoc, hSplit, beAt_append (by simp) (length_beBytes ..), beNat_beBytes]
      norm_num
  · -- `bootData`
    intro s0 s mp host off m d hOpen hBudget hParse hMin hMax hWords hOwner hOff
    have hOpen' := transferOpen_of_mpBudget hBudget hOpen
    have hData : bootData mp host m s = emitOut (.boot mp (some host) (bootMessage 3 0 (min 5242880 (off + d.length)) []))
        (((s.onKeeper fun k => { k with hostLast := wallNs s }).putMem (ksramAddr off) (d.take (5242880 - off))).onKeeper
          fun k => { k with hostOffset := min 5242880 (off + d.length) }) := by
      simp [bootData, hOpen', hParse, hMin.not_gt, hMax.not_gt, hWords, hOwner, hOff]
    exact ⟨_, congrArg Host.Outcome.next ((if_pos hOpen).trans ((mpTake_of_budget hBudget).trans hData)), rfl, rfl, rfl, rfl, rfl⟩
  · -- `bootEnd`
    intro s0 s mp host total m d b hOpen hBudget hParse hOwner hSel hOff hMin hMax hImage
    have hOpen' := transferOpen_of_mpBudget hBudget hOpen
    refine congrArg Host.Outcome.next ((if_pos hOpen).trans ((mpTake_of_budget hBudget).trans ?_))
    have hSel' : bootSel (romCopy b s) ≠ 3 := hSel
    by_cases hCheck : fwCheck s b total = 0
    · simp [bootEnd, hOpen', hParse, hOwner, hOff, ← hImage, hSel', hCheck]
    · simp [bootEnd, hOpen', hParse, hOwner, hOff, ← hImage, hCheck]
      rfl
  · -- `bootOwnerLapse`
    intro s hOpen hHostOwner hWall
    refine congrArg Host.Outcome.next ?_
    simp [restartTransfer, hOpen, hHostOwner, hWall, State.onKeeper]

end Sys2Proof.Machine
end

section
/-! Memory training, the library images, optics calibration and the end of the margin tests. -/

namespace Sys2Proof.Machine

/-! R456: the sector die with the most dead links, the highest numbered of several. -/

theorem foldl_worseDie_of_le {s : State} {n : Nat} (l : List Nat) {b : Option Nat} (hb : ∀ e, b = some e → deadLinks s e ≤ n)
    (hl : ∀ e ∈ l, deadLinks s e ≤ n) : ∀ e, l.foldl (worseDie s) b = some e → deadLinks s e ≤ n := by
  induction l generalizing b with
  | nil => exact hb
  | cons x l ih =>
    refine ih (fun e he => ?_) fun e he => hl e (List.mem_cons_of_mem _ he)
    have hx := hl x (List.mem_cons_self ..)
    unfold worseDie at he
    split at he
    · exact hb e he
    · cases b with
      | none =>
        cases he
        exact hx
      | some y =>
        dsimp only at he
        split at he
        · cases he
          exact hx
        · exact hb e he

theorem foldl_worseDie_of_lt {s : State} {d : Nat} (l : List Nat) (hl : ∀ e ∈ l, deadLinks s e < deadLinks s d) :
    l.foldl (worseDie s) (some d) = some d := by
  induction l with
  | nil => rfl
  | cons x l ih =>
    have hx := hl x (List.mem_cons_self ..)
    have hStep : worseDie s (some d) x = some d := by simp [worseDie, hx]
    rw [List.foldl_cons, hStep, ih fun e he => hl e (List.mem_cons_of_mem _ he)]

theorem pairwise_diesUp (s : State) : (diesUp s).Pairwise (· < ·) := List.pairwise_lt_range.filter _

theorem foldl_worseDie_eq {s : State} {d : Nat} (hd : d ∈ diesUp s) (hLinks : deadLinks s d ≠ 0)
    (hWorst : ∀ e ∈ diesUp s, deadLinks s e < deadLinks s d ∨ deadLinks s e = deadLinks s d ∧ e ≤ d) :
    (diesUp s).foldl (worseDie s) none = some d := by
  obtain ⟨l, r, hSplit⟩ := List.append_of_mem hd
  have hSorted := pairwise_diesUp s
  rw [hSplit] at hWorst hSorted ⊢
  have hBefore := foldl_worseDie_of_le (s := s) l (b := none) (n := deadLinks s d) (fun e he => by cases he) fun e he => by
    have := hWorst e (List.mem_append_left _ he)
    omega
  have hAfter : ∀ e ∈ r, deadLinks s e < deadLinks s d := fun e he => by
    have hLt := (List.pairwise_cons.mp (List.pairwise_append.mp hSorted).2.1).1 e he
    have := hWorst e (List.mem_append_right _ (List.mem_cons_of_mem _ he))
    omega
  have hStep : worseDie s (l.foldl (worseDie s) none) d = some d := by
    unfold worseDie
    rw [if_neg hLinks]
    split
    · rfl
    · rename_i e he
      rw [if_pos (hBefore e he)]
  rw [List.foldl_append, List.foldl_cons, hStep, foldl_worseDie_of_lt r hAfter]

theorem foldl_worseDie_of_zero {s : State} (l : List Nat) (hl : ∀ e ∈ l, deadLinks s e = 0) :
    l.foldl (worseDie s) none = none := by
  induction l with
  | nil => rfl
  | cons x l ih =>
    have hStep : worseDie s none x = none := by simp [worseDie, hl x (List.mem_cons_self ..)]
    rw [List.foldl_cons, hStep, ih fun e he => hl e (List.mem_cons_of_mem _ he)]

/-- Settles O25: each clause from the equation of its command under the clause's guards. -/
theorem memoryAndOptics : Obligations.MemoryAndOptics := by
  unfold Obligations.MemoryAndOptics
  refine ⟨?_, ?_, ?_, ?_, ?_, ?_, ?_, ?_, ?_⟩
  · -- `memTrain`
    intro s d hState hUp hTrained hPackages hInTime
    refine congrArg Host.Outcome.next ?_
    have hTrain : (decide (s.start.state ≠ .memTrain) || !dieUp s d.val || s.start.trained.getLsbD d.val) = false := by
      rw [hState, hUp, hTrained]
      rfl
    have hPackages' : ¬ (packagesOf s d.val).isEmpty = true := by simp [hPackages]
    have hBad : (upTo 3).filter (fun i => ([] : List Nat).any fun c => c / 8 == i) = [] := by simp
    unfold memTrain
    simp only [hTrain, hInTime, List.map_nil, hBad, List.foldl_nil, hPackages', if_false, Bool.false_eq_true]
    rfl
  · -- `memTrainTimeout`
    intro s d hState hUp hTrained hWall
    refine congrArg Host.Outcome.next ?_
    have hLate : (decide (s.start.state = .memTrain) && !s.start.trained.getLsbD d.val &&
        decide (s.start.enteredAt + 3000000000 ≤ wallNs s)) = true := by
      rw [hTrained]
      simp [hState, hWall]
    rw [if_pos hLate, removeDie, hUp]
    rfl
  · -- `libraryLoad`
    intro s hState hDone hTested hTrained
    have hAll : (diesUp s).any (fun d => !s.start.trained.getLsbD d) = false := by
      rw [List.any_eq_false]
      exact fun d hd => by simpa using List.all_eq_true.mp hTrained d hd
    have hLoad : libraryLoad s = (if isS s then s else loadLibraries s).onStart fun x => { x with
        libraryDone := true, libraryAt := wallNs (if isS s then s else loadLibraries s) } := by
      simp only [libraryLoad, hState, hDone, hTested, hAll, ne_eq, not_true_eq_false, decide_false, Bool.or_self, Bool.false_eq_true,
        if_false]
    have hTime : (loadLibraries s).time = s.time := State.time_of_hide (by simp)
    refine ⟨_, congrArg Host.Outcome.next hLoad, ?_⟩
    split
    · simp
    · simp [hTime, wall_of s _ hTime]
  · -- `libraryLoad`
    intro s hUntested
    refine congrArg Host.Outcome.next ?_
    simp [libraryLoad, hUntested]
  · -- `opticsCal`
    intro s a hState hLibraryDone hTrained hDiesUp
    have hAny : (diesUp s).any (fun d => !s.start.trained.getLsbD d) = false := by
      rw [List.any_eq_false]
      intro d hd
      simpa using List.all_eq_true.mp hTrained d hd
    have hOpen : ¬ (s.start.state ≠ .memTrain || !s.start.libraryDone || !((diesUp s).all fun d => (baseOf s d).all (250 ≤ ·)) ||
        (diesUp s).any (fun d => !s.start.trained.getLsbD d)) = true := by
      rw [hAny, hDiesUp, hLibraryDone]
      simp [hState]
    exact congrArg Host.Outcome.next (if_neg hOpen)
  · -- `opticsCalEnd`
    intro s hState hWall
    have hEnd : opticsCalEnd s = enterState .marginTest ((upTo 16).foldl (fun s m => assignSpare m s)
        (meshCauses (darkChannels (takeBaselines (faultRest s))))) := by
      simp [opticsCalEnd, hState, hWall]
    have hTime : ((upTo 16).foldl (fun s m => assignSpare m s)
        (meshCauses (darkChannels (takeBaselines (faultRest s))))).time = s.time := State.time_of_hide (by simp [State.hide_foldl])
    have hMem : ((upTo 16).foldl (fun s m => assignSpare m s)
        (meshCauses (darkChannels (takeBaselines (faultRest s))))).mem = s.mem := State.mem_of_hide (by simp [State.hide_foldl])
    generalize (upTo 16).foldl (fun s m => assignSpare m s) _ = u at hEnd hTime hMem
    exact ⟨_, congrArg Host.Outcome.next hEnd, rfl, wall_of s _ hTime, hTime, hMem⟩
  · -- `meshDeadLinkCheck`
    intro s hState hLinks
    refine congrArg Host.Outcome.next ?_
    rw [if_pos hState, meshDeadLinks, foldl_worseDie_of_zero _ hLinks]
  · -- `meshDeadLinkCheck`
    intro s d hState hd hLinks hWorst
    have hUp : dieUp s d = true := (List.mem_filter.mp hd).2
    refine congrArg Host.Outcome.next ?_
    rw [if_pos hState, meshDeadLinks, foldl_worseDie_eq hd hLinks hWorst]
    simp only [removeDie, hUp, Bool.not_true, Bool.false_eq_true, if_false]
    rfl
  · -- `marginTestEnd`
    intro s hState hWall hLinks
    have hChecked : linksChecked s = s := if_pos hLinks
    have hEnd : ∃ (l : List (Nat × Lane)) (e : Bytes), marginTestEnd s = l.foldl (fun s c => trainAdvance (c.1 / 8) (c.1 % 8) s)
        (settleCauses (raise 0x0001 2 unitDevice e (enterState .linkUp s))) := by
      simp [marginTestEnd, hState, hWall, hChecked]
      exact ⟨_, _, rfl⟩
    obtain ⟨l, e, hEnd⟩ := hEnd
    have hStart : ∀ u : State, (l.foldl (fun s c => trainAdvance (c.1 / 8) (c.1 % 8) s) u).start = u.start := fun u =>
      State.start_of_hide (by simp [State.hide_foldl])
    refine ⟨_, congrArg Host.Outcome.next hEnd, ?_, ?_, ?_, State.time_of_hide (by simp [enterState, State.hide_foldl]),
      State.mem_of_hide (by simp [enterState, State.hide_foldl])⟩
    · rw [hStart]
      by_cases hCauses : s.start.causes = 0#8 <;> simp [settleCauses, enterState, hCauses]
    · rw [hStart, settleCauses_causes]
      simp [enterState]
    · rw [hStart]
      by_cases hCauses : s.start.causes = 0#8 <;> simp [settleCauses, enterState, hCauses]

end Sys2Proof.Machine
end

section
/-! Admission to service, the causes of degraded service, and the loss of a die or of the keeper die. -/

namespace Sys2Proof.Machine

/-! What the loss of a die or of the keeper die leaves (01 R28 to R32): the dies in service, the latches and the marks of start-up,
and the entries of the tables. -/

/-- The dies, latches and marks of start-up are as they were, and a lost die is still a cause of degraded service. -/
structure SameLife (s t : State) : Prop where
  dies : t.start.sectorDies = s.start.sectorDies
  held : t.start.heldDies = s.start.heldDies
  elsI : t.start.elsI = s.start.elsI
  keeperLost : t.start.keeperLost = s.start.keeperLost
  headless : t.start.headless = s.start.headless
  status : t.start.keeperStatus = s.start.keeperStatus
  marks : t.start.serviceMark = s.start.serviceMark
  cores : t.keeper.coresRun = s.keeper.coresRun
  lost : s.start.causes.getLsbD 0 = true → t.start.causes.getLsbD 0 = true

theorem SameLife.refl (s : State) : SameLife s s := ⟨rfl, rfl, rfl, rfl, rfl, rfl, rfl, rfl, id⟩

theorem SameLife.trans {s t u : State} (h : SameLife s t) (g : SameLife t u) : SameLife s u :=
  ⟨g.dies.trans h.dies, g.held.trans h.held, g.elsI.trans h.elsI, g.keeperLost.trans h.keeperLost, g.headless.trans h.headless,
    g.status.trans h.status, g.marks.trans h.marks, g.cores.trans h.cores, fun hs => g.lost (h.lost hs)⟩

theorem SameLife.of_eq {s t : State} (hStart : t.start = s.start) (hKeeper : t.keeper = s.keeper) : SameLife s t := by
  refine ⟨?_, ?_, ?_, ?_, ?_, ?_, ?_, ?_, ?_⟩ <;> simp [hStart, hKeeper]

/-- An operation that leaves start-up and the keeper alone. -/
theorem SameLife.of_hide {s t : State} (h : t.hide 2097139 = s.hide 2097139) : SameLife s t :=
  .of_eq (State.hide_start h rfl) (State.hide_keeper h rfl)

theorem SameLife.foldl {α : Type} {f : State → α → State} (hf : ∀ s x, SameLife s (f s x)) (l : List α) (s : State) :
    SameLife s (l.foldl f s) := by
  induction l generalizing s with
  | nil => exact .refl s
  | cons x l ih => exact (hf s x).trans (ih _)

theorem sameLife_settleCauses (s : State) : SameLife s (settleCauses s) := by
  unfold settleCauses
  (repeat' split) <;> exact ⟨by simp, by simp, by simp, by simp, by simp, by simp, by simp, by simp, by simp⟩

theorem sameLife_setCause {k : Nat} {b : Bool} (h : b = true ∨ (BitVec.ofNat 8 (2 ^ k)).getLsbD 0 = false) (s : State) :
    SameLife s (setCause k b s) := by
  refine SameLife.trans (t := s.onStart fun x => { x with
    causes := if b then x.causes ||| BitVec.ofNat 8 (2 ^ k) else x.causes &&& ~~~BitVec.ofNat 8 (2 ^ k) })
    ⟨rfl, rfl, rfl, rfl, rfl, rfl, rfl, rfl, fun hs => ?_⟩ (sameLife_settleCauses _)
  obtain rfl | h := h
  · show (s.start.causes ||| _).getLsbD 0 = true
    rw [BitVec.getLsbD_or, hs, Bool.true_or]
  · cases b
    · show (s.start.causes &&& ~~~_).getLsbD 0 = true
      rw [BitVec.getLsbD_and, BitVec.getLsbD_not, hs, h]
      rfl
    · show (s.start.causes ||| _).getLsbD 0 = true
      rw [BitVec.getLsbD_or, hs, Bool.true_or]

theorem sameLife_permanentCauses (s : State) : SameLife s (permanentCauses s) := by
  have hStep : ∀ (p : Prop) [Decidable p] (k : Nat) (t : State), SameLife t (if p then setCause k true t else t) := by
    intro p _ k t
    split
    · exact sameLife_setCause (.inl rfl) t
    · exact .refl t
  exact (hStep _ 0 s).trans ((hStep _ 1 _).trans (hStep _ 2 _))

theorem sameLife_meshCauses (s : State) : SameLife s (meshCauses s) :=
  (sameLife_setCause (.inr (by decide)) s).trans (sameLife_setCause (.inr (by decide)) _)

theorem sameLife_halt (c : Nat) (s : State) : SameLife s (halt c s) := by
  unfold halt
  split
  · exact .refl s
  · exact ⟨rfl, rfl, rfl, rfl, rfl, rfl, rfl, rfl, id⟩

theorem sameLife_serviceReached (s : State) : SameLife s (serviceReached s) := by
  have hRaise : ∀ (l : List Nat) (t : State), SameLife t (l.foldl (fun s (f : Nat) => raise 0x0101 1 unitKeeper (args32 [(f : Int)]) s) t) :=
    SameLife.foldl fun t f => .of_hide (by simp)
  unfold serviceReached
  extract_lets s1 s2 s3
  have h1 : SameLife s s1 := ⟨rfl, rfl, rfl, rfl, rfl, rfl, rfl, rfl, id⟩
  have h2 : SameLife s s2 := h1.trans (.of_hide (by simp [s2]))
  split
  · exact h2
  · exact (h2.trans (hRaise _ _)).trans ⟨rfl, rfl, rfl, rfl, rfl, rfl, rfl, rfl, id⟩

theorem sameLife_serviceCheck (s : State) : SameLife s (serviceCheck s) := by
  unfold serviceCheck
  split
  · exact sameLife_serviceReached s
  · exact .refl s

/-- The latches of a die's modules go out with it (01 R30). -/
theorem clearLatches_start (d : Nat) (s : State) : (clearLatches d s).start = { s.start with
    elsE := s.start.elsE &&& ~~~(BitVec.ofNat 16 (3 * 2 ^ (2 * d)))
    elsI := s.start.elsI &&& ~~~(BitVec.ofNat 8 (2 ^ d)) } := by
  unfold clearLatches
  refine State.start_of_hide ((State.hide_foldl (fun t m => ?_) _ _).trans rfl)
  split <;> simp

/-- The state in which die `d` has just left service, before its traffic, regions and causes are settled. -/
def dieOut (d : Nat) (s : State) : State :=
  (clearDie d (clearLatches d (if (diesUp s).head? = some d then stagingLost (sessionsLost s) else s))).onStart fun x => { x with
    heldDies := x.heldDies ||| BitVec.ofNat 8 (2 ^ d) }

/-- The causes of a lost die, and what follows from them. -/
def dieSettled (d cause : Nat) (s : State) : State :=
  let s := permanentCauses (unitLost d 0 cause s)
  if (diesUp s).isEmpty then halt 4 s else serviceCheck (meshCauses s)

theorem loseDie_eq {d : Nat} (cause : Nat) {s : State} (hUp : dieUp s d = true) :
    loseDie d cause s = dieSettled d cause (regionsLose d (expressDieLost d (dieDark d (clearDieState d (dieOut d s))))) := by
  unfold loseDie
  rw [if_neg (by simp [hUp])]
  rfl

theorem sameLife_dieSettled (d cause : Nat) (s : State) : SameLife s (dieSettled d cause s) := by
  have h1 : SameLife s (permanentCauses (unitLost d 0 cause s)) := (SameLife.of_hide (by simp)).trans (sameLife_permanentCauses _)
  unfold dieSettled
  dsimp only
  split
  · exact h1.trans (sameLife_halt 4 _)
  · exact h1.trans ((sameLife_meshCauses _).trans (sameLife_serviceCheck _))

theorem sameLife_loseDie {d : Nat} (cause : Nat) {s : State} (hUp : dieUp s d = true) : SameLife (dieOut d s) (loseDie d cause s) := by
  rw [loseDie_eq cause hUp]
  exact (SameLife.of_hide (by simp)).trans (sameLife_dieSettled ..)

theorem getLsbD_twoPow {n : Nat} (d e : Nat) (hd : d < n) : (BitVec.ofNat n (2 ^ d)).getLsbD e = decide (d = e) := by
  rw [BitVec.getLsbD_ofNat, Nat.testBit_two_pow]
  by_cases h : d = e
  · subst h
    simp [hd]
  · simp [h]

theorem dieOut_start (d : Nat) (s : State) : (dieOut d s).start = { s.start with
    elsE := s.start.elsE &&& ~~~(BitVec.ofNat 16 (3 * 2 ^ (2 * d)))
    elsI := s.start.elsI &&& ~~~(BitVec.ofNat 8 (2 ^ d))
    sectorDies := s.start.sectorDies &&& ~~~(BitVec.ofNat 8 (2 ^ d))
    aihornTiles := s.start.aihornTiles &&& ~~~(BitVec.ofNat 64 (255 * 2 ^ (8 * d)))
    memPackages := s.start.memPackages &&& ~~~(BitVec.ofNat 32 (7 * 2 ^ (3 * d)))
    heldDies := s.start.heldDies ||| BitVec.ofNat 8 (2 ^ d) } := by
  have hStart : (if (diesUp s).head? = some d then stagingLost (sessionsLost s) else s).start = s.start :=
    State.start_of_hide (by simp)
  simp only [dieOut, clearDie, State.onStart_start, clearLatches_start, hStart]

theorem stagingLost_coresRun (s : State) : (stagingLost s).keeper.coresRun = s.keeper.coresRun := rfl

theorem dieOut_coresRun (d : Nat) (s : State) : (dieOut d s).keeper.coresRun = s.keeper.coresRun := by
  have hKeeper : (clearLatches d (if (diesUp s).head? = some d then stagingLost (sessionsLost s) else s)).keeper =
      (if (diesUp s).head? = some d then stagingLost (sessionsLost s) else s).keeper := State.keeper_of_hide (by simp)
  have hSessions : (sessionsLost s).keeper = s.keeper := State.keeper_of_hide (by simp)
  simp only [dieOut, clearDie, State.onStart_keeper, hKeeper]
  split
  · rw [stagingLost_coresRun, hSessions]
  · rfl

theorem dieUp_dieOut {d e : Nat} (hd : d < 8) (s : State) : dieUp (dieOut d s) e = (dieUp s e && !decide (d = e)) := by
  by_cases he : e < 8
  · simp only [dieUp, dieOut_start, BitVec.getLsbD_and, BitVec.getLsbD_not, getLsbD_twoPow d e hd, he, decide_true, Bool.true_and]
  · simp [dieUp, BitVec.getLsbD_of_ge _ e (Nat.not_lt.mp he)]

/-- A step at which dies may leave service, and nothing else of start-up is given up. -/
structure Loses (s t : State) : Prop where
  dies : ∀ e, dieUp t e = true → dieUp s e = true
  keeperLost : t.start.keeperLost = s.start.keeperLost
  headless : t.start.headless = s.start.headless
  status : t.start.keeperStatus = s.start.keeperStatus
  marks : t.start.serviceMark = s.start.serviceMark
  cores : t.keeper.coresRun = s.keeper.coresRun

theorem SameLife.loses {s t : State} (h : SameLife s t) : Loses s t :=
  ⟨fun e he => by rwa [dieUp, h.dies] at he, h.keeperLost, h.headless, h.status, h.marks, h.cores⟩

theorem Loses.trans {s t u : State} (h : Loses s t) (g : Loses t u) : Loses s u :=
  ⟨fun e he => h.dies e (g.dies e he), g.keeperLost.trans h.keeperLost, g.headless.trans h.headless, g.status.trans h.status,
    g.marks.trans h.marks, g.cores.trans h.cores⟩

theorem Loses.refl (s : State) : Loses s s := (SameLife.refl s).loses

theorem Loses.foldl {α : Type} {f : State → α → State} (hf : ∀ s x, Loses s (f s x)) (l : List α) (s : State) :
    Loses s (l.foldl f s) := by
  induction l generalizing s with
  | nil => exact .refl s
  | cons x l ih => exact (hf s x).trans (ih _)

theorem loses_dieOut (d : Nat) (s : State) : Loses s (dieOut d s) := by
  refine ⟨fun e he => ?_, ?_, ?_, ?_, ?_, dieOut_coresRun d s⟩
  · rw [dieUp, dieOut_start, BitVec.getLsbD_and, Bool.and_eq_true] at he
    exact he.1
  all_goals rw [dieOut_start]

theorem loses_loseDie (d cause : Nat) (s : State) : Loses s (loseDie d cause s) := by
  by_cases hUp : dieUp s d = true
  · exact (loses_dieOut d s).trans (sameLife_loseDie cause hUp).loses
  · have hSame : loseDie d cause s = s := if_pos (by simp [hUp])
    rw [hSame]
    exact .refl s

theorem dieUp_loseDie {d : Nat} (hd : d < 8) (cause : Nat) (s : State) : dieUp (loseDie d cause s) d = false := by
  by_cases hUp : dieUp s d = true
  · rw [dieUp, (sameLife_loseDie cause hUp).dies]
    exact (dieUp_dieOut hd s).trans (by simp)
  · have hSame : loseDie d cause s = s := if_pos (by simp [hUp])
    rw [hSame]
    simpa using hUp

theorem lt_of_mem_diesUp {s : State} {d : Nat} (h : d ∈ diesUp s) : d < 8 := mem_upTo.mp (List.mem_filter.mp h).1

theorem mem_diesUp {s : State} {d : Nat} (h : dieUp s d = true) : d ∈ diesUp s := by
  refine List.mem_filter.mpr ⟨mem_upTo.mpr (Classical.byContradiction fun hd => ?_), h⟩
  rw [dieUp, BitVec.getLsbD_of_ge _ d (Nat.not_lt.mp hd)] at h
  cases h

theorem loses_silentDies (s : State) : Loses s (silentDies s) := Loses.foldl (fun t d => loses_loseDie d 1 t) _ s

/-- R30: a silent die is out of service. -/
theorem dieUp_silentDies {s : State} {d : Nat} (hd : d ∈ diesUp s) (hSilent : heartbeatMissing s d = true) :
    dieUp (silentDies s) d = false := by
  obtain ⟨l, r, hSplit⟩ := List.append_of_mem (List.mem_filter.mpr ⟨hd, hSilent⟩)
  rw [silentDies, hSplit, List.foldl_append, List.foldl_cons]
  generalize l.foldl (fun s d => loseDie d 1 s) s = t
  have hAfter := Loses.foldl (fun t d => loses_loseDie d 1 t) r (loseDie d 1 t)
  have hOut := dieUp_loseDie (lt_of_mem_diesUp hd) 1 t
  exact Bool.eq_false_iff.mpr fun h => by rw [hAfter.dies d h] at hOut; cases hOut

theorem loses_loseTileless (s : State) : Loses s (loseTileless s) := Loses.foldl (fun t d => loses_loseDie d 2 t) _ s

theorem sameLife_tileLost (die tile cause : Nat) (s : State) : SameLife s (tileLost die tile cause s) := by
  unfold tileLost
  split
  · exact .refl s
  · extract_lets on s1 s2 s3
    have h1 : SameLife s s1 := ⟨rfl, rfl, rfl, rfl, rfl, rfl, rfl, rfl, id⟩
    have h2 : SameLife s1 s2 := by
      unfold s2
      clear_value on s1
      obtain _ | ⟨h, _, _⟩ := on
      · exact .refl s1
      · exact .of_hide (by simp [State.hide_foldl])
    have h3 : SameLife s2 s3 := .of_hide (by simp [s3])
    clear_value s1 s2 s3
    exact h1.trans (h2.trans (h3.trans ((SameLife.of_hide (by simp)).trans (sameLife_permanentCauses _))))

theorem sameLife_retireNow (die tile row pos : Nat) (s : State) : SameLife s (retireNow die tile row pos s) := by
  unfold retireNow
  dsimp only
  split
  · exact .refl s
  split
  · split
    · exact .refl s
    · exact sameLife_tileLost ..
  split
  · exact .of_hide (by simp)
  split
  · exact .of_hide (by simp)
  · exact .of_hide (by simp)

theorem sameLife_spareModeWrite (v : Nat) (s : State) : SameLife s (spareModeWrite v s) := by
  unfold spareModeWrite
  split
  · exact .of_hide (by simp)
  · have hAnswer : SameLife s (answer stDone (objSet 0x0B0001 5 v s)) := .of_hide (by simp)
    dsimp only
    split
    · exact hAnswer
    · refine (hAnswer.trans (.of_hide ?_)).trans (SameLife.foldl (fun t x => sameLife_retireNow ..) _ _)
      simp

theorem sameLife_modesToHardware (s : State) : SameLife s (modesToHardware s) := by
  unfold modesToHardware
  extract_lets s1 s2 s3
  have h3 : SameLife s s3 := .of_hide (by simp [s3, s2, s1])
  clear_value s3
  exact ((h3.trans (.of_hide (by simp))).trans (sameLife_spareModeWrite 0 (collRecoveryWrite 0 s3))).trans
    (.of_hide (State.hide_with_bop (by decide) _ _))

theorem loses_headlessEntry (s : State) : Loses (s.onStart fun x => { x with headless := true }) (headlessEntry s) := by
  unfold headlessEntry
  refine ((sameLife_modesToHardware _).loses.trans (loses_loseTileless _)).trans (SameLife.of_hide ?_).loses
  simp

/-- The entries of the tables that the loss of a die leaves alone. -/
def SameEntries (s t : State) : Prop := t.tables.dit = s.tables.dit ∧ t.tables.emt = s.tables.emt

theorem SameEntries.trans {s t u : State} (h : SameEntries s t) (g : SameEntries t u) : SameEntries s u :=
  ⟨g.1.trans h.1, g.2.trans h.2⟩

theorem SameEntries.of_hide {s t : State} (h : t.hide 2097135 = s.hide 2097135) : SameEntries s t := by
  have hTables := State.tables_of_hide h
  exact ⟨congrArg Tables.dit hTables, congrArg Tables.emt hTables⟩

theorem SameEntries.foldl {α : Type} {f : State → α → State} (hf : ∀ s x, SameEntries s (f s x)) (l : List α) (s : State) :
    SameEntries s (l.foldl f s) := by
  induction l generalizing s with
  | nil => exact ⟨rfl, rfl⟩
  | cons x l ih => exact (hf s x).trans (ih _)

theorem sameEntries_probeDone (c : Cell) (s : State) : SameEntries s (probeDone c s) := by
  unfold probeDone
  split
  · exact ⟨rfl, rfl⟩
  · exact ⟨rfl, rfl⟩

theorem sameEntries_discardFrame (h : Cell) (spent : Bool) (s : State) : SameEntries s (discardFrame h spent s) := by
  unfold discardFrame
  extract_lets die id q coming here s1 s2 s3 s4 s5 s6 s7 s8
  have h1 : SameEntries s s1 := .foldl (fun s c => .of_hide (by simp)) _ _
  clear_value s1 here coming q
  have h2 : SameEntries s1 s2 := .of_hide (by unfold s2; split <;> simp)
  have h3 : SameEntries s2 s3 := .of_hide (by simp [s3])
  have h4 : SameEntries s3 s4 := by
    unfold s4
    split
    · exact sameEntries_probeDone ..
    · exact ⟨rfl, rfl⟩
  have h5 : SameEntries s4 s5 := .of_hide (by unfold s5; split <;> simp)
  have h7 : SameEntries s5 s7 := .of_hide (by simp [s7, s6])
  have h8 : SameEntries s7 s8 := .of_hide (State.hide_onSwitch (by decide) ..)
  have hKept : SameEntries s s7 := h1.trans (h2.trans (h3.trans (h4.trans (h5.trans h7))))
  clear_value s7 s8
  split
  · exact hKept
  · exact (hKept.trans h8).trans (.of_hide (by simp))

theorem sameEntries_dropAtEgress (port : Nat) (f : EFrame) (s : State) : SameEntries s (dropAtEgress port f s) := by
  have hRelease : SameEntries s (releaseEgress port f s) := .of_hide (by simp)
  unfold dropAtEgress
  dsimp only
  split
  · exact hRelease.trans (.of_hide (by simp))
  · exact hRelease.trans (sameEntries_discardFrame ..)

theorem sameEntries_portsDark (pick : Nat → Bool) (s : State) : SameEntries s (portsDark pick s) :=
  SameEntries.trans (t := State.onFlow (State.onSwitch s _) _) ⟨rfl, rfl⟩
    (.foldl (fun (t : State) (y : Nat × EFrame) => sameEntries_dropAtEgress y.1 y.2 t) _ _)

theorem sameEntries_tablesDieLost (d : Nat) (s : State) : SameEntries s (tablesDieLost d s) := ⟨rfl, rfl⟩

theorem sameEntries_clearDieState (d : Nat) (s : State) : SameEntries s (clearDieState d s) := by
  unfold clearDieState
  have h1 : SameEntries s (settleLost d s) := .of_hide (by simp)
  have h2 := h1.trans (sameEntries_portsDark (fun p => portDie p == d) (settleLost d s))
  have h3 : SameEntries s (contextsLost d (switchDieLost d (portsDark (fun p => portDie p == d) (settleLost d s)))) :=
    h2.trans (.of_hide (by simp))
  exact (h3.trans (sameEntries_tablesDieLost d _)).trans (.of_hide (State.hide_onRegs (by decide) _ _))

theorem sameEntries_loseDie {d : Nat} (cause : Nat) {s : State} (hUp : dieUp s d = true) : SameEntries s (loseDie d cause s) := by
  have hOut : SameEntries s (dieOut d s) := .of_hide (by
    unfold dieOut
    split <;> simp [clearDie])
  rw [loseDie_eq cause hUp]
  refine (hOut.trans (sameEntries_clearDieState d _)).trans (.of_hide ?_)
  unfold dieSettled
  dsimp only
  split <;> simp

theorem permanentCauses_lost {s : State} (h : s.start.sectorDies ≠ 0xFF) : (permanentCauses s).start.causes.getLsbD 0 = true := by
  have hStep : ∀ (p : Prop) [Decidable p] (k : Nat) (t : State), SameLife t (if p then setCause k true t else t) := by
    intro p _ k t
    split
    · exact sameLife_setCause (.inl rfl) t
    · exact .refl t
  unfold permanentCauses
  rw [if_pos h]
  refine ((hStep _ 1 _).trans (hStep _ 2 _)).lost ?_
  rw [setCause_causes, if_pos rfl, BitVec.getLsbD_or, getLsbD_twoPow 0 0 (by decide)]
  simp

/-- R30: a lost die is a cause of degraded service. -/
theorem dieSettled_lost {d : Nat} (cause : Nat) {s : State} (h : s.start.sectorDies ≠ 0xFF) :
    (dieSettled d cause s).start.causes.getLsbD 0 = true := by
  have hStart : (unitLost d 0 cause s).start = s.start := State.start_of_hide (by simp)
  have hLost : (permanentCauses (unitLost d 0 cause s)).start.causes.getLsbD 0 = true :=
    permanentCauses_lost (by rw [hStart]; exact h)
  unfold dieSettled
  dsimp only
  split
  · exact (sameLife_halt 4 _).lost hLost
  · exact ((sameLife_meshCauses _).trans (sameLife_serviceCheck _)).lost hLost

theorem loseDie_lost {d : Nat} (hd : d < 8) (cause : Nat) {s : State} (hUp : dieUp s d = true) :
    (loseDie d cause s).start.causes.getLsbD 0 = true := by
  rw [loseDie_eq cause hUp]
  refine dieSettled_lost cause fun h => ?_
  have hOut := dieUp_dieOut (e := d) hd s
  have hStart : (regionsLose d (expressDieLost d (dieDark d (clearDieState d (dieOut d s))))).start = (dieOut d s).start :=
    State.start_of_hide (by simp)
  rw [dieUp, ← hStart, h] at hOut
  have hFull : ∀ e < 8, BitVec.getLsbD (0xFF : BitVec 8) e = true := by decide
  rw [hFull d hd] at hOut
  simp at hOut

/-- The ports of a die and the latches of its modules go dark (01 R32). -/
def darkenDie (s : State) (d : Nat) : State := dieDark d (clearLatches d s)

theorem darkenDie_start (s : State) (d : Nat) : (darkenDie s d).start = { s.start with
    elsE := s.start.elsE &&& ~~~(BitVec.ofNat 16 (3 * 2 ^ (2 * d))), elsI := s.start.elsI &&& ~~~(BitVec.ofNat 8 (2 ^ d)) } :=
  (State.start_of_hide (dieDark_frame (by decide) ..)).trans (clearLatches_start d s)

/-- Every port dark: what `darkPorts` does before it halts the device. -/
def allDark (s : State) : State :=
  (upTo 32).foldl (fun s n => portDown n s) (portsDark (fun _ => true) ((upTo 8).foldl darkenDie s))

theorem darkPorts_eq (s : State) : darkPorts s = halt 3
    (((allDark s).onKeeper fun k => { k with bootCause := 0x0E }).onStart fun x => { x with darkHold := true }) := rfl

theorem allDark_start (s : State) : (allDark s).start = ((upTo 8).foldl darkenDie s).start :=
  State.start_of_hide (by simp [allDark, State.hide_foldl])

theorem allDark_state (s : State) : (allDark s).start.state = s.start.state := by
  rw [allDark_start]
  exact foldl_eq (fun t => t.start.state) darkenDie (fun t d => by simp only [darkenDie_start]) _ _

theorem allDark_keeperLost (s : State) : (allDark s).start.keeperLost = s.start.keeperLost := by
  rw [allDark_start]
  exact foldl_eq (fun t => t.start.keeperLost) darkenDie (fun t d => by simp only [darkenDie_start]) _ _

theorem dieUp_allDark (s : State) (d : Nat) : dieUp (allDark s) d = dieUp s d := by
  unfold dieUp
  rw [allDark_start, foldl_eq (fun t => t.start.sectorDies) darkenDie (fun t d => by simp only [darkenDie_start]) _ _]

theorem allDark_keeper (s : State) : (allDark s).keeper = s.keeper :=
  State.keeper_of_hide (by simp [allDark, darkenDie, State.hide_foldl])

theorem darkPorts_of_running {s : State} (h : s.start.state ≠ .halted) : darkPorts s =
    ((allDark s).onKeeper fun k => { k with bootCause := 0x0E }).onStart fun x => { x with
      darkHold := true, state := .halted, haltCause := 3 } := by
  rw [darkPorts_eq, halt_of_ne (by rw [← allDark_state] at h; exact h)]
  rfl

/-- The keeper die is lost, before the device goes headless or dark: its cores stop (01 R31). -/
def keeperOut (s : State) : State :=
  (({ silentDies s with bop := s.bop } : State).onStart fun x => { x with
    keeperLost := true
    keeperStatus := 2
    serviceMark := if (diesUp (silentDies s)).any (silentDies s).start.serviceMark.getLsbD then x.sectorDies else x.serviceMark
    }).onKeeper fun k => { k with coresRun := false }

theorem keeperLoss_eq {s : State} (h : s.start.keeperLost = false) : keeperLoss s =
    if (keeperOut s).start.state = .halted then keeperOut s
    else if (diesUp (silentDies s)).any (silentDies s).start.serviceMark.getLsbD then headlessEntry (serviceCheck (keeperOut s))
    else darkPorts (keeperOut s) := by
  unfold keeperLoss
  rw [if_neg (by simp [h])]
  rfl

theorem silentDies_of_none {s : State} (h : (diesUp s).any (heartbeatMissing s) = false) : silentDies s = s := by
  have hNone : (diesUp s).filter (heartbeatMissing s) = [] :=
    List.filter_eq_nil_iff.mpr fun d hd hMissing => by rw [List.any_eq_true.mpr ⟨d, hd, hMissing⟩] at h; cases h
  rw [silentDies, hNone, List.foldl_nil]

/-- What the loss of the keeper die leaves, whether the device goes headless, dark or stays halted. -/
theorem keeperLoss_lost {s : State} (h : s.start.keeperLost = false) :
    (keeperLoss s).start.keeperLost = true ∧ (keeperLoss s).keeper.coresRun = false ∧
      ∀ d, dieUp (keeperLoss s) d = true → dieUp (silentDies s) d = true := by
  have hHeadless : Loses ((serviceCheck (keeperOut s)).onStart fun x => { x with headless := true })
      (headlessEntry (serviceCheck (keeperOut s))) := loses_headlessEntry _
  have hCheck := sameLife_serviceCheck (keeperOut s)
  rw [keeperLoss_eq h]
  by_cases hHalted : (keeperOut s).start.state = .halted
  · rw [if_pos hHalted]
    exact ⟨rfl, rfl, fun d hd => hd⟩
  rw [if_neg hHalted]
  split
  · exact ⟨hHeadless.keeperLost.trans hCheck.keeperLost, hHeadless.cores.trans hCheck.cores,
      fun d hd => hCheck.loses.dies d (hHeadless.dies d hd)⟩
  · rw [darkPorts_of_running hHalted]
    exact ⟨allDark_keeperLost _, congrArg Keeper.coresRun (allDark_keeper _), fun d hd => (dieUp_allDark (keeperOut s) d).symm.trans hd⟩

theorem settleCauses_degraded {s : State} (hUp : isUp s = true) (hCause : s.start.causes ≠ 0) :
    (settleCauses s).start.state = .degraded := by
  have hSome : ¬ s.start.causes = 0#8 := hCause
  rcases (isUp_iff s).mp hUp with h | h | h <;> simp [settleCauses, h, hSome]

/-- Settles O26: the loss of a die through what SameLife and Loses keep, the loss of the keeper die through the dark or headless device it leaves. -/
theorem serviceAndLoss : Obligations.ServiceAndLoss := by
  unfold Obligations.ServiceAndLoss
  refine ⟨?_, ?_, ?_, ?_, ?_, ?_, ?_, ?_, ?_, ?_, ?_⟩
  · -- `serviceEnter`
    rintro s r ⟨hKeeper, hCheck⟩ hState hAsked
    refine congrArg Host.Outcome.next ((guardWrite_of_done hKeeper hCheck).trans ?_)
    exact serviceEnter_of_not_asked hState hAsked
  · -- `serviceMarkReceive`
    intro s d hAsked hUp hIsUp hDark hEntered hMarks hMinority
    have hMark : serviceMark d.val s =
        serviceReached (s.onStart fun x => { x with serviceMark := x.serviceMark ||| BitVec.ofNat 8 (2 ^ d.val) }) := by
      have hAll : (diesUp s).all (s.start.serviceMark ||| BitVec.ofNat 8 (2 ^ d.val)).getLsbD = true := by
        refine List.all_eq_true.mpr fun e he => ?_
        rw [BitVec.getLsbD_or, getLsbD_twoPow d.val e d.isLt]
        by_cases hEq : d.val = e
        · simp [hEq]
        · simp only [hMarks e he fun h => hEq h.symm, Bool.true_or]
      have hSome : (!(diesUp s).isEmpty) = true := by simpa using List.ne_nil_of_mem (mem_diesUp hUp)
      unfold serviceMark
      rw [if_neg (by simp [hAsked, hUp, hIsUp, hDark])]
      refine if_pos ?_
      simp only [Bool.and_eq_true]
      exact ⟨⟨⟨⟨⟨hAsked, by simpa using hEntered⟩, hIsUp⟩, by simpa using hDark⟩, hSome⟩, hAll⟩
    refine ⟨_, congrArg Host.Outcome.next hMark, ?_, State.time_of_hide (by simp), State.mem_of_hide (by simp)⟩
    unfold serviceReached
    extract_lets s1 s2 s3
    have h2 : s2.start = s1.start := State.start_of_hide (by simp [s2])
    have hNone : s2.keeper.minority = [] := (congrArg Keeper.minority (State.keeper_of_hide (by simp [s2, s1]))).trans hMinority
    split
    · exact h2
    · simp only [s3, hNone, List.foldl_nil]
      exact h2
  · -- `degradedCauseChange`
    intro s hClocks hIsUp hHold
    have hExec : exec (.degradedCauseChange 6 true) s = .next (setCause 6 true s) :=
      congrArg Host.Outcome.next (if_pos (by simp [hClocks, causeHolds, hHold]))
    refine ⟨_, hExec, setCause_causes 6 true s, ?_, setCause_time .., setCause_mem ..⟩
    refine settleCauses_degraded hIsUp fun h => ?_
    have hBit := congrArg (fun c => BitVec.getLsbD c 6) h
    simp at hBit
  · -- `dieHeartbeat`
    intro s d hClocks hUp
    refine congrArg Host.Outcome.next ?_
    simp [hClocks, hUp, State.onStart]
  · -- `dieLost`
    intro s d hClocks hUp
    have hExec : exec (.dieLost d true) s = .next (loseDie d.val 2 s) :=
      congrArg Host.Outcome.next (if_pos (by simp [hClocks]))
    have hLife := sameLife_loseDie 2 hUp
    obtain ⟨hDit, hEmt⟩ := sameEntries_loseDie 2 hUp
    refine ⟨_, hExec, dieUp_loseDie d.isLt 2 s, fun e he => ?_, ?_, loseDie_lost d.isLt 2 hUp, ?_,
      State.time_of_hide (by simp), hDit, hEmt, State.mem_of_hide (by simp)⟩
    · rw [dieUp, hLife.dies]
      exact (dieUp_dieOut d.isLt s).trans (by simp [Ne.symm he])
    · rw [hLife.held, dieOut_start]
      simp only [BitVec.getLsbD_or, getLsbD_twoPow d.val d.val d.isLt, decide_true, Bool.or_true]
    · rw [hLife.elsI, dieOut_start]
      simp only [BitVec.getLsbD_and, BitVec.getLsbD_not, getLsbD_twoPow d.val d.val d.isLt, decide_true, Bool.not_true, Bool.and_false]
  · -- `keeperLost`
    intro s d hStarted hSilent hLost hUp hMissing
    have hExec : exec .keeperLost s = .next (keeperLoss s) := congrArg Host.Outcome.next (if_pos (by simp [hStarted, hSilent]))
    obtain ⟨hKeeper, hCores, hDies⟩ := keeperLoss_lost hLost
    refine ⟨_, hExec, hKeeper, Bool.eq_false_iff.mpr fun h => ?_, hCores, State.time_of_hide (by simp)⟩
    have hOut := dieUp_silentDies (mem_diesUp hUp) hMissing
    rw [hDies _ h] at hOut
    cases hOut
  · -- `keeperLost`
    intro s hStarted hSilent hLost hState hNone hMarked
    have hExec : exec .keeperLost s = .next (keeperLoss s) := congrArg Host.Outcome.next (if_pos (by simp [hStarted, hSilent]))
    have hDies := silentDies_of_none hNone
    have hStart : (keeperOut s).start = { s.start with keeperLost := true, keeperStatus := 2, serviceMark := s.start.sectorDies } := by
      simp [keeperOut, hDies, hMarked]
    have hLoss : keeperLoss s = headlessEntry (serviceCheck (keeperOut s)) := by
      rw [keeperLoss_eq hLost, if_neg (by rw [hStart]; exact hState), hDies, if_pos hMarked]
    have hEntry := loses_headlessEntry (serviceCheck (keeperOut s))
    have hCheck := sameLife_serviceCheck (keeperOut s)
    refine ⟨_, hExec.trans (congrArg Host.Outcome.next hLoss), hEntry.keeperLost.trans hCheck.keeperLost, hEntry.headless,
      (hEntry.status.trans hCheck.status).trans (by rw [hStart]), (hEntry.marks.trans hCheck.marks).trans (by rw [hStart]),
      hEntry.cores.trans hCheck.cores, ?_⟩
    rw [← hLoss]
    exact State.time_of_hide (by simp)
  · -- `keeperWatchdogExpire`
    intro s c hStarted hCores hLost hState hNone hMarked
    have hExec : exec (.keeperWatchdogExpire c) s = .next (keeperLoss s) :=
      congrArg Host.Outcome.next (if_pos (by simp [hStarted, hCores]))
    have hDies := silentDies_of_none hNone
    have hRunning : (keeperOut s).start.state ≠ .halted := by simpa [keeperOut, hDies] using hState
    have hLoss : keeperLoss s = darkPorts (keeperOut s) := by
      rw [keeperLoss_eq hLost, if_neg hRunning, hDies, if_neg (by simp [hMarked])]
    have hTime : (keeperLoss s).time = s.time := State.time_of_hide (by simp)
    rw [hLoss, darkPorts_of_running hRunning] at hTime hExec
    exact ⟨_, hExec, allDark_keeperLost _, rfl, rfl, rfl, rfl, congrArg Keeper.coresRun (allDark_keeper _), hTime⟩
  · -- `configCommitMark`
    intro s d b hClocks hUp hPrepared
    exact congrArg Host.Outcome.next ((if_pos (by simp [hClocks, hUp])).trans (if_pos hPrepared))
  · -- `configCommitMark`
    intro s d k x r hClocks hUp hPrepared hFirst hRun hAll
    have hBatch : batchMark d.val true x s = ({ x with run := some { r with batch := [], marked := [] } },
        r.batch.foldl (fun s w => plainStore w.1 w.2.1 w.2.2 s) s) := by
      unfold batchMark
      rw [hRun]
      exact if_pos hAll
    refine congrArg Host.Outcome.next ((if_pos (by simp [hClocks, hUp])).trans ((if_neg (by simp [hPrepared])).trans ?_))
    unfold configMark
    dsimp only
    rw [hFirst]
    refine (if_neg (by simp)).trans ?_
    show State.onBop (batchMark d.val true x s).2 _ = _
    rw [hBatch]
    rfl
  · -- `configCommitMark`
    intro s d hClocks hUp hKeeperLost hPrepared
    refine congrArg Host.Outcome.next ?_
    simp [configMark, hClocks, hUp, hKeeperLost, hPrepared]

end Sys2Proof.Machine
end

section
/-! The alignment mark, increments and steps of the time unit. -/

namespace Sys2Proof.Machine

/-- R385: what a step leaves of the time unit; the tables, lanes and frames that follow from it are elsewhere. -/
theorem applyStep_time (step : Int) (s : State) : (applyStep step s).time = { s.time with
    tmu := addStep s.time.tmu step
    followers := (upTo 8).foldl (fun g d => g.set d (addStep s.time.tmu step)) s.time.followers
    pendingStep := none
    stepSum := s.time.stepSum + step
    stepForced := s.time.stepForced || decide (stepLimit s < (step.natAbs : Int)) } := by
  unfold applyStep
  extract_lets forced s1 s2 s3 s4
  have h4 : s4.time = s1.time := State.time_of_hide (by
    simp only [s4, s3, s2]
    rw [expressOnStep_frame (by decide), State.hide_foldl fun t d => ageOnStep_frame (by decide) ..]
    split <;> simp)
  exact (State.time_of_hide (State.hide_foldl (fun t d => by split <;> simp) _ _)).trans h4

theorem applyStep_mem (step : Int) (s : State) : (applyStep step s).mem = s.mem := State.mem_of_hide (by simp)

theorem applyStep_keeper (step : Int) (s : State) : (applyStep step s).keeper = s.keeper := State.keeper_of_hide (by simp)

theorem requestStep_of_le {step : Int} {force : Bool} {s : State} (h : (step.natAbs : Int) ≤ stepLimit s ∨ force = true) :
    requestStep step force s = s.onTime fun t => { t with pendingStep := some step } :=
  if_neg (by
    obtain h | h := h
    · simp only [not_lt.mpr h, decide_false, Bool.false_and]
      decide
    · simp [h])

/-- Settles O27: the mark through what a step leaves of the time unit, the writes through the range of R382. -/
theorem timeUnit : Obligations.TimeUnit := by
  unfold Obligations.TimeUnit
  refine ⟨?_, ?_, ?_, ?_, ?_, ?_, ?_, ?_, ?_⟩
  · -- `alignmentMark`
    intro s hTmuRuns hPendingStep
    refine congrArg Host.Outcome.next ?_
    simp [alignmentMark, hTmuRuns, hPendingStep, State.onTime]
  · -- `alignmentMark`
    intro s step hRuns hPending
    refine ⟨_, rfl, ?_⟩
    simp [alignmentMark, hRuns, hPending, applyStep_time, applyStep_mem, applyStep_keeper]
  · -- `tmuIncWrite`
    intro s m v hGranted hMode hLow hHigh
    refine congrArg Host.Outcome.next ((guardReg_of_granted hGranted).trans (if_neg ?_))
    simp [hMode, incOk, hLow, hHigh]
  · -- `tmuIncWrite`
    intro s m v hGranted hRefused
    refine congrArg Host.Outcome.next ((guardReg_of_granted hGranted).trans (if_pos ?_))
    simp [incOk]
    omega
  · -- `tmuStepGo`
    intro s m v hGranted hGo hPending hLimit
    have hWrite : stepCtlWrite v s = requestStep (s.time.stepNs.toInt * 65536 + ((v.setWidth 16).toNat : Int)) (v.getLsbD 30)
        (s.onTime fun t => { t with stepForce := v.getLsbD 30, stepFrac := v.setWidth 16 }) :=
      (if_neg (by simp [hPending])).trans (if_pos hGo)
    refine congrArg Host.Outcome.next ((guardReg_of_granted hGranted).trans (hWrite.trans ?_))
    exact requestStep_of_le (.inl hLimit)
  · -- `tmuStepGo`
    intro s m v hGranted hGetLsbD hPendingStep
    refine congrArg Host.Outcome.next ?_
    simp [stepCtlWrite, guardReg_of_granted hGranted, hGetLsbD, hPendingStep, State.onTime]
  · -- `timeStep`
    rintro s r ns frac force ⟨hKeeper, hCheck⟩ hRuns hPending hLimit
    refine congrArg Host.Outcome.next ((guardWrite_of_done hKeeper hCheck).trans ?_)
    simp only [timeStepWrite, hRuns, hPending, requestStep_of_le hLimit]
    rfl
  · -- `timeStep`
    rintro s r ns frac ⟨hKeeper, hCheck⟩ hRuns hPending hLimit
    have hWrite : timeStepWrite ns frac false s = answer stDone (raise 0x0D01 1 unitKeeper
        (args32 [(ns.toInt * 65536 + (frac.toNat : Int)) / 65536]) (s.onTime fun t => { t with stepRefused := true })) := by
      simp only [timeStepWrite, hRuns, hPending, requestStep, hLimit]
      rfl
    refine ⟨_, congrArg Host.Outcome.next ((guardWrite_of_done hKeeper hCheck).trans hWrite), ?_⟩
    simp [hPending]
  · -- `tmuNowRead`
    intro s m d hGranted
    refine congrArg Host.Outcome.next ?_
    simp [nowRead, guardRead_of_granted hGranted, State.onTime]

end Sys2Proof.Machine
end

section
/-! The hall-time inputs, the servo and timed launch. -/

namespace Sys2Proof.Machine

/-- R387: the latched edge, before the event of a recovered input and the servo. -/
def ppsLatched (s : State) : State :=
  s.onTime fun t => { t with
    ppsNs := BitVec.ofNat 32 (t.tmu.toNat / 2 ^ 28)
    ppsFrac := BitVec.ofNat 16 (t.tmu.toNat / 2 ^ 12)
    ppsSeq := t.ppsSeq + 1
    ppsSeen := true
    ppsEver := true
    ppsTicks := 0
    ppsLost := false }

/-- The latched edge, and the event when the input had been lost. -/
def ppsReported (s : State) : State :=
  if s.time.ppsLost then raise 0x0D04 2 unitKeeper [] (ppsLatched s) else ppsLatched s

theorem ppsEdge_of_edge {s : State} (hRuns : tmuRuns s = true) (h : s.time.ppsSeen = false ∨ 400000000 ≤ s.time.ppsTicks) :
    ∃ t, ppsEdge s = (if cfgServoMode s = 0 ∧ s.start.headless = false then servo t else t) ∧
      t.time = (ppsLatched s).time ∧ t.mem = s.mem ∧ t.keeper = s.keeper := by
  have hLate : ¬ (s.time.ppsSeen && decide (s.time.ppsTicks < 400000000)) = true := by
    obtain h | h := h
    · simp [h]
    · simp [not_lt.mpr h]
  have hTime : (ppsReported s).time = (ppsLatched s).time := by unfold ppsReported; split <;> simp
  have hRest : (ppsReported s).hide 24578 = s.hide 24578 := by unfold ppsReported; split <;> simp [ppsLatched]
  have hMode : cfgServoMode (ppsReported s) = cfgServoMode s := by
    unfold cfgServoMode objGet
    rw [State.obj_of_hide (State.hide_mono hRest (by decide))]
  have hStart : (ppsReported s).start = s.start := State.start_of_hide (State.hide_mono hRest (by decide))
  refine ⟨ppsReported s, ?_, hTime, State.mem_of_hide (State.hide_mono hRest (by decide)), State.keeper_of_hide (State.hide_mono hRest (by decide))⟩
  have hEdge : ppsEdge s = if (cfgServoMode (ppsReported s) = 0 && !(ppsReported s).start.headless) then servo (ppsReported s)
      else ppsReported s :=
    (if_neg (by simp [hRuns])).trans (if_neg hLate)
  rw [hEdge, hMode, hStart]
  simp

/-- Settles O28: the edge through the latched state and the servo, the other inputs from their guards. -/
theorem hallTime : Obligations.HallTime := by
  unfold Obligations.HallTime
  refine ⟨?_, ?_, ?_, ?_, ?_, ?_, ?_, ?_, ?_⟩
  · -- `htPpsEdge`
    intro s hTmuRuns hPpsSeen hPpsTicks
    refine congrArg Host.Outcome.next ?_
    simp [ppsEdge, hTmuRuns, hPpsSeen, hPpsTicks]
  · -- `htPpsEdge`
    intro s hRuns hEdge
    obtain ⟨t, hPps, hTime, hMem, hKeeper⟩ := ppsEdge_of_edge hRuns hEdge
    refine ⟨_, congrArg Host.Outcome.next hPps, ?_⟩
    have hFrac : BitVec.ofNat 16 (s.time.tmu.toNat / 4096) = BitVec.ofNat 16 (s.time.tmu.toNat / 4096 % 65536) :=
      BitVec.eq_of_toNat_eq (by simp)
    by_cases hServo : cfgServoMode s = 0 ∧ s.start.headless = false
    · simp [hServo, servo, hTime, hMem, hKeeper, ppsLatched, tmuNs, tmuFrac, hFrac]
    · simp [hServo, hTime, hMem, hKeeper, ppsLatched, tmuNs, tmuFrac, hFrac]
  · -- `ppsLost`
    intro s hTmuRuns hPpsLost hPpsTicks
    refine congrArg Host.Outcome.next ?_
    simp [ppsGone, hTmuRuns, hPpsLost, hPpsTicks, State.onTime]
  · -- `clk10Measure`
    intro s n ppb hRuns hSmall hError
    subst hError
    refine congrArg Host.Outcome.next ?_
    simp [clk10Measure, hRuns, hSmall, State.onTime]
  · -- `clk10Measure`
    intro s n ppb hRuns hLarge hError
    subst hError
    refine congrArg Host.Outcome.next ?_
    simp [clk10Measure, hRuns, hLarge.not_ge, clk10Gone, State.onTime]
  · -- `clk10Loss`
    intro s hRuns
    exact congrArg Host.Outcome.next (if_pos hRuns)
  · -- `ppsTarget`
    rintro s r v ⟨hKeeper, hCheck⟩
    refine congrArg Host.Outcome.next ?_
    simp [guardWrite_of_done hKeeper hCheck, State.onTime]
  · -- `timeServoMode`
    rintro s r v ⟨hKeeper, hCheck⟩ hV
    refine congrArg Host.Outcome.next ((guardWrite_of_done hKeeper hCheck).trans (if_neg ?_))
    simpa using hV
  · -- `timedFrameEligible`
    intro s d x l hUp hClocks hTimed hTime hPort hMembers
    have hTake : takeFirst (fun t : Timed => atOrAfter (folNs s d.val) t.launch.toNat) (s.regs.timed.get d.val) = some (x, l) := by
      rw [hTimed]
      exact if_pos hTime
    have hSame : membersUp (s.onRegs fun y => { y with timed := y.timed.set d.val l }) x.port = membersUp s x.port := rfl
    refine congrArg Host.Outcome.next ((if_pos (by simp [hUp, hClocks])).trans ?_)
    unfold timedEligible
    rw [hTake]
    exact (if_neg (by simp [hPort])).trans (if_neg (by simp [hSame, hMembers]))

end Sys2Proof.Machine
end

section
/-! The table commands on one die. -/

namespace Sys2Proof.Machine

/-! A command set of a die: the command staged in it, carried out, and its status (02 R64, R65). -/

/-- The command and the status that a write of TBL_CMD leaves in its set before it is carried out. -/
def stagedSet (op table : Nat) (force static : Bool) (idx : Nat) (c : CmdSet) : CmdSet :=
  { c with cmd := tblCmdWord op table force static idx, location := 3 }

/-- The tables once a command of set `k` has ended with result `r`, busy until `b`. -/
def setEnded (k r b : Nat) (x : Tables) : Tables :=
  { x with sets := (x.sets.modify k fun c => { c with result := r, refusers := 0 }).modify k fun c => { c with busyUntil := b } }

section
variable (k r b : Nat) (x : Tables)
@[simp] theorem setEnded_dit : (setEnded k r b x).dit = x.dit := rfl
@[simp] theorem setEnded_emt : (setEnded k r b x).emt = x.emt := rfl
@[simp] theorem setEnded_lpm : (setEnded k r b x).lpm = x.lpm := rfl
@[simp] theorem setEnded_lpmUnits : (setEnded k r b x).lpmUnits = x.lpmUnits := rfl
@[simp] theorem setEnded_bundle : (setEnded k r b x).bundle = x.bundle := rfl
@[simp] theorem setEnded_digest : (setEnded k r b x).digest = x.digest := rfl
end

section
variable (d g : Nat) (f : CmdSet → CmdSet) (s : State)
@[simp] theorem onSet_dit : (onSet d g f s).tables.dit = s.tables.dit := rfl
@[simp] theorem onSet_emt : (onSet d g f s).tables.emt = s.tables.emt := rfl
@[simp] theorem onSet_lpm : (onSet d g f s).tables.lpm = s.tables.lpm := rfl
@[simp] theorem onSet_lpmUnits : (onSet d g f s).tables.lpmUnits = s.tables.lpmUnits := rfl
@[simp] theorem onSet_bundle : (onSet d g f s).tables.bundle = s.tables.bundle := rfl
@[simp] theorem onSet_digest : (onSet d g f s).tables.digest = s.tables.digest := rfl
@[simp] theorem onSet_ageNow : (onSet d g f s).tables.ageNow = s.tables.ageNow := rfl
@[simp] theorem onSet_emtSerial : (onSet d g f s).tables.emtSerial = s.tables.emtSerial := rfl
end

theorem get_setEnded {k : Nat} (r b : Nat) {x : Tables} (h : x.sets.wf = true) :
    (setEnded k r b x).sets.get k = { x.sets.get k with result := r, refusers := 0, busyUntil := b } := by
  have hFirst := Tab.wf_set h k { x.sets.get k with result := r, refusers := 0 }
  simp only [setEnded, Tab.modify, Tab.get_set hFirst, Tab.get_set h, if_true]

theorem wf_onSet {s : State} (h : s.tables.sets.wf = true) (d g : Nat) (f : CmdSet → CmdSet) :
    (onSet d g f s).tables.sets.wf = true := Tab.wf_set h _ _

theorem get_onSet {s : State} (h : s.tables.sets.wf = true) (d g : Nat) (f : CmdSet → CmdSet) :
    (onSet d g f s).tables.sets.get (setKey d g) = f (s.tables.sets.get (setKey d g)) := by
  simp only [onSet, State.onTables_tables, Tab.modify, Tab.get_set h, if_true]

theorem runSet_tables (d g op table r : Nat) (s : State) :
    ∃ b, (runSet d g op table (onSet d g (fun c => { c with result := r, refusers := 0 }) s)).tables = setEnded (setKey d g) r b s.tables := by
  have hDraw : (draw (onSet d g (fun c => { c with result := r, refusers := 0 }) s)).2.tables =
      (onSet d g (fun c => { c with result := r, refusers := 0 }) s).tables := State.tables_of_hide (by simp)
  unfold runSet
  dsimp only
  simp only [onSet, State.onTables_tables] at hDraw ⊢
  rw [hDraw]
  exact ⟨_, rfl⟩

section
variable (d g : Nat) (f : CmdSet → CmdSet) (s : State)

theorem emtAt_onSet (e p : Nat) : emtAt (onSet d g f s) e p = emtAt s e p := rfl

theorem emtFind_onSet (e : Nat) (k : Bytes) : emtFind (onSet d g f s) e k = emtFind s e k := rfl

theorem nextValid_onSet (e p : Nat) : nextValid (onSet d g f s) e p = nextValid s e p := rfl

theorem freeSlots_onSet (e : Nat) (l : List Nat) : freeSlots (onSet d g f s) e l = freeSlots s e l := rfl

theorem candidate_onSet (e n : Nat) (k : Bytes) : candidate (onSet d g f s) e n k = candidate s e n k := rfl

theorem relocate_onSet (e n : Nat) (r : BitVec 128) (l m : List Nat) : relocate (onSet d g f s) e n r l m = relocate s e n r l m := by
  induction n generalizing r l m with
  | zero => rfl
  | succ n ih =>
    unfold relocate
    simp only [ih, emtAt_onSet, freeSlots_onSet, candidate_onSet]

theorem emtPlace_onSet (e : Nat) (k : Bytes) : emtPlace (onSet d g f s) e k = emtPlace s e k := by
  unfold emtPlace emtPath
  simp only [relocate_onSet, freeSlots_onSet, candidate_onSet]
  rfl

theorem lpmSearch_onSet (e fam a n : Nat) : lpmSearch (onSet d g f s) e fam a n = lpmSearch s e fam a n := by
  induction n with
  | zero => rfl
  | succ n ih =>
    unfold lpmSearch
    simp only [ih]
    rfl

/-- The checks of a command read the tables, not the sets. -/
theorem tblCheck_onSet (e : Nat) (c : CmdSet) (op table : Nat) (force : Bool) (idx : Nat) :
    tblCheck (onSet d g f s) e c op table force idx = tblCheck s e c op table force idx := by
  unfold tblCheck
  simp only [emtAt_onSet, emtFind_onSet, emtPlace_onSet, lpmSearch_onSet]
  rfl

end

/-- A command that its checks let through is carried out, and its set then shows the result. -/
theorem tblCommand_done {d g op table idx : Nat} {force static : Bool} {s t : State} {r : Nat} {c : CmdSet}
    (hUp : dieUp s d = true) (hClocks : clocksRun s = true) (hBusy : setBusy s d g = false) (hWf : s.tables.sets.wf = true)
    (hc : c = stagedSet op table force static idx (s.tables.sets.get (setKey d g)))
    (hCheck : tblCheck s d c op table force idx = r)
    (hApply : (if r = rDone ∨ r = rReplaced then tblApply d g c op table force static idx (onSet d g (stagedSet op table force static idx) s)
      else onSet d g (stagedSet op table force static idx) s) = t) :
    ∃ b, (tblCommand d g op table force static idx s).tables = setEnded (setKey d g) r b t.tables := by
  have hStaged : (onSet d g (stagedSet op table force static idx) s).tables.sets.get (setKey d g) = c := by
    rw [get_onSet hWf, hc]
  have hSame : tblCheck (onSet d g (stagedSet op table force static idx) s) d c op table force idx = r := (tblCheck_onSet ..).trans hCheck
  have hRun : tblCommand d g op table force static idx s =
      runSet d g op table (onSet d g (fun c => { c with result := r, refusers := 0 }) t) := by
    unfold tblCommand
    rw [if_neg (by simp [hUp, hClocks]), if_neg (by simp [hBusy])]
    change runSet d g op table (onSet d g (fun c => { c with
      result := tblCheck (onSet d g (stagedSet op table force static idx) s) d
        ((onSet d g (stagedSet op table force static idx) s).tables.sets.get (setKey d g)) op table force idx
      refusers := 0 })
      (if tblCheck (onSet d g (stagedSet op table force static idx) s) d
          ((onSet d g (stagedSet op table force static idx) s).tables.sets.get (setKey d g)) op table force idx = rDone ||
          tblCheck (onSet d g (stagedSet op table force static idx) s) d
          ((onSet d g (stagedSet op table force static idx) s).tables.sets.get (setKey d g)) op table force idx = rReplaced
        then tblApply d g ((onSet d g (stagedSet op table force static idx) s).tables.sets.get (setKey d g)) op table force static idx
          (onSet d g (stagedSet op table force static idx) s)
        else onSet d g (stagedSet op table force static idx) s)) = _
    rw [hStaged, hSame, ← hApply]
    simp only [Bool.or_eq_true, decide_eq_true_eq]
  rw [hRun]
  exact runSet_tables ..
theorem setWords_get_zero {t : Tab Word} (h : t.wf = true) (l : List Nat) :
    (setWords t l).get 0 = BitVec.ofNat 32 (l.getD 0 0) := by
  have hStep : ∀ (n : Nat) (r : List Nat), (∀ i ∈ r, i ≠ n) → ∀ u : Tab Word, u.wf = true →
      (r.foldl (fun (u : Tab Word) i => u.set i (BitVec.ofNat 32 (l.getD i 0))) u).get n = u.get n := by
    intro n r
    induction r with
    | nil => intro _ u _; rfl
    | cons i r ih =>
      intro hr u hu
      refine (ih (fun j hj => hr j (List.mem_cons_of_mem _ hj)) _ (Tab.wf_set hu ..)).trans ?_
      rw [Tab.get_set hu, if_neg (hr i List.mem_cons_self)]
  have hUpTo : upTo 9 = 0 :: [1, 2, 3, 4, 5, 6, 7, 8] := rfl
  rw [setWords, hUpTo, List.foldl_cons, hStep 0 _ (by decide) _ (Tab.wf_set h ..), Tab.get_set h, if_pos rfl]

/-- As `tblCommand_done`, for a command that succeeds. -/
theorem tblCommand_applied {d g : Nat} (op table : Nat) (force static : Bool) (idx : Nat) {s : State} {c : CmdSet} (t : State)
    (hUp : dieUp s d = true) (hClocks : clocksRun s = true) (hBusy : setBusy s d g = false) (hWf : s.tables.sets.wf = true)
    (hc : c = stagedSet op table force static idx (s.tables.sets.get (setKey d g)))
    (hCheck : tblCheck s d c op table force idx = rDone)
    (hApply : tblApply d g c op table force static idx (onSet d g (stagedSet op table force static idx) s) = t) :
    ∃ b, (tblCommand d g op table force static idx s).tables = setEnded (setKey d g) rDone b t.tables :=
  tblCommand_done hUp hClocks hBusy hWf hc hCheck ((if_pos (.inl rfl)).trans hApply)

theorem setDit_tables (d i : Nat) (w : Word) (s : State) : (setDit d i w s).tables = { s.tables with
    digest := s.tables.digest.modify (digKey d 0) fun x =>
      x - digestOf (ditContent i (s.tables.dit.get (tblKey d i))) + digestOf (ditContent i w)
    dit := s.tables.dit.set (tblKey d i) w } := rfl

theorem setLpm_tables (d fam len a : Nat) (v : Option Nat) (u : Int) (s : State) : (setLpm d fam len a v u s).tables = { s.tables with
    digest := s.tables.digest.modify (digKey d (4 + fam)) fun x =>
      x - (((s.tables.lpm.get (lpmKey d fam len a)).map (lpmContent len a)).map digestOf).getD 0 +
        ((v.map (lpmContent len a)).map digestOf).getD 0
    lpm := s.tables.lpm.set (lpmKey d fam len a) v
    lpmUnits := s.tables.lpmUnits.modify d fun n => ((n : Int) + u).toNat } := rfl

/-- R52: an insertion that needs no relocation. -/
theorem emtInsertNew_of_free {d p : Nat} {e : EmtEntry} {s : State} (h : (emtPlace s d e.key).1 = some [p]) :
    ∃ t, emtInsertNew d e s = some (p, 0, t) ∧ t.tables.emt = s.tables.emt.set (emtKey d p) (some { e with serial := s.tables.emtSerial }) ∧
      t.tables.sets = s.tables.sets ∧ t.tables.dit = s.tables.dit ∧ t.tables.lpm = s.tables.lpm := by
  have hPlace : emtPlace s d e.key = (some [p], (emtPlace s d e.key).2) := Prod.ext h rfl
  unfold emtInsertNew
  rw [hPlace]
  have hCount : ∀ u : State, (if 48 ≤ stashUsed u d then count d 0x1002 0 1 u else u).tables = u.tables := by
    intro u
    split <;> simp
  refine ⟨_, rfl, ?_⟩
  rw [hCount]
  exact ⟨rfl, rfl, rfl, rfl⟩

/-- R65: a WRITE of the DIT, forced or not. -/
theorem tblApply_dit (d g : Nat) (force : Bool) (i : Nat) (s : State) {c : CmdSet} {w : Word} (hw : resultWord (c.data.get 0) = w) :
    ∃ t, tblApply d g c 2 0 force false i s = t ∧ t.tables = (setDit d i w s).tables := by
  refine ⟨_, rfl, ?_⟩
  have hDit : tblApply d g c 2 0 force false i s = setDit d i w
      (if force && resAction (s.tables.dit.get (tblKey d i)) ≠ 0 && s.tables.dit.get (tblKey d i) != w && !drainEmptyFor s d i
        then count d 0x1007 0 1 s else s) := by
    rw [← hw]
    rfl
  rw [hDit]
  split
  · simp only [setDit_tables, count_tables]
  · rfl

/-- Settles O29: each command through its staged set, its check and what it applies to its table. -/
theorem tableCommands : Obligations.TableCommands := by
  unfold Obligations.TableCommands
  refine ⟨?_, ?_, ?_, ?_, ?_, ?_, ?_, ?_, ?_⟩
  · -- `tblRead`
    intro s d g i hUp hClocks hBusy hWf hData
    have hSize : ¬ 65536 ≤ i.toNat := i.isLt.not_ge
    have hStagedWf := wf_onSet hWf d.val g.val (stagedSet 1 0 false false i.toNat)
    have hMem : (tblCommand d.val g.val 1 0 false false i.toNat s).mem = s.mem := State.mem_of_hide (by simp)
    obtain ⟨b, hTables⟩ := tblCommand_applied 1 0 false false i.toNat
      (onSet d.val g.val (fun c => { c with data := setWords c.data [(s.tables.dit.get (tblKey d.val i.toNat)).toNat] })
        (onSet d.val g.val (stagedSet 1 0 false false i.toNat) s)) hUp hClocks hBusy hWf rfl
      (by simp [tblCheck, opAllowed, tblSize, hSize]) rfl
    refine ⟨tblCommand d.val g.val 1 0 false false i.toNat s, rfl, ?_⟩
    simp [hTables, get_setEnded, wf_onSet hStagedWf, get_onSet hStagedWf, get_onSet hWf, stagedSet, setWords_get_zero hData, hMem]
  · -- `tblWrite`
    intro s d g i w force hUp hClocks hBusy hWf hw hOk hFree
    have hSize : ¬ 65536 ≤ i.toNat := i.isLt.not_ge
    have hStagedWf := wf_onSet hWf d.val g.val (stagedSet 2 0 force false i.toNat)
    generalize hC : stagedSet 2 0 force false i.toNat (s.tables.sets.get (setKey d.val g.val)) = c
    have hW : resultWord (c.data.get 0) = w := by rw [← hC, hw]; rfl
    have hCheck : tblCheck s d.val c 2 0 force i.toNat = rDone := by
      simp [tblCheck, opAllowed, tblSize, hSize, indexedOk, hW, hOk]
      grind
    obtain ⟨t, hApply, hDit⟩ := tblApply_dit d.val g.val force i.toNat (onSet d.val g.val (stagedSet 2 0 force false i.toNat) s) hW
    obtain ⟨b, hTables⟩ := tblCommand_applied 2 0 force false i.toNat _ hUp hClocks hBusy hWf hC.symm hCheck hApply
    refine ⟨tblCommand d.val g.val 2 0 force false i.toNat s, rfl, ?_⟩
    simp [hTables, hDit, setDit_tables, get_setEnded, hStagedWf]
  · -- `tblWrite`
    intro s d g i hUp hClocks hBusy hWf hOk hOld hNew hDrain
    have hSize : ¬ 65536 ≤ i.toNat := i.isLt.not_ge
    have hCheck : tblCheck s d.val (stagedSet 2 0 false false i.toNat (s.tables.sets.get (setKey d.val g.val))) 2 0 false i.toNat =
        rDrainBusy := by
      have hOld' : ¬ resAction (s.tables.dit.get (tblKey d.val i.toNat)) = 0 := hOld
      simp [tblCheck, opAllowed, tblSize, hSize, indexedOk, stagedSet, hOk, hOld', hNew, hDrain]
    obtain ⟨b, hTables⟩ := tblCommand_done hUp hClocks hBusy hWf rfl hCheck (if_neg (by decide))
    refine ⟨tblCommand d.val g.val 2 0 false false i.toNat s, rfl, ?_⟩
    simp [hTables, get_setEnded, wf_onSet hWf]
  · -- `tblInsert`
    intro s d g i len a hUp hClocks hBusy hWf hPrefix hNone hUnits
    have hStagedWf := wf_onSet hWf d.val g.val (stagedSet 3 4 false false i.toNat)
    generalize hC : stagedSet 3 4 false false i.toNat (s.tables.sets.get (setKey d.val g.val)) = c
    have hP : stagedPrefix c 4 i.toNat = some (0, len, a) := by rw [← hC]; exact hPrefix
    have hWord : c.data.get 0 = (s.tables.sets.get (setKey d.val g.val)).data.get 0 := by rw [← hC]; rfl
    have hCheck : tblCheck s d.val c 3 4 false i.toNat = rDone := by
      simp [tblCheck, opAllowed, hP, hNone]
      omega
    obtain ⟨b, hTables⟩ := tblCommand_applied 3 4 false false i.toNat
      (setLpm d.val 0 len a (some ((c.data.get 0).toNat % 2 ^ 15)) 2 (onSet d.val g.val (stagedSet 3 4 false false i.toNat) s))
      hUp hClocks hBusy hWf hC.symm hCheck (by simp [tblApply, hP, hNone])
    refine ⟨tblCommand d.val g.val 3 4 false false i.toNat s, rfl, ?_⟩
    simp [hTables, setLpm_tables, get_setEnded, hStagedWf, hWord, Tab.modify]
    congr
  · -- `tblInsert`
    intro s d g i c x p static hUp hClocks hBusy hWf hc hKey hData hFind hPlace
    have hStagedWf := wf_onSet hWf d.val g.val (stagedSet 3 6 false static i.toNat)
    generalize hC : stagedSet 3 6 false static i.toNat (s.tables.sets.get (setKey d.val g.val)) = c'
    have hKeys : stagedKey c' = stagedKey c := by rw [← hC, hc]; rfl
    have hWords : stagedData c' 4 = stagedData c 4 := by rw [← hC, hc]; rfl
    have hCheck : tblCheck s d.val c' 3 6 false i.toNat = rDone := by
      simp [tblCheck, opAllowed, hKeys, hWords, hKey, hData, hFind, hPlace]
    have hPlace' : (emtPlace (onSet d.val g.val (stagedSet 3 6 false static i.toNat) s) d.val (stagedKey c)).1 = some [p] := by
      rwa [emtPlace_onSet]
    obtain ⟨t, hNew, hEmt, hSets, hDit, hLpm⟩ := emtInsertNew_of_free
      (e := ⟨stagedKey c, x, s.tables.ageNow.get d.val, static, false, d.val, 0⟩) hPlace'
    have hTWf : t.tables.sets.wf = true := by rw [hSets]; exact hStagedWf
    obtain ⟨b, hTables⟩ := tblCommand_applied 3 6 false static i.toNat
      (onSet d.val g.val (fun c => { c with location := locationOf p, relocations := 0 }) t)
      hUp hClocks hBusy hWf hC.symm hCheck (by simp [tblApply, hKeys, hWords, hData, emtFind_onSet, hFind, hNew])
    refine ⟨tblCommand d.val g.val 3 6 false static i.toNat s, rfl, ?_⟩
    simp [hTables, get_setEnded, wf_onSet hTWf, hEmt, hDit, hLpm]
  · -- `tblDelete`
    intro s d g i len a n hUp hClocks hBusy hWf hPrefix hSome
    have hStagedWf := wf_onSet hWf d.val g.val (stagedSet 4 4 false false i.toNat)
    generalize hC : stagedSet 4 4 false false i.toNat (s.tables.sets.get (setKey d.val g.val)) = c
    have hP : stagedPrefix c 4 i.toNat = some (0, len, a) := by rw [← hC]; exact hPrefix
    have hCheck : tblCheck s d.val c 4 4 false i.toNat = rDone := by
      simp [tblCheck, opAllowed, hP, hSome]
    obtain ⟨b, hTables⟩ := tblCommand_applied 4 4 false false i.toNat
      (setLpm d.val 0 len a none (-2) (onSet d.val g.val (stagedSet 4 4 false false i.toNat) s))
      hUp hClocks hBusy hWf hC.symm hCheck (by simp [tblApply, hP])
    have hUnits : ((s.tables.lpmUnits.get d.val : Int) + -2).toNat = s.tables.lpmUnits.get d.val - 2 := by omega
    refine ⟨tblCommand d.val g.val 4 4 false false i.toNat s, rfl, ?_⟩
    simp [hTables, setLpm_tables, get_setEnded, hStagedWf, Tab.modify, hUnits]
  · -- `tblLookup`
    intro s d g i c p e hUp hClocks hBusy hWf hc hKey hFind hAt
    have hStagedWf := wf_onSet hWf d.val g.val (stagedSet 5 6 false false i.toNat)
    generalize hC : stagedSet 5 6 false false i.toNat (s.tables.sets.get (setKey d.val g.val)) = c'
    have hKeys : stagedKey c' = stagedKey c := by rw [← hC, hc]; rfl
    have hWords : c'.data = c.data := by rw [← hC, hc]; rfl
    have hCheck : tblCheck s d.val c' 5 6 false i.toNat = rDone := by
      simp [tblCheck, opAllowed, hKeys, hKey, hFind]
    obtain ⟨b, hTables⟩ := tblCommand_applied 5 6 false false i.toNat
      (onSet d.val g.val (readByKey e p) (onSet d.val g.val (stagedSet 5 6 false false i.toNat) s))
      hUp hClocks hBusy hWf hC.symm hCheck (by simp [tblApply, hKeys, emtFind_onSet, hFind, emtAt_onSet, hAt])
    refine ⟨tblCommand d.val g.val 5 6 false false i.toNat s, rfl, ?_⟩
    simp [hTables, get_setEnded, wf_onSet hStagedWf, get_onSet hStagedWf, get_onSet hWf, hC, readByKey, hWords]
  · -- `tblReadNext`
    intro s d g i c p e hUp hClocks hBusy hWf hc hPos hAny hNext hAt
    have hStagedWf := wf_onSet hWf d.val g.val (stagedSet 6 6 false false i.toNat)
    generalize hC : stagedSet 6 6 false false i.toNat (s.tables.sets.get (setKey d.val g.val)) = c'
    have hWords : c'.data = c.data := by rw [← hC, hc]; rfl
    have hKeys : c'.key = c.key := by rw [← hC, hc]; rfl
    have hStagedPos : stagedPos c' i.toNat = stagedPos c i.toNat := by rw [stagedPos, stagedPos, hKeys]
    have hPosOk : posOk c' i.toNat = true := by rwa [posOk, hStagedPos, hKeys]
    have hCheck : tblCheck s d.val c' 6 6 false i.toNat = rDone := by
      simp only [tblCheck, hPosOk, hStagedPos, hAny]
      rfl
    obtain ⟨b, hTables⟩ := tblCommand_applied 6 6 false false i.toNat
      (onSet d.val g.val (fun c => { readByPos e p c with
                cmd := BitVec.ofNat 32 (c.cmd.toNat / 65536 * 65536 + (p + 1) % 65536)
                key := c.key.set 0 (BitVec.ofNat 32 ((p + 1) / 65536)) })
        (onSet d.val g.val (stagedSet 6 6 false false i.toNat) s)) hUp hClocks hBusy hWf hC.symm hCheck
      (by simp [tblApply, hStagedPos, nextValid_onSet, hNext, emtAt_onSet, hAt])
    refine ⟨tblCommand d.val g.val 6 6 false false i.toNat s, rfl, ?_⟩
    simp [hTables, get_setEnded, wf_onSet hStagedWf, get_onSet hStagedWf, get_onSet hWf, hC, readByPos, hWords, hKeys]
  · -- `tblRead`
    intro s d g table force static i hUp hClocks hBusy
    have hOver : ∀ (op : Nat) (f t : Bool), tblCommand d.val g.val op table.val f t i.toNat s =
        onSet d.val g.val (fun c => { c with overrun := true }) s := by
      intro op f t
      exact (if_neg (by simp [hUp, hClocks])).trans (if_pos hBusy)
    exact congrArg₂ List.cons (congrArg Host.Outcome.next (hOver ..)) (congrArg₂ List.cons (congrArg Host.Outcome.next (hOver ..))
      (congrArg₂ List.cons (congrArg Host.Outcome.next (hOver ..)) (congrArg₂ List.cons (congrArg Host.Outcome.next (hOver ..))
      (congrArg₂ List.cons (congrArg Host.Outcome.next (hOver ..)) (congrArg₂ List.cons (congrArg Host.Outcome.next (hOver ..)) rfl)))))

end Sys2Proof.Machine
end

section
/-! A broadcast of a table command, learn records, aging, seeds and digests. -/

namespace Sys2Proof.Machine

/-- The forced WRITE of entry 0 of the DIT, as TBL_CMD of a broadcast. -/
def writeEntryZero : Word := tblCmdWord 2 0 true false 0

/-- A command set whose data word is no entry of the DIT (02 R37): die 0 refuses the WRITE. -/
def refusingSet : CmdSet := { CmdSet.reset with cmd := writeEntryZero &&& 0xFFC0FFFF, data := ⟨0, [(0, 0x40000FFF)]⟩ }

/-- A state with die 0 in service whose list of command sets names set 0 twice, so that it is not in canonical form: storing
the staged command, which is the default of the list, drops the first entry and uncovers the second. -/
def setListedTwice : State :=
  { State.reset with
    start := { Start.reset with state := .service, sectorDies := 1 }
    tables := { Tables.reset with
      sets := ⟨refusingSet, [(0, refusingSet), (0, { refusingSet with data := ⟨0, [(0, 0x80000001)]⟩ })]⟩ } }

theorem tblBroadcast_setListedTwice_dit :
    (tblBroadcast 0 0 writeEntryZero true false setListedTwice).tables.dit.get 0 = 0x80000001 := by decide

/-- Refutes O30: the clause of a refused broadcast does not ask for a canonical list of command sets. In `setListedTwice` die 0
refuses the WRITE staged in its set, but the set read back in phase one of 02 R67 is another entry, and the WRITE is carried out. -/
theorem not_tablesOfEveryDie : ¬ Obligations.TablesOfEveryDie := by
  unfold Obligations.TablesOfEveryDie
  rintro ⟨hRefused, -⟩
  obtain ⟨t, hExec, hDit, -⟩ := hRefused setListedTwice 0 writeEntryZero 0 (by decide) (by decide) (by decide) (by decide)
  have hBroadcast : tblBroadcast 0 0 writeEntryZero true false setListedTwice = t := Host.Outcome.next.inj hExec
  have hEntry := tblBroadcast_setListedTwice_dit
  rw [hBroadcast, hDit] at hEntry
  exact absurd hEntry (by decide)

end Sys2Proof.Machine
end

section
/-! Cells released into their queue, spread over the mesh, received, reassembled or lost, and frames passed on and skipped in order. -/

namespace Sys2Proof.Machine

/-! What the accounting of a cell leaves of the queues of cells (03 R82 to R93). -/

/-- The queues of cells are as they were. -/
structure SameQueues (s t : State) : Prop where
  voq : t.switch.voq = s.switch.voq
  mcq : t.switch.mcq = s.switch.mcq
  red : t.switch.red = s.switch.red
  spill : t.switch.spill = s.switch.spill
  transit : t.switch.transit = s.switch.transit
  mesh : t.switch.mesh = s.switch.mesh
  ingress : t.switch.ingress = s.switch.ingress
  released : t.switch.released = s.switch.released
  rotation : t.switch.rotation = s.switch.rotation
  drain : t.switch.drainState = s.switch.drainState

theorem SameQueues.refl (s : State) : SameQueues s s := ⟨rfl, rfl, rfl, rfl, rfl, rfl, rfl, rfl, rfl, rfl⟩

theorem SameQueues.trans {s t u : State} (h : SameQueues s t) (g : SameQueues t u) : SameQueues s u :=
  ⟨g.voq.trans h.voq, g.mcq.trans h.mcq, g.red.trans h.red, g.spill.trans h.spill, g.transit.trans h.transit, g.mesh.trans h.mesh,
    g.ingress.trans h.ingress, g.released.trans h.released, g.rotation.trans h.rotation, g.drain.trans h.drain⟩

theorem SameQueues.of_hide {s t : State} (h : t.hide 2097119 = s.hide 2097119) : SameQueues s t := by
  have hSwitch := State.switch_of_hide h
  constructor <;> rw [hSwitch]

theorem SameQueues.foldl {α : Type} {f : State → α → State} (hf : ∀ s x, SameQueues s (f s x)) (l : List α) (s : State) :
    SameQueues s (l.foldl f s) := by
  induction l generalizing s with
  | nil => exact .refl s
  | cons x l ih => exact (hf s x).trans (ih _)

theorem sameQueues_uncharge (c : Cell) (n : Nat) (s : State) : SameQueues s (uncharge c n s) := by
  constructor <;> · unfold uncharge; simp only [State.onSwitch_switch]; split <;> rfl

theorem sameQueues_spillState (d : Nat) (s : State) : SameQueues s (spillState d s) := by
  have hState : ∃ t, spillState d s = s.onSwitch fun x => { x with spilling := t } := ⟨_, rfl⟩
  obtain ⟨t, ht⟩ := hState
  rw [ht]
  exact ⟨rfl, rfl, rfl, rfl, rfl, rfl, rfl, rfl, rfl, rfl⟩

theorem sameQueues_pfcCheck (p k : Nat) (s : State) : SameQueues s (pfcCheck p k s) := .of_hide (by simp)

theorem sameQueues_freeCell (c : Cell) (s : State) : SameQueues s (freeCell c s) := by
  refine ((sameQueues_uncharge c 1 s).trans (t := uncharge c 1 s) ?_).trans (sameQueues_spillState _ _)
  refine SameQueues.trans (.of_hide ?_) (sameQueues_pfcCheck _ _ _)
  split <;> simp

theorem sameQueues_assignOrder (c : Cell) (s : State) : SameQueues s (assignOrder c s).2 := by
  unfold assignOrder
  dsimp only
  (repeat' split) <;> exact ⟨rfl, rfl, rfl, rfl, rfl, rfl, rfl, rfl, rfl, rfl⟩

theorem sameQueues_probeDone (c : Cell) (s : State) : SameQueues s (probeDone c s) := .of_hide (by simp)

/-- The accounts settled once the last cell of a frame has been released. -/
def releaseEnds (d : Nat) (f : IFrame) (c : Cell) (s : State) : State :=
  let s := if c.last then spillState d (pfcCheck c.port c.cls (uncharge c (36 - c.cells) s)) else s
  let s := if c.last && f.fcsBad then count d 0x200A c.port 1 s else s
  if f.queue % 4 = 0 then refreshIdle d c.dest c.cls s else s

theorem sameQueues_releaseEnds (d : Nat) (f : IFrame) (c : Cell) (s : State) : SameQueues s (releaseEnds d f c s) := by
  unfold releaseEnds
  extract_lets s1 s2
  have h1 : SameQueues s s1 := by
    unfold s1
    split
    · exact (sameQueues_uncharge ..).trans ((sameQueues_pfcCheck ..).trans (sameQueues_spillState ..))
    · exact .refl s
  have h2 : SameQueues s1 s2 := .of_hide (by unfold s2; split <;> simp)
  exact (h1.trans h2).trans (.of_hide (by split <;> simp))

theorem releaseEnds_hide (d : Nat) (f : IFrame) (c : Cell) (s : State) : (releaseEnds d f c s).hide 278624 = s.hide 278624 := by
  unfold releaseEnds
  dsimp only
  (repeat' split) <;> simp

/-- R82: a cell that its frame has in memory goes to the end of its queue. -/
theorem cellRelease_of_cells {s : State} {d id : Nat} {f : IFrame} {c : Cell} {r : List Cell}
    (hFrame : s.switch.ingress.get (frameKey d id) = some f) (hCells : f.cells = c :: r) :
    cellRelease d id s = releaseEnds d f c ((enqueueCell f.queue c s).onSwitch fun x => { x with
      ingress := x.ingress.set (frameKey d id) (if r.isEmpty then none else some { f with cells := r }) }) := by
  unfold cellRelease
  simp only [hFrame, hCells]
  rfl
theorem enqueueCell_of_pool {c : Cell} (h : c.pool ≠ 3) (q : Nat) (s : State) : enqueueCell q c s = setQ q (qCells s q ++ [c]) s :=
  if_neg h

theorem setQ_voq (q : Nat) (l : List Cell) (s : State) :
    (setQ q l s).switch.voq = if q % 4 = 0 then s.switch.voq.set (q / 4) l else s.switch.voq := by
  unfold setQ
  simp only [State.onSwitch_switch]
  split <;> simp_all

theorem setQ_mcq (q : Nat) (l : List Cell) (s : State) :
    (setQ q l s).switch.mcq = if q % 4 = 1 then s.switch.mcq.set (q / 4) l else s.switch.mcq := by
  unfold setQ
  simp only [State.onSwitch_switch]
  split <;> simp_all

theorem setQ_red (q : Nat) (l : List Cell) (s : State) :
    (setQ q l s).switch.red = if 2 ≤ q % 4 then s.switch.red.set (q / 4) l else s.switch.red := by
  unfold setQ
  simp only [State.onSwitch_switch]
  split
  · simp_all
  · simp_all
  · next h0 h1 => rw [if_pos (by have : q % 4 ≠ 0 := h0; have : q % 4 ≠ 1 := h1; omega)]

/-- The other queues of a cell, and the order of their frames, when one queue is replaced. -/
theorem setQ_rest (q : Nat) (l : List Cell) (s : State) : (setQ q l s).switch = { s.switch with
    voq := (setQ q l s).switch.voq, mcq := (setQ q l s).switch.mcq, red := (setQ q l s).switch.red } := by
  unfold setQ
  simp only [State.onSwitch_switch]
  split <;> rfl

theorem qCells_voq {q : Nat} (h : q % 4 = 0) (s : State) : qCells s q = s.switch.voq.get (q / 4) := by simp [qCells, h]

theorem qCells_mcq {q : Nat} (h : q % 4 = 1) (s : State) : qCells s q = s.switch.mcq.get (q / 4) := by simp [qCells, h]

theorem qCells_red {q : Nat} (h : 2 ≤ q % 4) (s : State) : qCells s q = s.switch.red.get (q / 4) := by
  unfold qCells
  split
  · omega
  · omega
  · rfl

theorem spillAppend_switch (k : Nat) (c : Cell) (s : State) : (spillAppend k c s).switch = { s.switch with
    spill := (spillAppend k c s).switch.spill, spillBytes := (spillAppend k c s).switch.spillBytes } := by
  have hSet : ∀ (l : List SpillBlock) (t : State), (setSpill k l t).switch = { t.switch with
    spill := (setSpill k l t).switch.spill, spillBytes := (setSpill k l t).switch.spillBytes } := fun l t => rfl
  have hCover : ∀ (l : List SpillBlock) (a n : Nat), (setSpill k l (coverGranules a n s)).switch = { s.switch with
    spill := (setSpill k l (coverGranules a n s)).switch.spill
    spillBytes := (setSpill k l (coverGranules a n s)).switch.spillBytes } := fun l a n => rfl
  unfold spillAppend
  dsimp only
  split
  · split
    · exact hSet ..
    · exact hCover ..
  · exact hCover ..

/-- Queue `q` without a cell. -/
def withoutCell (q : Nat) (c : Cell) (s : State) : State :=
  setQ q ((qCells s q).filter fun d => !(d.frameId == c.frameId && d.index == c.index)) s

/-- The spreader takes a cell out of queue `q`: its place in the order and its account (R82). -/
def cellTaken (q : Nat) (c : Cell) (s : State) : State := freeCell c (assignOrder c (withoutCell q c s)).2

/-- As `cellTaken`, with the rotation of the queue and the release of its frame. -/
def cellSpread (q : Nat) (c : Cell) (s : State) : State :=
  let s := (cellTaken q c s).onSwitch fun x => { x with
    rotation := x.rotation.modify q (· + 1)
    released := if c.last then x.released.modify q (·.drop 1) else x.released }
  if c.last then probeDone c s else s

theorem setQ_frameOrder (q : Nat) (l : List Cell) (s : State) : (setQ q l s).switch.frameOrder = s.switch.frameOrder := by rw [setQ_rest]

theorem setQ_orderNext (q : Nat) (l : List Cell) (s : State) : (setQ q l s).switch.orderNext = s.switch.orderNext := by rw [setQ_rest]

theorem assignOrder_setQ (q : Nat) (l : List Cell) (c : Cell) (s : State) : (assignOrder c (setQ q l s)).1 = (assignOrder c s).1 := by
  unfold assignOrder
  simp only [setQ_frameOrder, setQ_orderNext]
  (repeat' split) <;> rfl

theorem spreaderSend_of_cell {s : State} {q mid : Nat} {c : Cell} (hNext : spreadNext s q = some c)
    (hMid : nextIntermediate s q = some mid) (hAge : c.index ≠ 0 ∨ tooOld s c = false) (hRoom : transitRoom s mid c = true) :
    spreaderSend q s =
      if mid = qDie q then toTransit mid { c with orderSeq := if c.destType = 0 then (assignOrder c s).1 else 0, pool := 0, stage2 := false }
        (cellSpread q c s)
      else (cellSpread q c s).onSwitch fun x => { x with mesh := x.mesh.modify (meshKey (qDie q) mid) (· ++ [{ c with
        orderSeq := if c.destType = 0 then (assignOrder c s).1 else 0, pool := 0, stage2 := false }]) } := by
  have hYoung : ¬ (c.index = 0 && tooOld s c) = true := by
    obtain h | h := hAge <;> simp [h]
  unfold spreaderSend
  rw [hNext, hMid]
  dsimp only
  rw [if_neg hYoung, if_neg (by simp [hRoom]), assignOrder_setQ]
  rfl

theorem cellTaken_queues (q : Nat) (c : Cell) (s : State) : SameQueues (withoutCell q c s) (cellTaken q c s) :=
  (sameQueues_assignOrder c _).trans (sameQueues_freeCell c _)

theorem cellTaken_hide (q : Nat) (c : Cell) (s : State) : (cellTaken q c s).hide 262240 = s.hide 262240 := by
  simp [cellTaken, withoutCell]

theorem withoutCell_rest (q : Nat) (c : Cell) (s : State) : (withoutCell q c s).switch = { s.switch with
    voq := (withoutCell q c s).switch.voq, mcq := (withoutCell q c s).switch.mcq, red := (withoutCell q c s).switch.red } :=
  setQ_rest ..

theorem cellSpread_hide (q : Nat) (c : Cell) (s : State) : (cellSpread q c s).hide 262256 = s.hide 262256 := by
  have hTaken : (cellTaken q c s).hide 262256 = s.hide 262256 := State.hide_mono (cellTaken_hide q c s) (by decide)
  unfold cellSpread
  dsimp only
  split <;> simp [hTaken]

theorem cellSpread_queues (q : Nat) (c : Cell) (s : State) :
    (cellSpread q c s).switch.voq = (withoutCell q c s).switch.voq ∧
    (cellSpread q c s).switch.mcq = (withoutCell q c s).switch.mcq ∧
    (cellSpread q c s).switch.red = (withoutCell q c s).switch.red ∧
    (cellSpread q c s).switch.transit = s.switch.transit ∧ (cellSpread q c s).switch.mesh = s.switch.mesh ∧
    (cellSpread q c s).switch.rotation = s.switch.rotation.modify q (· + 1) ∧
    (cellSpread q c s).switch.released = (if c.last then s.switch.released.modify q (·.drop 1) else s.switch.released) ∧
    (cellSpread q c s).time = s.time ∧ (cellSpread q c s).mem = s.mem := by
  have hTaken := cellTaken_queues q c s
  have hRest := withoutCell_rest q c s
  have hHide := cellSpread_hide q c s
  have hSwitch : (cellSpread q c s).switch = { (cellTaken q c s).switch with
      rotation := (cellTaken q c s).switch.rotation.modify q (· + 1)
      released := if c.last then (cellTaken q c s).switch.released.modify q (·.drop 1) else (cellTaken q c s).switch.released } := by
    unfold cellSpread
    generalize cellTaken q c s = u
    dsimp only
    split
    · exact State.switch_of_hide (probeDone_frame (by decide) ..)
    · rfl
  rw [hSwitch]
  refine ⟨hTaken.voq, hTaken.mcq, hTaken.red, ?_, ?_, ?_, ?_,
    State.time_of_hide (State.hide_mono hHide (by decide)), State.mem_of_hide (State.hide_mono hHide (by decide))⟩
  · exact hTaken.transit.trans (by rw [hRest])
  · exact hTaken.mesh.trans (by rw [hRest])
  · simp only [hTaken.rotation]
    rw [hRest]
  · simp only [hTaken.released]
    rw [hRest]

theorem toTransit_eq (mid : Nat) (c : Cell) (s : State) : toTransit mid c s = s.onSwitch fun x => { x with
    transit := (egressDies s mid c).foldl (fun t e => t.modify (transitKey mid e c.cls) (· ++ [{ c with stage2 := false }])) x.transit } := by
  unfold toTransit
  generalize egressDies s mid c = l
  induction l generalizing s with
  | nil => rfl
  | cons e l ih => exact ih _

theorem cellSpread_mcast (q : Nat) (c : Cell) (s : State) : (cellSpread q c s).tables.mcast = s.tables.mcast := by
  have hDone : ∀ t : State, (probeDone c t).tables.mcast = t.tables.mcast := by
    intro t
    unfold probeDone
    split <;> rfl
  have hTaken : (cellTaken q c s).tables = s.tables := State.tables_of_hide (State.hide_mono (cellTaken_hide q c s) (by decide))
  unfold cellSpread
  dsimp only
  split
  · rw [hDone, State.onSwitch_tables, hTaken]
  · rw [State.onSwitch_tables, hTaken]

theorem egressDies_cellSpread (q mid : Nat) (c e : Cell) (s : State) : egressDies (cellSpread q c s) mid e = egressDies s mid e := by
  have hDies : diesUp (cellSpread q c s) = diesUp s := by
    have hStart : (cellSpread q c s).start = s.start := State.start_of_hide (State.hide_mono (cellSpread_hide q c s) (by decide))
    unfold diesUp dieUp
    rw [hStart]
  simp only [egressDies, hDies, cellSpread_mcast]

/-- A fold that keeps a component of what it folds over. -/
theorem foldl_same {α β γ : Type} (g : β → γ) {f : β → α → β} (h : ∀ b a, g (f b a) = g b) (l : List α) (b : β) :
    g (l.foldl f b) = g b := by
  induction l generalizing b with
  | nil => rfl
  | cons a l ih => exact (ih _).trans (h b a)

/-- A discarded frame leaves every queue of cells (R93). -/
structure Purged (d id : Nat) (s t : State) : Prop where
  voq : t.switch.voq = purge d id s.switch.voq
  mcq : t.switch.mcq = purge d id s.switch.mcq
  red : t.switch.red = purge d id s.switch.red
  transit : t.switch.transit = purge d id s.switch.transit
  mesh : t.switch.mesh = purge d id s.switch.mesh
  ingress : t.switch.ingress = s.switch.ingress.set (frameKey d id) none
  drain : t.switch.drainState = s.switch.drainState

theorem Purged.of_queues {d id : Nat} {s t u : State} (h : Purged d id s t) (g : SameQueues t u) : Purged d id s u :=
  ⟨g.voq.trans h.voq, g.mcq.trans h.mcq, g.red.trans h.red, g.transit.trans h.transit, g.mesh.trans h.mesh, g.ingress.trans h.ingress,
    g.drain.trans h.drain⟩

/-- The unfinished frames of a discarded frame are closed at every egress die. -/
theorem sameQueues_closeReassembly (die id : Nat) (s : State) : SameQueues s (s.onSwitch fun x => (upTo 8).foldl (fun x e =>
    match x.reasm.get (reasmKey e die id) with
    | some f => { x with
        reasm := x.reasm.set (reasmKey e die id) none
        egressBytes := x.egressBytes.modify e (· - queueBytes f.got) }
    | none => x) x) := by
  constructor <;> · refine foldl_same _ (fun x e => ?_) _ _; split <;> rfl

/-- The copies of a discarded frame that wait at its port are taken back, and one that has begun is stomped. -/
theorem sameQueues_takeBack (h : Cell) (s : State) : SameQueues s (s.onSwitch fun x => (upTo 8).foldl (fun x l =>
    let k := laneqKey h.dest l h.cls
    let gone := (x.laneq.get k).filter fun f => sameFrame f.head h && !f.copy
    let x := { x with
      laneq := x.laneq.modify k (·.filter fun f => !(sameFrame f.head h && !f.copy))
      egressBytes := gone.foldl (fun t f => t.modify (portDie h.dest) (· - queueBytes f.got)) x.egressBytes }
    if begunBy h (x.sending.get (laneKey h.dest l)) then
      { x with sending := x.sending.modify (laneKey h.dest l) (·.map fun d => if complete d.frame then d else { d with stomp := true }) }
    else x) x) := by
  constructor <;> · refine foldl_same _ (fun x l => ?_) _ _; dsimp only; split <;> rfl

theorem purged_discardFrame (h : Cell) (spent : Bool) (s : State) : Purged h.ingressDie h.frameId s (discardFrame h spent s) := by
  unfold discardFrame
  extract_lets die id q coming here s1 s2 s3 s4 s5 s6 s7 s8
  have h1 : SameQueues s s1 := .foldl (fun s c => sameQueues_freeCell c s) _ _
  clear_value s1 here coming
  have h2 : SameQueues s1 s2 := by
    unfold s2
    split
    · exact (sameQueues_uncharge ..).trans ((sameQueues_pfcCheck ..).trans (sameQueues_spillState ..))
    · exact .refl s1
  have h3 : SameQueues s2 s3 := .of_hide (by simp [s3])
  have h4 : SameQueues s3 s4 := by
    unfold s4
    split
    · exact sameQueues_probeDone ..
    · exact .refl s3
  have hQueues := h1.trans (h2.trans (h3.trans h4))
  clear_value s4
  have h6 : Purged die id s s6 := by
    have h5 : s5.switch.voq = s4.switch.voq ∧ s5.switch.mcq = s4.switch.mcq ∧ s5.switch.red = s4.switch.red ∧
        s5.switch.transit = s4.switch.transit ∧ s5.switch.mesh = s4.switch.mesh ∧ s5.switch.ingress = s4.switch.ingress ∧
        s5.switch.drainState = s4.switch.drainState := by
      unfold s5
      split <;> exact ⟨rfl, rfl, rfl, rfl, rfl, rfl, rfl⟩
    clear_value s5
    obtain ⟨hVoq, hMcq, hRed, hTransit, hMesh, hIngress, hDrain⟩ := h5
    rw [hQueues.voq] at hVoq
    rw [hQueues.mcq] at hMcq
    rw [hQueues.red] at hRed
    rw [hQueues.transit] at hTransit
    rw [hQueues.mesh] at hMesh
    rw [hQueues.ingress] at hIngress
    rw [hQueues.drain] at hDrain
    constructor <;> simp only [s6, State.onSwitch_switch, *]
  clear_value s6
  have h7 : Purged die id s s7 := h6.of_queues (sameQueues_closeReassembly ..)
  have h8 : Purged die id s s8 := h7.of_queues (sameQueues_takeBack h s7)
  clear_value s7 s8
  split
  · exact h7
  · exact h8.of_queues (.of_hide (by simp))

theorem foldl_min_le {α : Type} (d : α → Nat) (l : List α) (m : Nat) :
    l.foldl (fun m g => min m (d g)) m ≤ m ∧ ∀ g ∈ l, l.foldl (fun m g => min m (d g)) m ≤ d g := by
  induction l generalizing m with
  | nil => exact ⟨le_rfl, fun g hg => by cases hg⟩
  | cons x l ih =>
    obtain ⟨hm, hl⟩ := ih (min m (d x))
    refine ⟨hm.trans (min_le_left ..), fun g hg => ?_⟩
    rcases List.mem_cons.mp hg with rfl | hg
    · exact hm.trans (min_le_right ..)
    · exact hl g hg

theorem le_foldl_min {α : Type} (d : α → Nat) {n : Nat} (l : List α) (m : Nat) (hm : n ≤ m) (hl : ∀ g ∈ l, n ≤ d g) :
    n ≤ l.foldl (fun m g => min m (d g)) m := by
  induction l generalizing m with
  | nil => exact hm
  | cons x l ih =>
    exact ih _ (le_min hm (hl x List.mem_cons_self)) fun g hg => hl g (List.mem_cons_of_mem _ hg)

theorem foldl_min_eq {α : Type} (d : α → Nat) {n m : Nat} {l : List α} {f : α} (hf : f ∈ l) (hn : n = d f) (hm : n ≤ m)
    (hl : ∀ g ∈ l, n ≤ d g) : l.foldl (fun m g => min m (d g)) m = n :=
  le_antisymm (((foldl_min_le d l m).2 f hf).trans hn.ge) (le_foldl_min d l m hm hl)

theorem filter_classes {p : Nat → Bool} {k : Nat} (hk : k < 8) (h : p k = true) (hHigher : ∀ j < 8, k < j → p j = false) :
    ∃ r, [7, 6, 5, 4, 3, 2, 1, 0].filter p = k :: r := by
  interval_cases k <;> simp [List.filter_cons, h, hHigher]

/-- R86: the class passed on is the highest with a cell. -/
theorem transitForward_of_cell {s : State} {d e : DieIx} {k : ClassIx} {c : Cell} {r : List Cell}
    (h : s.switch.transit.get (transitKey d.val e.val k.val) = c :: r)
    (hHigher : ∀ j : ClassIx, k < j → s.switch.transit.get (transitKey d.val e.val j.val) = []) :
    transitForward d.val e.val s =
      if c.index = 0 && tooOld s c then ageDiscard d.val c true s
      else if !dieUp s e then cellLost c (s.onSwitch fun x => { x with transit := x.transit.set (transitKey d.val e.val k.val) r })
      else if !egressRoom s e then s
      else if d.val = e.val then
        egressCell e.val c (s.onSwitch fun x => { x with transit := x.transit.set (transitKey d.val e.val k.val) r })
      else (s.onSwitch fun x => { x with transit := x.transit.set (transitKey d.val e.val k.val) r }).onSwitch fun x => { x with
        mesh := x.mesh.modify (meshKey d.val e.val) (· ++ [{ c with stage2 := true }]) } := by
  obtain ⟨classes, hClasses⟩ := filter_classes (p := fun c => !(s.switch.transit.get (transitKey d.val e.val c)).isEmpty) k.isLt
    (by simp [h]) fun j hj hkj => by simp [hHigher ⟨j, hj⟩ hkj]
  unfold transitForward
  rw [hClasses]
  simp only [h]

/-- Settles O31: the queues through SameQueues, what the accounting of a cell leaves of them. -/
theorem cellsOverTheMesh : Obligations.CellsOverTheMesh := by
  unfold Obligations.CellsOverTheMesh
  refine ⟨?_, ?_, ?_, ?_, ?_, ?_, ?_, ?_, ?_, ?_, ?_, ?_, ?_, ?_, ?_, ?_⟩
  · -- `cellRelease`
    intro s d id f c r hUp hClocks hFrame hCells hPool
    have hRelease := cellRelease_of_cells hFrame hCells
    rw [enqueueCell_of_pool hPool] at hRelease
    refine ⟨_, congrArg Host.Outcome.next ((if_pos (by simp [hUp, hClocks])).trans hRelease), ?_⟩
    generalize hStored : (setQ f.queue (qCells s f.queue ++ [c]) s).onSwitch _ = u
    have hQueues := sameQueues_releaseEnds d.val f c u
    have hHide := releaseEnds_hide d.val f c u
    beta_reduce
    rw [hQueues.ingress, hQueues.voq, hQueues.mcq, hQueues.red, hQueues.spill, State.time_of_hide (State.hide_mono hHide (by decide)),
      State.mem_of_hide (State.hide_mono hHide (by decide)), ← hStored]
    refine ⟨?_, ?_, ?_, ?_, ?_, rfl, rfl⟩
    · simp only [State.onSwitch_switch]
      rw [setQ_rest]
    · simp only [State.onSwitch_switch, setQ_voq]
      split
      · next h => rw [qCells_voq h]
      · rfl
    · simp only [State.onSwitch_switch, setQ_mcq]
      split
      · next h => rw [qCells_mcq h]
      · rfl
    · simp only [State.onSwitch_switch, setQ_red]
      split
      · next h => rw [qCells_red h]
      · rfl
    · simp only [State.onSwitch_switch]
      rw [setQ_rest]
  · -- `cellRelease`
    intro s d id f c r hUp hClocks hFrame hCells hPool
    have hRelease := cellRelease_of_cells hFrame hCells
    rw [show enqueueCell f.queue c s = spillAppend (f.queue / 4) c s from if_pos hPool] at hRelease
    refine ⟨_, congrArg Host.Outcome.next ((if_pos (by simp [hUp, hClocks])).trans hRelease), ?_⟩
    generalize hStored : (spillAppend (f.queue / 4) c s).onSwitch _ = u
    have hQueues := sameQueues_releaseEnds d.val f c u
    have hHide := releaseEnds_hide d.val f c u
    have hSwitch := spillAppend_switch (f.queue / 4) c s
    have hTime : (spillAppend (f.queue / 4) c s).time = s.time := State.time_of_hide (by simp)
    have hMem : (spillAppend (f.queue / 4) c s).mem = s.mem := State.mem_of_hide (by simp)
    beta_reduce
    rw [hQueues.ingress, hQueues.voq, hQueues.mcq, hQueues.red, hQueues.spill, State.time_of_hide (State.hide_mono hHide (by decide)),
      State.mem_of_hide (State.hide_mono hHide (by decide)), State.ras_of_hide (State.hide_mono hHide (by decide)), ← hStored]
    simp only [State.onSwitch_switch, State.onSwitch_ras, State.onSwitch_time, State.onSwitch_mem, hTime, hMem]
    rw [hSwitch]
    exact ⟨rfl, trivial, trivial, rfl, rfl, rfl, trivial, trivial⟩
  · -- `cellRelease`
    intro s d id f hUp hClocks hIngress hF
    refine congrArg Host.Outcome.next ?_
    simp [cellRelease, hUp, hClocks, hIngress, hF, State.onSwitch]
  · -- `spreaderSendCell`
    intro s i q mid c hQueue hUp hClocks hNext hMid hAge hRoom hNe
    have hSend := spreaderSend_of_cell hNext hMid hAge hRoom
    rw [if_neg hNe] at hSend
    obtain ⟨hVoq, hMcq, hRed, hTransit, hMesh, hRotation, hReleased, hTime, hMem⟩ := cellSpread_queues q c s
    have hExec : exec (.spreaderSendCell i) s = .next (spreaderSend q s) := by
      refine congrArg Host.Outcome.next ?_
      simp only [hQueue, hUp, hClocks]
      rfl
    refine ⟨_, hExec.trans (congrArg Host.Outcome.next hSend), ?_, hVoq, hMcq, hRed, hTransit, hRotation, hReleased, hTime, hMem⟩
    simp only [State.onSwitch_switch, hMesh]
  · -- `spreaderSendCell`
    intro s i q c hQueue hUp hClocks hNext hMid hAge hRoom
    have hSend := spreaderSend_of_cell hNext hMid hAge hRoom
    rw [if_pos rfl] at hSend
    obtain ⟨hVoq, hMcq, hRed, hTransit, hMesh, hRotation, -, hTime, hMem⟩ := cellSpread_queues q c s
    have hExec : exec (.spreaderSendCell i) s = .next (spreaderSend q s) := by
      refine congrArg Host.Outcome.next ?_
      simp only [hQueue, hUp, hClocks]
      rfl
    refine ⟨_, hExec.trans (congrArg Host.Outcome.next hSend), ?_⟩
    beta_reduce
    rw [toTransit_eq, toTransit_eq, egressDies_cellSpread]
    simp only [State.onSwitch_switch, hTransit]
    exact ⟨trivial, hVoq, hMcq, hRed, hMesh, hRotation, hTime, hMem⟩
  · -- `spreaderSendCell`
    intro s i q mid c hQueue hUp hClocks hNext hMid hIndex hOld
    refine congrArg Host.Outcome.next ?_
    simp only [hQueue, hUp, hClocks]
    simp [spreaderSend, hNext, hMid, hIndex, hOld]
  · -- `transitForward`
    intro s d e k c r hUp hUp' hClocks hNe hTransit hHigher hAge hRoom
    refine congrArg Host.Outcome.next ((if_pos (by simp [hUp, hClocks])).trans ?_)
    have hYoung : ¬ (c.index = 0 && tooOld s c) = true := by
      obtain h | h := hAge <;> simp [h]
    have hNe' : ¬ d.val = e.val := fun h => hNe (Fin.ext h)
    rw [transitForward_of_cell hTransit hHigher, if_neg hYoung, if_neg (by simp [hUp']), if_neg (by simp [hRoom]), if_neg hNe']
    rfl
  · -- `transitForward`
    intro s d k c r hUp hClocks hTransit hHigher hAge hRoom
    refine congrArg Host.Outcome.next ((if_pos (by simp [hUp, hClocks])).trans ?_)
    have hYoung : ¬ (c.index = 0 && tooOld s c) = true := by
      obtain h | h := hAge <;> simp [h]
    rw [transitForward_of_cell hTransit hHigher, if_neg hYoung, if_neg (by simp [hUp]), if_neg (by simp [hRoom]), if_pos rfl]
    rfl
  · -- `transitForward`
    intro s d e k c r hUp hClocks hTransit hHigher hIndex hOld
    refine congrArg Host.Outcome.next ((if_pos (by simp [hUp, hClocks])).trans ?_)
    rw [transitForward_of_cell hTransit hHigher, if_pos (by simp [hIndex, hOld])]
  · -- `meshCellReceive`
    intro s a b c r hClocks hUp hMesh hStage
    have hExec : exec (.meshCellReceive a b true) s = .next (toTransit b.val c (s.onSwitch fun x => { x with
        mesh := x.mesh.set (meshKey a.val b.val) r })) := by
      refine congrArg Host.Outcome.next ?_
      simp [hClocks, hMesh, hUp, hStage]
    refine ⟨hExec, fun hType => hExec.trans ?_⟩
    have hDies : egressDies (s.onSwitch fun x => { x with mesh := x.mesh.set (meshKey a.val b.val) r }) b.val c = [portDie c.dest] := by
      simp [egressDies, hType]
    rw [toTransit, hDies]
    rfl
  · -- `meshCellReceive`
    intro s a b c r hClocks hUp hMesh hStage
    refine congrArg Host.Outcome.next ?_
    simp [hClocks, hMesh, hUp, hStage]
    rfl
  · -- `meshCellReceive`
    intro s a b c r hClocks hUp hMesh hStage hType hNone hIndex hCells
    have hExec : exec (.meshCellReceive a b true) s = .next (egressCell b.val c (s.onSwitch fun x => { x with
        mesh := x.mesh.set (meshKey a.val b.val) r })) := by
      refine congrArg Host.Outcome.next ?_
      simp [hClocks, hMesh, hUp, hStage]
    refine ⟨_, hExec, ?_⟩
    simp [egressCell, hType, hNone, passOn, complete, hCells, toHome]
  · -- `meshCellReceive`
    intro s a b c r hClocks hUp hMesh
    refine congrArg Host.Outcome.next ?_
    simp [hClocks, hMesh, hUp, cellLost]
    rfl
  · -- `reasmTimeout`
    intro s d i id f hClocks hFrame hLate hPart
    have hExec : exec (.reasmTimeout d i id) s = .next (discardFrame f.head true (count d.val 0x2004 0 1 s)) := by
      refine congrArg Host.Outcome.next ?_
      simp only [hClocks, hFrame, hLate, hPart]
      rfl
    obtain ⟨hVoq, hMcq, hRed, hTransit, hMesh, hIngress, -⟩ := purged_discardFrame f.head true (count d.val 0x2004 0 1 s)
    rw [count_switch] at hVoq hMcq hRed hTransit hMesh hIngress
    exact ⟨_, hExec, rfl, hVoq, hMcq, hRed, hTransit, hMesh, hIngress, State.time_of_hide (by simp), State.mem_of_hide (by simp)⟩
  · -- `reseqPass`
    intro s p i k x f hClocks hx hFind
    subst hx
    refine congrArg Host.Outcome.next ?_
    simp only [hClocks, hFind]
    rfl
  · -- `reseqSkip`
    intro s p i k x at_ n f hClocks hx hTimer hNow hMem hn hLeast
    subst hx
    have hMin : (s.switch.reseq.get (reseqKey p.val i.val k.val)).held.foldl
        (fun m g => min m ((g.head.orderSeq + 65536 - (s.switch.reseq.get (reseqKey p.val i.val k.val)).expect) % 65536)) 65535 = n := by
      refine foldl_min_eq (fun g => _) hMem hn (by omega) hLeast
    refine congrArg Host.Outcome.next ?_
    have hSome : (s.switch.reseq.get (reseqKey p.val i.val k.val)).held.isEmpty = false :=
      List.isEmpty_eq_false_iff.mpr (List.ne_nil_of_mem hMem)
    simp only [hClocks, hTimer, hNow.not_gt, hSome, hMin]
    simp [State.onSwitch]

end Sys2Proof.Machine
end

section
/-! Queue heads, publication, spilling and reading back, drains, class flags and carve-outs. -/

namespace Sys2Proof.Machine

theorem sameQueues_charge (c : Cell) (n : Nat) (s : State) : SameQueues s (charge c n s) := by
  unfold charge
  refine SameQueues.trans ?_ ((sameQueues_pfcCheck ..).trans (sameQueues_spillState ..))
  constructor <;> · simp only [State.onSwitch_switch]; split <;> rfl
theorem emitOutcome_timed (e : Option (Nat × Nat)) (a b : Nat) (s : State) : (emitOutcome e a b s).regs.timed = s.regs.timed := by
  unfold emitOutcome
  split <;> rfl

theorem count_timed (d e i n : Nat) (s : State) : (count d e i n s).regs.timed = s.regs.timed := by
  unfold count
  split <;> rfl

theorem frameEnds_timed (h : Cell) (spent : Bool) (s : State) : (frameEnds h spent s).regs.timed = s.regs.timed := by
  unfold frameEnds
  rw [emitOutcome_timed]
  refine congrArg Regs.timed (State.regs_of_hide ?_)
  (repeat' split) <;> simp

theorem discardFrame_timed (h : Cell) (spent : Bool) (s : State) : (discardFrame h spent s).regs.timed = s.regs.timed := by
  unfold discardFrame
  extract_lets die id q coming here s1 s2 s3 s4 s5 s6 s7 s8
  have h1 : s1.regs = s.regs := State.regs_of_hide (by simp [s1, State.hide_foldl])
  clear_value s1 here coming
  have h2 : s2.regs = s1.regs := State.regs_of_hide (by unfold s2; split <;> simp)
  have h3 : s3.regs.timed = s2.regs.timed := frameEnds_timed ..
  have h4 : s4.regs = s3.regs := State.regs_of_hide (by unfold s4; split <;> simp)
  have h5 : s5.regs = s4.regs := State.regs_of_hide (by unfold s5; split <;> simp)
  have h7 : s7.regs = s5.regs := State.regs_of_hide (by simp [s7, s6])
  have hKept : s7.regs.timed = s.regs.timed := by rw [h7, h5, h4, h3, h2, h1]
  have h8 : s8.regs = s7.regs := State.regs_of_hide (State.hide_onSwitch (by decide) ..)
  clear_value s7 s8
  split
  · exact hKept
  · refine Eq.trans (congrArg Regs.timed ?_) hKept
    rw [← h8]
    exact State.regs_of_hide (by simp)

/-- What `portDrainFlush` does before it empties the port's own queues: the frames for the port are discarded (R95). -/
def framesFlushed (p : Nat) (s : State) : State :=
  (framesFor (objSet (0x090100 + p) 2 2 s) p).foldl (fun s h => discardFrame h.1 h.2 (count (portDie p) 0x200E p 1 s))
    (objSet (0x090100 + p) 2 2 s)

theorem framesFlushed_timed (p : Nat) (s : State) : (framesFlushed p s).regs.timed = s.regs.timed :=
  foldl_eq (fun t => t.regs.timed) _ (fun t h => (discardFrame_timed ..).trans (count_timed ..)) _ _

theorem framesFlushed_drainState (p : Nat) (s : State) : (framesFlushed p s).switch.drainState = s.switch.drainState :=
  foldl_eq (fun t => t.switch.drainState) _ (fun t h => (purged_discardFrame ..).drain.trans (by simp)) _ _

/-- The port's own queues and launches are emptied, and what was in them has ended. -/
def ownFlushed (p : Nat) (own : List EFrame) (s : State) : State :=
  let s := s.onSwitch fun x => { x with
    laneq := x.laneq.erase fun k => k / 64 == p
    heldResults := x.heldResults.erase fun k => k / 8 == p }
  let s := s.onRegs fun x => { x with timed := x.timed.modify (portDie p) (·.filter fun t => t.port != p) }
  let s := own.foldl (fun s f => emitOutcome f.head.emit 0x02 0 (releaseEgress p f (count (portDie p) 0x200E p 1 s))) s
  (upTo 8).foldl (fun s c => noteWaiting p c s) s

theorem portDrainFlush_eq (p : Nat) (s : State) : portDrainFlush p s = answer stDone
    ((ownFlushed p (ownFrames (framesFlushed p s) p) (framesFlushed p s)).onSwitch fun x => { x with
      drainState := x.drainState.set p 1 }) := rfl

theorem ownFlushed_empties (p : Nat) (own : List EFrame) {s : State} (hWf : s.regs.timed.wf = true) :
    (ownFlushed p own s).switch.laneq = s.switch.laneq.erase (fun k => k / 64 == p) ∧
    (ownFlushed p own s).switch.heldResults = s.switch.heldResults.erase (fun k => k / 8 == p) ∧
    (ownFlushed p own s).switch.drainState = s.switch.drainState ∧
    (ownFlushed p own s).regs.timed.get (portDie p) = (s.regs.timed.get (portDie p)).filter fun t => t.port != p := by
  unfold ownFlushed
  extract_lets s1 s2 s3
  have hSwitch : ∀ {β : Type} (g : Switch → β), (∀ x e, g { x with egressBytes := e } = g x) → g s3.switch = g s2.switch := by
    intro β g hg
    refine foldl_eq (fun t => g t.switch) _ (fun t f => ?_) _ _
    have hSame : (emitOutcome f.head.emit 0x02 0 (releaseEgress p f (count (portDie p) 0x200E p 1 t))).switch =
        (releaseEgress p f (count (portDie p) 0x200E p 1 t)).switch := State.switch_of_hide (by simp)
    rw [hSame]
    exact (hg ..).trans (by simp)
  have hTimed : s3.regs.timed = s2.regs.timed :=
    foldl_eq (fun t => t.regs.timed) _ (fun t f => (emitOutcome_timed ..).trans
      ((congrArg Regs.timed (State.regs_of_hide (releaseEgress_frame (by decide) ..))).trans (count_timed ..))) _ _
  have hNote : ((upTo 8).foldl (fun s c => noteWaiting p c s) s3).hide 64 = s3.hide 64 := by simp [State.hide_foldl]
  rw [State.switch_of_hide (State.hide_mono hNote (by decide)), State.regs_of_hide (State.hide_mono hNote (by decide)), hTimed]
  refine ⟨hSwitch Switch.laneq (fun _ _ => rfl), hSwitch Switch.heldResults (fun _ _ => rfl), hSwitch Switch.drainState (fun _ _ => rfl), ?_⟩
  exact (Tab.get_set hWf ..).trans (if_pos rfl)

theorem erase_none {α : Type} {t : Tab α} {q : Nat → Bool} {c : Nat × α} (h : c ∈ (t.erase q).cells) : q c.1 = false := by
  simpa using (List.mem_filter.mp h).2

theorem portDrainFlush_empties (p : Nat) {s : State} (hWf : s.regs.timed.wf = true) :
    (portDrainFlush p s).obj = cellPut (objKey (0x090100 + p) 2) 2 s.obj ∧ (portDrainFlush p s).bop.answer = stDone ∧
    (∀ c ∈ (portDrainFlush p s).switch.laneq.cells, c.1 / 64 ≠ p) ∧ (∀ c ∈ (portDrainFlush p s).switch.heldResults.cells, c.1 / 8 ≠ p) ∧
    (∀ x ∈ (portDrainFlush p s).regs.timed.get (portDie p), x.port ≠ p) ∧
    (portDrainFlush p s).switch.drainState = s.switch.drainState.set p 1 := by
  obtain ⟨hLanes, hHeld, hDrain, hTimed⟩ := ownFlushed_empties p (ownFrames (framesFlushed p s) p)
    (s := framesFlushed p s) (by rw [framesFlushed_timed]; exact hWf)
  have hObj : (ownFlushed p (ownFrames (framesFlushed p s) p) (framesFlushed p s)).obj = (objSet (0x090100 + p) 2 2 s).obj :=
    State.obj_of_hide (by simp [ownFlushed, framesFlushed, State.hide_foldl])
  rw [portDrainFlush_eq]
  generalize ownFlushed p (ownFrames (framesFlushed p s) p) (framesFlushed p s) = t at *
  refine ⟨hObj, rfl, fun c hc => ?_, fun c hc => ?_, fun x hx => ?_, ?_⟩
  · have hc' : c ∈ t.switch.laneq.cells := hc
    rw [hLanes] at hc'
    simpa using erase_none hc'
  · have hc' : c ∈ t.switch.heldResults.cells := hc
    rw [hHeld] at hc'
    simpa using erase_none hc'
  · have hx' : x ∈ t.regs.timed.get (portDie p) := hx
    rw [hTimed] at hx'
    simpa using (List.mem_filter.mp hx').2
  · show t.switch.drainState.set p 1 = _
    rw [hDrain, framesFlushed_drainState]

/-- Settles O32: each clause from the equation of its command under the clause's guards. -/
theorem queuesAndDrains : Obligations.QueuesAndDrains := by
  unfold Obligations.QueuesAndDrains
  refine ⟨?_, ?_, ?_, ?_, ?_, ?_, ?_, ?_, ?_, ?_, ?_, ?_, ?_⟩
  · -- `ageHeadExamine`
    intro s p l k f hClocks hHeld hLane hOld
    refine congrArg Host.Outcome.next ?_
    simp only [hClocks, hLane, hHeld, oldFrames, hOld]
    rfl
  · -- `ageHeadExamine`
    intro s d e k c hClocks hTransit hIndex hOld
    refine congrArg Host.Outcome.next ?_
    simp [hClocks, hTransit, oldHeads, hIndex, hOld, ageDiscard]
  · -- `laneStatePublish`
    intro s d hUp hClocks
    refine ⟨_, rfl, ?_⟩
    simp [portDie, isFibre, laneKey, ownOccupancy, sprayLanes, waiting, hUp, hClocks]
  · -- `spillReadback`
    intro s d p k b x r hUp hClocks hSpill hShort hGood hYoung
    have hQueue : qVoq d.val p.val k.val b.val / 4 = voqKey d.val p.val k.val b.val := Nat.mul_div_cancel_left _ (by decide)
    have hMod : qVoq d.val p.val k.val b.val % 4 = 0 := Nat.mul_mod_right 4 _
    have hNone : ((blockCells [x]).filter fun c => c.index == 0 && tooOld s c) = [] :=
      List.filter_eq_nil_iff.mpr fun c hc => by simpa [imp_iff_not_or] using List.all_eq_true.mp hYoung c hc
    have hRead : spillReadback d.val (qVoq d.val p.val k.val b.val) none s =
        ((blockCells [x]).map fun c : Cell => { c with pool := 1 }).foldl (fun s c => charge c 1 s)
          (setQ (qVoq d.val p.val k.val b.val) (qCells s (qVoq d.val p.val k.val b.val) ++
            (blockCells [x]).map fun c : Cell => { c with pool := 1 }) (setSpill (voqKey d.val p.val k.val b.val) r s)) := by
      unfold spillReadback
      rw [hQueue, hSpill, qCells_voq hMod, hQueue]
      dsimp only
      rw [if_neg hShort.not_ge, if_neg (by simp [hGood]), hNone, List.foldl_nil, hSpill]
      dsimp only
      rw [if_neg (by simp), qCells_voq hMod, hQueue]
    have hQueues := SameQueues.foldl (fun s c => sameQueues_charge c 1 s) ((blockCells [x]).map fun c : Cell => { c with pool := 1 })
      (setQ (qVoq d.val p.val k.val b.val) (qCells s (qVoq d.val p.val k.val b.val) ++
        (blockCells [x]).map fun c : Cell => { c with pool := 1 }) (setSpill (voqKey d.val p.val k.val b.val) r s))
    have hMem : (spillReadback d.val (qVoq d.val p.val k.val b.val) none s).mem = s.mem := State.mem_of_hide (by simp)
    refine ⟨spillReadback d.val (qVoq d.val p.val k.val b.val) none s, congrArg Host.Outcome.next (if_pos (by simp [hUp, hClocks])), ?_, ?_, hMem⟩
    · rw [hRead, hQueues.spill, setQ_rest]
    · rw [hRead, hQueues.voq, setQ_voq, if_pos hMod, hQueue, qCells_voq hMod, hQueue]
      rfl
  · -- `spillReadback`
    intro s d p k b x r hUp hClocks hSpill hShort hBad
    refine congrArg Host.Outcome.next ((if_pos (by simp [hUp, hClocks])).trans ?_)
    have hQueue : qVoq d.val p.val k.val b.val / 4 = voqKey d.val p.val k.val b.val := Nat.mul_div_cancel_left _ (by decide)
    have hMod : qVoq d.val p.val k.val b.val % 4 = 0 := Nat.mul_mod_right 4 _
    unfold spillReadback
    rw [hQueue, hSpill, qCells_voq hMod, hQueue]
    dsimp only
    rw [if_neg hShort.not_ge, if_pos hBad]
  · -- `contextSpill`
    intro s d k g g' hUp hClocks hNeeded hFull hVictim hGroup hArea
    refine congrArg Host.Outcome.next ((if_pos (by simp [hUp, hClocks])).trans ?_)
    unfold contextSpill
    rw [if_neg (by simpa [hNeeded] using hFull), hVictim]
    dsimp only
    rw [hGroup]
    dsimp only
    rw [if_pos hArea]
    rfl
  · -- `contextReadback`
    intro s d g i c k x hUp hClocks hCtx hGroup hOut hRoom
    refine congrArg Host.Outcome.next ?_
    rw [hCtx]
    refine (if_pos (by simp [hUp, hClocks])).trans ?_
    unfold contextReadback
    rw [hGroup]
    exact if_neg (by simp [hOut, hRoom])
  · -- `portDrainDrain`
    rintro s r p ⟨hKeeper, hCheck⟩
    refine congrArg Host.Outcome.next ?_
    simp [portDrainDrain, guardWrite_of_done hKeeper hCheck]
    rfl
  · -- `portDrainNone`
    rintro s r p ⟨hKeeper, hCheck⟩
    refine congrArg Host.Outcome.next ?_
    simp [portDrainNone, guardWrite_of_done hKeeper hCheck]
    rfl
  · -- `portDrainFlush`
    rintro s r p ⟨hKeeper, hCheck⟩ hWf
    have hHide : (portDrainFlush p.val s).hide 418032 = s.hide 418032 := by simp
    obtain ⟨hObj, hAnswer, hLanes, hHeld, hTimed, hDrain⟩ := portDrainFlush_empties p.val hWf
    exact ⟨_, congrArg Host.Outcome.next (guardWrite_of_done hKeeper hCheck), hObj, hAnswer, hLanes, hHeld, hTimed, hDrain,
      State.time_of_hide (State.hide_mono hHide (by decide)), State.mem_of_hide (State.hide_mono hHide (by decide))⟩
  · -- `drainEmpty`
    intro s p hClocks hDraining hEmpty
    exact congrArg Host.Outcome.next (if_pos (by simp [hClocks, hDraining, hEmpty]))
  · -- `classFlags`
    rintro s r k v ⟨hKeeper, hCheck⟩ hV hDeep hReserve
    refine congrArg Host.Outcome.next ((guardWrite_of_done hKeeper hCheck).trans ?_)
    unfold classFlagsWrite
    rw [if_neg hV.not_gt, if_neg ?_]
    · exact if_neg hReserve.not_gt
    · obtain h | h := hDeep <;> simp [h]
  · -- `carveoutGb`
    rintro s r d v ⟨hKeeper, hCheck⟩ hToNat hSpill hCarveoutFits
    refine congrArg Host.Outcome.next ?_
    simp [carveoutWrite, guardWrite_of_done hKeeper hCheck, hToNat.not_gt, hSpill, hCarveoutFits]

end Sys2Proof.Machine
end

section
/-! The wheel of the shapers, the shepherd's grants, credit returned and the weighted order of an engine. -/

namespace Sys2Proof.Machine

/-- Entering a level moves tags and eligibility alone (04 R113). -/
theorem levelEnter_same {β : Type} (g : Flow → β) (hg : ∀ (f : Flow) t e, g { f with tag := t, eligible := e } = g f) (lv : Nat)
    (l : List Nat) (elig : Nat → Bool) (f : Flow) : g (levelEnter lv l elig f) = g f :=
  foldl_same g (fun f q => hg ..) l f

/-- R119: the shepherd's grant to the die whose turn it is. -/
theorem shepherdGrant_of_choice {p c e : Nat} {s : State} (hUp : dieUp s (portDie p) = true) (hClocks : clocksRun s = true)
    (hLanes : sprayLanes s p ≠ []) (hBound : unsettledOf s p + 16 ≤ grantBound s p)
    (hTurn : nextTurn 8 (s.flow.grantTurn.get (pcKey p c) + 7) (fun d => dieUp s d && s.switch.requests.get (dpcKey d p c)) = some e)
    (hClass : chooseClass (grantLevel p) (grantable s p) (levelEnter (grantLevel p) (upTo 6) (grantable s p) s.flow) = some c) :
    shepherdGrant p c s = { s with flow :=
      let x := classSent s (grantLevel p) c 4096 (levelEnter (grantLevel p) (upTo 6) (grantable s p) s.flow)
      { x with
        grantTurn := x.grantTurn.set (pcKey p c) ((e + 1) % 8)
        grants := x.grants.modify (dpcKey e p c) (· + 1)
        unsettled := x.unsettled.modify (settleKey p c e) (· + 16) } } := by
  have hTurn' : (levelEnter (grantLevel p) (upTo 6) (grantable s p) s.flow).grantTurn = s.flow.grantTurn :=
    levelEnter_same Flow.grantTurn (fun _ _ _ => rfl) ..
  unfold shepherdGrant
  dsimp only
  rw [if_neg (by simp [hUp, hClocks, hLanes, hClass, not_lt.mpr hBound]), hTurn', hTurn]

theorem chooseClass_low {lv : Nat} {elig : Nat → Bool} {f : Flow} (h7 : elig 7 = false) (h6 : elig 6 = false) :
    chooseClass lv elig f = levelChoose lv (upTo 6) elig f := by
  simp [chooseClass, h7, h6]
theorem onlyChanges_flow (s : State) (f : Flow) : OnlyChanges [.flow] s { s with flow := f } := by
  intro p hp
  cases p
  case flow => exact absurd (List.mem_singleton.mpr rfl) hp
  case free => exact ⟨rfl, rfl⟩
  all_goals rfl

/-- The shapers and queues do not read the tags of a level. -/
theorem subEligible_levelEnter (d p c b lv : Nat) (l : List Nat) (elig : Nat → Bool) (s : State) :
    subEligible (s.onFlow (levelEnter lv l elig)) d p c b = subEligible s d p c b := by
  have hShaper : ∀ k, shaperFree (s.onFlow (levelEnter lv l elig)) k = shaperFree s k := by
    intro k
    unfold shaperFree
    simp only [State.onFlow_flow, levelEnter_same Flow.wheel (fun _ _ _ => rfl), levelEnter_same Flow.nextAt (fun _ _ _ => rfl)]
    rfl
  unfold subEligible
  rw [hShaper]
  rfl

theorem levelChoose_only {n : Nat} {elig : Nat → Bool} (h0 : elig 0 = true) (hOther : ∀ b : Fin n, b.val ≠ 0 → elig b.val = false)
    (hn : 0 < n) (lv : Nat) (f : Flow) : levelChoose lv (upTo n) elig f = some 0 := by
  have hFilter : (upTo n).filter elig = [0] := by
    obtain ⟨m, rfl⟩ := Nat.exists_eq_succ_of_ne_zero hn.ne'
    have hRest : (List.map Nat.succ (List.range m)).filter elig = [] := by
      refine List.filter_eq_nil_iff.mpr fun b hb => ?_
      obtain ⟨i, hi, rfl⟩ := List.mem_map.mp hb
      simp [hOther ⟨i + 1, Nat.succ_lt_succ (List.mem_range.mp hi)⟩ (Nat.succ_ne_zero i)]
    rw [upTo, List.range_succ_eq_map, List.filter_cons_of_pos h0, hRest]
  rw [levelChoose, hFilter]
  rfl

theorem shaperCharge_switch (k len : Nat) (s : State) : (shaperCharge k len s).switch = s.switch := by
  unfold shaperCharge
  split <;> rfl

theorem shaperCharge_balance (k len : Nat) (s : State) : (shaperCharge k len s).flow.balance = s.flow.balance := by
  unfold shaperCharge
  split <;> rfl

/-- R113, R114: with class 7 eligible and one of its queues, that queue's frame is released. -/
theorem decideTarget_only {d p : Nat} {s : State} {c : Cell} (hp : p ≠ 288) (hClass : classEligible s d p 7 = true)
    (hSub : subEligible s d p 7 0 = true) (hOther : ∀ b : Fin 16, b ≠ 0 → subEligible s d p 7 b.val = false)
    (hHead : headFrame s (qVoq d p 7 0) = some c) :
    ∃ u, decideTarget d p s = releaseFrame (qVoq d p 7 0) c u ∧ u.switch = s.switch ∧ u.flow.balance = s.flow.balance := by
  have hChoose : ∀ f, chooseClass (classLevel d p) (classEligible s d p) f = some 7 := fun f => if_pos hClass
  have hSubs : ∀ b, subEligible (s.onFlow (levelEnter (classLevel d p) (upTo 6) (classEligible s d p))) d p 7 b = subEligible s d p 7 b :=
    fun b => subEligible_levelEnter ..
  have hLevel : ∀ f, levelChoose (subLevel d p 7) (upTo 16) (subEligible s d p 7) f = some 0 :=
    levelChoose_only hSub (fun b hb => hOther b fun h => hb (congrArg Fin.val h)) (by decide) _
  have hQueue : targetQueue d p 7 0 = qVoq d p 7 0 := if_neg hp
  unfold decideTarget
  dsimp only
  simp only [hChoose]
  simp only [funext hSubs, hLevel, hQueue]
  have hHead' : ∀ f g : Flow → Flow, headFrame ((s.onFlow f).onFlow g) (qVoq d p 7 0) = some c := fun _ _ => hHead
  simp only [hHead', if_neg hp]
  refine ⟨_, rfl, ?_, ?_⟩
  · rw [shaperCharge_switch]
    rfl
  · rw [shaperCharge_balance]
    simp only [State.onFlow_flow, classSent, levelSent]
    exact (levelEnter_same Flow.balance (fun _ _ _ => rfl) ..).trans (levelEnter_same Flow.balance (fun _ _ _ => rfl) ..)

/-- Settles O33: each clause from the equation of its command under the clause's guards. -/
theorem scheduling : Obligations.Scheduling := by
  unfold Obligations.Scheduling
  refine ⟨?_, ?_, ?_, ?_, ?_, ?_, ?_⟩
  · -- `wheelSlotRelease`
    intro s d k n hUp hClocks hWheel hDie hLate hNext
    have hCells : s.flow.wheel.cells = [(k, some n)] := by simp [hWheel, Tab.set, cellPut]
    have hNow : now16 (count d.val 0x3000 0 1 s) = now16 s := by
      unfold now16
      rw [count_time]
    have hRelease : exec (.wheelSlotRelease d) s = .next ((count d.val 0x3000 0 1 s).onFlow fun y => { y with wheel := y.wheel.set k none }) := by
      refine congrArg Host.Outcome.next ((if_neg (by simp [hUp, hClocks])).trans ?_)
      simp [hCells, hDie, hLate, hLate.le, hNow, hNext.not_gt]
    refine ⟨_, hRelease, ?_, ?_, rfl, ?_, ?_⟩
    · simp [hWheel, Tab.set, Tab.get, cellPut, cellDrop, cellFind]
    all_goals simp
  · -- `shepherdGrant`
    intro s p c e hUp hClocks hLanes hBound hTurn hClass hGrantable
    have hChoose : chooseClass (grantLevel p.val) (grantable s p.val) (levelEnter (grantLevel p.val) (upTo 6) (grantable s p.val) s.flow) =
        some c.val := by
      rcases hClass with h | ⟨h, h7⟩
      · rw [h] at hGrantable ⊢
        simp [chooseClass, hGrantable]
      · rw [h] at hGrantable ⊢
        simp [chooseClass, hGrantable, h7]
    have hHigh : ¬ c.val < 6 := by omega
    refine ⟨_, congrArg Host.Outcome.next (shepherdGrant_of_choice hUp hClocks hLanes hBound hTurn hChoose), ?_⟩
    simp only [classSent, if_neg hHigh]
    refine ⟨?_, ?_, ?_, trivial, ?_⟩
    · rw [levelEnter_same Flow.grantTurn fun _ _ _ => rfl]
    · rw [levelEnter_same Flow.grants fun _ _ _ => rfl]
    · rw [levelEnter_same Flow.unsettled fun _ _ _ => rfl]
    · exact onlyChanges_flow s _
  · -- `shepherdGrant`
    intro s p c e hUp hClocks hLanes hBound hTurn hLow h7 h6 hChosen
    refine ⟨_, congrArg Host.Outcome.next (shepherdGrant_of_choice hUp hClocks hLanes hBound hTurn
      ((chooseClass_low h7 h6).trans hChosen)), ?_⟩
    simp only [classSent, if_pos hLow, levelSent]
    refine ⟨?_, ?_, ?_, trivial, ?_⟩
    · rw [levelEnter_same Flow.grantTurn fun _ _ _ => rfl]
    · rw [levelEnter_same Flow.grants fun _ _ _ => rfl]
    · rw [levelEnter_same Flow.unsettled fun _ _ _ => rfl]
    · exact onlyChanges_flow s _
  · -- `grantReceive`
    intro s d p c hUp hClocks hGrants
    refine ⟨_, congrArg Host.Outcome.next (if_neg (by simp [hUp, hClocks, hGrants])), ?_⟩
    exact ⟨rfl, rfl, rfl, rfl⟩
  · -- `creditReturn`
    intro s d p c at_ hClocks hIdle hLate hBalance hWaiting
    refine congrArg Host.Outcome.next ?_
    simp only [hIdle]
    exact if_neg (by simp [hClocks, hBalance.not_ge, hWaiting, hLate.not_gt])
  · -- `schedulerDecision`
    intro s d e i hUp hClocks hTurn hTarget
    refine congrArg Host.Outcome.next ((if_neg (by simp [hUp, hClocks])).trans ?_)
    simp only [hTurn]
    exact if_neg hTarget
  · -- `schedulerDecision`
    intro s d e c hUp hClocks hTurn he hClass hSub hOther hHead hDie hDest hCls
    have hTargets : (engineTargets e.val).length = 18 ∧ (engineTargets e.val).getD 17 0 = e.val + 272 := by
      have h0 : ¬ e.val = 0 := by omega
      have h1 : ¬ e.val = 1 := by omega
      simp [engineTargets, h0, h1, upTo, List.range_succ]
    obtain ⟨hLength, hLast⟩ := hTargets
    have hNot : ¬ e.val + 272 = 289 := by omega
    have hTurn' : nextTurn (engineTargets e.val).length (s.flow.engineTurn.get (d.val * 16 + e.val) + (engineTargets e.val).length - 1)
        (fun i => targetEligible s d.val ((engineTargets e.val).getD i 0)) = some 17 := by
      rw [hLength]
      exact hTurn
    have hExec : exec (.schedulerDecision d e) s = .next (decideTarget d.val (e.val + 272) (s.onFlow fun x => { x with
        engineTurn := x.engineTurn.set (d.val * 16 + e.val) ((17 + 1) % (engineTargets e.val).length) })) := by
      refine congrArg Host.Outcome.next ((if_neg (by simp [hUp, hClocks])).trans ?_)
      simp only [hTurn']
      rw [hLast, if_neg hNot]
    obtain ⟨u, hDecide, hSwitch, hBalance⟩ := decideTarget_only (s := s.onFlow fun x => { x with
        engineTurn := x.engineTurn.set (d.val * 16 + e.val) ((17 + 1) % (engineTargets e.val).length) })
      (by omega : e.val + 272 ≠ 288) hClass hSub hOther hHead
    refine ⟨_, hExec.trans (congrArg Host.Outcome.next hDecide), ?_⟩
    have hMod : qVoq d.val (e.val + 272) 7 0 % 4 = 0 := Nat.mul_mod_right 4 _
    simp only [releaseFrame, if_pos hMod, hDie, hDest, hCls, refreshIdle, State.onFlow_flow, State.onFlow_switch, State.onSwitch_switch,
      State.onSwitch_flow, hSwitch, hBalance]
    exact ⟨trivial, trivial, trivial⟩

end Sys2Proof.Machine
end

section
/-! Pause frames sent and received on electrical ports, the pause watch and its recovery. -/

namespace Sys2Proof.Machine

/-- Settles O35: each clause from the equation of its command under the clause's guards. -/
theorem pauseOfAClass : Obligations.PauseOfAClass := by
  unfold Obligations.PauseOfAClass
  refine ⟨?_, ?_, ?_, ?_, ?_, ?_⟩
  · -- `pfcRepeat`
    intro s p c at_ hLit hXoff hDue hLow
    refine congrArg Host.Outcome.next ?_
    simp only [hXoff]
    exact (if_neg (by simp [hLit, hDue])).trans (if_pos hLow)
  · -- `pfcFrameReceive`
    intro s p c hClocks hUp hPaused
    refine congrArg Host.Outcome.next ((if_neg (by simp [hClocks, hUp])).trans ((if_pos rfl).trans ?_))
    simp only [hPaused]
    rfl
  · -- `pfcFrameReceive`
    intro s p c q hClocks hUp hQuanta
    refine ⟨_, congrArg Host.Outcome.next ((if_neg (by simp [hClocks, hUp])).trans (if_neg hQuanta)), rfl, rfl, ?_, rfl⟩
    intro hStart hEnd
    simp [hStart, hEnd]
  · -- `pauseExpire`
    intro s p c e hClocks hEnd hOver
    refine congrArg Host.Outcome.next ?_
    simp only [hEnd]
    exact if_pos (by simp [hClocks, hOver])
  · -- `pauseWatchTrip`
    intro s p c at_ e hClocks hStart hEnd hPaused hIgnore hWatch
    refine congrArg Host.Outcome.next ?_
    simp only [hStart]
    exact if_neg (by simp [hClocks, hEnd, hPaused, hIgnore, hWatch])
  · -- `pauseRecoverEnd`
    intro s p c at_ hClocks hIgnore hOver
    refine congrArg Host.Outcome.next ?_
    simp only [hIgnore]
    exact if_neg (by simp [hClocks, hOver])

end Sys2Proof.Machine
end

section
/-! Frames that enter, are cut into cells, begin on a lane, run dry and leave; the frames of the keeper. -/

namespace Sys2Proof.Machine

/-! A frame as it enters a port: what its verdict, its arrival and its forwarding leave (02 R35, 03 R77 to R79). -/

/-- R131: the units of a frame that passed its checks are counted as arrived. -/
def countArrived (port lane : Nat) (b : Bytes) (s : State) : State :=
  if fcsGood b && b.length ≤ 9216 then unitsArrived port lane (frameClass b (parseFrame b)) (ceilDiv b.length 256) s else s

theorem countArrived_of_lossy {port lane : Nat} {b : Bytes} {s : State} (h : portLossless s port (frameClass b (parseFrame b)) = false) :
    countArrived port lane b s = s := by
  unfold countArrived unitsArrived
  simp [h]

theorem laneClosed_of_lossy {s : State} {port lane cls : Nat} (h : portLossless s port cls = false) :
    laneClosed s port lane cls = false := by
  simp [laneClosed, h]

theorem unitsFreed_of_lossy {s : State} {port cls n : Nat} (h : portLossless s port cls = false) : unitsFreed port cls n s = s :=
  if_neg (by simp [h])

/-- An Epolong frame of another destination takes the entry of its destination in the DIT. -/
theorem verdict_of_dit {die port o : Nat} {b : Bytes} {s : State} (hEpl : (parseFrame b).epl = some o) (hVersion : eplVersion b o = 1)
    (hOther : eplKind b o ≠ 1 ∨ eplDest b o ≠ cfgDevIndex s) :
    verdict die port b (parseFrame b) s = (.take (s.tables.dit.get (tblKey die (eplDest b o))) none false (some (eplDest b o)) none, s) := by
  unfold verdict
  rw [hEpl]
  dsimp only
  rw [if_neg (by simp [hVersion]), if_neg (by obtain h | h := hOther <;> simp [h])]

/-- A frame that takes an entry of the DIT on an open lane is forwarded. -/
theorem frameIngress_of_dit {port lane o : Nat} {b : Bytes} {s : State} (hLoop : laneLoops s port lane = false)
    (hOpen : laneClosed s port lane (frameClass b (parseFrame b)) = false) (hEpl : (parseFrame b).epl = some o)
    (hVersion : eplVersion b o = 1) (hOther : eplKind b o ≠ 1 ∨ eplDest b o ≠ cfgDevIndex s) :
    frameIngress port lane b none s = forward (portDie port) port b (parseFrame b)
      (s.tables.dit.get (tblKey (portDie port) (eplDest b o))) none false (some (eplDest b o))
      (countArrived port lane b (if ptpSkipped b && cfgTcEnable s port &&
        resAction (s.tables.dit.get (tblKey (portDie port) (eplDest b o))) ≠ 3 then count 8 0xB001 0 1 s else s)) := by
  unfold frameIngress
  dsimp only
  rw [if_neg (by simp [hLoop]), if_neg (by simp [hOpen]), verdict_of_dit hEpl hVersion hOther]
  rfl
/-- A state in which a frame has been counted, its units have arrived and a lane has been assigned to it. -/
def entered (x : Regs) (r : Tab Word) (a : Tab Nat) (s : State) : State :=
  { s with regs := x, flow := { s.flow with rcvd := r }, switch := { s.switch with assigned := a } }

section
variable (x : Regs) (r : Tab Word) (a : Tab Nat) (s : State)

theorem freeShared_entered (d : Nat) : freeShared (entered x r a s) d = freeShared s d := rfl

theorem belowAlpha_entered (n m : Nat) : belowAlpha (entered x r a s) n m = belowAlpha s n m := rfl

theorem cutsThrough_entered (p c e : Nat) : cutsThrough (entered x r a s) p c e = cutsThrough s p c e := rfl

theorem candidates_entered (l : List Nat) : candidates (entered x r a s) l = candidates s l := rfl

theorem isDeep_entered (c : Nat) : isDeep (entered x r a s) c = isDeep s c := rfl

theorem isLossless_entered (c : Nat) : isLossless (entered x r a s) c = isLossless s c := rfl

end

/-- R97: a frame of a class neither lossless nor deep takes shared memory below its share. -/
theorem admission_of_room {s : State} {die port cls q n : Nat} {u : Bool} (hLossy : isLossless s cls = false) (hShallow : isDeep s cls = false)
    (hRoom : 9216 ≤ freeShared s die) (hShare : belowAlpha s (queueBytes (qCells s q)) (freeShared s die) = true) :
    admission s die port cls q n u = some 1 := by
  simp [admission, hLossy, hShallow, hRoom, hShare]

theorem unicastLane_of_candidate {s : State} {die n q m : Nat} {b : Bundle} (h : candidates s b.ports = [(q, m)]) :
    unicastLane die n b s = (some (q, m), s.onSwitch fun x => { x with assigned := x.assigned.modify (die * 4096 + laneKey q m) (· + n) }) := by
  have hChoose : ∀ occ, chooseLane die [(q, m)] occ s = (some (q, m), s) := by
    intro occ
    simp [chooseLane]
  unfold unicastLane
  rw [h, hChoose]

/-- The header of a frame that goes to lane `m` of port `q` for the destination of index `i`. -/
def headTo (s : State) (die port : Nat) (b : Bytes) (i q m : Nat) : Cell :=
  { ingressHead s die port b (parseFrame b) (some i) false with dest := q, lane := m }

theorem count_regs_congr {s t : State} {d e i n : Nat} (hStart : t.start = s.start) (hRegs : t.regs = s.regs) :
    (count d e i n t).regs = (count d e i n s).regs := by
  unfold count
  rw [hStart, hRegs]
  split
  · exact hRegs
  · exact hRegs
  · rfl

theorem countArrived_entered (port lane : Nat) (b : Bytes) (x : Regs) (s : State) :
    ∃ r, countArrived port lane b { s with regs := x } = entered x r s.switch.assigned s := by
  unfold countArrived unitsArrived
  (repeat' split) <;> exact ⟨_, rfl⟩

/-- A frame forwarded to the one candidate of its bundle is admitted to its VOQ; only the credit it used may then be returned. -/
theorem forward_of_candidate {s : State} (x : Regs) (r : Tab Word) {die port q m i : Nat} {b : Bytes} {w : Word}
    (hBundle : resAction w = 1) (hPorts : candidates s (s.tables.bundle.get (tblKey die (resTarget w))).ports = [(q, m)])
    (hGood : fcsGood b = true) (hLen : b.length ≤ 9216) :
    ∃ a, (forward die port b (parseFrame b) w none false (some i) (entered x r s.switch.assigned s)).switch =
      (admitFrame (headTo s die port b i q m)
        (qVoq die q (frameClass b (parseFrame b)) (subscriber b (parseFrame b))) b
        (cutsThrough s port (frameClass b (parseFrame b)) q) false (entered x r a s)).switch := by
  have hLane := unicastLane_of_candidate (s := entered x r s.switch.assigned s) (die := die) (n := ceilDiv b.length 256)
    ((candidates_entered ..).trans hPorts)
  have hSome : (s.tables.bundle.get (tblKey die (resTarget w))).ports.isEmpty = false := by
    cases hList : (s.tables.bundle.get (tblKey die (resTarget w))).ports with
    | nil => simp [hList, candidates] at hPorts
    | cons => rfl
  refine ⟨s.switch.assigned.modify (die * 4096 + laneKey q m) (· + ceilDiv b.length 256), ?_⟩
  have hFreed : ∀ (p c n : Nat) (u : State), (unitsFreed p c n u).switch = u.switch := by
    intro p c n u
    unfold unitsFreed
    split <;> rfl
  have hTables : (entered x r s.switch.assigned s).tables = s.tables := rfl
  unfold forward
  simp only [hBundle, hTables, hSome, hLane, hGood, hLen]
  rw [if_neg (by decide), if_neg (by simp)]
  split
  · exact (hFreed ..).trans rfl
  · rfl

/-- The header of a frame's cells once shared memory has been found for it (R78). -/
def storedHead (h : Cell) (cut : Bool) (s : State) : Cell :=
  { h with frameId := s.switch.frameId.get h.ingressDie, pool := 1, cut := cut, flags := cfgClassFlags s h.cls, good := true }

/-- The account and the drain of a frame admitted with `n` cells, before its cells are stored. -/
def frameCharged (h : Cell) (cut : Bool) (n : Nat) (s : State) : State :=
  let u := charge (storedHead h cut s) n (nextFrameId h.ingressDie s).2
  match h.drainIndex with
  | some i => drainAdd h.ingressDie i u
  | none => u

theorem sameQueues_nextFrameId (d : Nat) (s : State) : SameQueues s (nextFrameId d s).2 :=
  ⟨rfl, rfl, rfl, rfl, rfl, rfl, rfl, rfl, rfl, rfl⟩

theorem sameQueues_frameCharged (h : Cell) (cut : Bool) (n : Nat) (s : State) : SameQueues s (frameCharged h cut n s) := by
  have hCharge : SameQueues s (charge (storedHead h cut s) n (nextFrameId h.ingressDie s).2) :=
    (sameQueues_nextFrameId ..).trans (sameQueues_charge ..)
  unfold frameCharged
  dsimp only
  split
  · exact hCharge.trans (.of_hide (by simp))
  · exact hCharge

theorem charge_shared {c : Cell} (h : c.pool = 1) (n : Nat) (s : State) :
    (charge c n s).switch.shared = s.switch.shared.modify c.ingressDie (· + 256 * n) := by
  have hSpill : ∀ (d : Nat) (u : State), (spillState d u).switch.shared = u.switch.shared := by
    intro d u
    have hState : ∃ t, spillState d u = u.onSwitch fun x => { x with spilling := t } := ⟨_, rfl⟩
    obtain ⟨t, ht⟩ := hState
    rw [ht]
    rfl
  have hPfc : ∀ (p k : Nat) (u : State), (pfcCheck p k u).switch = u.switch := fun p k u => State.switch_of_hide (by simp)
  unfold charge
  dsimp only
  rw [hSpill, hPfc, State.onSwitch_switch, h]
  rfl

theorem frameCharged_shared (h : Cell) (cut : Bool) (n : Nat) (s : State) :
    (frameCharged h cut n s).switch.shared = s.switch.shared.modify h.ingressDie (· + 256 * n) := by
  have hCharge : (charge (storedHead h cut s) n (nextFrameId h.ingressDie s).2).switch.shared =
      s.switch.shared.modify h.ingressDie (· + 256 * n) := charge_shared rfl ..
  unfold frameCharged
  dsimp only
  split
  · exact (congrArg Switch.shared (State.switch_of_hide (drainAdd_frame (by decide) ..))).trans hCharge
  · exact hCharge

/-- R79: a frame that cuts through waits among the frames still arriving. -/
theorem admitFrame_cut {s : State} {h : Cell} {q : Nat} {b : Bytes}
    (hPool : admission s h.ingressDie h.port h.cls q 36 (q % 4 == 0) = some 1) :
    (admitFrame h q b true false s).switch = ((frameCharged h true 36 s).onSwitch fun x => { x with
      ingress := x.ingress.set (frameKey h.ingressDie (s.switch.frameId.get h.ingressDie))
        (some ⟨cutFrame (storedHead h true s) b, q, false⟩) }).switch := by
  unfold admitFrame
  simp only [if_true, hPool]
  rfl

/-- R78: the cells of a whole frame go to the end of their queue. -/
theorem admitFrame_whole {s : State} {h : Cell} {q : Nat} {b : Bytes}
    (hPool : admission s h.ingressDie h.port h.cls q (ceilDiv b.length 256) (q % 4 == 0) = some 1) :
    (admitFrame h q b false false s).switch = ((cutFrame (storedHead h false s) b).foldl (fun s c => enqueueCell q c s)
      (frameCharged h false (ceilDiv b.length 256) s)).switch := by
  have hLength : (cutFrame (storedHead h false s) b).length = ceilDiv b.length 256 := by simp [cutFrame, upTo]
  unfold admitFrame
  simp only [Bool.false_eq_true, if_false, hPool]
  have hIdle : ∀ (d p c : Nat) (u : State), (refreshIdle d p c u).switch = u.switch := fun _ _ _ _ => rfl
  have hSame : ∀ u : State, (if q % 4 = 0 then refreshIdle h.ingressDie h.dest h.cls u else u).switch = u.switch := by
    intro u
    split
    · exact hIdle ..
    · rfl
  refine (hSame _).trans ?_
  rw [← hLength]
  rfl

/-- Cells of one VOQ stored one after the other. -/
theorem foldl_enqueueCell {q : Nat} (hq : q % 4 = 0) (cells : List Cell) (hCells : ∀ c ∈ cells, c.pool ≠ 3) (s : State)
    (hWf : s.switch.voq.wf = true) :
    (cells.foldl (fun s c => enqueueCell q c s) s).switch.voq.get (q / 4) = s.switch.voq.get (q / 4) ++ cells ∧
      ∀ j, j ≠ q / 4 → (cells.foldl (fun s c => enqueueCell q c s) s).switch.voq.get j = s.switch.voq.get j := by
  induction cells generalizing s with
  | nil => exact ⟨(List.append_nil _).symm, fun _ _ => rfl⟩
  | cons c cells ih =>
    have hVoq : (enqueueCell q c s).switch.voq = s.switch.voq.set (q / 4) (s.switch.voq.get (q / 4) ++ [c]) := by
      rw [enqueueCell_of_pool (hCells c List.mem_cons_self), setQ_voq, if_pos hq, qCells_voq hq]
    have hWf' : (enqueueCell q c s).switch.voq.wf = true := by
      rw [hVoq]
      exact Tab.wf_set hWf ..
    obtain ⟨hHere, hElse⟩ := ih (fun d hd => hCells d (List.mem_cons_of_mem _ hd)) (enqueueCell q c s) hWf'
    rw [List.foldl_cons]
    refine ⟨?_, fun j hj => ?_⟩
    · rw [hHere, hVoq, Tab.get_set hWf, if_pos rfl, List.append_assoc]
      rfl
    · rw [hElse j hj, hVoq, Tab.get_set hWf, if_neg (Ne.symm hj)]

/-! The cells a frame is cut into (R78). -/

theorem flatMap_slices (b : Bytes) (n : Nat) : ((List.range n).flatMap fun i => slice b (256 * i) 256) = b.take (256 * n) := by
  induction n with
  | zero => simp
  | succ n ih => rw [List.range_succ, List.flatMap_append, ih, Nat.mul_succ, List.take_add]; simp [slice]

theorem cutFrame_data (h : Cell) (b : Bytes) : (cutFrame h b).flatMap (·.data) = b := by
  have hAll : b.length ≤ 256 * ceilDiv b.length 256 := by
    unfold ceilDiv
    omega
  simp only [cutFrame, upTo, List.flatMap_map]
  exact (flatMap_slices b _).trans (List.take_of_length_le hAll)

theorem cutFrame_index (h : Cell) (b : Bytes) : (cutFrame h b).map (·.index) = List.range ((b.length + 255) / 256) := by
  simp [cutFrame, upTo, ceilDiv, Function.comp_def]

theorem cutFrame_last (h : Cell) (b : Bytes) :
    (cutFrame h b).map (·.last) = (List.range ((b.length + 255) / 256)).map (· + 1 == (b.length + 255) / 256) := by
  simp [cutFrame, upTo, ceilDiv, Function.comp_def]

theorem mem_cutFrame {h c : Cell} {b : Bytes} (hc : c ∈ cutFrame h b) :
    ∃ i n, c = { h with index := i, last := i + 1 == n, lenM1 := c.data.length - 1, data := c.data, cells := n, frameLen := b.length } ∧
      c.lenM1 + 1 = c.data.length := by
  obtain ⟨i, hi, rfl⟩ := List.mem_map.mp hc
  refine ⟨i, _, rfl, ?_⟩
  have hlt : 256 * i < b.length := by
    have := List.mem_range.mp hi
    unfold ceilDiv at this
    omega
  have hPos : 0 < (slice b (256 * i) 256).length := by
    simp only [slice, List.length_take, List.length_drop]
    omega
  exact Nat.succ_pred_eq_of_pos hPos

theorem shaperCharge_unsettled (k len : Nat) (s : State) : (shaperCharge k len s).flow.unsettled = s.flow.unsettled := by
  unfold shaperCharge
  split <;> rfl

/-- The cells of a frame admitted to the queue of one candidate. -/
theorem cell_of_stored {s : State} {die port q m : Nat} {b : Bytes} {i : Nat} {cut : Bool} {u : State} {c : Cell}
    (hc : c ∈ cutFrame (storedHead (headTo s die port b i q m) cut u) b) :
    c.destType = 0 ∧ c.dest = q ∧ c.lane = m ∧ c.ingressDie = die ∧ c.frameId = u.switch.frameId.get die ∧ c.bad = false ∧
      c.ingressTime = nowNs s % 2 ^ 32 ∧ c.lenM1 + 1 = c.data.length := by
  obtain ⟨i, n, hEq, hLen⟩ := mem_cutFrame hc
  refine ⟨?_, ?_, ?_, ?_, ?_, ?_, ?_, hLen⟩ <;> (rw [hEq]; rfl)

theorem pool_of_stored {h c : Cell} {b : Bytes} {cut : Bool} {u : State} (hc : c ∈ cutFrame (storedHead h cut u) b) : c.pool ≠ 3 := by
  obtain ⟨i, n, hEq, _⟩ := mem_cutFrame hc
  rw [hEq]
  exact (by decide : (1 : Nat) ≠ 3)

/-- A frame for the one candidate of its bundle, with good checks, on an open lane: its switch after admission. -/
theorem frameIngress_of_candidate {s : State} {port lane o q m : Nat} {b : Bytes} (hLoop : laneLoops s port lane = false)
    (hEpl : (parseFrame b).epl = some o) (hVersion : eplVersion b o = 1) (hOther : eplKind b o ≠ 1 ∨ eplDest b o ≠ cfgDevIndex s)
    (hAction : resAction (s.tables.dit.get (tblKey (portDie port) (eplDest b o))) = 1)
    (hPorts : candidates s (s.tables.bundle.get (tblKey (portDie port)
      (resTarget (s.tables.dit.get (tblKey (portDie port) (eplDest b o)))))).ports = [(q, m)])
    (hOpen : laneClosed s port lane (frameClass b (parseFrame b)) = false) (hGood : fcsGood b = true) (hLen : b.length ≤ 9216) :
    ∃ x r a, (frameIngress port lane b none s).switch =
      (admitFrame (headTo s (portDie port) port b (eplDest b o) q m)
        (qVoq (portDie port) q (frameClass b (parseFrame b)) (subscriber b (parseFrame b))) b
        (cutsThrough s port (frameClass b (parseFrame b)) q) false (entered x r a s)).switch := by
  rw [frameIngress_of_dit hLoop hOpen hEpl hVersion hOther]
  have hCounted : ∃ x, (if ptpSkipped b && cfgTcEnable s port &&
      resAction (s.tables.dit.get (tblKey (portDie port) (eplDest b o))) ≠ 3 then count 8 0xB001 0 1 s else s) = { s with regs := x } := by
    split
    · unfold count
      split <;> exact ⟨_, rfl⟩
    · exact ⟨_, rfl⟩
  obtain ⟨x, hx⟩ := hCounted
  obtain ⟨r, hr⟩ := countArrived_entered port lane b x s
  rw [hx, hr]
  obtain ⟨a, ha⟩ := forward_of_candidate (i := eplDest b o) x r hAction hPorts hGood hLen
  exact ⟨x, r, a, ha⟩

/-! The frame a lane begins next (04 R122, 12 R392): the classes it passes over, and what beginning the frame leaves. -/

/-- A state whose watch on the waiting queues has been brought up to date. -/
def waitNoted (w : Tab (Option Nat)) (v : Tab Bool) (s : State) : State :=
  s.onFlow fun x => { x with waitingAt := w, starvedSent := v }

theorem noteWaiting_noted (p c : Nat) (s : State) : ∃ w v, noteWaiting p c s = waitNoted w v s := by
  unfold noteWaiting
  dsimp only
  split <;> exact ⟨_, _, rfl⟩

theorem foldl_noteWaiting_noted (p : Nat) (l : List Nat) (s : State) :
    ∃ w v, l.foldl (fun s c => noteWaiting p c s) s = waitNoted w v s := by
  induction l generalizing s with
  | nil => exact ⟨_, _, rfl⟩
  | cons c l ih =>
    obtain ⟨w, v, h⟩ := noteWaiting_noted p c s
    obtain ⟨w', v', h'⟩ := ih (noteWaiting p c s)
    refine ⟨w', v', ?_⟩
    rw [List.foldl_cons, h', h]
    rfl

theorem serveHeldAll_of_none {p : Nat} {s : State} (h : ∀ c < 8, s.switch.heldResults.get (pcKey p c) = []) : serveHeldAll p s = s := by
  simp [serveHeldAll, serveHeld, h]

theorem pickTimed_of_none {p lane : Nat} {s : State}
    (h : ∀ c < 8, ∀ g ∈ s.switch.laneq.get (laneqKey p (queueLane p lane) c), g.launch = none) (fuel c : Nat) (hc : c < 8) :
    pickTimed p lane fuel c s = (none, s) := by
  induction fuel generalizing c with
  | zero => rfl
  | succ fuel ih =>
    have hFind : (s.switch.laneq.get (laneqKey p (queueLane p lane) c)).find? (fun f => f.launch.isSome && mayStart s p c f &&
        (isFibre p || memberOf s p f == some lane)) = none :=
      List.find?_eq_none.mpr fun g hg => by simp [h c hc g hg]
    rw [pickTimed]
    dsimp only
    rw [hFind]
    dsimp only
    split
    · rfl
    · exact ih (c - 1) (by omega)

/-- The front of the highest class that holds frames is taken, when it may start. -/
theorem pickFrame_of_front {p lane c : Nat} {f : EFrame} {r : List EFrame} {s : State}
    (hQueue : s.switch.laneq.get (laneqKey p (queueLane p lane) c) = f :: r) (hYoung : tooOld s f.head = false)
    (hGood : f.head.bad = false ∨ f.copy = true) (hStart : mayStart s p c f = true)
    (hMember : isFibre p = true ∨ memberOf s p f = some lane) (n : Nat)
    (hHigher : ∀ d, c < d → d ≤ c + n → s.switch.laneq.get (laneqKey p (queueLane p lane) d) = []) (fuel : Nat) (hFuel : n < fuel) :
    pickFrame p lane fuel (c + n) s =
      (some (c, f), s.onSwitch fun x => { x with laneq := x.laneq.set (laneqKey p (queueLane p lane) c) r }) := by
  induction n generalizing fuel with
  | zero =>
    obtain ⟨fuel, rfl⟩ : ∃ m, fuel = m + 1 := ⟨fuel - 1, by omega⟩
    rw [pickFrame]
    dsimp only
    rw [Nat.add_zero, hQueue]
    dsimp only
    rw [if_neg (by simp [hYoung]), if_neg (by obtain h | h := hGood <;> simp [h]), if_pos (by obtain h | h := hMember <;> simp [hStart, h])]
  | succ n ih =>
    obtain ⟨fuel, rfl⟩ : ∃ m, fuel = m + 1 := ⟨fuel - 1, by omega⟩
    rw [pickFrame]
    dsimp only
    rw [hHigher (c + (n + 1)) (by omega) (Nat.le_refl _)]
    dsimp only
    rw [if_neg (by omega)]
    exact ih (fun d hd hn => hHigher d hd (by omega)) fuel (by omega)

/-- The units that a frame's start spends on a fibre lane of a lossless class. -/
theorem beginFrame_of_untimed {p lane c : Nat} {f : EFrame} (h : f.launch = none) (s : State) :
    (beginFrame p lane c f s).switch = { s.switch with
      sending := s.switch.sending.set (laneKey p lane) (some ⟨{ f with head := { f.head with
        stamp := some (stampOf s (portDie p)), stepSum := s.time.stepSum } }, f.got.any (·.bad)⟩) } ∧
    (beginFrame p lane c f s).flow.consumed = (if isFibre p = true ∧ portLossless s p c = true then
      s.flow.consumed.modify (pcKey p c) (· + BitVec.ofNat 32 (unitsOf f)) else s.flow.consumed) ∧
    (beginFrame p lane c f s).flow.sent = (if isFibre p = true ∧ portLossless s p c = true then
      s.flow.sent.modify (laneqKey p lane c) (· + BitVec.ofNat 32 (unitsOf f)) else s.flow.sent) ∧
    (beginFrame p lane c f s).hide 96 = s.hide 96 := by
  unfold beginFrame
  simp only [h, Bool.false_and, Bool.false_eq_true, if_false, Bool.and_eq_true]
  split
  · next hCredit =>
    obtain ⟨w, v, hNoted⟩ := noteWaiting_noted p c (s.onFlow fun x => { x with
      consumed := x.consumed.modify (pcKey p c) (· + BitVec.ofNat 32 (unitsOf f))
      sent := x.sent.modify (laneqKey p lane c) (· + BitVec.ofNat 32 (unitsOf f)) })
    rw [hNoted]
    exact ⟨rfl, rfl, rfl, by simp [waitNoted]⟩
  · obtain ⟨w, v, hNoted⟩ := noteWaiting_noted p c s
    rw [hNoted]
    exact ⟨rfl, rfl, rfl, by simp [waitNoted]⟩

/-- Settles O36: each clause from the equation of its command under the clause's guards. -/
theorem framesOnLanes : Obligations.FramesOnLanes := by
  unfold Obligations.FramesOnLanes
  refine ⟨?_, ?_, ?_, ?_, ?_, ?_, ?_, ?_, ?_, ?_, ?_, ?_⟩
  · -- `frameIngress`
    intro s p l b hUp hIsUp hLoop hFibre hEpl hLossy
    refine congrArg Host.Outcome.next ((if_pos (by simp [hUp, hIsUp])).trans ?_)
    have hVerdict : verdict (portDie p.val) p.val b (parseFrame b) s = (.drop 0x1000 false, s) := by
      unfold verdict
      rw [hEpl]
      exact if_pos (by simp [isFibre, hFibre])
    unfold frameIngress
    dsimp only
    rw [if_neg (by simp [hLoop]), if_neg (by simp [laneClosed_of_lossy hLossy]), hVerdict]
    have hLossy' : portLossless (count (portDie p.val) 0x1000 0 1 s) p.val (frameClass b (parseFrame b)) = false := by
      rwa [portLossless, count_flow]
    simp [learnFrom, unitsArrived, unitsFreed, hLossy, hLossy']
  · -- `frameIngress`
    intro s p l b o hUp hIsUp hLoop hFibre hEpl hVersion hOther hAction hLossless hClosed hGood hLen hPtp
    have hDrop : resAction (s.tables.dit.get (tblKey (portDie p.val) (eplDest b o))) = 0 := hAction
    have hOpen : laneClosed s p.val l.val (frameClass b (parseFrame b)) = false := by simp [laneClosed, hClosed]
    have hUnits : ceilDiv b.length 256 = (b.length + 255) / 256 := rfl
    have hPlain : ¬ (ptpSkipped b && cfgTcEnable s p.val &&
        decide (resAction (s.tables.dit.get (tblKey (portDie p.val) (eplDest b o))) ≠ 3)) = true := by
      obtain h | h := hPtp <;> simp [h]
    have hArrived : countArrived p.val l.val b s = s.onFlow fun x => { x with
        rcvd := x.rcvd.modify (laneqKey p.val l.val (frameClass b (parseFrame b))) (· + BitVec.ofNat 32 ((b.length + 255) / 256)) } := by
      simp [countArrived, unitsArrived, hGood, hLen, isFibre, hFibre, hLossless, hUnits]
    have hIngress := frameIngress_of_dit hLoop hOpen hEpl hVersion hOther
    rw [if_neg hPlain, hArrived] at hIngress
    have hForward : ∀ u : State, isFibre p.val = true → u.flow.lossless = s.flow.lossless → forward (portDie p.val) p.val b (parseFrame b)
        (s.tables.dit.get (tblKey (portDie p.val) (eplDest b o))) none false (some (eplDest b o)) u =
        (count (portDie p.val) 0x1008 0 1 u).onFlow fun x => { x with
          freed := x.freed.modify (pcKey p.val (frameClass b (parseFrame b))) (· + BitVec.ofNat 32 ((b.length + 255) / 256)) } := by
      intro u hF hSame
      have hLoss : portLossless (count (portDie p.val) 0x1008 0 1 u) p.val (frameClass b (parseFrame b)) = true := by
        rwa [portLossless, count_flow, hSame]
      unfold forward
      simp only [hDrop, hGood, hLen, decide_true, Bool.and_true, if_true, unitsFreed, ingressHead, hF, hLoss]
      rfl
    have hResult := hIngress.trans (hForward _ (by simp [isFibre, hFibre]) rfl)
    refine ⟨_, congrArg Host.Outcome.next ((if_pos (by simp [hUp, hIsUp])).trans hResult), by simp, ?_, ?_⟩
    · exact count_regs_congr rfl rfl
    · refine onlyChanges_of_hide rfl ?_
      simp only [maskOf, partBit, List.foldl]
      simp
  · -- `frameIngress`
    intro s p l b o hUp hIsUp hLoop hEpl hVersion hKind hDest hIndex hLossy hGood hLen
    refine congrArg Host.Outcome.next ((if_pos (by simp [hUp, hIsUp])).trans ?_)
    have hVerdict : verdict (portDie p.val) p.val b (parseFrame b) s = (.contribution, s) := by
      unfold verdict
      rw [hEpl]
      simp [hVersion, hKind, hDest, hIndex]
    unfold frameIngress
    dsimp only
    rw [if_neg (by simp [hLoop]), if_neg (by simp [laneClosed_of_lossy hLossy]), hVerdict]
    simp [hGood, hLen, unitsArrived, hLossy, State.onColl]
  · -- `frameIngress`
    intro s p l b o hUp hIsUp hLoop hEpl hVersion hOther hAction hLossy hGood hLen
    have hKeeper : resAction (s.tables.dit.get (tblKey (portDie p.val) (eplDest b o))) = 3 := hAction
    refine congrArg Host.Outcome.next ((if_pos (by simp [hUp, hIsUp])).trans ?_)
    rw [frameIngress_of_dit hLoop (laneClosed_of_lossy hLossy) hEpl hVersion hOther, if_neg (by simp [hKeeper]), countArrived_of_lossy hLossy]
    unfold forward
    simp only [hKeeper, hGood]
    simp [hLen, ingressHead]
    exact unitsFreed_of_lossy hLossy
  · -- `frameIngress`
    intro s p l b o q m hUp hIsUp hLoop hEpl hVersion hOther hAction hPorts hOpen hGood hLen hWhole hLossy hShallow hRoom hShare hWf
    obtain ⟨x, r, a, hSwitch⟩ := frameIngress_of_candidate hLoop hEpl hVersion hOther hAction hPorts hOpen hGood hLen
    rw [hWhole] at hSwitch
    have hVoq := qCells_voq (s := s) (q := qVoq (portDie p.val) q (frameClass b (parseFrame b)) (subscriber b (parseFrame b)))
      (Nat.mul_mod_right ..)
    have hKey : qVoq (portDie p.val) q (frameClass b (parseFrame b)) (subscriber b (parseFrame b)) / 4 =
      voqKey (portDie p.val) q (frameClass b (parseFrame b)) (subscriber b (parseFrame b)) := Nat.mul_div_cancel_left _ (by decide)
    rw [hKey] at hVoq
    rw [← hVoq] at hShare
    have hPool : admission (entered x r a s) (headTo s (portDie p.val) p.val b (eplDest b o) q m).ingressDie
        (headTo s (portDie p.val) p.val b (eplDest b o) q m).port (headTo s (portDie p.val) p.val b (eplDest b o) q m).cls
        (qVoq (portDie p.val) q (frameClass b (parseFrame b)) (subscriber b (parseFrame b))) (ceilDiv b.length 256)
        (qVoq (portDie p.val) q (frameClass b (parseFrame b)) (subscriber b (parseFrame b)) % 4 == 0) = some 1 :=
      admission_of_room hLossy hShallow hRoom hShare
    have hSame := sameQueues_frameCharged
      (headTo s (portDie p.val) p.val b (eplDest b o) q m) false
      (ceilDiv b.length 256) (entered x r a s)
    obtain ⟨hHere, hElse⟩ := foldl_enqueueCell (q := qVoq (portDie p.val) q (frameClass b (parseFrame b)) (subscriber b (parseFrame b)))
      (Nat.mul_mod_right 4 _) (cutFrame (storedHead (headTo s (portDie p.val) p.val b (eplDest b o) q m) false (entered x r a s)) b)
      (fun _ => pool_of_stored) _ ((congrArg Tab.wf hSame.voq).trans hWf)
    rw [hSame.voq] at hHere hElse
    rw [admitFrame_whole hPool] at hSwitch
    refine ⟨_, congrArg Host.Outcome.next (if_pos (by simp [hUp, hIsUp])), ?_⟩
    rw [hKey, ← hSwitch] at hHere
    have hOthers : ∀ j, j ≠ voqKey (portDie p.val) q (frameClass b (parseFrame b)) (subscriber b (parseFrame b)) →
        (frameIngress p.val l.val b none s).switch.voq.get j = s.switch.voq.get j := by
      intro j hj
      rw [hSwitch]
      exact hElse j (hKey ▸ hj)
    have hOld : (entered x r a s).switch.voq = s.switch.voq := rfl
    rw [hOld] at hHere
    dsimp only
    rw [hHere, List.take_left, List.drop_left]
    exact ⟨rfl, cutFrame_data .., cutFrame_index .., cutFrame_last .., fun c hc => cell_of_stored hc, hOthers⟩
  · -- `frameIngress`
    intro s p l b o q m hUp hIsUp hLoop hEpl hVersion hOther hAction hPorts hOpen hGood hLen hCut hLossy hShallow hRoom hShare hWf
    obtain ⟨x, r, a, hSwitch⟩ := frameIngress_of_candidate hLoop hEpl hVersion hOther hAction hPorts hOpen hGood hLen
    rw [hCut] at hSwitch
    have hVoq := qCells_voq (s := s) (q := qVoq (portDie p.val) q (frameClass b (parseFrame b)) (subscriber b (parseFrame b)))
      (Nat.mul_mod_right ..)
    have hKey : qVoq (portDie p.val) q (frameClass b (parseFrame b)) (subscriber b (parseFrame b)) / 4 =
      voqKey (portDie p.val) q (frameClass b (parseFrame b)) (subscriber b (parseFrame b)) := Nat.mul_div_cancel_left _ (by decide)
    rw [hKey] at hVoq
    rw [← hVoq] at hShare
    have hPool : admission (entered x r a s) (headTo s (portDie p.val) p.val b (eplDest b o) q m).ingressDie
        (headTo s (portDie p.val) p.val b (eplDest b o) q m).port (headTo s (portDie p.val) p.val b (eplDest b o) q m).cls
        (qVoq (portDie p.val) q (frameClass b (parseFrame b)) (subscriber b (parseFrame b))) 36
        (qVoq (portDie p.val) q (frameClass b (parseFrame b)) (subscriber b (parseFrame b)) % 4 == 0) = some 1 :=
      admission_of_room hLossy hShallow hRoom hShare
    rw [admitFrame_cut hPool] at hSwitch
    have hSame := sameQueues_frameCharged
      (headTo s (portDie p.val) p.val b (eplDest b o) q m) true 36 (entered x r a s)
    have hStored : (frameIngress p.val l.val b none s).switch.ingress.get (frameKey (portDie p.val) (s.switch.frameId.get (portDie p.val))) =
        some ⟨cutFrame (storedHead (headTo s (portDie p.val) p.val b (eplDest b o) q m) true (entered x r a s)) b,
          qVoq (portDie p.val) q (frameClass b (parseFrame b)) (subscriber b (parseFrame b)), false⟩ := by
      rw [hSwitch, State.onSwitch_switch]
      dsimp only
      rw [hSame.ingress]
      exact (Tab.get_set (t := s.switch.ingress) hWf ..).trans (if_pos rfl)
    refine ⟨_, congrArg Host.Outcome.next (if_pos (by simp [hUp, hIsUp])), ?_⟩
    dsimp only
    rw [hStored]
    refine ⟨cutFrame_data .., cutFrame_index .., cutFrame_last .., fun c hc => cell_of_stored hc, ?_, ?_⟩
    · rw [hSwitch, State.onSwitch_switch]
      exact hSame.voq
    · rw [hSwitch, State.onSwitch_switch]
      exact frameCharged_shared ..
  · -- `frameIngress`
    intro s p l b u hUp hIsUp hLoop
    refine congrArg Host.Outcome.next ((if_pos (by simp [hUp, hIsUp])).trans ?_)
    exact if_pos hLoop
  · -- `laneFrameStart`
    intro s p l c f r hLit hUsable hSending hHeld hHigher hQueue hYoung hGood hStart hMember hLaunch
    have hc := c.isLt
    have hPick : ∀ n, pickFrame p.val l.val (n + 8) 7 s = (some (c.val, f), s.onSwitch fun x => { x with
        laneq := x.laneq.set (laneqKey p.val (queueLane p.val l.val) c.val) r }) := by
      intro n
      have hFront := pickFrame_of_front hQueue hYoung hGood hStart hMember (7 - c.val)
        (fun d hd hn => hHigher ⟨d, by omega⟩ hd) (n + 8) (by omega)
      rwa [Nat.add_sub_cancel' (by omega)] at hFront
    have hNext : laneFrameStart p.val l.val s = beginFrame p.val l.val c.val f ((upTo 8).foldl (fun s c => noteWaiting p.val c s)
        (s.onSwitch fun x => { x with laneq := x.laneq.set (laneqKey p.val (queueLane p.val l.val) c.val) r })) := by
      unfold laneFrameStart
      dsimp only
      rw [if_neg (by rw [hUsable]; simp [hLit, hSending]), serveHeldAll_of_none (fun d hd => hHeld ⟨d, hd⟩), nextFrame]
      dsimp only
      rw [pickTimed_of_none (fun d hd => hLaunch ⟨d, hd⟩) _ 7 (by decide)]
      dsimp only
      rw [if_neg (by decide), hPick]
    have hNone : f.launch = none := hLaunch c f (by rw [hQueue]; exact List.mem_cons_self)
    obtain ⟨w, v, hNoted⟩ := foldl_noteWaiting_noted p.val (upTo 8)
      (s.onSwitch fun x => { x with laneq := x.laneq.set (laneqKey p.val (queueLane p.val l.val) c.val) r })
    rw [hNoted] at hNext
    obtain ⟨hSwitch, hConsumed, hSent, hHide⟩ := beginFrame_of_untimed (p := p.val) (lane := l.val) (c := c.val) hNone (waitNoted w v
      (s.onSwitch fun x => { x with laneq := x.laneq.set (laneqKey p.val (queueLane p.val l.val) c.val) r }))
    refine ⟨_, congrArg Host.Outcome.next hNext, hSwitch, hConsumed, hSent, ?_⟩
    refine onlyChanges_of_hide rfl ?_
    simp only [maskOf, partBit, List.foldl]
    exact hHide.trans (by simp [waitNoted])
  · -- `egressUnderrun`
    intro s p l d hClocks hSending hPart hStomp
    refine congrArg Host.Outcome.next ?_
    rw [hSending]
    exact if_neg (by simp [hClocks, hPart, hStomp])
  · -- `frameLeavesPort`
    intro s p l d hLit hSending hDone hGood hOriginal hLaunch hEmit hUp
    have hLeave : ¬ (!portLit s p.val || !(complete d.frame || d.stomp)) = true := by
      obtain h | h := hDone <;> simp [hLit, h]
    have hBad : ¬ (d.frame.got.any (·.bad)) = true := by simp [hGood]
    have hKept : ¬ (d.frame.copy || d.frame.launch.isSome) = true := by simp [hOriginal, hLaunch]
    have hFrame : frameLeaves p.val l.val s = settle p.val d.frame.head.cls d.frame.head.ingressDie d.frame.head.cells
        (shaperCharge (classShaper p.val d.frame.head.cls) d.frame.head.frameLen (releaseEgress p.val d.frame
          ((emitOut (.frame p.val l.val (if d.stomp then stompFrame (frameBytes d.frame) else departing d.frame) d.stomp) s).onSwitch fun x =>
            { x with sending := x.sending.set (laneKey p.val l.val) none }))) := by
      unfold frameLeaves
      rw [hSending]
      dsimp only
      rw [if_neg hLeave, if_neg hBad, if_neg hKept, hEmit]
      rfl
    have hSettle : ∀ u : State, u.start = s.start → settle p.val d.frame.head.cls d.frame.head.ingressDie d.frame.head.cells u =
        u.onFlow fun x => { x with
          unsettled := x.unsettled.modify (settleKey p.val d.frame.head.cls d.frame.head.ingressDie) (· - d.frame.head.cells) } := by
      intro u hu
      refine if_pos ?_
      rw [dieUp, hu]
      exact hUp
    rw [hSettle _ (State.start_of_hide (by simp))] at hFrame
    refine ⟨_, congrArg Host.Outcome.next hFrame, ?_, ?_, ?_, ?_⟩
    · have hOut : ∀ (k n : Nat) (u : State), (shaperCharge k n u).out = u.out := fun _ _ _ => State.out_of_hide (by simp)
      exact (hOut ..).trans rfl
    · rw [State.onFlow_switch, shaperCharge_switch]
      rfl
    · rw [State.onFlow_flow, shaperCharge_unsettled]
      rfl
    · refine onlyChanges_of_hide rfl ?_
      simp only [maskOf, partBit, List.foldl]
      simp
  · -- `frameAddressedToKeeper`
    intro s d p f r hUp hKeeper hIn hFibre hKind
    refine congrArg Host.Outcome.next ?_
    rw [hIn]
    refine (if_neg (by simp [hKeeper, hUp])).trans ?_
    dsimp only
    cases hEpl : (parseFrame f).epl with
    | none => exact if_pos (by simp [isFibre, hFibre])
    | some o =>
      dsimp only
      rw [if_neg (by simpa [hEpl] using hKind)]
      exact if_pos (by simp [isFibre, hFibre])
  · -- `frameAddressedToKeeper`
    intro s d p f a m r hUp hKeeper hIn hElectrical hEpl hAnswer hMember
    refine congrArg Host.Outcome.next ?_
    rw [hIn]
    refine (if_neg (by simp [hKeeper, hUp])).trans ?_
    dsimp only
    rw [hEpl]
    refine (if_neg (by simp [isFibre, hElectrical])).trans ?_
    have hAnswer' : keeperAnswer (s.onSwitch fun x => { x with keeperIn := x.keeperIn.set d.val r }) (p - 256) f = some a := hAnswer
    have hMembers : membersUp (s.onSwitch fun x => { x with keeperIn := x.keeperIn.set d.val r }) p = membersUp s p := rfl
    rw [hAnswer', hMembers]
    cases hUps : membersUp s p with
    | nil => simp [hUps] at hMember
    | cons x l =>
      rw [hUps, List.length_cons] at hMember
      simp only [List.getD_eq_getElem?_getD, hMember]
      rfl

end Sys2Proof.Machine
end

section
/-! Groups prepared, committed, deleted; the quarantine ends; lag records cleared. -/

namespace Sys2Proof.Machine

/-! What the commands of a group leave of the groups' own records (05 R146 to R152). -/

/-- The quarantine, the generations last used and the lags of every group are as they were. -/
structure SameRecords (s t : State) : Prop where
  quarantine : t.coll.quarantine = s.coll.quarantine
  lastGen : t.coll.lastGen = s.coll.lastGen
  lags : t.coll.lags = s.coll.lags

theorem SameRecords.refl (s : State) : SameRecords s s := ⟨rfl, rfl, rfl⟩

theorem SameRecords.trans {s t u : State} (h : SameRecords s t) (g : SameRecords t u) : SameRecords s u :=
  ⟨g.quarantine.trans h.quarantine, g.lastGen.trans h.lastGen, g.lags.trans h.lags⟩

theorem SameRecords.of_hide {s t : State} (h : t.hide 2097023 = s.hide 2097023) : SameRecords s t := by
  have hColl := State.coll_of_hide h
  exact ⟨congrArg Coll.quarantine hColl, congrArg Coll.lastGen hColl, congrArg Coll.lags hColl⟩

theorem sameRecords_foldl {α : Type} {f : State → α → State} (h : ∀ s a, SameRecords s (f s a)) (l : List α) (s : State) :
    SameRecords s (l.foldl f s) := by
  induction l generalizing s with
  | nil => exact .refl s
  | cons a l ih => exact (h s a).trans (ih _)

theorem SameRecords.onColl {s t : State} {f : Coll → Coll} (h : SameRecords s t)
    (hf : ∀ x, (f x).quarantine = x.quarantine ∧ (f x).lastGen = x.lastGen ∧ (f x).lags = x.lags) : SameRecords s (t.onColl f) := by
  obtain ⟨hQuarantine, hLastGen, hLags⟩ := hf t.coll
  exact h.trans ⟨hQuarantine, hLastGen, hLags⟩

theorem sameRecords_freeCtx (k : Nat) (s : State) : SameRecords s (freeCtx k s) := ⟨rfl, rfl, rfl⟩

theorem sameRecords_dropLocks (k : Nat) (s : State) : SameRecords s (dropLocks k s) := ⟨rfl, rfl, rfl⟩

theorem sameRecords_chunkEnds (g : Group) (die inst chunk : Nat) (b : Bool) (s : State) : SameRecords s (chunkEnds g die inst chunk b s) :=
  ⟨rfl, rfl, rfl⟩

theorem sameRecords_evict (die n fuel : Nat) (s : State) : SameRecords s (evict die n fuel s) := by
  induction fuel generalizing s with
  | zero => exact .refl s
  | succ fuel ih =>
    unfold evict
    split
    · exact .refl s
    · split
      · exact .refl s
      · refine SameRecords.trans ?_ (ih _)
        refine SameRecords.trans ?_ (.of_hide (count_frame (by decide) ..))
        exact (SameRecords.refl s).onColl fun _ => ⟨rfl, rfl, rfl⟩

theorem sameRecords_retain (die : Nat) (r : Retained) (s : State) : SameRecords s (retain die r s) := by
  unfold retain
  refine SameRecords.onColl ?_ fun _ => ⟨rfl, rfl, rfl⟩
  refine SameRecords.trans ?_ (sameRecords_evict ..)
  exact (SameRecords.refl s).onColl fun _ => ⟨rfl, rfl, rfl⟩

theorem sameRecords_endContext (k code : Nat) (members : List Nat) (s : State) : SameRecords s (endContext k code members s) := by
  unfold endContext
  extract_lets c die
  split
  · exact sameRecords_freeCtx k s
  · extract_lets dests t cls parts s1
    refine SameRecords.trans ?_ (sameRecords_chunkEnds _ _ _ _ _ _)
    refine SameRecords.trans ?_ (sameRecords_freeCtx _ _)
    unfold s1
    split
    · exact .refl s
    · exact SameRecords.trans (.of_hide (sendParts_frame (by decide) ..)) (sameRecords_retain _ _ _)

theorem sameRecords_blockCommit (k : Nat) (s : State) : SameRecords s (blockCommit k s) := by
  unfold blockCommit
  split
  · exact .refl s
  · refine SameRecords.trans (t := onCtx k (fun c => { c with commitDue := false }) s) ⟨rfl, rfl, rfl⟩ (sameRecords_foldl ?_ _ _)
    exact fun _ _ => .of_hide (commitBlock_frame (by decide) ..)

theorem sameRecords_releaseOn (g : Group) (s : State) (d : Nat) : SameRecords s (releaseOn g s d) := by
  unfold releaseOn
  split <;> exact ⟨rfl, rfl, rfl⟩

theorem sameRecords_deleteOn (g : Group) (s : State) (d : Nat) : SameRecords s (deleteOn g s d) := by
  unfold deleteOn
  dsimp only
  refine SameRecords.onColl ?_ fun _ => ⟨rfl, rfl, rfl⟩
  refine SameRecords.trans ?_ (sameRecords_releaseOn _ _ _)
  refine SameRecords.trans ?_ (.of_hide (dropTokens_frame (by decide) _ _ _))
  refine SameRecords.trans (sameRecords_foldl (fun _ _ => sameRecords_endContext ..) _ _) (sameRecords_foldl ?_ _ _)
  intro u k
  refine SameRecords.trans ?_ (sameRecords_dropLocks _ _)
  split
  · exact sameRecords_blockCommit ..
  · exact .refl u

/-- The fold over a group's dies keeps the groups and the groups prepared, when each die's step does. -/
theorem foldl_keeps_groups {f : State → Nat → State}
    (h : ∀ s d, (f s d).coll.groups = s.coll.groups ∧ (f s d).coll.prepared = s.coll.prepared) (l : List Nat) (s : State) :
    (l.foldl f s).coll.groups = s.coll.groups ∧ (l.foldl f s).coll.prepared = s.coll.prepared := by
  induction l generalizing s with
  | nil => exact ⟨rfl, rfl⟩
  | cons d l ih => exact ⟨(ih _).1.trans (h s d).1, (ih _).2.trans (h s d).2⟩

theorem reserveOn_keeps_groups (g : Group) (s : State) (d : Nat) :
    (reserveOn g s d).coll.groups = s.coll.groups ∧ (reserveOn g s d).coll.prepared = s.coll.prepared := by
  unfold reserveOn
  split <;> exact ⟨rfl, rfl⟩

theorem releaseOn_keeps_groups (g : Group) (s : State) (d : Nat) :
    (releaseOn g s d).coll.groups = s.coll.groups ∧ (releaseOn g s d).coll.prepared = s.coll.prepared := by
  unfold releaseOn
  split <;> exact ⟨rfl, rfl⟩

/-- Settles O37: each clause from the equation of its command under the clause's guards. -/
theorem groupLife : Obligations.GroupLife := by
  unfold Obligations.GroupLife
  refine ⟨?_, ?_, ?_, ?_, ?_, ?_⟩
  · -- `groupCreate`
    rintro s r b ⟨hKeeper, hCheck⟩ hMoor
    have hFold := foldl_keeps_groups (reserveOn_keeps_groups (groupFor s b)) (diesUp s) s
    have hGuard := guardWrite_of_done (k := fun s => let (st, s) := groupPrepare b s; answer st s) hKeeper hCheck
    refine ⟨_, congrArg Host.Outcome.next hGuard, ?_⟩
    have hMem : ((diesUp s).foldl (reserveOn (groupFor s b)) s).mem = s.mem := State.mem_of_hide (by simp [State.hide_foldl])
    have hSwitch : ((diesUp s).foldl (reserveOn (groupFor s b)) s).switch = s.switch := State.switch_of_hide (by simp [State.hide_foldl])
    simp [groupPrepare, hMoor, hMem, hSwitch, hFold]
  · -- `groupCommit`
    intro s id g l hClocks hKeeperLost hPrepared hMarked
    refine ⟨_, rfl, ?_⟩
    simp [groupCommit, hClocks, hKeeperLost, hPrepared, hMarked]
    rfl
  · -- `groupCommit`
    intro s id g l hClocks hPrepared hMarked
    have hFold := foldl_keeps_groups (releaseOn_keeps_groups g) (diesUp s)
    refine ⟨_, congrArg Host.Outcome.next (if_pos (by simp [hClocks, hPrepared])), ?_⟩
    simp [groupCommit, hPrepared, hMarked, hFold]
  · -- `groupDelete`
    rintro s r id g ⟨hKeeper, hCheck⟩ hGroup
    have hGuard := guardWrite_of_done (k := fun s => let (st, s) := groupDelete id s; answer st s) hKeeper hCheck
    refine ⟨_, congrArg Host.Outcome.next hGuard, ?_⟩
    obtain ⟨hQuarantine, hLastGen, hLags⟩ := sameRecords_foldl (sameRecords_deleteOn g) (diesUp s) s
    have hTime : ((diesUp s).foldl (deleteOn g) s).time = s.time := State.time_of_hide (by simp [State.hide_foldl])
    simp [groupDelete, hGroup, hQuarantine, hLastGen, hLags, nowNs, hTime]
  · -- `quarantineEnd`
    intro s id hClocks hOver
    exact congrArg Host.Outcome.next (if_pos (by simp [hClocks, hOver]))
  · -- `lagClear`
    rintro s r v ⟨hKeeper, hCheck⟩
    refine congrArg Host.Outcome.next ?_
    simp [lagClearWrite, guardWrite_of_done hKeeper hCheck, State.onColl]

end Sys2Proof.Machine
end

section
/-! Contributions at their ingress and home dies, poison notices, timeouts, results retained, locks. -/

namespace Sys2Proof.Machine

/-- A contribution whose context exists does not wait for memory (05 R171). -/
theorem waitsForSram_of_ctx {s : State} {die : Nat} {c : Contribution} {g : Group} {k : Nat}
    (hGroup : groupOf s die (cGroup c.bytes (eplAt c.bytes)) = some g)
    (hCtx : ctxOf s die (gId g.record) (cInst c.bytes (eplAt c.bytes)) (cChunk c.bytes (eplAt c.bytes)) = some k) :
    waitsForSram s die c = false := by
  simp [waitsForSram, needsCtx, hGroup, hCtx]

/-- A contribution to a chunk that is collecting is accepted into its context. -/
theorem acceptHome_of_collecting {die : Nat} {g : Group} {f : Bytes} {o time t k : Nat} {s : State} (hOffends : offends g f o = false)
    (hEnded : cChunk f o ∉ (s.coll.slots.get (slotOfCtx g die (cInst f o))).ended)
    (hCtx : ctxOf s die (gId g.record) (cInst f o) (cChunk f o) = some k) (hState : (s.coll.ctx.get k).state = .collecting)
    (hNew : cContributor f o ∉ (s.coll.ctx.get k).arrived) (hOp : gOp g.record ≠ 0xF) :
    acceptHome die g f o time t s = acceptInto k g f o t s := by
  have hTake : takeCtx die g (cInst f o) (cChunk f o) s = some (k, s) := by
    unfold takeCtx
    dsimp only
    rw [hCtx]
  unfold acceptHome
  dsimp only
  rw [if_neg (by simp [hOffends]), if_neg (by simpa using hEnded), hTake]
  dsimp only
  rw [if_neg (by simp [hState, hNew]), if_neg hOp]

/-- Settles O38: each clause from the equation of its command under the clause's guards. -/
theorem collectiveInstances : Obligations.CollectiveInstances := by
  unfold Obligations.CollectiveInstances
  refine ⟨?_, ?_, ?_, ?_, ?_, ?_, ?_, ?_⟩
  · -- `contributionIngress`
    intro s d c l g home hUp hClocks hWaiting hBody hGroup hGen hLength hPass hHome hHomeUp
    refine congrArg Host.Outcome.next ((if_pos (by simp [hUp, hClocks])).trans ?_)
    have hGroup' : groupOf (s.onColl fun x => { x with atIngress := x.atIngress.set d.val l }) d.val (cGroup c.bytes (eplAt c.bytes)) = some g := hGroup
    have hHome' : homeOf (s.onColl fun x => { x with atIngress := x.atIngress.set d.val l }) g (cChunk c.bytes (eplAt c.bytes)) = home := hHome.symm
    have hUp' : dieUp (s.onColl fun x => { x with atIngress := x.atIngress.set d.val l }) home = true := hHomeUp
    unfold contributionIngress
    rw [hWaiting]
    dsimp only
    rw [if_neg (by simp [hBody]), hGroup']
    dsimp only
    rw [if_neg (not_not_intro hGen), if_neg (by simp [hLength]), if_neg (by simp [hPass]), hHome', if_neg (by simp [hUp'])]
    rfl
  · -- `contributionHome`
    intro s d c l g k hUp hClocks hWaiting hGroup hGen hMember hFailed hOffends hInst hOpen hTime hEnded hCtx hState hNew hOp
    refine congrArg Host.Outcome.next ((if_pos (by simp [hUp, hClocks])).trans ?_)
    have hFirst : nextHome s d.val [] (s.coll.atHome.get d.val) = some (c, l) := by
      simp [hWaiting, nextHome, waitsForSram_of_ctx hGroup hCtx]
    have hGroup' : groupOf (s.onColl fun x => { x with atHome := x.atHome.set d.val l }) d.val (cGroup c.bytes (eplAt c.bytes)) = some g := hGroup
    have hFailed' : (s.onColl fun x => { x with atHome := x.atHome.set d.val l }).fabric.failed.get (imgKey d.val g.image) = false := hFailed
    have hLate : timedOut g (s.coll.slots.get (slotOfCtx g d.val (cInst c.bytes (eplAt c.bytes)))) (extendTime s c.time) = false := by
      simpa [timedOut, hOpen] using hTime
    have hHere : ((s.coll.slots.get (slotOfCtx g d.val (cInst c.bytes (eplAt c.bytes)))).inst.toNat = cInst c.bytes (eplAt c.bytes) &&
        (s.coll.slots.get (slotOfCtx g d.val (cInst c.bytes (eplAt c.bytes)))).isOpen) = true := by
      simpa [hOpen] using hInst
    unfold contributionHome
    rw [hFirst]
    dsimp only
    rw [hGroup']
    dsimp only
    rw [if_neg (not_not_intro hGen), if_neg hMember.not_ge, hFailed', Bool.and_false, if_neg Bool.false_ne_true]
    refine (congrArg _ (if_neg (Bool.eq_false_iff.mp hLate))).trans ?_
    unfold atSlot
    exact (if_pos hHere).trans (acceptHome_of_collecting hOffends hEnded hCtx hState hNew hOp)
  · -- `poisonNoticeReceive`
    intro s d id gen inst l g hUp hClocks hNotices hGroup hGen hInst hOpen
    refine congrArg Host.Outcome.next ((if_pos (by simp [hUp, hClocks])).trans ?_)
    have hGroup' : groupOf (s.onColl fun x => { x with poisonNotices := x.poisonNotices.set d.val l }) d.val id = some g := hGroup
    unfold poisonNotice
    rw [hNotices]
    dsimp only
    rw [hGroup']
    dsimp only
    rw [if_neg (not_not_intro hGen)]
    refine (if_neg ?_).trans (if_pos ?_)
    · obtain h | h := hOpen <;> simp [h]
    · simp [hInst]
  · -- `poisonNoticeReceive`
    intro s d id gen inst l g hUp hClocks hNotices hGroup hGen hInst hOpen hCode
    refine congrArg Host.Outcome.next ((if_pos (by simp [hUp, hClocks])).trans ?_)
    have hGroup' : groupOf (s.onColl fun x => { x with poisonNotices := x.poisonNotices.set d.val l }) d.val id = some g := hGroup
    unfold poisonNotice
    rw [hNotices]
    dsimp only
    rw [hGroup']
    dsimp only
    rw [if_neg (not_not_intro hGen)]
    refine (if_pos ?_).trans rfl
    simp [hInst, hOpen, hCode]
  · -- `instanceTimeout`
    intro s d id inst g hUp hClocks hNone hGroup hInst hOpen hTime
    refine congrArg Host.Outcome.next ((if_pos (by simp [hUp, hClocks])).trans ?_)
    unfold instanceTimeout
    rw [hNone, List.foldl_nil]
    dsimp only
    rw [hGroup]
    exact if_pos (by simp [timedOut, hInst, hOpen, hTime])
  · -- `resultSendComplete`
    intro s d c g r hUp hClocks hState hGone hDue hReady hGroup hSent hDests
    have hSend : sendComplete (ctxKey d.val c.val) s = chunkEnds g d.val (s.coll.ctx.get (ctxKey d.val c.val)).inst.toNat
        (s.coll.ctx.get (ctxKey d.val c.val)).chunk true
        (freeCtx (ctxKey d.val c.val) (retain d.val { r with time := nowNs s % 2 ^ 32 } s)) := by
      have hDie : ctxDie (ctxKey d.val c.val) = d.val := by
        unfold ctxDie ctxKey
        rw [if_pos (by omega)]
        omega
      unfold sendComplete
      dsimp only
      rw [if_neg (by simp [hReady]), hGroup, hSent, hDie]
      dsimp only
      rw [if_neg (by simpa using hDests)]
    refine congrArg Host.Outcome.next ((if_neg (by simp [hUp, hClocks])).trans ?_)
    dsimp only
    rw [if_pos (by simp [hState, hGone, hDue]), hSend]
  · -- `retentionExpire`
    intro s d hUp hClocks
    refine congrArg Host.Outcome.next ?_
    simp [retainedOut, hUp, hClocks, State.onColl]
  · -- `residualLockGrant`
    intro s d id chunk k hUp hClocks hHolder hWaiter
    refine congrArg Host.Outcome.next ?_
    dsimp only
    rw [hHolder, hWaiter]
    exact if_pos (by simp [hUp, hClocks])

end Sys2Proof.Machine
end

section
/-! A cell fires, a token crosses its links, and the edge units take and give tokens. -/

namespace Sys2Proof.Machine

/-- An edge unit that gives its next token touches neither its decoder's state nor the tokens that wait for it (07 R235). -/
theorem unitDrain_du_edgeIn (die tile unit h : Nat) (routed : Bool) (s : State) :
    (unitDrain die tile unit h routed s).fabric.du = s.fabric.du ∧ (unitDrain die tile unit h routed s).fabric.edgeIn = s.fabric.edgeIn := by
  unfold unitDrain unitGive
  (repeat' split) <;> exact ⟨rfl, rfl⟩

theorem popStaged_coll (die k : Nat) (l : List (Nat × Bytes)) (s : State) : ∃ c, popStaged die k l s = s.onColl fun _ => c := ⟨_, rfl⟩

/-- 07 R236: a staged contribution becomes its head and its payload on an idle edge unit. -/
theorem streamDeliver_of_staged {s : State} {die tile port h lt k j : Nat} {i : Image} {f : Bytes} {l : List (Nat × Bytes)} {g : Group}
    (hRunning : runningOn s die tile = some (h, i, lt)) (hHead : unitHead s die tile (uSI port) = none)
    (hHeld : (s.fabric.retiring.any fun x => x.1 == die && (imageOn s die x.2.1).any fun y => y.1 == h) = false)
    (hFind : ((s.coll.deliver.get die).find? fun k => onIngress i lt port k && !s.switch.ctxSpilled.get k &&
      (match groupOfCtx s k with | some g => g.image == h | none => false)) = some k)
    (hStaged : (s.coll.ctx.get k).staged = (j, f) :: l) (hGroup : groupOfCtx s k = some g) (hLibrary : i.library = none)
    (hIdle : s.fabric.edgeOut.get (unitKey die tile (uSI port)) = []) (hRows : opRows (gOp g.record) = false)
    (hRouted : unitRouted i lt (uSI port) = true) (hDone : ((popStaged die k l s).coll.ctx.get k).doneDue = false) :
    streamDeliver die tile port s = progress die h ((popStaged die k l s).onFabric fun x => { x with
      edgeOut := x.edgeOut.set (unitKey die tile (uSI port))
        (headToken k g j f ((s.coll.ctx.get k).arrived.head? == some j) :: packedTokens (BitVec.ofNat 16 (k % 4096)) (cPayload f 0)) }) := by
  unfold streamDeliver
  rw [hRunning]
  dsimp only
  rw [if_neg (by simp [hHead]), if_neg (by simp [hHeld])]
  erw [hFind]
  dsimp only
  rw [hStaged, hGroup]
  dsimp only
  rw [if_neg (by simp [hLibrary]), if_neg (by simp [hIdle]), hRouted, if_pos rfl, hRows, if_neg Bool.false_ne_true, hDone]
  simp

/-- Settles O39: each clause from the equation of its command under the clause's guards. -/
theorem cellsAndTokens : Obligations.CellsAndTokens := by
  unfold Obligations.CellsAndTokens
  refine ⟨?_, ?_, ?_, ?_, ?_, ?_, ?_⟩
  · -- `cellFire`
    intro s s' d tl r c h lt tr pc i b heads f hRunning hRecord hHeads hTrigger hParity hRun hFault
    have hFire : cellFire d.val tl.val r.val c.val s = progress d.val h (s'.onFabric fun x => { x with
        cells := x.cells.set (cellKey d.val tl.val r.val c.val) f.regs
        links := f.sent.foldl (fun l y => l.modify (cellKey d.val tl.val r.val c.val * 24 + 16 + y.1) (· ++ [y.2]))
          ((upTo 4).foldl (fun l p => if bit (bits tr 26 23) p then
            l.modify (cellKey d.val tl.val r.val c.val * 24 + 20 + p) (·.drop 1) else l) x.links) }) := by
      unfold cellFire
      rw [hRunning]
      dsimp only
      rw [hRecord]
      dsimp only
      rw [← hHeads, hTrigger]
      dsimp only
      rw [if_neg (by simp [hParity]), hRun]
      dsimp only
      rw [hFault]
    exact ⟨_, congrArg Host.Outcome.next hFire, rfl, rfl, rfl, rfl, rfl⟩
  · -- `tokenLinkCrossing`
    intro s d tl r c o h lt i t l hRunningOn hSelectOf hSrcTokens hUpTo
    refine congrArg Host.Outcome.next ?_
    simp [tokenCross, hRunningOn, hSelectOf.not_ge, hSrcTokens, hUpTo]
  · -- `streamIngressDeliver`
    intro s d tl p h lt k j i f l g hRunning hHead hHeld hFind hStaged hGroup hLibrary hIdle hRows hRouted hDone
    refine ⟨_, congrArg Host.Outcome.next
      (streamDeliver_of_staged hRunning hHead hHeld hFind hStaged hGroup hLibrary hIdle hRows hRouted hDone), ?_⟩
    obtain ⟨x, hx⟩ := popStaged_coll d.val k l s
    rw [hx]
    exact ⟨rfl, rfl, rfl⟩
  · -- `decodeToken`
    intro s d tl p h lt k i t g hRunning hQueue hHead hTag hKind
    have hDecode : decodeToken d.val tl.val p.val s = unitDrain d.val tl.val (uDU p.val) h (unitRouted i lt (uDU p.val))
        (progress d.val h (onWork d.val tl.val (uDU p.val) (fun x => { x with queue := [t] })
          ((unitTake d.val tl.val (uDU p.val) s).onFabric fun x => { x with
            du := x.du.set (duKey d.val tl.val (uDU p.val) (t.tag.toNat % 4096))
              ⟨lane t 2 % 256, lane t 1, lane t 0 % 256, 0, 0, [], !isNumeric (lane t 2 % 256), []⟩ }))) := by
      unfold decodeToken
      rw [hRunning]
      dsimp only
      rw [if_neg (by simp [hQueue]), hHead]
      dsimp only
      rw [hTag]
      dsimp only
      rw [hKind]
      rfl
    refine ⟨_, congrArg Host.Outcome.next hDecode, ?_, ?_, ?_, ?_⟩
    · exact (unitDrain_du_edgeIn ..).1
    · exact (unitDrain_du_edgeIn ..).2
    · exact (State.coll_of_hide (unitDrain_frame (by decide) ..)).trans rfl
    · exact (State.mem_of_hide (unitDrain_frame (by decide) ..)).trans rfl
  · -- `encodeCmd`
    intro s d tl p h lt k i t g hRunningOn hUnitWork hUnitWork' hUnitHead hTagCtx hKind
    refine congrArg Host.Outcome.next ?_
    simp [encodeStep, hRunningOn, hUnitWork, hUnitWork', hUnitHead, hTagCtx, hKind]
  · -- `streamEgressLast`
    intro s d tl p h lt k i t g hRunningOn hI hUnitWork hUnitHead hTagCtx hKind hLane
    refine congrArg Host.Outcome.next ?_
    simp [egressLast, hRunningOn, hI, hUnitWork, hUnitHead, hTagCtx, hKind, hLane.not_gt]
  · -- `streamIngressDeliver`
    intro s d tl p h lt i t hRunningOn hUnitHead
    refine congrArg Host.Outcome.next ?_
    simp [streamDeliver, hRunningOn, hUnitHead]

end Sys2Proof.Machine
end

section
/-! The four commands of a context port and the DATA tokens of WRITE and ACC. -/

namespace Sys2Proof.Machine

/-! The commands of a context port (07 R242): a READ or READF in range queues its stream, and a DATA token of a WRITE or
ACC is accumulated at its block. -/

/-- A READ (`op` 0) or READF (`op` 3) in range. -/
theorem contextPort_read {s : State} {op die tile port h lt k : Nat} {i : Image} {t : Token} {g : Group} (hOp : op = 0 ∨ op = 3)
    (hRunning : runningOn s die tile = some (h, i, lt)) (hQueue : (unitWork s die tile (uCP port)).queue = [])
    (hBusy : (unitWork s die tile (uCP port)).busy = false) (hHead : unitHead s die tile (uCP port) = some t)
    (hTag : tagCtx s die h t.tag = some (k, g)) (hKind : t.kind = 4) (hLane : lane t 0 = op)
    (hRange : lane t 2 = 0 ∨ 16 * (lane t 1 + lane t 2 - 1) < gElems g.record)
    (hShadow : (s.coll.ctx.get k).state ≠ .computing ∨ shadowAgrees g (s.coll.ctx.get k) = true) :
    contextPort op die tile port s = unitDrain die tile (uCP port) h (unitRouted i lt (uCP port)) (progress die h
      (onWork die tile (uCP port) (fun x => { x with cmd := t, queue := cpStream k g op (lane t 1) (lane t 2) t.tag s })
        (unitTake die tile (uCP port) s))) := by
  have hIn : ¬ (lane t 2 ≠ 0 && gElems g.record ≤ 16 * (lane t 1 + lane t 2 - 1)) = true := by
    simp only [Bool.and_eq_true, decide_eq_true_eq]
    omega
  unfold contextPort
  rw [hRunning]
  dsimp only
  rw [if_neg (by simp [hQueue]), hHead]
  dsimp only
  rw [hTag]
  dsimp only
  rw [if_pos (by simp [hKind, hBusy]), if_neg (not_not_intro hLane), if_neg hIn, if_pos (by simpa using hOp),
    if_neg (by obtain h | h := hShadow <;> simp [h])]

/-- A DATA token of a WRITE (`op` 1) or an ACC (`op` 2). -/
theorem contextPort_data {s : State} {op die tile port h lt k k' : Nat} {i : Image} {t : Token} {g g' : Group}
    (hRunning : runningOn s die tile = some (h, i, lt)) (hQueue : (unitWork s die tile (uCP port)).queue = [])
    (hBusy : (unitWork s die tile (uCP port)).busy = true) (hHead : unitHead s die tile (uCP port) = some t)
    (hTag : tagCtx s die h t.tag = some (k, g)) (hKind : t.kind = 0) (hLane : lane (unitWork s die tile (uCP port)).cmd 0 = op)
    (hCmd : tagCtx s die h (unitWork s die tile (uCP port)).cmd.tag = some (k', g')) :
    contextPort op die tile port s = progress die h (accumulate k' g' (op = 1 || bit (lane (unitWork s die tile (uCP port)).cmd 3) 0)
      (16 * (lane (unitWork s die tile (uCP port)).cmd 1 + (unitWork s die tile (uCP port)).blocks)) t.data
      (onWork die tile (uCP port) (fun x => { x with
        blocks := x.blocks + 1, busy := decide (x.blocks + 1 < lane (unitWork s die tile (uCP port)).cmd 2) })
        (unitTake die tile (uCP port) s))) := by
  have hCmd' : tagCtx (onWork die tile (uCP port) (fun x => { x with
        blocks := x.blocks + 1, busy := decide (x.blocks + 1 < lane (unitWork s die tile (uCP port)).cmd 2) })
        (unitTake die tile (uCP port) s)) die h (unitWork s die tile (uCP port)).cmd.tag = some (k', g') := hCmd
  unfold contextPort
  rw [hRunning]
  dsimp only
  rw [if_neg (by simp [hQueue]), hHead]
  dsimp only
  rw [hTag]
  dsimp only
  rw [if_neg (by simp [hKind]), if_pos (by simp [hKind, hBusy]), if_neg (not_not_intro hLane), hCmd']

/-- Settles O40: each clause from the equation of its command under the clause's guards. -/
theorem contextPortsAndWalks : Obligations.ContextPortsAndWalks := by
  unfold Obligations.ContextPortsAndWalks
  refine ⟨?_, ?_, ?_, ?_, ?_, ?_, ?_, ?_⟩
  · -- `cpRead`
    intro s d tl p h lt k i t g hRunning hQueue hBusy hHead hTag hKind hLane hRange hShadow
    exact congrArg Host.Outcome.next (contextPort_read (.inl rfl) hRunning hQueue hBusy hHead hTag hKind hLane hRange hShadow)
  · -- `cpReadf`
    intro s d tl p h lt k i t g hRunning hQueue hBusy hHead hTag hKind hLane hRange hShadow
    exact congrArg Host.Outcome.next (contextPort_read (.inr rfl) hRunning hQueue hBusy hHead hTag hKind hLane hRange hShadow)
  · -- `cpWrite`
    intro s d tl p h lt k i t g hRunningOn hUnitWork hUnitWork' hUnitHead hTagCtx hKind hLane hLane'
    refine congrArg Host.Outcome.next ?_
    simp [contextPort, hRunningOn, hUnitWork, hUnitWork', hUnitHead, hTagCtx, hKind, hLane]
    omega
  · -- `cpWrite`
    intro s d tl p h lt k k' i t g g' hRunning hQueue hBusy hHead hTag hKind hLane hCmd
    exact congrArg Host.Outcome.next (contextPort_data hRunning hQueue hBusy hHead hTag hKind hLane hCmd)
  · -- `cpAcc`
    intro s d tl p h lt k i t g hRunningOn hUnitWork hUnitWork' hUnitHead hTagCtx hKind hLane hLane'
    refine congrArg Host.Outcome.next ?_
    simp [contextPort, hRunningOn, hUnitWork, hUnitWork', hUnitHead, hTagCtx, hKind, hLane]
    omega
  · -- `cpAcc`
    intro s d tl p h lt k k' i t g g' hRunning hQueue hBusy hHead hTag hKind hLane hCmd
    exact congrArg Host.Outcome.next (contextPort_data hRunning hQueue hBusy hHead hTag hKind hLane hCmd)
  · -- `walkRequest`
    intro s s' d tl p h lt k n i t g hRunningOn hPortDrain hUnitWork hUnitHead hKind hTagCtx hUpTo
    refine congrArg Host.Outcome.next ?_
    simp [walkRequest, hRunningOn, hPortDrain, hUnitWork, hUnitHead, hKind, hTagCtx, hUpTo]
  · -- `retrieverAccessComplete`
    intro s s' d tl p n h lt i t t' g hRunning hThread hActive hEnded hPc hRoom hGroup hWalk hStill hAfter
    subst hThread
    have hRun : threadRun d.val tl.val p.val n.val h i s = progress d.val h (onThread d.val tl.val p.val n.val (fun _ => t') s') := by
      have hStop : ¬ (!(threadAt s d.val tl.val p.val n.val).active || (threadAt s d.val tl.val p.val n.val).ended) = true := by
        simp [hActive, hEnded]
      have hBlocked : ¬ (!(threadAt s d.val tl.val p.val n.val).todo.isEmpty && responseRoom s d.val tl.val p.val n.val = 0) = true := by
        simpa using fun h => Nat.pos_iff_ne_zero.mp (hRoom h)
      have hOver : ¬ ((threadAt s d.val tl.val p.val n.val).todo.isEmpty && 16 ≤ (threadAt s d.val tl.val p.val n.val).pc) = true := by
        simpa using hPc
      unfold threadRun
      dsimp only
      rw [if_neg hStop, hGroup]
      dsimp only
      rw [if_neg hBlocked, if_neg hOver, hWalk]
      dsimp only
      rw [if_pos hStill]
    obtain ⟨y, hy⟩ := Option.ne_none_iff_exists'.mp hAfter
    have hAccess : accessComplete d.val tl.val p.val n.val s = portDrain d.val tl.val p.val h (unitRouted i lt (uRP p.val))
        (progress d.val h (onThread d.val tl.val p.val n.val (fun _ => t') s')) := by
      unfold accessComplete
      rw [hRunning]
      dsimp only
      rw [hRun, hy]
    exact congrArg Host.Outcome.next hAccess

end Sys2Proof.Machine
end

section
/-! Images staged, committed, unloaded, placed on tiles and taken off them. -/

namespace Sys2Proof.Machine

/-- Settles O41: each clause from the equation of its command under the clause's guards. -/
theorem imageResidency : Obligations.ImageResidency := by
  unfold Obligations.ImageResidency
  refine ⟨?_, ?_, ?_, ?_, ?_⟩
  · -- `imageStageData`
    rintro s r b ⟨hKeeper, hCheck⟩ hLen
    have hPad : padTo 1024 b = b ++ List.replicate (1024 - b.length) 0 := by
      simp [padTo, List.take_of_length_le hLen]
    refine congrArg Host.Outcome.next ((guardWrite_of_done hKeeper hCheck).trans ((if_neg hLen.not_gt).trans ?_))
    rw [← hPad]
    rfl
  · -- `imageCommit`
    rintro s r v b ⟨hKeeper, hCheck⟩ hTotal hStaged rfl hCommit
    have hCommitted : imageCommit s = setCommitResult imDone (freeHandle s) ((measExtend 4
        (slice (memBytes s.mem (imgStageAddr 0) (min s.fabric.stageLen (leNat (memBytes s.mem (imgStageAddr 8) 4)))) 48 32)
        (admitImage (freeHandle s) (memBytes s.mem (imgStageAddr 0) (min s.fabric.stageLen (leNat (memBytes s.mem (imgStageAddr 8) 4)))) none
          (answer stDone s))).onFabric fun x => { x with stageLen := 0 }) := by
      unfold imageCommit
      dsimp only
      refine (if_neg (by simp [hTotal, hStaged])).trans (if_neg ?_)
      exact not_not_intro hCommit
    refine ⟨_, congrArg Host.Outcome.next ((guardWrite_of_done hKeeper hCheck).trans hCommitted), rfl, ?_, rfl, rfl, rfl, rfl, rfl⟩
    exact (congrArg (· + freeHandle s) (Nat.zero_mul 256)).trans (Nat.zero_add _)
  · -- `imageUnload`
    rintro s r h ⟨hKeeper, hCheck⟩ hThere hPlaced
    have hThere' : ¬ (imageAt (answer stDone s) h.toNat).isNone = true := by
      rw [Option.isNone_iff_eq_none]
      exact hThere
    have hPlaced' : ¬ placedAnywhere (answer stDone s) h.toNat = true := Bool.eq_false_iff.mp hPlaced
    refine ⟨_, congrArg Host.Outcome.next ((guardWrite_of_done hKeeper hCheck).trans ((if_neg hThere').trans (if_neg hPlaced'))), ?_, rfl, rfl⟩
    simp [setCommitResult, imDone]
  · -- `imagePlace`
    rintro s r h a m i ⟨hKeeper, hCheck⟩ hImage hTiles hScratch
    have hNoTiles : (diesOf m.toNat).filter (fun d => !tilesFree s d h.toNat a.toNat i.tiles) = [] := by
      simpa using hTiles
    have hNoMem : (diesOf m.toNat).filter (fun d => (scratchAt s d i).isNone) = [] := by
      simpa [Option.isSome_iff_ne_none] using hScratch
    have hImage' : imageAt (answer stDone s) h.toNat = some i := hImage
    refine congrArg Host.Outcome.next ((guardWrite_of_done hKeeper hCheck).trans ?_)
    unfold imagePlace
    dsimp only
    rw [hImage']
    dsimp only
    erw [hNoTiles, hNoMem]
    rfl
  · -- `imageUnplace`
    rintro s r h m ⟨hKeeper, hCheck⟩ hThere hBound
    have hThere' : ¬ (imageAt (answer stDone s) h.toNat).isNone = true := by
      rw [Option.isNone_iff_eq_none]
      exact hThere
    have hBound' : ¬ imageBound (answer stDone s) h.toNat = true := Bool.eq_false_iff.mp hBound
    exact congrArg Host.Outcome.next ((guardWrite_of_done hKeeper hCheck).trans ((if_neg hThere').trans (if_neg hBound')))

end Sys2Proof.Machine
end

section
/-! Faults of an image, the stall watch, resuming, spare cells and their modes. -/

namespace Sys2Proof.Machine

/-- The group of context 7 of die 3, whose chunks image 1 combines. -/
def combinedGroup : Group := ⟨List.replicate 64 0, 0, [3], 1⟩

/-- Image 1 is stopped on die 3 while a context of its group still counts two threads. -/
def stoppedWithThreads : State :=
  { State.reset with
    start := { Start.reset with state := .service, sectorDies := 0xFF }
    fabric := { Fabric.reset with placed := ⟨0, [(imgKey 3 1, 1)]⟩, stopped := ⟨false, [(imgKey 3 1, true)]⟩ }
    coll := { Coll.reset with
      groups := ⟨none, [(groupKey 3 0, some combinedGroup)]⟩
      ctx := ⟨Ctx.reset, [(ctxKey 3 7, { Ctx.reset with state := .collecting, group := 1, threads := 2 })]⟩ } }

theorem resumeImage_stoppedWithThreads : ((resumeImage 3 1 stoppedWithThreads).coll.ctx.get (ctxKey 3 7)).threads = 0 := by decide

/-- Refutes O42: resuming an image ends the threads of its contexts, so the collectives do not stand as they were.
In `stoppedWithThreads` the context's count of two threads becomes zero. -/
theorem not_imagesThatFault : ¬ Obligations.ImagesThatFault := by
  unfold Obligations.ImagesThatFault
  rintro ⟨-, -, hResume, -⟩
  obtain ⟨t, -, rfl, -, -, hColl, -⟩ := hResume stoppedWithThreads 3 1 (by decide) (by decide) (by decide) (by decide)
  have hThreads := resumeImage_stoppedWithThreads
  rw [show (resumeImage 3 1 stoppedWithThreads).coll = stoppedWithThreads.coll from hColl] at hThreads
  exact absurd hThreads (by decide)

end Sys2Proof.Machine
end

section
/-! Regions created, ready, deleted, their control words, and the grant of an update lock. -/

namespace Sys2Proof.Machine

/-- Settles O43: each clause from the equation of its command under the clause's guards. -/
theorem regionRequests : Obligations.RegionRequests := by
  unfold Obligations.RegionRequests
  refine ⟨?_, ?_, ?_, ?_, ?_, ?_⟩
  · -- `regionCreate`
    rintro s r b ⟨hKeeper, hCheck⟩ hLength hRegionFieldsOk hRegionAt hRegions hUp hPlaceAll
    refine congrArg Host.Outcome.next ?_
    simp [regionCreate, guardWrite_of_done hKeeper hCheck, hLength, hRegionFieldsOk, hRegionAt, hRegions, hUp, hPlaceAll, State.onResident]
  · -- `regionReady`
    intro s h r hClocks hRegionAt hR hR'
    refine congrArg Host.Outcome.next ?_
    simp [regionReady, hClocks, hRegionAt, hR, hR']
  · -- `regionReady`
    intro s h r hClocks hRegionAt hR hR'
    refine congrArg Host.Outcome.next ?_
    simp [regionReady, hClocks, hRegionAt, hR]
    (repeat' split) <;> simp_all
  · -- `regionDelete`
    rintro s r h ⟨hKeeper, hCheck⟩ hHandleOk hRegionAt hRegionMoored hExporting hImportRun
    refine congrArg Host.Outcome.next ?_
    simp [regionDelete, guardWrite_of_done hKeeper hCheck, hHandleOk, hRegionAt, hRegionMoored, hExporting, hImportRun, State.onResident]
  · -- `regionControlData`
    rintro s r h b x ⟨hKeeper, hCheck⟩ hLength hRegionAt
    refine congrArg Host.Outcome.next ?_
    simp [regionControlData, guardWrite_of_done hKeeper hCheck, hLength.not_gt, hRegionAt]
  · -- `updateLockGrant`
    intro s h b k hClocks hHolder hUnacked hWaiter
    refine congrArg Host.Outcome.next ((if_pos hClocks).trans ?_)
    unfold updateLockGrant
    rw [hHolder, hUnacked, hWaiter]
    rfl

end Sys2Proof.Machine
end

section
/-! A block committed, the mirror's words, commit and acknowledgement, the audit and the resolution. -/

namespace Sys2Proof.Machine

/-- A mirrored region of one block of 256 bytes on die 3, its mirror on die 7. -/
def mirroredRegion : Region where
  kind := 1
  mirrored := true
  dieMask := 8
  blockBytes := 256
  blocks := 1
  rowBytes := 0
  state := .ready
  parts := ⟨0, [(3, 1), (15, 1)]⟩
  sizes := ⟨0, [(3, 4368), (15, 4368)]⟩
  lost := 0
  lastLost := 0
  unchecked := 0

/-- A group that updates the blocks of region 9 (operation 6). -/
def updatingGroup : Group := ⟨[0, 0, 0, 6] ++ List.replicate 27 0 ++ [9], 0, [3], 0⟩

/-- A context that has written its whole block and commits it. -/
def committingCtx : Ctx := { Ctx.reset with state := .sending, group := 6, commitDue := true, wroteWords := 4 }

/-- A state whose list of contexts names context 7 of die 3 twice, so that it is not in canonical form: clearing `commitDue` makes the
first entry the default of the list, drops it and uncovers the second, which has written nothing. -/
def ctxListedTwice : State :=
  { State.reset with
    start := { Start.reset with state := .service, sectorDies := 0xFF }
    resident := { Resident.reset with regions := ⟨none, [(9, some mirroredRegion)]⟩ }
    coll := { Coll.reset with
      groups := ⟨none, [(groupKey 3 5, some updatingGroup)]⟩
      ctx := ⟨{ committingCtx with commitDue := false },
        [(ctxKey 3 7, committingCtx), (ctxKey 3 7, { committingCtx with wroteWords := 0 })]⟩ } }

theorem blockCommit_ctxListedTwice : (blockCommit (ctxKey 3 7) ctxListedTwice).resident.unacked.get (blockKey 9 0) = false := by decide

/-- Refutes O44: the clause of a block's commit does not ask for a canonical list of contexts. In `ctxListedTwice` the context read back
after its `commitDue` is cleared is another entry, which has written no word, and no commit is sent to the mirror. -/
theorem not_mirrorProtocol : ¬ Obligations.MirrorProtocol := by
  unfold Obligations.MirrorProtocol
  rintro ⟨hCommit, -⟩
  obtain ⟨b, y, rfl, -, t, hExec, hUnacked, -⟩ := hCommit ctxListedTwice 3 7 updatingGroup mirroredRegion 7 (by decide) (by decide)
    (by decide) (by decide) (by decide) (by decide) (by decide) (by decide) (by decide)
  have hBlock : blockCommit (ctxKey 3 7) ctxListedTwice = t := Host.Outcome.next.inj hExec
  have hUnsent := blockCommit_ctxListedTwice
  rw [hBlock, hUnacked] at hUnsent
  exact absurd hUnsent (by decide)

end Sys2Proof.Machine
end

section
/-! Export and import of regions, and the end of a takeover. -/

namespace Sys2Proof.Machine

/-- A store to memory holds its bytes; the error covers of its granules are another part of the state (08 R279, 18 R530). -/
theorem storeMem_mem (a : Nat) (b : Bytes) (s : State) : (storeMem a b s).mem = memPut s.mem a b :=
  (State.mem_of_hide (coverGranules_frame (by decide) ..)).trans rfl

theorem storeMem_resident (a : Nat) (b : Bytes) (s : State) : (storeMem a b s).resident = s.resident :=
  State.resident_of_hide (storeMem_frame (by decide) ..)

/-- 08 R292: the parts of an exported block are sent as datagrams; the regions and the memory stay. -/
theorem foldl_sendParts_keeps (die cls src dest : Nat) (l : List BlockPart) (s : State) :
    (l.foldl (fun s p => (sendDatagram die cls src [dest] (exportDatagram s cls p) s).2) s).resident = s.resident ∧
      (l.foldl (fun s p => (sendDatagram die cls src [dest] (exportDatagram s cls p) s).2) s).mem = s.mem := by
  induction l generalizing s with
  | nil => exact ⟨rfl, rfl⟩
  | cons p l ih =>
    obtain ⟨hResident, hMem⟩ := ih (sendDatagram die cls src [dest] (exportDatagram s cls p) s).2
    exact ⟨hResident.trans (State.resident_of_hide (sendDatagram_frame (by decide) ..)),
      hMem.trans (State.mem_of_hide (sendDatagram_frame (by decide) ..))⟩

/-- A block read without an error is exported with its bytes as they are. -/
theorem exportRead_of_good {h b : Nat} {r : Region} {s : State} (hGood : memBad s (r.addr b (r.mainCopy b)) r.blockBytes = false) :
    exportRead h r b none s = (copyBytes s r b (r.mainCopy b), false, s) :=
  if_pos (by simp [hGood])

/-- With no block left on any die only the run is closed. -/
theorem exportClose_keeps (s : State) :
    (if exportOver s then s.onResident fun x => { x with exportRun := none } else s).resident.exportNext = s.resident.exportNext ∧
    (if exportOver s then s.onResident fun x => { x with exportRun := none } else s).resident.exportSent = s.resident.exportSent ∧
    (if exportOver s then s.onResident fun x => { x with exportRun := none } else s).resident.exportSuspect = s.resident.exportSuspect ∧
    (if exportOver s then s.onResident fun x => { x with exportRun := none } else s).mem = s.mem := by
  split <;> exact ⟨rfl, rfl, rfl, rfl⟩

/-- The state once a die has sent its next block `b`. -/
def blockSent (die h cls dest b : Nat) (r : Region) (s : State) : State :=
  let flag := if isSuspect s h b then 1 else 0
  let seq := if r.mirrored then (getMeta s h b (r.mainCopy b)).seq else 0
  let d := copyBytes s r b (r.mainCopy b)
  ((exportParts h r b flag seq (blockCrc d).toNat d).foldl (fun s p =>
    (sendDatagram die cls (0xC000 + b % 2 ^ 14) [dest] (exportDatagram s cls p) s).2) s).onResident fun x => { x with
    exportNext := x.exportNext.set die (b + 1)
    exportSent := x.exportSent + 1
    exportSuspect := x.exportSuspect + flag }

theorem exportBlock_of_next {s : State} {die h first n dest cls b : Nat} {r : Region}
    (hRun : s.resident.exportRun = some (h, first, n, dest, cls)) (hRegion : regionAt s h = some r)
    (hNext : nextOn r die (first + n - s.resident.exportNext.get die) (s.resident.exportNext.get die) = some b)
    (hFree : lockHeld s h b = false) (hGood : memBad s (r.addr b (r.mainCopy b)) r.blockBytes = false) :
    exportBlock die none s = if exportOver (blockSent die h cls dest b r s) then
      (blockSent die h cls dest b r s).onResident fun x => { x with exportRun := none } else blockSent die h cls dest b r s := by
  unfold exportBlock
  simp only [hRun, hRegion, hNext, hFree, exportRead_of_good hGood, Bool.false_eq_true, if_false, Bool.false_or]
  rfl

/-- Settles O45: each clause from the equation of its command under the clause's guards. -/
theorem regionTransfers : Obligations.RegionTransfers := by
  unfold Obligations.RegionTransfers
  refine ⟨?_, ?_, ?_, ?_, ?_, ?_⟩
  · -- `exportStart`
    rintro s r h f n dest c x ⟨hKeeper, hCheck⟩ hHandleOk hToNat hRegionAt hF hExportRun hN hState
    refine congrArg Host.Outcome.next ?_
    simp [exportStart, guardWrite_of_done hKeeper hCheck, hHandleOk, hToNat.not_gt, hRegionAt, hF.not_gt, hExportRun, hN, hState, State.onResident]
  · -- `exportBlock`
    intro s d h f n dest c b x hUp hClocks hRun hRegion hNext hFree hGood
    refine ⟨_, congrArg Host.Outcome.next ((if_pos (by simp [hUp, hClocks])).trans (exportBlock_of_next hRun hRegion hNext hFree hGood)), ?_⟩
    obtain ⟨hClosedNext, hClosedSent, hClosedSuspect, hClosedMem⟩ := exportClose_keeps (blockSent d.val h c dest b x s)
    rw [hClosedNext, hClosedSent, hClosedSuspect, hClosedMem]
    simp [blockSent, foldl_sendParts_keeps]
  · -- `importOpen`
    rintro s r h x ⟨hKeeper, hCheck⟩ hHandle hRegion hMoored hNoExport hNoImport hReady hTaken
    refine congrArg Host.Outcome.next ((guardWrite_of_done hKeeper hCheck).trans ?_)
    unfold importOpen
    rw [if_neg (by simp [hHandle]), hRegion]
    exact if_neg (by simp [hMoored, hNoExport, hNoImport, hReady, hTaken])
  · -- `importFrame`
    intro s b h p x hKeeper hRun hPart hRegion hHandle hFits hMain hMirror hWords
    refine ⟨_, congrArg Host.Outcome.next (if_pos hKeeper), ?_⟩
    have hStored : (storeMem (x.addr p.block 0 + 64 * p.word) p.payload s).resident = s.resident := storeMem_resident ..
    unfold importFrame
    rw [hRun, hPart]
    dsimp only
    rw [hRegion]
    dsimp only
    rw [if_neg (by simp [hHandle, hFits])]
    simp only [hMain, hMirror, Bool.false_eq_true, if_true, if_false, hStored, hWords, Nat.lt_irrefl, decide_false, Bool.false_and]
    exact ⟨storeMem_mem .., by simp [hStored], by simp [hStored], State.coll_of_hide (by simp)⟩
  · -- `importClose`
    rintro s r h x ⟨hKeeper, hCheck⟩ hImportRun hRegionAt hState hImportWords
    refine congrArg Host.Outcome.next ?_
    simp [importClose, stNotFound, guardWrite_of_done hKeeper hCheck, hImportRun, hRegionAt, hState, hImportWords]
    rfl
  · -- `takeoverComplete`
    intro s h x hClocks hRegionAt hState
    refine congrArg Host.Outcome.next ?_
    simp [takeoverComplete, hClocks, hRegionAt, hState]

end Sys2Proof.Machine
end

section
/-! The loop of a ring, its acquisition, the beacon checks, the set point and the seek commands. -/

namespace Sys2Proof.Machine

/-- Settles O46: each clause from the equation of its command under the clause's guards. -/
theorem ringsAndBeacons : Obligations.RingsAndBeacons := by
  unfold Obligations.RingsAndBeacons
  refine ⟨?_, ?_, ?_, ?_, ?_, ?_, ?_, ?_, ?_⟩
  · -- `ringLoopTick`
    intro s g v hActs hSeek hHeld hFresh hResonance
    refine congrArg Host.Outcome.next ((if_pos hActs).trans ?_)
    unfold ringTick
    simp [hSeek, hHeld, hFresh, hResonance]
  · -- `ringLoopTick`
    intro s g v hActs hSeek hHeld hFresh hResonance hBelow
    refine congrArg Host.Outcome.next ((if_pos hActs).trans ?_)
    unfold ringTick
    simp [hSeek, hHeld, hFresh, hResonance, Nat.min_eq_right hBelow.le, hBelow]
  · -- `ringLoopTick`
    intro s g v hActs hSeek hHeld hFresh
    refine congrArg Host.Outcome.next ((if_pos hActs).trans ?_)
    unfold ringTick
    simp [hSeek, hHeld, hFresh]
  · -- `ringAcquireDone`
    intro s g v hActs hAcquire hRange hTime
    exact congrArg Host.Outcome.next (if_pos (by simp [hActs, hAcquire, hRange, hTime]))
  · -- `beaconCheckStart`
    intro s g hActs hLocked hIdle hTime
    exact congrArg Host.Outcome.next (if_pos (by simp [hActs, hLocked, hIdle, hTime]))
  · -- `beaconCheckComplete`
    intro s p k t tones v hActs hState hCheck hTime hMatch
    have hComplete : ∃ x : State, beaconComplete (.txPort p k) tones v s = ringFollowed (.txPort p k) x ∧
        x.optics.rings = (s.optics.rings.modify (txRingKey p.val k.val) (fun r => { r with checkAt := none })).modify
          (txRingKey p.val k.val) (fun r => { r with
            state := .locked, mismatches := 0, checkedAt := nowNs s, storedAt := if r.state = .locked then r.storedAt else nowNs s,
            first := false, sp := if r.first then r.heater else r.sp, spTemp := if r.first then v.temp else r.spTemp }) := by
      have hMatch' : beaconResult (ringSlot (.txPort p k)) tones = .match_ := hMatch
      unfold beaconComplete
      rw [hMatch']
      exact ⟨_, rfl, rfl⟩
    obtain ⟨x, hx, hRings⟩ := hComplete
    have hCheck' : (ringOf s (ringKey (.txPort p k))).checkAt = some t := hCheck
    have hState' : (ringOf s (ringKey (.txPort p k))).state = .verify ∨ (ringOf s (ringKey (.txPort p k))).state = .locked := hState
    have hActs' : ringsAct s (ringDie (.txPort p k)) = true := hActs
    refine ⟨_, congrArg Host.Outcome.next ?_, x, hx, hRings⟩
    dsimp only
    rw [hCheck']
    exact if_pos (by obtain h | h := hState' <;> simp [hActs', h, hTime])
  · -- `setpointStore`
    intro s g temp hActs hLocked hTime
    exact congrArg Host.Outcome.next (if_pos (by simp [hActs, hLocked, hTime]))
  · -- `ringSeek`
    rintro s r p rx k start ⟨hKeeper, hCheck⟩ hStart hSeek hHeld hLane
    refine congrArg Host.Outcome.next ((guardWrite_of_done hKeeper hCheck).trans ((if_neg hStart.not_gt).trans ?_))
    have hRing : ((ringOf s (if rx then rxRingKey p.val k.val else txRingKey p.val k.val)).state == .seek &&
        (ringOf s (if rx then rxRingKey p.val k.val else txRingKey p.val k.val)).held ||
        (ringOf s (if rx then rxRingKey p.val k.val else txRingKey p.val k.val)).state == .fault) = true := by
      simp [hSeek, hHeld]
    dsimp only
    rw [if_pos hRing]
    erw [hLane]
    rfl
  · -- `ringLockMode`
    rintro s r ⟨hKeeper, hCheck⟩
    exact ⟨congrArg Host.Outcome.next (guardWrite_of_done hKeeper hCheck), congrArg Host.Outcome.next (guardWrite_of_done hKeeper hCheck)⟩

end Sys2Proof.Machine
end

section
/-! Lanes that train, fail and are tried again, and the control blocks and messages they send. -/

namespace Sys2Proof.Machine

/-- Settles O47: each clause from the equation of its command under the clause's guards. -/
theorem laneTraining : Obligations.LaneTraining := by
  unfold Obligations.LaneTraining
  refine ⟨?_, ?_, ?_, ?_, ?_, ?_, ?_, ?_, ?_⟩
  · -- `laneSignalOk`
    intro s p l n hLanesAct hLaneAt hN
    refine congrArg Host.Outcome.next ?_
    simp [hLanesAct, hLaneAt, hN]
  · -- `trainLcbSend`
    intro s p l hActs hState hRing hTime
    refine congrArg Host.Outcome.next (if_pos ?_)
    generalize hx : laneAt s p.val l.val = x at hState hTime ⊢
    cases h : x.state <;> simp_all
  · -- `markerSend`
    intro s p l hLanesAct hLaneAt hNow
    refine congrArg Host.Outcome.next ?_
    simp [leaveDone, dueBlock, hLanesAct, hLaneAt, hNow]
  · -- `laneTrainTimeout`
    intro s p l hLanesAct hLaneAt hNow
    refine congrArg Host.Outcome.next ?_
    simp [laneRelock, portDie, laneKey, hLanesAct, hNow.not_gt]
    (repeat' split) <;> simp_all
  · -- `laneFaultRetry`
    intro s p l hActs hFault hHost hTime
    exact congrArg Host.Outcome.next (if_pos (by simp [hActs, hFault, hHost, hTime]))
  · -- `lcbSend`
    intro s p l e hActs hIdle hFind hKind
    refine congrArg Host.Outcome.next ((if_neg (by simp [hActs, hIdle])).trans ?_)
    dsimp only
    rw [hFind]
    simp [hKind]
  · -- `lcbSend`
    intro s p l e hActs hIdle hFind hKind
    refine congrArg Host.Outcome.next ((if_neg (by simp [hActs, hIdle])).trans ?_)
    dsimp only
    rw [hFind]
    simp [hKind]
  · -- `lcmResend`
    intro s p m c hActs hPending hTime hSends hCarrier
    refine congrArg Host.Outcome.next ((if_neg (by simp [hActs])).trans ?_)
    have hDue : (s.optics.ports.get p.val).pending.filter (fun m => m.sentAt + 100000 ≤ nowNs s) = [m] := by
      simp [hPending, hTime]
    dsimp only
    rw [hDue, List.foldl_cons, List.foldl_nil, if_pos hSends, hCarrier]
  · -- `laneFailsAbruptly`
    intro s p l hActs hUsable
    exact congrArg Host.Outcome.next (if_neg (by simp [hActs, hUsable]))

end Sys2Proof.Machine
end

section
/-! Margin tests, in-service estimates and reports, and the monitors. -/

namespace Sys2Proof.Machine

/-- A state in the optics calibration whose list of lanes names lane 0 of port 0 twice, so that it is not in canonical form: the
monitors' readings make the first entry the default of the list, drop it and uncover the second, which leaves for a loop. -/
def laneListedTwice : State :=
  { State.reset with
    start := { Start.reset with state := .opticsCal, sectorDies := 0xFF }
    optics := { Optics.reset with
      lanes := ⟨{ Lane.reset with s3 := -32768, s6 := -32768 }, [(0, Lane.reset), (0, { Lane.reset with leaving := 3 })]⟩ } }

theorem monitorRefresh_laneListedTwice :
    ((monitorRefresh 0 [] [] [] [] 0 0 [] [] laneListedTwice).optics.ports.get 0).msgSeq = 1 := by decide +kernel

/-- Refutes O48: the clause of the monitors does not ask for a canonical list of lanes. In `laneListedTwice` no lane leaves for a loop
before the readings are stored, but the lane read back after them does, and its port sends a message. -/
theorem not_marginsOfLanes : ¬ Obligations.MarginsOfLanes := by
  unfold Obligations.MarginsOfLanes
  rintro ⟨-, -, -, -, -, -, -, hMonitors, -⟩
  obtain ⟨t, hExec, hPorts, -⟩ := hMonitors laneListedTwice 0 [] [] [] [] [] 0 0 (by decide) (by decide) (by decide)
  have hRefresh : monitorRefresh 0 [] [] [] [] 0 0 [] [] laneListedTwice = t :=
    Host.Outcome.next.inj ((congrArg Host.Outcome.next (if_pos (by decide))).symm.trans hExec)
  have hSeq := monitorRefresh_laneListedTwice
  rw [hRefresh, hPorts] at hSeq
  exact absurd hSeq (by decide)

end Sys2Proof.Machine
end

section
/-! Laser lines and modules, migration to the spare line and back, loops and mesh spares. -/

namespace Sys2Proof.Machine

/-- A state whose list of lanes names lane 0 of port 0 twice, so that it is not in canonical form: a lane that leaves for loop 1 is the
list's default, so storing it drops the first entry and uncovers the second, which stays where it is. -/
def loopListedTwice : State :=
  { State.reset with
    start := { Start.reset with state := .service, sectorDies := 0xFF }
    keeper := { Keeper.reset with coresRun := true }
    obj := [(objKey 0x040100 5, 1)]
    optics := { Optics.reset with
      lanes := ⟨{ Lane.reset with leaving := 1 }, (0, Lane.reset) :: (upTo 8).map fun l => (l, Lane.reset)⟩ } }

theorem loopMode_loopListedTwice : ∃ t, exec (.loopMode .operator 0 1) loopListedTwice = .next t ∧ t.out = [] := ⟨_, rfl, by decide⟩

/-- Refutes O49: the clause of LOOP_MODE does not ask for a canonical list of lanes. In `loopListedTwice` the lane read back after it was
told to leave is another entry, and no test pattern is sent. -/
theorem not_linesAndLoops : ¬ Obligations.LinesAndLoops := by
  unfold Obligations.LinesAndLoops
  rintro ⟨-, -, -, -, -, -, -, hLoop, -⟩
  obtain ⟨t, hExec, hOut, -⟩ := hLoop loopListedTwice .operator 0 (by decide) (by decide) (by decide) (by decide) (by decide) (by decide)
    (by decide)
  obtain ⟨u, hExec', hNone⟩ := loopMode_loopListedTwice
  rw [Host.Outcome.next.inj (hExec.symm.trans hExec'), hNone] at hOut
  exact absurd hOut (List.cons_ne_nil _ _).symm

end Sys2Proof.Machine
end

section
/-! Electrical ports enabled, their modes, bring-up, training, loops, equalisers and modules. -/

namespace Sys2Proof.Machine

/-! A request of link training (11 R367 to R369). With a gain of 0.1 dB the lane's own receiver keeps the readiness it had. -/

/-- What a training request leaves of the port, before the device asks in its turn. -/
def trainedPort (lane : Nat) (taps : Tab Int) (small : Nat) (ready peer : Bool) (e : EPort) : EPort :=
  { e with
    taps := taps
    smallGains := e.smallGains.set lane small
    rxReady := e.rxReady.set lane ready
    peerReady := e.peerReady.set lane peer
    trainingAt := if ready && peer then e.trainingAt.set lane none else e.trainingAt }

theorem epOf_onEp {s : State} (h : s.mgmt.eports.wf = true) (n : Nat) (f : EPort → EPort) : epOf (onEp n f s) n = f (epOf s n) :=
  (Tab.get_set h ..).trans (if_pos rfl)

theorem askTap_eports (n lane : Nat) (s : State) : (askTap n lane s).mgmt.eports = s.mgmt.eports := by
  unfold askTap
  split <;> rfl

theorem askTap_switch (n lane : Nat) (s : State) : (askTap n lane s).switch = s.switch := by
  unfold askTap
  split <;> rfl

/-- A lane still in training whose receiver is not ready asks for a change of a tap. -/
theorem askTap_out {n lane t : Nat} {s : State} (h : ((epOf s n).rxReady.get lane = false) → (epOf s n).trainingAt.get lane = some t) :
    (askTap n lane s).out = (if (epOf s n).rxReady.get lane then []
      else [.trainingRequest (256 + n) lane (Config.freeValue s.free % 5) (Config.freeValue s.free / 5 % 2 == 1)]) ++ s.out := by
  unfold askTap
  cases hReady : (epOf s n).rxReady.get lane with
  | true => rfl
  | false =>
    rw [h hReady]
    rfl

/-- The lanes' records after a request with a gain of at least 0.1 dB that names a tap or asks for a preset. -/
theorem askTap_trained {n lane t : Nat} {taps : Tab Int} {peer : Bool} {s : State} (hWf : s.mgmt.eports.wf = true)
    (hReadyWf : (epOf s n).rxReady.wf = true) (hTraining : (epOf s n).trainingAt.get lane = some t) :
    ∃ u, u = askTap n lane (onEp n (trainedPort lane taps 0 ((epOf s n).rxReady.get lane) peer) s) ∧ (epOf u n).taps = taps ∧
      (epOf u n).smallGains = (epOf s n).smallGains.set lane 0 ∧ u.switch = s.switch ∧
      u.out = (if (epOf s n).rxReady.get lane then []
        else [.trainingRequest (256 + n) lane (Config.freeValue s.free % 5) (Config.freeValue s.free / 5 % 2 == 1)]) ++ s.out := by
  have hPort := epOf_onEp hWf n (trainedPort lane taps 0 ((epOf s n).rxReady.get lane) peer)
  have hReady : (epOf (onEp n (trainedPort lane taps 0 ((epOf s n).rxReady.get lane) peer) s) n).rxReady.get lane =
      (epOf s n).rxReady.get lane := by
    rw [hPort]
    exact (Tab.get_set hReadyWf ..).trans (if_pos rfl)
  have hStill : (epOf (onEp n (trainedPort lane taps 0 ((epOf s n).rxReady.get lane) peer) s) n).rxReady.get lane = false →
      (epOf (onEp n (trainedPort lane taps 0 ((epOf s n).rxReady.get lane) peer) s) n).trainingAt.get lane = some t := by
    intro hFalse
    rw [hReady] at hFalse
    rw [hPort, hFalse]
    exact hTraining
  have hAsked : ∀ u : State, epOf (askTap n lane u) n = epOf u n := fun u => congrArg (Tab.get · n) (askTap_eports n lane u)
  refine ⟨_, rfl, ?_, ?_, ?_, ?_⟩
  · rw [hAsked, hPort]
    rfl
  · rw [hAsked, hPort]
    rfl
  · exact askTap_switch ..
  · rw [askTap_out hStill, hReady]
    rfl

theorem or_eight_le_zero (b : Bool) : (b || decide (8 ≤ 0)) = b := by simp

/-- The request names a tap and a change. -/
def namesTap (tap change : Int) : Bool := decide (-3 ≤ tap) && decide (tap ≤ 1) && change != 0

/-- The tap's new value is within its limit. -/
def tapWithin (lane : Nat) (tap change : Int) (e : EPort) : Bool :=
  decide ((e.taps.get (lane * 8 + (tap + 3).toNat) + change).natAbs ≤ Config.tapLimit (tap + 3).toNat)

theorem linkTraining_of_training {n lane t : Nat} {tap change : Int} {peerReady : Bool} {s : State} (gain : Nat)
    (hTraining : (epOf s n).trainingAt.get lane = some t) :
    linkTraining n lane tap change peerReady gain s =
      askTap n lane (onEp n (trainedPort lane
        (if namesTap tap change && tapWithin lane tap change (epOf s n) then
          (epOf s n).taps.set (lane * 8 + (tap + 3).toNat) ((epOf s n).taps.get (lane * 8 + (tap + 3).toNat) + change)
          else if decide (2 ≤ tap) && decide (tap ≤ 6) then presetTaps lane (tap - 1).toNat (epOf s n).taps else (epOf s n).taps)
        (if gain < 1 then (epOf s n).smallGains.get lane + 1 else 0)
        ((epOf s n).rxReady.get lane || 8 ≤ (if gain < 1 then (epOf s n).smallGains.get lane + 1 else 0))
        ((epOf s n).peerReady.get lane || peerReady))
        (if namesTap tap change then
          emitOut (.trainingStatus (256 + n) lane (tap + 3).toNat (!tapWithin lane tap change (epOf s n))) s else s)) := by
  unfold linkTraining
  dsimp only
  rw [hTraining]
  cases hNames : namesTap tap change with
  | true =>
    rw [namesTap] at hNames
    rw [hNames]
    rfl
  | false =>
    rw [namesTap] at hNames
    rw [hNames]
    rfl

/-- Settles O50: each clause from the equation of its command under the clause's guards. -/
theorem electricalPorts : Obligations.ElectricalPorts := by
  unfold Obligations.ElectricalPorts
  refine ⟨?_, ?_, ?_, ?_, ?_, ?_, ?_, ?_, ?_, ?_, ?_, ?_, ?_, ?_, ?_, ?_, ?_, ?_, ?_, ?_, ?_, ?_, ?_, ?_, ?_⟩
  · -- `epEnable`
    rintro s r p v ⟨hKeeper, hCheck⟩ hToNat hEpOf
    refine congrArg Host.Outcome.next ?_
    simp [epEnableWrite, guardWrite_of_done hKeeper hCheck, hToNat.not_gt, hEpOf]
  · -- `epEnable`
    rintro s r p v ⟨hKeeper, hCheck⟩ hToNat hEpOf
    refine congrArg Host.Outcome.next ?_
    simp [epEnableWrite, guardWrite_of_done hKeeper hCheck, hToNat.not_gt, hEpOf]
  · -- `epMode`
    rintro s r p v ⟨hKeeper, hCheck⟩ hLow hHigh hChange hState
    refine congrArg Host.Outcome.next ((guardWrite_of_done hKeeper hCheck).trans ?_)
    have hChange' : ¬ (!epChangeOk s p.val) = true := by simp [hChange]
    have hRange : ¬ (v.toNat < 1 || 4 < v.toNat) = true := by simpa [Nat.pos_iff_ne_zero] using ⟨by omega, hHigh⟩
    exact (if_neg Bool.false_ne_true).trans ((if_neg hRange).trans ((if_neg hChange').trans (if_neg hState)))
  · -- `epMode`
    rintro s r p v ⟨hKeeper, hCheck⟩ hToNat hEpChangeOk
    refine congrArg Host.Outcome.next ?_
    simp [epModeWrite, guardWrite_of_done hKeeper hCheck, hToNat.not_gt, hEpChangeOk]
  · -- `linkTrainingRequest`
    intro s p l tap ch pr g t hActs hTraining
    exact congrArg Host.Outcome.next (if_pos hActs)
  · -- `linkTrainingRequest`
    intro s p l tap ch pr t k hActs hWf hReadyWf hTraining hLow hHigh hChange hk hLimit
    subst hk
    have hNames : namesTap tap ch = true := by simp [namesTap, hLow, hHigh, hChange]
    have hWithin : tapWithin l.val tap ch (epOf s p.val) = true := by simpa [tapWithin] using hLimit
    have hRequest := linkTraining_of_training (peerReady := pr) (tap := tap) (change := ch) 1 hTraining
    rw [hNames, hWithin] at hRequest
    rw [if_neg (Nat.lt_irrefl 1), or_eight_le_zero] at hRequest
    obtain ⟨u, hu, hTaps, hSmall, hSwitch, hOut⟩ := askTap_trained (n := p.val) (lane := l.val) (t := t)
      (taps := (epOf s p.val).taps.set (l.val * 8 + (tap + 3).toNat) ((epOf s p.val).taps.get (l.val * 8 + (tap + 3).toNat) + ch))
      (peer := (epOf s p.val).peerReady.get l.val || pr) (s := emitOut (.trainingStatus (256 + p.val) l.val (tap + 3).toNat false) s)
      hWf hReadyWf hTraining
    exact ⟨u, congrArg Host.Outcome.next ((if_pos hActs).trans (hRequest.trans hu.symm)), hTaps, hOut, hSmall, hSwitch⟩
  · -- `linkTrainingRequest`
    intro s p l tap ch pr t k hActs hWf hReadyWf hTraining hLow hHigh hChange hk hLimit
    subst hk
    have hNames : namesTap tap ch = true := by simp [namesTap, hLow, hHigh, hChange]
    have hBeyond : tapWithin l.val tap ch (epOf s p.val) = false := by simpa [tapWithin] using hLimit
    have hNoPreset : (decide (2 ≤ tap) && decide (tap ≤ 6)) = false := by simp; omega
    have hRequest := linkTraining_of_training (peerReady := pr) (tap := tap) (change := ch) 1 hTraining
    rw [hNames, hBeyond, hNoPreset] at hRequest
    rw [if_neg (Nat.lt_irrefl 1), or_eight_le_zero] at hRequest
    obtain ⟨u, hu, hTaps, hSmall, hSwitch, hOut⟩ := askTap_trained (n := p.val) (lane := l.val) (t := t) (taps := (epOf s p.val).taps)
      (peer := (epOf s p.val).peerReady.get l.val || pr) (s := emitOut (.trainingStatus (256 + p.val) l.val (tap + 3).toNat true) s)
      hWf hReadyWf hTraining
    exact ⟨u, congrArg Host.Outcome.next ((if_pos hActs).trans (hRequest.trans hu.symm)), hTaps, hOut, hSmall, hSwitch⟩
  · -- `linkTrainingRequest`
    intro s p l tap ch pr t hActs hTraining hOutside hReady hSmall
    have hNames : namesTap tap ch = false := by simp [namesTap]; omega
    have hNoPreset : (decide (2 ≤ tap) && decide (tap ≤ 6)) = false := by simp; omega
    have hUnready : (false || decide (8 ≤ (epOf s p.val).smallGains.get l.val + 1)) = false := by simp; omega
    have hRequest := linkTraining_of_training (peerReady := pr) (tap := tap) (change := ch) 0 hTraining
    rw [hNames, hNoPreset, hReady, if_pos Nat.zero_lt_one, hUnready] at hRequest
    exact ⟨_, rfl, congrArg Host.Outcome.next ((if_pos hActs).trans (hRequest.trans rfl))⟩
  · -- `linkTrainingRequest`
    intro s p l tap ch pr t hActs hWf hReadyWf hTraining hLow hHigh hReady
    have hNames : namesTap tap ch = false := by simp [namesTap]; omega
    have hPreset : (decide (2 ≤ tap) && decide (tap ≤ 6)) = true := by simp [hLow, hHigh]
    have hRequest := linkTraining_of_training (peerReady := pr) (tap := tap) (change := ch) 1 hTraining
    rw [hNames, hPreset] at hRequest
    rw [if_neg (Nat.lt_irrefl 1), or_eight_le_zero] at hRequest
    obtain ⟨u, hu, hTaps, -, hSwitch, hOut⟩ := askTap_trained (n := p.val) (lane := l.val) (t := t)
      (taps := presetTaps l.val (tap - 1).toNat (epOf s p.val).taps) (peer := (epOf s p.val).peerReady.get l.val || pr) (s := s)
      hWf hReadyWf hTraining
    rw [hReady] at hOut
    exact ⟨u, congrArg Host.Outcome.next ((if_pos hActs).trans (hRequest.trans hu.symm)), hTaps, hOut, hSwitch⟩
  · -- `linkTrainingTimeout`
    intro s p l t hActs hTraining hTime
    refine congrArg Host.Outcome.next ?_
    rw [hTraining]
    exact if_pos (by simp [hActs, hTime])
  · -- `memberUp`
    intro s p m n hActs hTransmits hMember hBringup hTraining hClean
    have hBringup' : ((epOf s p.val).bringupAt.get m.val).isSome = true := Option.isSome_iff_ne_none.mpr hBringup
    refine congrArg Host.Outcome.next (if_pos ?_)
    simp only [hActs, hTransmits, hMember, hBringup', hTraining, hClean]
    rfl
  · -- `memberDown`
    intro s p m hActs hUp hHeadless hFibre hStart hCopper
    refine congrArg Host.Outcome.next ((if_neg (by simp [hActs, hUp])).trans ?_)
    exact if_pos (by simp [hStart, hHeadless, hFibre])
  · -- `epTrainTimeout`
    intro s p m t hActs hBringup hTime
    refine congrArg Host.Outcome.next ?_
    rw [hBringup]
    exact if_neg (by simp [hActs, hTime])
  · -- `epLoop`
    rintro s r p ⟨hKeeper, hCheck⟩ hDrainState
    refine congrArg Host.Outcome.next ?_
    simp [epLoopWrite, guardWrite_of_done hKeeper hCheck, hDrainState]
  · -- `epLoop`
    rintro s r p ⟨hKeeper, hCheck⟩ hLoop
    refine congrArg Host.Outcome.next ((guardWrite_of_done hKeeper hCheck).trans ?_)
    exact (if_neg (by decide)).trans ((if_neg (by simp)).trans ((if_pos rfl).trans (if_pos hLoop)))
  · -- `eqFreeze`
    rintro s r p v ⟨hKeeper, hCheck⟩ hToNat
    refine congrArg Host.Outcome.next ?_
    simp [eqFreezeWrite, guardWrite_of_done hKeeper hCheck, hToNat.not_gt]
  · -- `modulePresenceChange`
    intro s p n hClocks hEpOf hN
    refine congrArg Host.Outcome.next ?_
    simp [portDown, hClocks, hEpOf, hN.not_gt]
  · -- `modulePresenceChange`
    intro s p n hClocks hEpOf hN hHeadless hKeeper
    refine congrArg Host.Outcome.next ?_
    simp [epRefresh, moduleSettle, readIdentity, portDown, hClocks, hEpOf, hN.not_gt, hHeadless, hKeeper]
  · -- `moduleActivate`
    intro s p a hKeeper hState
    refine ⟨congrArg Host.Outcome.next ?_, congrArg Host.Outcome.next ?_, congrArg Host.Outcome.next ?_⟩ <;>
      exact if_neg (by simp [hKeeper, hState])
  · -- `moduleActivateTimeout`
    intro s p t hKeeper hEpOf hEpOf' hNow
    refine congrArg Host.Outcome.next ?_
    simp [moduleEnds, hKeeper, hEpOf, hEpOf', hNow]
  · -- `modulePoll`
    intro s p f hKeeper hPresent
    refine ⟨congrArg Host.Outcome.next ?_, congrArg Host.Outcome.next ?_⟩ <;> exact if_neg (by simp [hKeeper, hPresent])
  · -- `mpFrameReceive`
    intro s m b hKeeper hUp hBudget hGood hAccepts hAnswer
    refine congrArg Host.Outcome.next ((if_neg (by simp [hKeeper, hUp])).trans ((if_neg (by simp [hGood, hAccepts])).trans ?_))
    dsimp only
    rw [hBudget, hAnswer]
    rfl
  · -- `mpFrameReceive`
    intro s m b hKeeper hUp hBad
    exact congrArg Host.Outcome.next ((if_neg (by simp [hKeeper, hUp])).trans (if_pos (by simp [hBad])))
  · -- `mpFailover`
    intro s m b hKeeper hMpBegun hNow
    refine ⟨_, rfl, ?_⟩
    simp [foghornPort, hKeeper, hMpBegun, hNow]
  · -- `mpFailover`
    intro s m b hKeeper hMpBegun
    refine ⟨_, rfl, ?_⟩
    simp [foghornPort, hKeeper, hMpBegun]

end Sys2Proof.Machine
end

section
/-! Express paths requested, drained, checked, opened, measured, cleared and torn down, and a low input. -/

namespace Sys2Proof.Machine

/-- A path is ACTIVE while another request for its number is queued behind it. -/
def queuedBehindActive : State :=
  { State.reset with
    start := { Start.reset with state := .service, sectorDies := 0xFF }
    keeper := { Keeper.reset with coresRun := true }
    express := { Express.reset with
      paths := ⟨Path.reset, [(0, { Path.reset with state := .active })]⟩
      queued := ⟨none, [(0, some { Path.reset with state := .scheduled })]⟩ } }

theorem expressClear_queuedBehindActive :
    ∃ t, exec (.expressClear .operator 0 0 1) queuedBehindActive = .next t ∧ (t.express.paths.get 0).state = .active :=
  ⟨_, rfl, by decide⟩

/-- Refutes O51: the clause of EXPRESS_CLEAR does not ask that no request is queued behind the path. In `queuedBehindActive` the command
ends the queued request, and the path stays ACTIVE. -/
theorem not_expressPaths : ¬ Obligations.ExpressPaths := by
  unfold Obligations.ExpressPaths
  rintro ⟨-, -, -, -, -, -, hClear, -⟩
  obtain ⟨t, hExec, hPaths, -⟩ := hClear queuedBehindActive .operator 0 0 1 (by decide) (by decide) (by decide) (by decide) (by decide)
  obtain ⟨u, hExec', hActive⟩ := expressClear_queuedBehindActive
  rw [Host.Outcome.next.inj (hExec'.symm.trans hExec), hPaths] at hActive
  exact absurd hActive (by decide)

end Sys2Proof.Machine
end

section
/-! Staging a firmware image, its commit and write, and the anti-rollback counter. -/

namespace Sys2Proof.Machine

/-- Settles O52: each clause from the equation of its command under the clause's guards. -/
theorem firmwareUpdate : Obligations.FirmwareUpdate := by
  unfold Obligations.FirmwareUpdate
  refine ⟨?_, ?_, ?_, ?_, ?_⟩
  · -- `fwStageData`
    rintro s r d ⟨hKeeper, hCheck⟩ hLen hIdle hRoom
    have hPad : padTo 1024 d = d ++ List.replicate (1024 - d.length) 0 := by
      simp [padTo, List.take_of_length_le hLen]
    refine congrArg Host.Outcome.next ((guardWrite_of_done hKeeper hCheck).trans ((if_neg hLen.not_gt).trans ?_))
    refine (if_neg (by simp [fwBusy, hIdle])).trans ((if_neg hRoom.not_gt).trans ?_)
    rw [hPad]
    rfl
  · -- `fwCommit`
    rintro s r v b c ⟨hKeeper, hCheck⟩ hIdle hb hc
    refine congrArg Host.Outcome.next ((guardWrite_of_done hKeeper hCheck).trans ((if_neg (by simp [fwBusy, hIdle])).trans ?_))
    dsimp only
    rw [← hb, ← hc]
    clear hc hb
    by_cases hZero : c ≠ 0
    · rw [if_pos hZero, if_pos hZero]
      rfl
    · rw [if_neg hZero, if_neg hZero]
      rfl
  · -- `fwFlashWriteDone`
    intro s g hBusy hKeeper
    exact congrArg Host.Outcome.next (if_neg (by simp [fwBusy, hBusy, hKeeper]))
  · -- `rollbackAdvance`
    rintro s r v n t ⟨hKeeper, hCheck⟩ hToNat hFwSvn hRollback hBlowSteps
    refine congrArg Host.Outcome.next ?_
    simp [rollbackAdvance, guardWrite_of_done hKeeper hCheck, hToNat.not_gt, hFwSvn.not_gt, hRollback.not_ge, hBlowSteps]
    rfl
  · -- `rollbackAdvance`
    rintro s r v n x t k ⟨hKeeper, hCheck⟩ hValue hSvn hBelow rfl hStep hReady hStill
    refine congrArg Host.Outcome.next ((guardWrite_of_done hKeeper hCheck).trans ?_)
    have hBad : badStep (rollbackSteps s v.toNat) ⟨n, some x⟩ (blowSteps ((rollbackSteps s v.toNat).take n) s) =
        fuseField (25 + k) 1 (some x.val) (blowSteps ((rollbackSteps s v.toNat).take n) s) := by
      unfold badStep
      dsimp only
      rw [hStep]
      exact if_pos (by simpa using hReady)
    have hRefused : ¬ (64 < v.toNat || s.keeper.fwSvn < v.toNat) = true := by simp [hValue, hSvn]
    unfold rollbackAdvance
    rw [if_neg hRefused, if_neg hBelow.not_ge]
    dsimp only
    rw [hBad]
    exact if_neg hStill.not_ge

end Sys2Proof.Machine
end

section
/-! Fuse programming, measurements, attestation and the log. -/

namespace Sys2Proof.Machine

/-- The device's own log record: only the log, its next number and the free values change. -/
theorem logOne_eq (s : State) : ∃ l n f, logOne s = { s with keeper := { s.keeper with log := l, logNext := n }, free := f } := by
  let x := draw (draw s).2
  by_cases h : (!bit (traceEnable x.2) ((draw s).1 % 256)) = true
  · exact ⟨_, _, _, if_pos h⟩
  · exact ⟨_, _, _, if_neg h⟩

theorem logSome_eq (n : Nat) (s : State) :
    ∃ l m f, logSome n s = { s with keeper := { s.keeper with log := l, logNext := m }, free := f } := by
  induction n generalizing s with
  | zero => exact ⟨_, _, _, rfl⟩
  | succ n ih =>
    obtain ⟨l, m, f, h⟩ := logOne_eq s
    obtain ⟨l', m', f', h'⟩ := ih (logOne s)
    exact ⟨l', m', f', by rw [logSome, h', h]⟩

/-- Settles O53: each clause from the equation of its command under the clause's guards. -/
theorem fusesAndEvidence : Obligations.FusesAndEvidence := by
  unfold Obligations.FusesAndEvidence
  refine ⟨?_, ?_, ?_, ?_, ?_, ?_⟩
  · -- `fuseProgram`
    rintro s r f v ⟨hKeeper, hCheck⟩ hAllowed
    have hField : fuseField f v none s = { s with keeper := { s.keeper with
        fuses := ((s.keeper.fuses.set (4 * f) v).set (4 * f + 1) v).set (4 * f + 2) v, fuseResult := 0 } } := by
      unfold fuseField
      dsimp only
      rw [hAllowed]
      rfl
    refine congrArg Host.Outcome.next ((guardWrite_of_done hKeeper hCheck).trans ?_)
    unfold fuseProgram
    rw [Option.map_none, hField]
    rfl
  · -- `fuseProgram`
    rintro s r f v b ⟨hKeeper, hCheck⟩ hRefused
    refine congrArg Host.Outcome.next ((guardWrite_of_done hKeeper hCheck).trans ?_)
    have hField : ∀ c, fuseField f v c s = setFuseResult (fuseRefusal s f v) s := fun c => if_pos hRefused
    unfold fuseProgram
    rw [hField]
    exact if_neg hRefused
  · -- `attestRequest`
    rintro s r n ⟨hKeeper, hCheck⟩ hN hAttestNonce
    refine congrArg Host.Outcome.next ?_
    simp [attestRequest, guardWrite_of_done hKeeper hCheck, hN.not_gt, hAttestNonce, State.onKeeper]
  · -- `attestReportDone`
    intro s n hAttestNonce hKeeper
    refine congrArg Host.Outcome.next ?_
    simp [attestReportDone, hAttestNonce, hKeeper, State.onKeeper]
  · -- `measExtend`
    rintro s r i d ⟨hKeeper, hCheck⟩ hLen hIndex
    refine congrArg Host.Outcome.next ((guardWrite_of_done hKeeper hCheck).trans ((if_neg (not_not_intro hLen)).trans ?_))
    exact if_neg (by obtain h | h := hIndex <;> simp [h])
  · -- `logRead`
    intro s k x hSession hKeeper
    obtain ⟨l, m, f, hLog⟩ := logSome_eq (Config.freeValue s.free % 65) (draw s).2
    have hRead : logRead k.val s = ((logSome (Config.freeValue s.free % 65) (draw s).2).onKeeper fun y => { y with
        logLost := min (2 ^ 32 - 1) (y.logLost + (logFrom (logSome (Config.freeValue s.free % 65) (draw s).2) x.logCursor 64).2.2) }).onBop
          fun b => { b with
        sessions := b.sessions.set k.val (some { x with
          logCursor := (logFrom (logSome (Config.freeValue s.free % 65) (draw s).2) x.logCursor 64).2.1 })
        answer := stDone
        answerValue := (logFrom (logSome (Config.freeValue s.free % 65) (draw s).2) x.logCursor 64).1.flatMap fun r => listItem (logItem r) } := by
      unfold logRead
      rw [hSession]
      exact if_neg (by simp [hKeeper])
    refine ⟨_, congrArg Host.Outcome.next hRead, ?_, ⟨_, (Nat.lt_succ_iff.mp (Nat.mod_lt _ (by decide))), rfl⟩, ?_, ?_, ?_, ?_⟩
    · rw [hLog]
      rfl
    · rw [hLog]
      rfl
    · rw [hLog]
      rfl
    · rw [hLog]
      rfl
    · rw [hLog]
      rfl

end Sys2Proof.Machine
end

section
/-! Keys, sessions and the BOP domain. -/

namespace Sys2Proof.Machine

theorem bopServes_of_budget {mp : Nat} {s0 s : State} {b : Bool} (h : mpBudget mp s0 = (b, s)) : bopServes s = bopServes s0 := by
  unfold mpBudget at h
  dsimp only at h
  generalize (if s0.mgmt.mpSecond.get mp = nowNs s0 / 1000000000 then s0.mgmt.mpCount.get mp else 0) = used at h
  split at h <;> (obtain ⟨-, rfl⟩ := Prod.mk.inj h; rfl)

/-- 16 R478: a session with no request accepted ends at once. -/
theorem sessionClosed_of_idle {k : Nat} {x : Session} {s : State} (hSession : s.bop.sessions.get k = some x) (hIdle : x.accepted = []) :
    sessionClosed k s = { s with bop := { s.bop with sessions := s.bop.sessions.set k none } } := by
  unfold sessionClosed
  rw [hSession]
  simp [hIdle]

/-- The report of a change of the domain goes out of both ports, in their order. -/
theorem mldReports_of_both {s : State} (h : s.mgmt.mpUp = 3) (kind : Nat) (group : Bytes) :
    mldReports kind group s = { s with
      out := .management 1 (mldReport s 1 kind group) :: .management 0 (mldReport s 0 kind group) :: s.out } := by
  have hUp : s.mgmt.mpUp.getLsbD 0 = true ∧ s.mgmt.mpUp.getLsbD 1 = true := by
    rw [h]
    decide
  have hFirst : (emitOut (.management 0 (mldReport s 0 kind group)) s).mgmt.mpUp.getLsbD 1 = true := hUp.2
  unfold mldReports
  rw [List.foldl_cons, List.foldl_cons, List.foldl_nil, if_pos hUp.1, if_pos hFirst]
  rfl

theorem mldReport_answer (i j v : Nat) (s : State) (mp kind : Nat) (group : Bytes) :
    mldReport (answer stDone (objSet i j v s)) mp kind group = mldReport s mp kind group := by
  have hLocal : mpLinkLocal (answer stDone (objSet i j v s)) mp = mpLinkLocal s mp := rfl
  have hMac : mpMac (answer stDone (objSet i j v s)) mp = mpMac s mp := rfl
  unfold mldReport
  rw [hLocal, hMac]

/-- Settles O54: each clause from the equation of its command under the clause's guards. -/
theorem sessions : Obligations.Sessions := by
  unfold Obligations.Sessions
  refine ⟨?_, ?_, ?_, ?_, ?_, ?_, ?_, ?_, ?_⟩
  · -- `keyInstall`
    intro s0 s mp src d b hServes hBudget hShape hType hPlain hNew hb hLen hSerial hKey
    subst hb
    have hServes' : bopServes s = true := (bopServes_of_budget hBudget).trans hServes
    refine congrArg Host.Outcome.next ((if_pos hServes).trans ((mpTake_of_budget hBudget).trans ?_))
    unfold keyInstall
    rw [if_neg (by simp [hServes']), if_neg (by simp [hShape, hType, hPlain]), hNew]
    dsimp only
    rw [if_neg (by simp [hLen, hSerial]), if_neg (by simp [hKey])]
    rfl
  · -- `openMsg`
    intro s0 s u mp src k d b key r hServes hBudget hShape hType hb hLen hSerial hRole hKey hTag hLow hHigh hNumber
    subst hb
    have hServes' : bopServes s = true := (bopServes_of_budget hBudget).trans hServes
    have hFrag : ¬ (beAt (bopBody d) 2 2 < 1024 || 8192 < beAt (bopBody d) 2 2) = true := by simp [hLow, hHigh]
    refine congrArg Host.Outcome.next ((if_pos hServes).trans ((mpTake_of_budget hBudget).trans ?_))
    unfold openMessage
    dsimp only
    rw [if_neg (by simp [hServes']), if_neg (by simp [hShape, hType, hLen, hSerial]), hRole, hKey]
    dsimp only
    rw [if_neg (by simp [hTag]), if_neg hFrag, hNumber]
    rfl
  · -- `closeSession`
    intro s0 s mp src d x hServes hBudget hType hSession hIdle
    have hServes' : bopServes s = true := (bopServes_of_budget hBudget).trans hServes
    have hGet : s.bop.sessions.get (bopSession d) = some x := by
      unfold sessionOf at hSession
      split at hSession
      · exact (Option.filter_eq_some_iff.mp hSession).1
      · cases hSession
    refine congrArg Host.Outcome.next ((if_pos hServes).trans ((mpTake_of_budget hBudget).trans ?_))
    exact (if_neg (by simp [hServes'])).trans ((if_neg (by simp [hType, hSession])).trans (sessionClosed_of_idle hGet hIdle))
  · -- `sessionIdleExpire`
    intro s k x hSession hKeeper hTime hIdle
    refine congrArg Host.Outcome.next ?_
    rw [hSession]
    exact (if_pos (by simp [hKeeper, hTime])).trans (sessionClosed_of_idle hSession hIdle)
  · -- `sessionClose`
    rintro s r k x ⟨hKeeper, hCheck⟩ hNumber hSession hIdle
    refine congrArg Host.Outcome.next ((guardWrite_of_done hKeeper hCheck).trans ?_)
    have hThere : ¬ (sessGet s k.toNat).isNone = true := by simp [sessGet, hNumber, hSession]
    refine (if_neg (by omega)).trans ((if_neg hThere).trans ?_)
    rw [sessionClosed_of_idle hSession hIdle]
  · -- `keyWrite`
    rintro s r n key ⟨hKeeper, hCheck⟩ hLow hHigh hLen hAdmin
    refine congrArg Host.Outcome.next ((if_neg (by omega)).trans ?_)
    rw [if_pos (by simp [hLow, hHigh])]
    refine (guardWrite_of_done hKeeper hCheck).trans ((if_neg hLen.not_gt).trans (if_neg ?_))
    simpa using hAdmin
  · -- `domainId`
    rintro s r v ⟨hKeeper, hCheck⟩ hNone hValue hUp
    refine congrArg Host.Outcome.next ((guardWrite_of_done hKeeper hCheck).trans ?_)
    unfold domainIdWrite
    dsimp only
    rw [hNone, if_neg (Ne.symm hValue), if_pos rfl, if_neg hValue]
    rw [mldReports_of_both (by exact hUp), mldReport_answer, mldReport_answer]
    rfl
  · -- `domainId`
    rintro s r v ⟨hKeeper, hCheck⟩ hDomain hValue hUp
    refine congrArg Host.Outcome.next ((guardWrite_of_done hKeeper hCheck).trans ?_)
    unfold domainIdWrite
    dsimp only
    rw [if_neg (fun h => hDomain (h.trans hValue)), if_neg hDomain, if_pos hValue]
    rw [mldReports_of_both (by exact hUp), mldReport_answer, mldReport_answer]
    rfl
  · -- `domainRequest`
    intro s0 s mp src d key r x hServes hBudget hShape hType hFlag hSession hSerial hDomain hSame hRole hKey hTag hThere
    have hServes' : bopServes s = true := (bopServes_of_budget hBudget).trans hServes
    refine congrArg Host.Outcome.next ((if_pos hServes).trans ((mpTake_of_budget hBudget).trans ?_))
    unfold domainRequest
    dsimp only
    rw [if_neg (by simp [hServes']), if_neg (by simp [hShape, hType, hFlag, hSession, hSerial]), if_neg (by simp [hDomain, hSame]), hRole, hKey]
    dsimp only
    rw [if_neg (by simp [hTag]), if_neg (by simp [hThere])]

end Sys2Proof.Machine
end

section
/-! Requests, their execution and answers, object writes and the register window. -/

namespace Sys2Proof.Machine

/-- A request of one operation that does nothing (opcode 4). -/
def idleRequest : Request where
  seq := 0
  flags := 0
  frags := 0
  got := [(0, 4 :: List.replicate 15 0)]
  lastAt := 0
  mp := 0
  source := 0

def idleOp : BopOp := ⟨4, 0, 0, 0, 0, []⟩

/-- A session with that request accepted. -/
def askingSession : Session := { newSession .admin (List.replicate 32 0) 1024 0 0 0 with accepted := [idleRequest] }

/-- The session once the request is served. -/
def servedSession : Session :=
  { askingSession with accepted := [], replies := [(0, [0, 0] ++ beBytes 2 1 ++ resultBytes idleOp ⟨stDone, [], 0⟩)] }

/-- A state whose list of sessions names session 0 twice, so that it is not in canonical form: the served session is the list's default,
so storing it drops the first entry and uncovers the second, whose request is served too. -/
def sessionListedTwice : State :=
  { State.reset with
    start := { Start.reset with state := .service, sectorDies := 0xFF }
    keeper := { Keeper.reset with coresRun := true }
    bop := { Bop.reset with
      turn := 11
      sessions := ⟨some servedSession, (0, some askingSession) :: (0, some askingSession) ::
        (List.range 257).map fun j => (8 * (j + 1), none)⟩ } }

/-- The state while the first request runs. -/
def requestRunning : State :=
  { sessionListedTwice with bop := { sessionListedTwice.bop with
      turn := 0
      sessions := sessionListedTwice.bop.sessions.set 0 (some { askingSession with run := some { newRun idleRequest with left := [] } }) } }

theorem requestExecute_sessionListedTwice : ∃ t, exec (.requestExecute 0) sessionListedTwice = .next t ∧ t.out.length = 2 :=
  ⟨_, rfl, by decide +kernel⟩

theorem sendReply_once : (sendReply 0 0 0 0 servedSession askingSession.key ([0, 0] ++ beBytes 2 1 ++ resultBytes idleOp ⟨stDone, [], 0⟩)
    { requestRunning with bop := { requestRunning.bop with
      sessions := requestRunning.bop.sessions.set 0 (some servedSession) } }).out.length = 1 := by decide +kernel

/-- Refutes O55: the clause of a request's execution does not ask for a canonical list of sessions. In `sessionListedTwice` the session
read back after its request is served is another entry, whose request the same command serves as well: two replies go out. -/
theorem not_requests : ¬ Obligations.Requests := by
  unfold Obligations.Requests
  rintro ⟨-, -, hRequest, -⟩
  have hExec := hRequest sessionListedTwice requestRunning requestRunning 0 askingSession
    { askingSession with run := some { newRun idleRequest with left := [] } } servedSession idleRequest idleOp ⟨stDone, [], 0⟩
    (by decide) (by decide +kernel) (by decide +kernel) (by decide) (by decide) (by decide) (by decide) (by decide) (by decide) rfl rfl
    (by decide) (by decide) (by decide) (by decide) rfl
  obtain ⟨t, hTwice, hOut⟩ := requestExecute_sessionListedTwice
  have hOnce := sendReply_once
  rw [Host.Outcome.next.inj (hTwice.symm.trans hExec)] at hOut
  exact absurd (hOut.symm.trans hOnce) (by decide)

end Sys2Proof.Machine
end

section
/-! Foghorn events, their acknowledgement, heartbeats and collectors. -/

namespace Sys2Proof.Machine

/-- 16 R488: an event whose code and unit are not held off, with room in the ring, is kept under the next number. -/
theorem raise_of_fresh {code sev unit : Nat} {args : Bytes} {s : State} (hKeeper : keeperUp s = true) (hSeverity : sev ≤ cfgFogSeverity s)
    (hHoldoff : findHoldoff code unit s.bop.holdoffs = none ∨ ∃ h, findHoldoff code unit s.bop.holdoffs = some h ∧ h.suppressed = 0 ∧
      h.raisedAt + cfgFogHoldoff s * 1000000 ≤ nowNs s) (hRoom : s.bop.ring.length < 1024) :
    raise code sev unit args s = { s with bop := { s.bop with
      holdoffs := ⟨code, unit, nowNs s, 0⟩ :: s.bop.holdoffs.filter fun h => !(h.code = code && h.unit = unit)
      ring := s.bop.ring ++ [⟨s.bop.nextSeq, BitVec.ofNat 32 (tmuNs s), code, sev, 0, unit, padTo 32 args⟩]
      nextSeq := (s.bop.nextSeq + 1) % 2 ^ 32 } } := by
  unfold raise
  rw [if_neg (by simp [hKeeper, hSeverity])]
  dsimp only
  obtain hNone | ⟨h, hSome, hZero, hOver⟩ := hHoldoff
  · rw [hNone]
    simp [hRoom.not_ge]
  · rw [hSome]
    simp [hRoom.not_ge, hOver.not_gt, hZero]

/-- A datagram of at most 16 events. -/
theorem sendEvents_of_few {c : Nat} {l : List Event} {s : State} (hSome : l ≠ []) (hFew : l.length ≤ 16) :
    sendEvents c l.length l s = emitOut (.foghorn c (foghornPort s) (foghornDatagram s 1 c l)) s := by
  have hPos : l.length ≠ 0 := by simpa using hSome
  obtain ⟨n, hn⟩ := Nat.exists_eq_succ_of_ne_zero hPos
  have hRest : ∀ (m : Nat) (u : State), sendEvents c m [] u = u := by
    intro m u
    cases m <;> rfl
  rw [hn, sendEvents, if_neg (by simpa using hSome), List.drop_of_length_le hFew, List.take_of_length_le hFew, hRest]

theorem foghornSend_of_due {c : Nat} {l due : List Event} {x : Collector} {s : State} (hKeeper : keeperUp s = true)
    (hx : x = s.bop.collectors.get c) (hState : x.state = 1) (hUp : s.mgmt.mpUp.getLsbD (foghornPort s) = true)
    (hl : l = eventsFrom s x.from_) (hDue : due = l.filter (x.due (wallNs s))) (hSome : due ≠ []) (hFew : due.length ≤ 16) :
    foghornSend c s = { s with
      bop := { s.bop with collectors := s.bop.collectors.modify c fun y => { y with sent := l.map (x.afterSend (wallNs s) (cfgFogRetry s)) } }
      out := .foghorn c (foghornPort s) (foghornDatagram s 1 c due) :: s.out } := by
  subst hx hl hDue
  unfold foghornSend
  dsimp only
  rw [if_neg (by simpa [hKeeper, hState, hUp] using hSome), sendEvents_of_few hSome hFew]
  rfl

/-- 16 R490: an event sent again waits twice as long, to at most 3.2 s. -/
theorem afterSend_eq (x : Collector) (now retry : Nat) (e : Event) : x.afterSend now retry e = match x.sentEvent e with
    | none => ⟨e.seq, now, retry⟩
    | some t => if t.sentAt + t.waitMs * 1000000 ≤ now then ⟨e.seq, now, min 3200 (2 * t.waitMs)⟩ else t := by
  unfold Collector.afterSend Collector.due
  cases x.sentEvent e with
  | none => rfl
  | some t =>
    dsimp only
    by_cases h : t.sentAt + t.waitMs * 1000000 ≤ now
    · rw [if_pos h, if_pos (by rw [Option.all_some]; exact decide_eq_true h)]
    · rw [if_neg h, if_neg (by rw [Option.all_some]; simpa using h)]

/-- Settles O56: each clause from the equation of its command under the clause's guards. -/
theorem foghorn : Obligations.Foghorn := by
  unfold Obligations.Foghorn
  refine ⟨?_, ?_, ?_, ?_, ?_, ?_, ?_, ?_, ?_⟩
  · -- `foghornRaise`
    intro s e hKeeper hSeverity hHoldoff hRoom
    exact congrArg Host.Outcome.next (raise_of_fresh hKeeper hSeverity hHoldoff hRoom)
  · -- `foghornRaise`
    intro s e h hKeeper hSeverity hHoldoff hHeld
    refine congrArg Host.Outcome.next ?_
    unfold raise
    rw [if_neg (by simp [hKeeper, hSeverity])]
    dsimp only
    rw [hHoldoff]
    exact if_pos hHeld
  · -- `foghornSend`
    intro s c x l hKeeper hx hState hUp hl hNew hSome hFew
    have hNew' : ∀ e ∈ l, x.sentEvent e = none := by simpa using hNew
    have hDue : l = l.filter (x.due (wallNs s)) :=
      (List.filter_eq_self.mpr fun e he => by simp [Collector.due, hNew' e he]).symm
    have hSent : l.map (x.afterSend (wallNs s) (cfgFogRetry s)) = l.map fun e => ⟨e.seq, wallNs s, cfgFogRetry s⟩ :=
      List.map_congr_left fun e he => by rw [afterSend_eq, hNew' e he]
    refine congrArg Host.Outcome.next ((foghornSend_of_due hKeeper hx hState hUp hl hDue hSome hFew).trans ?_)
    rw [hSent]
  · -- `foghornSend`
    intro s c x l due hKeeper hx hState hUp hl hDue hSome hFew
    refine congrArg Host.Outcome.next ((foghornSend_of_due hKeeper hx hState hUp hl hDue hSome hFew).trans ?_)
    rw [funext (afterSend_eq x (wallNs s) (cfgFogRetry s))] <;> rfl
  · -- `foghornAck`
    intro s c d x q hKeeper hx hState hGood hq hFrom hHighest hNext
    subst hx hq
    have hCovers : (seqFrom (s.bop.collectors.get c.val).from_ (beAt d 16 4) && seqFrom (beAt d 16 4) (highestSeq s) &&
        beAt d 16 4 ≠ s.bop.nextSeq) = true := by simp [hFrom, hHighest, hNext]
    refine congrArg Host.Outcome.next ((if_neg (by simp [hKeeper, hState, hGood])).trans ?_)
    dsimp only
    rw [hCovers]
    rfl
  · -- `foghornHeartbeat`
    intro s c hKeeper hState hUp hTime
    exact congrArg Host.Outcome.next (if_pos (by simp [hKeeper, hState, hUp, hTime]))
  · -- `collectorStale`
    intro s c hKeeper hState hTime
    exact congrArg Host.Outcome.next (if_pos (by simp [hKeeper, hState, hTime]))
  · -- `collectorAddr`
    rintro s r c a ⟨hKeeper, hCheck⟩ hA
    refine congrArg Host.Outcome.next ?_
    simp [collectorWrite, guardWrite_of_done hKeeper hCheck, hA.not_gt, State.onBop]
  · -- `keyWrite`
    rintro s r key ⟨hKeeper, hCheck⟩ hKey
    refine congrArg Host.Outcome.next ?_
    simp [foghornKeyWrite, guardWrite_of_done hKeeper hCheck, hKey.not_gt, State.onBop]

end Sys2Proof.Machine
end

section
/-! Register writes, mailboxes, bit aliases and the accesses of JTAG. -/

namespace Sys2Proof.Machine

/-! The checks of an access and what they let through (17 R496 to R502). -/

theorem writeOn_of_plain {m die block word : Nat} (v : Word) (s : State) (hAlias : block ≠ 0xFE) (hMailbox : block ≠ 0xF8) :
    writeOn m die block word v s = guardReg m die block word (regStore m die block word v) s := by
  unfold writeOn
  rw [if_neg hAlias, if_neg hMailbox]

theorem regWrite_of_die {m : Nat} {a v : Word} {s : State} (hAligned : addrAligned a = true) (hDie : addrDie a < 15) :
    regWrite m a v s = writeOn m (addrDie a) (addrBlock a) (addrWord a) v s := by
  unfold regWrite
  rw [if_neg (by simp [hAligned]), if_neg (by omega)]

theorem guardReg_of_denied {m die block word : Nat} {k : State → State} {s : State}
    (h : accessCheck s m die block word true = .denied) : guardReg m die block word k s = count die 0xD001 0 1 s := by
  unfold guardReg
  rw [h]

theorem guardReg_of_absent {m die block word : Nat} {k : State → State} {s : State}
    (h : accessCheck s m die block word true = .absent) : guardReg m die block word k s = count die 0x0001 0 1 s := by
  unfold guardReg
  rw [h]

/-- A block of registers that only hold what is written. -/
theorem regStore_of_plain {m die block word : Nat} {v : Word} {s : State} (h : blockPlain block = true) :
    regStore m die block word v s = { s with regs := { s.regs with plain := s.regs.plain.set (plainKey die block word) v } } := by
  unfold regStore
  split
  case h_9 => rfl
  all_goals exact absurd h (by decide)

theorem absent_block {s : State} {die block : Nat} (h : blockAbsent s die block = true) : block < 0x48 := by
  simp only [blockAbsent, Bool.and_eq_true, Bool.or_eq_true, beq_iff_eq, decide_eq_true_eq] at h
  omega

/-- An access of a unit that the part lacks is counted (17 R499). -/
theorem accessCheck_of_absent {s : State} {m die block word : Nat} {write : Bool} (hDie : die < 8)
    (hAbsent : blockAbsent s die block = true) (hAnswers : dieAnswers s die = true) (hListed : blockListed die block = true) :
    accessCheck s m die block word write = .absent := by
  unfold accessCheck
  rw [if_neg (by simp [hAnswers, hListed]; omega), if_pos hAbsent]

/-- A mailbox's transfer whose words all pass (17 R502). -/
theorem mbTransfer_of_granted {m die : Nat} {b : Mailbox} {u : State} (hb : b = u.regs.mailboxes.get (die * 16 + m))
    (hAligned : addrAligned b.addr = true)
    (hWords : ∀ i < b.countM1 + 1, mbWordCheck u m die (addrBlock b.addr) (addrWord b.addr + i) b.write = .granted) :
    mbTransfer m die u = onMailbox m die (fun b => { b with error := false })
      (if b.write then mbWrites m die (addrBlock b.addr) b.data (b.countM1 + 1) (addrWord b.addr) 0 u
        else mbReads m die (addrBlock b.addr) (b.countM1 + 1) (addrWord b.addr) 0 u) := by
  have hFind : ((upTo (b.countM1 + 1)).map fun i => mbWordCheck u m die (addrBlock b.addr) (addrWord b.addr + i) b.write).find?
      (· ≠ .granted) = none := by
    rw [List.find?_eq_none]
    intro x hx
    obtain ⟨i, hi, rfl⟩ := List.mem_map.mp hx
    simp [hWords i (mem_upTo.mp hi)]
  unfold mbTransfer
  dsimp only
  rw [← hb, if_neg (by simp [hAligned]), hFind]

/-- A mailbox's transfer whose first word that does not pass is denied. -/
theorem mbTransfer_of_denied {m die i : Nat} {b : Mailbox} {u : State} (hb : b = u.regs.mailboxes.get (die * 16 + m))
    (hAligned : addrAligned b.addr = true) (hi : i ≤ b.countM1)
    (hWords : ∀ j < i, mbWordCheck u m die (addrBlock b.addr) (addrWord b.addr + j) b.write = .granted)
    (hDenied : mbWordCheck u m die (addrBlock b.addr) (addrWord b.addr + i) b.write = .denied) :
    mbTransfer m die u = onMailbox m die (fun b => { b with error := true }) (count die 0xD001 0 1 u) := by
  have hFind : ((upTo (b.countM1 + 1)).map fun i => mbWordCheck u m die (addrBlock b.addr) (addrWord b.addr + i) b.write).find?
      (· ≠ .granted) = some .denied := by
    rw [List.find?_eq_some_iff_getElem]
    refine ⟨by decide, i, by simp [upTo]; omega, by simp [upTo, hDenied], fun j hj => ?_⟩
    simp [upTo, hWords j hj]
  unfold mbTransfer
  dsimp only
  rw [← hb, if_neg (by simp [hAligned]), hFind]

/-- MB_GO writes MB_CTL with the GO bit set. -/
theorem mbCtlWrite_go (m die : Nat) (v : Word) (s : State) : mbCtlWrite m die (v ||| 0x80000000) s =
    mbTransfer m die (onMailbox m die (fun b => { b with write := v.getLsbD 28, countM1 := bits v.toNat 3 0 }) s) := by
  have hGo : (v ||| 0x80000000).getLsbD 31 = true := by simp
  have hWrite : (v ||| 0x80000000).getLsbD 28 = v.getLsbD 28 := by simp
  have hCount : bits (v ||| 0x80000000).toNat 3 0 = bits v.toNat 3 0 := by
    have hLow : (v ||| 0x80000000).setWidth 4 = v.setWidth 4 := by
      rw [BitVec.setWidth_or]
      simp
    have hNat := congrArg BitVec.toNat hLow
    simp only [BitVec.toNat_setWidth] at hNat
    simpa [bits] using hNat
  unfold mbCtlWrite
  rw [hGo, hWrite, hCount]
  rfl

/-- Settles O57: each clause from the equation of its command under the clause's guards. -/
theorem registerAccess : Obligations.RegisterAccess := by
  unfold Obligations.RegisterAccess
  refine ⟨?_, ?_, ?_, ?_, ?_, ?_, ?_, ?_, ?_, ?_, ?_, ?_, ?_, ?_, ?_⟩
  · -- `registerWrite`
    intro s m a v hAligned hDie hAlias hMailbox hGranted
    refine congrArg Host.Outcome.next ((regWrite_of_die hAligned (by omega)).trans ?_)
    exact (writeOn_of_plain v s hAlias hMailbox).trans (guardReg_of_granted hGranted)
  · -- `registerWrite`
    intro s m a v hAligned hDie hPlain hGranted
    have hAlias : addrBlock a ≠ 0xFE := fun h => absurd (h ▸ hPlain) (by decide)
    have hMailbox : addrBlock a ≠ 0xF8 := fun h => absurd (h ▸ hPlain) (by decide)
    refine congrArg Host.Outcome.next ((regWrite_of_die hAligned (by omega)).trans ?_)
    exact (writeOn_of_plain v s hAlias hMailbox).trans ((guardReg_of_granted hGranted).trans (regStore_of_plain hPlain))
  · -- `registerWrite`
    intro s m a v hAligned hDie hAlias hDenied
    refine congrArg Host.Outcome.next ((regWrite_of_die hAligned (by omega)).trans ?_)
    exact (if_neg hAlias).trans (guardReg_of_denied hDenied)
  · -- `registerWrite`
    intro s m a v hAligned hDie hSome hClocks hBlock
    refine congrArg Host.Outcome.next ((if_neg (by simp [hAligned])).trans ((if_pos hDie).trans ?_))
    exact (if_neg (by simp [hSome, hClocks])).trans (if_neg (by simp [hBlock]))
  · -- `absentUnitAccess`
    intro s m a w hAligned hDie hAbsent hAnswers hListed
    have hBlock := absent_block hAbsent
    have hCheck : ∀ write, accessCheck s m.val (addrDie a) (addrBlock a) (addrWord a) write = .absent := fun write =>
      accessCheck_of_absent hDie hAbsent hAnswers hListed
    refine congrArg Host.Outcome.next ((if_pos (by simp [hDie, hAbsent])).trans ?_)
    cases w with
    | some v =>
      refine (regWrite_of_die hAligned (by omega)).trans ?_
      exact (writeOn_of_plain v s (by omega) (by omega)).trans (guardReg_of_absent (hCheck true))
    | none =>
      have hRead : readOn m.val (addrDie a) (addrBlock a) (addrWord a) s = (.absent, 0, count (addrDie a) 0x0001 0 1 s) := by
        unfold readOn
        rw [hCheck false]
      dsimp only
      unfold regReadAt
      rw [if_neg (by simp [hAligned]; omega), hRead]
  · -- `mbGo`
    intro s m die v b u hGranted hu hb hAligned hWords
    refine congrArg Host.Outcome.next ((guardReg_of_granted hGranted).trans ((mbCtlWrite_go ..).trans ?_))
    rw [← hu]
    exact mbTransfer_of_granted hb hAligned hWords
  · -- `mbGo`
    intro s m die v b u i hGranted hu hb hAligned hi hWords hDenied
    refine congrArg Host.Outcome.next ((guardReg_of_granted hGranted).trans ((mbCtlWrite_go ..).trans ?_))
    rw [← hu]
    exact mbTransfer_of_denied hb hAligned hi hWords hDenied
  · -- `bitAliasWrite`
    intro s m die w x hAlias hGranted hBit hBlock
    refine congrArg Host.Outcome.next ?_
    have hAlias' : accessCheck s m.val die.val 0xFE w.toNat true = .granted := hAlias
    unfold aliasWrite
    rw [hAlias']
    refine (guardReg_of_granted hGranted).trans ?_
    exact (if_pos hBit).trans (if_neg (by simp [hBlock]))
  · -- `regAccess`
    intro s u v a w hu hRead
    refine congrArg Host.Outcome.next ?_
    have hRead' : regReadAt 10 a (jtagMark false s) = (w, v) := hu ▸ hRead
    dsimp only
    rw [show (none : Option Word).isSome = false from rfl, hRead']
    rfl
  · -- `regAccess`
    intro s u a v hU
    refine congrArg Host.Outcome.next ?_
    simp [jtagMark, jtagGives, writeErrs, regWrite, hU, State.onRegs, State.onRas]
  · intro s hAdmits hState hClocks
    exact (if_neg (by simp [hAdmits])).trans ((if_neg hState).trans (if_pos hClocks))
  · -- `frzRead`
    intro s die n a hState hPolicy
    have hRead : frozenReg (s.onRas fun x => { x with frzJtag := true }) die.val a = frozenReg s die.val a := rfl
    have hOpen : ¬ (s.start.state ≠ .frozen || 2 ≤ jtagPolicy s) = true := by simp [hState, hPolicy]
    refine congrArg Host.Outcome.next ((if_neg hOpen).trans ?_)
    dsimp only
    rw [hRead]
    rfl
  · -- `frzRead`
    intro s die n a off hState hPolicy hOff hUp hTop hGood
    subst hOff
    have hOpen : ¬ (s.start.state ≠ .frozen || 2 ≤ jtagPolicy s) = true := by simp [hState, hPolicy]
    have hDie : ¬ (die.val = 8 || !dieUp s die.val) = true := by simp [hUp]; omega
    have hRead : ¬ (memTop s die.val < 4 * (n.toNat * 2 ^ 32 + a.toNat) + 4 ||
        memBad s (memAddr die.val (4 * (n.toNat * 2 ^ 32 + a.toNat))) 4) = true := by
      simp only [hGood, Bool.or_false, decide_eq_true_eq]
      exact Nat.not_lt.mpr hTop
    exact congrArg Host.Outcome.next ((if_neg hOpen).trans ((if_neg hDie).trans (if_neg hRead)))
  · -- `frzRead`
    intro s die n a hState
    refine congrArg Host.Outcome.next ?_
    simp [jtagScan, hState]
    rfl
  · -- `memoryIslandIdle`
    intro s die t hIsland hWall
    refine congrArg Host.Outcome.next ?_
    simp [hIsland, hWall, State.onRas]

end Sys2Proof.Machine
end

section
/-! The reference of the configuration CRC, its commit and the mismatch that a change or an upset reports. -/

namespace Sys2Proof.Machine

/-! The reference of a die and its comparison with the running CRC (17 R504 to R506). -/

/-- A comparison that raises no event only keeps whether the reference matches. -/
theorem cfgCompare_of_no_event {s : State} {die : Nat} (h : s.regs.cfgMatch.get die = false ∨ s.regs.cfgRef.get die = cfgRun s die) :
    cfgCompare die s = { s with regs := { s.regs with cfgMatch := s.regs.cfgMatch.set die (cfgRun s die == s.regs.cfgRef.get die) } } :=
  if_neg (by rcases h with h | h <;> simp [h])

theorem cfgCompare_of_event {s : State} {die : Nat} (hMatch : s.regs.cfgMatch.get die = true)
    (hDiffers : s.regs.cfgRef.get die ≠ cfgRun s die) :
    cfgCompare die s = raise 0x1F01 0 (unitOf die 0 0) (args32 [((cfgRun s die).toNat : Int), ((s.regs.cfgRef.get die).toNat : Int)])
      { s with regs := { s.regs with cfgMatch := s.regs.cfgMatch.set die false, cfgSeen := s.regs.cfgSeen.set die true } } := by
  have hNow : (cfgRun s die == s.regs.cfgRef.get die) = false := by simpa using fun h => hDiffers h.symm
  refine (if_pos (by simp [hMatch, hNow])).trans ?_
  rw [hNow]
  rfl

/-- A new reference that raises no event. -/
theorem cfgRefSet_of_no_event {s : State} {die : Nat} {v : Word} (hWf : s.regs.cfgRef.wf = true)
    (h : s.regs.cfgMatch.get die = false ∨ v = cfgRun s die) :
    cfgRefSet die v s = { s with regs := { s.regs with
      cfgRef := s.regs.cfgRef.set die v, cfgMatch := s.regs.cfgMatch.set die (cfgRun s die == v) } } := by
  have hGet : (s.regs.cfgRef.set die v).get die = v := by simp [Tab.get_set hWf]
  have hKept : s.regs.cfgMatch.get die = false ∨ (s.regs.cfgRef.set die v).get die = cfgRun s die := h.imp id hGet.trans
  refine (cfgCompare_of_no_event (s := s.onRegs fun x => { x with cfgRef := x.cfgRef.set die v }) hKept).trans ?_
  simp only [State.onRegs, hGet]
  rfl

theorem cfgRefSet_of_event {s : State} {die : Nat} {v : Word} (hWf : s.regs.cfgRef.wf = true)
    (hMatch : s.regs.cfgMatch.get die = true) (hDiffers : v ≠ cfgRun s die) :
    cfgRefSet die v s = raise 0x1F01 0 (unitOf die 0 0) (args32 [((cfgRun s die).toNat : Int), (v.toNat : Int)])
      { s with regs := { s.regs with cfgRef := s.regs.cfgRef.set die v
                                     cfgMatch := s.regs.cfgMatch.set die false
                                     cfgSeen := s.regs.cfgSeen.set die true } } := by
  have hGet : (s.regs.cfgRef.set die v).get die = v := by simp [Tab.get_set hWf]
  have hNew : (s.regs.cfgRef.set die v).get die ≠ cfgRun s die := hGet.symm ▸ hDiffers
  refine (cfgCompare_of_event (s := s.onRegs fun x => { x with cfgRef := x.cfgRef.set die v }) hMatch hNew).trans ?_
  simp only [State.onRegs, hGet]
  rfl

/-- Settles O58: each clause from the equation of its command under the clause's guards. -/
theorem configurationCrc : Obligations.ConfigurationCrc := by
  unfold Obligations.ConfigurationCrc
  refine ⟨?_, ?_, ?_, ?_⟩
  · -- `cfgCommit`
    intro s m die hGranted hWf
    refine congrArg Host.Outcome.next ((guardReg_of_granted hGranted).trans ?_)
    refine (cfgRefSet_of_no_event hWf (.inr rfl)).trans ?_
    rw [beq_self_eq_true]
  · -- `cfgRefWrite`
    intro s m die v hGranted hWf hQuiet
    exact congrArg Host.Outcome.next ((guardReg_of_granted hGranted).trans (cfgRefSet_of_no_event hWf hQuiet))
  · -- `cfgRefWrite`
    intro s m die v hGranted hWf hMatch hDiffers
    exact congrArg Host.Outcome.next ((guardReg_of_granted hGranted).trans (cfgRefSet_of_event hWf hMatch hDiffers))
  · -- `cfgRecompute`
    intro s die v hAnswers hDiffers hWf
    refine ⟨congrArg Host.Outcome.next (if_neg (by simp [hAnswers, hDiffers])), ?_⟩
    simp [cfgRun, Tab.get_set hWf]

end Sys2Proof.Machine
end

section
/-! A descriptor is fetched, carried out and completed; a channel is enabled, its head moved and aborted. -/

namespace Sys2Proof.Machine

/-! The descriptor of one 64-byte unit and its completion (17 R511 to R522). -/

/-- The end of a descriptor whose units all moved: what it wrote is covered by new check bytes. -/
theorem settleMoved_of_moved {eng ch owner dst n : Nat} {g : Nat × Nat} {ecc : Bool} {m : Moved} {t : State} (h : m = ⟨none, ecc, t⟩) :
    settleMoved eng ch g { m with st := if m.err.isNone then coverMem m.st eng owner dst n else m.st } =
      emitOutcome (some g) (if ecc then 0x08 else 0x01) 0 (coverMem t eng owner dst n) := by
  subst h
  rfl

theorem fillUnits_one {eng owner dst j : Nat} {b : Bytes} {s : State} (h : dmaUnit s eng owner dst = .ok j) :
    fillUnits eng owner b 1 dst false s = ⟨none, false, s.putMem j b⟩ := by
  unfold fillUnits
  rw [h]
  rfl

theorem copyUnits_one {eng owner src dst k j : Nat} {s : State} (hSrc : dmaUnit s eng owner src = .ok k)
    (hDst : dmaUnit s eng owner dst = .ok j) :
    copyUnits eng owner 1 src dst false s = ⟨none, memBad s k 64,
      s.putMem j (if memBad s k 64 then List.replicate 64 0 else memSeen s k 64)⟩ := by
  unfold copyUnits
  rw [hSrc]
  dsimp only
  rw [hDst]
  unfold readUnit copyUnits
  cases memBad s k 64 <;> rfl

/-- A completed descriptor leaves the channel and, when it asks for it or failed, sets the channel's interrupt. -/
theorem chanDone_eq (eng ch status : Nat) (irq : Bool) (s : State) : chanDone eng ch status irq s = { s with regs := { s.regs with
    chans := s.regs.chans.modify (chKey eng ch) (fun y => { y with
      flight := y.flight.drop 1, tail := y.tail + 1, lastStatus := status, done := y.done + 1, error := y.error || decide (6 ≤ status) })
    engines := if irq || decide (6 ≤ status) then s.regs.engines.modify eng (fun g => { g with
      irqStatus := g.irqStatus ||| BitVec.ofNat 32 (2 ^ ch) }) else s.regs.engines } } := by
  unfold chanDone
  dsimp only
  split <;> rfl

/-- Settles O59: each clause from the equation of its command under the clause's guards. -/
theorem dmaEngines : Obligations.DmaEngines := by
  unfold Obligations.DmaEngines
  refine ⟨?_, ?_, ?_, ?_, ?_, ?_, ?_, ?_, ?_, ?_⟩
  · -- `chHeadWrite`
    intro s m e c v hGranted
    refine congrArg Host.Outcome.next ?_
    simp [chHeadSet, guardReg_of_granted hGranted]
    rfl
  · -- `chEnable`
    intro s m e c v hGranted hAbort
    exact congrArg Host.Outcome.next ((guardReg_of_granted hGranted).trans (if_neg (Bool.eq_false_iff.mp hAbort)))
  · -- `chAbort`
    intro s m e c hGranted
    refine congrArg Host.Outcome.next ?_
    simp [chanAbort, guardReg_of_granted hGranted]
    rfl
  · -- `dmaDescriptorFetch`
    intro s e c u x i a k d hRuns hHalted hHalting hx hEnable hError hFlight hLeft hSound hi ha hAligned hUnit hGood hd
    subst hx hi ha
    have hOpen : ¬ (!engineRuns s e.val || (engineAt s e.val).halted || (engineAt s e.val).halting || !(chanAt s e.val c.val).enable
        || (chanAt s e.val c.val).error || (chanAt s e.val c.val).flight.any (fun f => 6 ≤ f.outcome)
        || leftToFetch (chanAt s e.val c.val) = 0
        || !ringSound (chanAt s e.val c.val) (((chanAt s e.val c.val).head - (chanAt s e.val c.val).tail).toNat)) = true := by
      simp [hRuns, hHalted, hHalting, hEnable, hError, hFlight, hLeft, hSound, -BitVec.toNat_sub]
    refine congrArg Host.Outcome.next ((if_neg hOpen).trans ((if_neg (not_not_intro hAligned)).trans ?_))
    dsimp only
    rw [hUnit]
    refine (if_neg (by simp [hGood])).trans ((if_neg (by simp [hFlight])).trans ?_)
    rw [hd]
    rfl
  · intro s e c g d j hOp hAligned hGood hLength hDst
    unfold runDesc
    rw [if_neg (by simp [hAligned]), if_neg (by simp [hGood]), hOp, hLength]
    exact settleMoved_of_moved (fillUnits_one hDst)
  · intro s e c g d k j hOp hAligned hGood hLength hSrc hDst
    unfold runDesc
    rw [if_neg (by simp [hAligned]), if_neg (by simp [hGood]), hOp, hLength]
    exact settleMoved_of_moved (copyUnits_one hSrc hDst)
  · -- `dmaDescriptorComplete`
    intro s e c f l k m hFlight hRuns hOutcome hUnit hm
    subst hm
    have hDone : dmaComplete e.val c.val s = chanDone e.val c.val f.outcome f.irq (match f.stamp with
        | some x => (s.putMem (k + f.address % 64 + 56) [BitVec.ofNat 8 f.outcome]).putMem (k + f.address % 64 + 60) (leBytes 4 x.toNat)
        | none => s.putMem (k + f.address % 64 + 56) [BitVec.ofNat 8 f.outcome]) := by
      unfold dmaComplete
      rw [hFlight]
      dsimp only
      rw [if_neg (by simp [hRuns, hOutcome]), hUnit] <;> rfl
    refine ⟨_, congrArg Host.Outcome.next (hDone.trans (chanDone_eq ..)), ?_⟩
    cases f.stamp <;> exact ⟨rfl, rfl, rfl, rfl⟩
  · -- `dmaHalted`
    intro s e hRuns hHalting hFlights
    have hNone : (upTo 32).any (fun c => !(chanAt s e.val c).flight.isEmpty) = false := by
      rw [List.any_eq_false]
      intro c hc
      simpa using hFlights ⟨c, mem_upTo.mp hc⟩
    exact congrArg Host.Outcome.next (if_neg (by simp [hRuns, hHalting, hNone]))
  · -- `resume`
    intro s m e hGranted hEngineAt
    refine congrArg Host.Outcome.next ?_
    simp [dmaResume, guardReg_of_granted hGranted, hEngineAt]
    rfl
  · -- `resume`
    rintro s r m e ⟨hKeeper, hCheck⟩ hEngineAt
    refine congrArg Host.Outcome.next ?_
    simp [dmaResume, guardWrite_of_done hKeeper hCheck, hEngineAt]
    rfl

end Sys2Proof.Machine
end

section
/-! Scrubbing, memory errors, self-tests of operator cells, retests and the sticky counter flags. -/

namespace Sys2Proof.Machine

/-- A device that is HALTED already, of an earlier cause, with one die up and one tile up on it. -/
def haltedWithOneTile : State :=
  { State.reset with
    start := { Start.reset with state := .halted, haltCause := 0, sectorDies := 1, aihornTiles := 2, partCode := 0 } }

/-- The loss of the last tile takes the die down, and the device stays HALTED with the cause it has. -/
theorem crosscheckRetest_haltedWithOneTile :
    ∃ t, exec (.crosscheckRetest 0 1 true) haltedWithOneTile = .next t ∧ t.start.haltCause = 0 :=
  ⟨_, rfl, by decide +kernel⟩

/-- Refutes O60: the clause of the last tile of the last die does not ask that the device is not HALTED yet. In `haltedWithOneTile` the
halt cause stays that of the earlier halt. -/
theorem not_silentErrors : ¬ Obligations.SilentErrors := by
  unfold Obligations.SilentErrors
  rintro ⟨-, -, -, -, -, -, -, -, -, -, -, -, -, hLastTile, -⟩
  obtain ⟨t, hExec, -, -, hCause, -⟩ := hLastTile haltedWithOneTile 0 (by decide) (by decide) (by decide) (by decide) (by decide)
  obtain ⟨t', hExec', hCause'⟩ := crosscheckRetest_haltedWithOneTile
  rw [Host.Outcome.next.inj (hExec'.symm.trans hExec)] at hCause'
  exact absurd (hCause'.symm.trans hCause) (by decide)

end Sys2Proof.Machine
end
